-- ==== Sys2Proof/Word.lean ====
section
/-! DEFINITION. The word types of the part and the numbering of its resources (Table 0.3). -/

namespace Sys2Proof

/-- A 32-bit register (R365). -/
abbrev Word := BitVec 32
/-- A 128-bit word of a packet (R340). -/
abbrev Quad := BitVec 128
/-- A byte of an image, a certificate or a payload. -/
abbrev Byte := BitVec 8

/-- RF inputs IN0 to IN3. -/
abbrev Inp := Fin 4
/-- Channel slices 0 to 95. -/
abbrev Slc := Fin 96
/-- Beds 0 to 11. -/
abbrev BedId := Fin 12
/-- Decoders 0 to 23. -/
abbrev DecId := Fin 24
/-- Followed-service slots 0 to 31. -/
abbrev SvcId := Fin 32
/-- Candidate entries 0 to 11 of a slot. -/
abbrev CandId := Fin 12
/-- Stream IDs 0 to 511. -/
abbrev StrmId := Fin 512
/-- Bundles 0 to 63. -/
abbrev BundId := Fin 64
/-- Stream queues Q7 to Q15, as q − 7. -/
abbrev SQueue := Fin 9
/-- Tenants T1 to T4, as n − 1. -/
abbrev TenId := Fin 4
/-- Capture channels 0 to 3. -/
abbrev SnapCh := Fin 4
/-- Audio outputs 0 to 3. -/
abbrev OutId := Fin 4
/-- Legal measurement points 0 to 15. -/
abbrev PtId := Fin 16
/-- Control queues Q0 to Q2. -/
abbrev CQueue := Fin 3
/-- Key slots that may have a session with one endpoint: 0 Site, 1 to 4 tenants, 5 Vendor at the part; 1 to 4 tenants and 5 to 7 Verifier slots 1 to 3 at the cloche (R464). -/
abbrev KeySlot := Fin 8
/-- Ring ports: 0 A, 1 B. -/
abbrev Port := Fin 2

end Sys2Proof
end

