-- ==== Sys2Proof/Syntax.lean ====
section
/-! DEFINITION. The commands of the part: one constructor for each row of the command table, with its operands. What the environment presents (measured levels, received words, verified facts) is an operand (log 4). -/

namespace Sys2Proof

/-- The roles of Table 17.1. -/
inductive Role where
  | anyone | site | tenant (n : TenId) | verifier (k : Fin 3) | vendor
deriving DecidableEq, Repr

/-- The session words of a command: session ID, counter, and whether its tag verifies under the session's key (R466, log 5). -/
structure Auth where
  sid : BitVec 16
  ctr : Nat
  tagOk : Bool
deriving DecidableEq, Repr

/-- C0 of a command packet, and what the check of its session words needs (Table 12.5, R466, R467). -/
structure CmdHead where
  op : Nat
  len : Nat
  tag : Nat
  tenant : Nat
  argZero : Bool
  auth : Option Auth
deriving DecidableEq, Repr

/-- Where a register write comes from: the command at the front of a queue, or the direct window of the two-wire bus (R385, R386). -/
inductive Src where
  | cmd (q : CQueue)
  | window
deriving DecidableEq, Repr

/-- The standards of a candidate (Table 6.8). -/
inductive Std where
  | fm | am | dab | drm | drmPlus
deriving DecidableEq, Repr

/-- What one sieve frame of an input brings: its peak in 0.01 dBFS, the 14-bit samples of its converter (128 at full rate, 64 at half), saturations of sieve outputs before the stream scaling, fill of the converter FIFO in frames, whether it was full (R39, R45, R68, Table 16.1). -/
structure FrameMeas where
  peak : Int
  samples : List (BitVec 14)
  sieveSat : Nat
  fifo : Nat
  fifoFull : Bool
deriving DecidableEq, Repr

/-- What one sieve epoch of an input measures: RMS and peak in 0.01 dBFS, and the gain-tracking comparison of R266. -/
structure EpochMeas where
  rms : Int
  peak : Int
  image : Nat
  spur : Nat
  stepRes : Nat
deriving DecidableEq, Repr

/-- What the clock meters measure over a sieve epoch (R409, Table 15.9): the frequency of each port clock against the root and of the root against its reference, in 0.01 ppm. -/
structure ClkMeas where
  a : Int
  b : Int
  ref : Int
deriving DecidableEq, Repr

/-- The eye margins of a port at a telemetry period: horizontal and vertical of lanes 0 and 1 (Table 12.12). -/
structure EyeMeas where
  h0 : Nat
  v0 : Nat
  h1 : Nat
  v1 : Nat
deriving DecidableEq, Repr

/-- What the multiplex of an FM slice carries at one audio instant: the deviation due to L + R and that due to L − R, in mHz (R99, R108). -/
structure FmSample where
  sum : Int
  diff : Int
deriving DecidableEq, Repr

/-- What the channel of an AM slice carries at one audio instant, in parts per million of the carrier's mean amplitude: its magnitude; its in-phase and quadrature components against the carrier loop, with their Hilbert transforms; cosine and sine of the AMSS phase modulation as reconstructed (R102 to R104). -/
structure AmSample where
  mag : Int
  i : Int
  q : Int
  hi : Int
  hq : Int
  c : Int
  s : Int
deriving DecidableEq, Repr

/-- What one block of a slice measures (R66, R72, R73, R105, R106, R112): level in −0.05 dBFS_c units, CNR in 0.25 dB units, multipath, peak deviation in 50 Hz units, pilot deviation in 10 Hz units, carrier offset in mHz, modulation depth in per cent; and for its demodulator the 96 audio instants of the block. -/
structure BlockMeas where
  slice : Slc
  level : Nat
  cnr : Int
  mp : Nat
  devPeak : Nat
  pilotDev : Nat
  offset : Int
  depth : Nat
  fm : List FmSample
  am : List AmSample
deriving DecidableEq, Repr

/-- The offsets of an RDS block (IEC 62106, R114, R115, R118). -/
inductive RdsOffset where
  | a | b | c | cPrime | d | e
deriving DecidableEq, Repr

/-- A received RDS block of 26 bits: the offset whose syndrome it meets as received, if any; the offset it would have after correction; bits and burst of that correction; whether it ended exactly 26 bits after the block before. -/
structure RdsBlk where
  valid : Option RdsOffset
  corrected : Option RdsOffset
  bits : Nat
  burst : Nat
  spaced : Bool
deriving DecidableEq, Repr

/-- A block of a group: its 16 information bits as received and as corrected, the bits that correction needs (more than 5 where there is none), and whether it carries offset E (R115, R118, Table 4.4). -/
structure GrpBlk where
  raw : BitVec 16
  info : BitVec 16
  need : Nat
  offE : Bool
deriving DecidableEq, Repr

/-- An alternative frequency: standard and kHz. -/
abbrev Freq := Std × Nat

/-- A service as FAC names it: audio or data, scrambled, stream, identifier (Table 5.21). -/
structure DrmService where
  slot : Fin 4
  audio : Bool
  ca : Bool
  stream : Nat
  sid : Nat
deriving DecidableEq, Repr

/-- What a DRM slice finds and measures in a transmission frame, whether or not its FAC passes (R161, Table 5.21): symbol timing, frequency and frame locked; MER of the MSC and FAC cells in 0.1 dB, offset in mHz, Doppler spread in 0.01 Hz, delay window in µs. -/
structure DrmMeas where
  timing : Bool
  freq : Bool
  frame : Bool
  mer : Nat
  merFac : Nat
  offset : Int
  doppler : Nat
  delay : Nat
deriving DecidableEq, Repr

/-- A FAC block that passed its CRC: index of the superframe's reconfiguration, parameters of Table 5.21, services, its bits for the record of Table 5.4. -/
structure Fac where
  robMode : Nat
  occ : Nat
  interleave : Bool
  mscQam : Nat
  sdcQam : Nat
  reconf : Nat
  services : List DrmService
  bits : Quad
deriving DecidableEq, Repr

/-- A stream as SDC defines it (Table 5.21). -/
structure DrmStream where
  slot : Fin 4
  coding : Nat
  bitrate : Nat
deriving DecidableEq, Repr

/-- An SDC that passed its CRC: streams (entity 9) of the configuration in force and of the next, content bytes, AFS index, the alternative frequencies of its entities 3 and 4, and by short identifier the labels, applications, and languages and countries of its entities 1, 5 and 12. -/
structure Sdc where
  streams : List DrmStream
  next : List DrmStream
  bytes : List Byte
  afsIndex : Nat
  afs : List Freq
  labels : List (Nat × List Byte)
  apps : List (Nat × List Byte)
  langs : List (Nat × List Byte)
deriving DecidableEq, Repr

/-- A subchannel of FIG 0/1 (Table 5.16). -/
structure SubchDef where
  id : Fin 64
  eep : Bool
  start : Nat
  size : Nat
  prot : Nat
deriving DecidableEq, Repr

/-- A component of a service of FIG 0/2: the SubChId it names, or for packet mode its SCId; type, transport mechanism (Table 5.17). -/
structure SvcPart where
  subch : Fin 64
  scid : Nat
  type : Nat
  tmid : Nat
deriving DecidableEq, Repr

/-- A service of FIG 0/2: whether its primary component is scrambled, that component, how many it has, and the others (Table 5.17). -/
structure SvcDef where
  sid : Nat
  ca : Bool
  primary : SvcPart
  comps : Nat
  parts : List SvcPart
deriving DecidableEq, Repr

/-- A packet-mode component of FIG 0/3: SCId, data service component type, SubChId, packet address, data groups used. -/
structure PacketComp where
  scid : Nat
  dscty : Nat
  subch : Nat
  addr : Nat
  groups : Bool
deriving DecidableEq, Repr

/-- A component of FIG 0/8: SId, SCIdS, and the SubChId (short) or SCId (long) it lies in. -/
structure SvcComp where
  sid : Nat
  scids : Nat
  long : Bool
  id : Nat
deriving DecidableEq, Repr

/-- A linkage of FIG 0/6: the SId, active or not, hard or soft, and the RDS PI or DRM identifiers it links to. -/
structure Link where
  sid : Nat
  active : Bool
  hard : Bool
  pis : List Nat
  drms : List Nat
deriving DecidableEq, Repr

/-- An entry of FIG 0/21: identifier, its kind (1 RDS PI, 2 EId, 3 DRM service identifier) and frequencies (R143, Table 6.1). -/
structure FreqInfo where
  id : Nat
  kind : Nat
  freqs : List Freq
deriving DecidableEq, Repr

/-- An entry of FIG 0/24: a service in other ensembles, by EId. -/
structure OtherEns where
  sid : Nat
  eids : List Nat
deriving DecidableEq, Repr

/-- A FIG of a FIB that passed its CRC, as EN 300 401 defines it (R132, R142 to R144): FIG 0/0, 0/1, 0/2, 0/3, 0/5, 0/6, 0/8, 0/9, 0/13, 0/17, 0/21, 0/24, 1/0, 1/1, 1/4, 1/5; every other is passed in FIB records, as is 0/10 (R143). -/
inductive Fig where
  | ensemble (eid : Nat) (cif : Nat) (change : Option Nat)
  | subch (next : Bool) (s : SubchDef)
  | service (next : Bool) (s : SvcDef)
  | packet (c : PacketComp)
  | lang (id lang : Nat)
  | comp (c : SvcComp)
  | app (sid scids : Nat) (types : List Nat)
  | pty (sid code : Nat)
  | ecc (ecc : Nat)
  | link (l : Link)
  | freq (f : FreqInfo)
  | other (o : OtherEns)
  | ensLabel (chars : List Byte) (charset : Nat)
  | svcLabel (sid : Nat) (chars : List Byte)
  | passed
deriving DecidableEq, Repr

/-- A received FIB: index 0 to 11, CIF count, CRC, ticks since its first bit, its 32 bytes and its FIGs. -/
structure Fib where
  index : Nat
  cif : Nat
  crcOk : Bool
  ago : Nat
  w0 : Quad
  w1 : Quad
  figs : List Fig
deriving DecidableEq, Repr

/-- What a bed measures per transmission frame (R161, Table 5.14): MER in 0.1 dB, FIC BER in 10⁻⁶, offset in mHz, level, ticks since the null symbol began. -/
structure BedFrame where
  mer : Nat
  ficBer : Nat
  offset : Int
  level : Nat
  nullAgo : Nat
deriving DecidableEq, Repr

/-- A unit of compressed passthrough (R157): SubChId, unit type of Table 7.2, bytes, ERR, the CIF count and the ticks since the instant of R155. -/
structure Unit_ where
  subch : Nat
  type : Nat
  bytes : List Byte
  err : Bool
  cif : Nat
  ago : Nat
deriving DecidableEq, Repr

/-- A DRM text message, complete: its stream, toggle and characters (Table 5.4). -/
structure TextMsg where
  stream : Nat
  toggle : Bool
  bytes : List Byte
deriving DecidableEq, Repr

/-- Programme-associated data of a subchannel, complete: an X-PAD data group that passed its CRC with its application type, or a DLS message with its character set; ticks since its first bit (Table 5.4). -/
structure PadData where
  subch : Fin 64
  dls : Bool
  kind : Nat
  toggle : Bool
  bytes : List Byte
  ago : Nat
deriving DecidableEq, Repr

/-- What the subchannels of a CIF give (R145, R146, R157): its COMPRESSED units and the complete PAD. -/
structure CifContent where
  units : List Unit_
  pads : List PadData
deriving DecidableEq, Repr

/-- A decoded or failed audio frame (R154, R156, Table 5.19): erroneous or not, its length in ms, what it shows, its stereo samples of 24 bits at 48 kHz (mono on the first channel), and the ticks since its aerial instant of R155. -/
structure AudioFrame where
  bad : Bool
  ms : Nat
  codec : Nat
  srate : Nat
  chmode : Nat
  sbr : Bool
  bitrate : Nat
  rsCorr : Nat
  rsFail : Nat
  pcm : List (Int × Int)
  ago : Nat
deriving DecidableEq, Repr

/-- What the searches and meters of one candidate give at a following tick (R175, R194 to R196, R203): decoding delay in samples, coarse peak, fine peak, usable windows, loudness difference in 0.1 dB, the content envelope of the last tenth of a second, newest first (for the active that of the output). -/
structure CandMeas where
  slot : SvcId
  cand : CandId
  d : Nat
  coarseCorr : Nat
  coarseOfs : Int
  fineCorr : Nat
  fineOfs : Int
  usable : Bool
  loud : Int
  env : List Nat
deriving DecidableEq, Repr

/-- A position of a bin that a visit of the survey measures (R211): standard, kHz, level in −0.05 dBFS_c units, and the PI decoded there or 0. -/
structure SurveyPos where
  std : Std
  khz : Nat
  level : Nat
  pi : Nat
deriving DecidableEq, Repr

/-- What a visit of the survey gives (R211): the noise floor of its bin in −0.05 dBFS_c units, and its positions. -/
structure SurveyMeas where
  floor : Nat
  heard : List SurveyPos
deriving DecidableEq, Repr

/-- What the cloche's own detector finds on the tap of a point in one millisecond: power in the detector bandwidth in 0.01 dBFS_c, MER in 0.01 dB, whether a carrier is there (Table 11.1, R306). -/
structure TapMs where
  level : Int
  mer : Int
  carrier : Bool
deriving DecidableEq, Repr

/-- What the cloche takes from the tap of a point over a slice block (R299, Table 11.1): its milliseconds, the carrier's offset from the nominal frequency in mHz, the FM deviations of the block's samples in Hz, the power of the MPX in 0.01 dBr, the greatest envelope excursion in 0.01 %, the SNR in 0.01 dB. A tap word that the cloche has not taken in time is not listed. -/
structure TapMeas where
  point : PtId
  ms : List TapMs
  offset : Int
  devs : List Nat
  mpx : Int
  excursion : Nat
  snr : Int
deriving DecidableEq, Repr

/-- What a slice block that ends gives (R61, R304): the measures of its slices, and what the cloche took from its taps. -/
structure BoundaryMeas where
  blocks : List BlockMeas
  taps : List TapMeas
deriving DecidableEq, Repr

/-- An outgoing queue (Table 12.4): the answers Q4, the events Q5, the cloche's Q6, a stream queue. -/
inductive OutQueue where
  | q4 | q5 | q6
  | strm (q : SQueue)
deriving DecidableEq, Repr

/-- A ring frame (Table 12.3): header fields, whether its CRC holds, payload words. -/
structure RFrame where
  crcOk : Bool
  dst : Nat
  src : Nat
  queue : Nat
  tc : Nat
  dual : Bool
  hseq : Nat
  len : Nat
  firstHdr : Nat
  crTc : Nat
  crCnt : Nat
  cq : Nat
  chops : Nat
  ttl : Nat
  payload : List Quad
deriving DecidableEq, Repr

/-- The sealed values that SX_WRITE sets (R307 to R309, R319, R462, R500, Tables 11.13 and 11.14). -/
inductive SxVal where
  | refin (cert tol : Word)
  | timeSource (w : Word)
  | detector (d : Fin 16) (w0 w1 w2 w3 : Word)
  | distribution (i : Inp) (w0 w1 w2 : Word)
  | gNom (i : Inp) (p : Fin 16) (khz db : Word)
  | antenna (i : Inp) (p : Fin 64) (khz db : Word)
  | verifierKey (slot : Fin 3) (cert : List Byte)
  | inject (inj cnt : Word)
deriving DecidableEq, Repr

/-- A correlation report of the sounding receiver at the end of a packet (R294, Table 10.4): payload bytes, their received CRC-32, link quality, EVM, RSSI in 0.01 dBm, ticks since its first chip arrived, carrier offset. -/
structure RxMeas where
  payload : List Byte
  crc : Nat
  lq : Nat
  evm : Nat
  rssi : Int
  ago : Nat
  cfo : Int
deriving DecidableEq, Repr

/-- What calibration finds for the section of an input (R261, Table 9.3): whether a skew tap moved in the last two iterations; the fit error in 0.1 fs; the last changes of offsets in 1/16,000 code and of thresholds in 0.0001 dB; the disagreement of the joined ranges in 0.0001 dB; the trials of 16 with the same arrival sample; the words of Table 9.4 by index. -/
structure SectionResult where
  moved : Bool
  fit : Nat
  offset : Nat
  threshold : Nat
  join : Nat
  align : Nat
  words : List (Nat × Word)
deriving DecidableEq, Repr

/-- The errors that calibration finds for PROBE (R261, Table 9.3): of the level in 0.0001 dB, of the ramp in 0.01 %. -/
structure ProbeResult where
  level : Nat
  ramp : Nat
deriving DecidableEq, Repr

/-- A bin of the mask monitor over two consecutive windows (R274, R275): its distance from the centre in Hz, and its level in each in 0.01 dBc. -/
structure MaskBin where
  offset : Nat
  first : Int
  second : Int
deriving DecidableEq, Repr

/-- What a searcher finds of a preamble (R290 to R293): its power, and the distance of its centre from RX_FREQ in Hz. -/
structure Preamble where
  power : Int
  cfo : Int
deriving DecidableEq, Repr

/-- How a PMBus transaction ended after its retries: a value, no acknowledge, or a failed PEC (R436). -/
inductive PmbTx where
  | ok (v : Nat)
  | nack
  | pec
deriving DecidableEq, Repr

/-- What a poll of a PMBus slot reads (R435, R436): STATUS_WORD; whether its detail registers show a warning bit or a fault bit, as PMBus defines those; and for slot 0 READ_VOUT in mV and READ_IOUT in 10 mA. -/
structure PmbRead where
  status : PmbTx
  warn : Bool
  fault : Bool
  vout : PmbTx
  iout : PmbTx
deriving DecidableEq, Repr

/-- A word that a memory scrubber reads (R27, R490): which memory, its address, and how it fared: clean, corrected, uncorrectable in one copy, uncorrectable in both. -/
structure ScrubWord where
  mem : Nat
  addr : Nat
  bad : Nat
deriving DecidableEq, Repr

/-- What a packet period brings from outside the state: for an I/Q kind the samples of the period, I and Q in units of 2⁻²⁹ of the magnitude at 0 dBFS_c; for a snapshot the converter words that fail their ECC; for a DRM stream the unit (log 4). -/
structure PktMeas where
  iq : List (Int × Int)
  bad : List Nat
  unit_ : Option Unit_
deriving DecidableEq, Repr

/-- The commands: one constructor per row of the command table. An operand of type Unit holds nothing, and the bins of MASK_VIOLATION may be left out: both keep the operand counts that the host's reading of exec's arms was written against. -/
inductive Instr where
  -- reset and boot (20)
  | resetAssert
  | resetRelease (strap : BitVec 6)
  | bootComplete (modes : Vector (Option (BitVec 8)) 4)
  -- register commands (12, 13, 19)
  | commandArrival (q : CQueue) (h : CmdHead)
  | regRead (q : CQueue) (addr count : Nat)
  | regWrite (q : CQueue) (addr count : Nat) (words : List Word) (commit : Bool)
  | regModify (q : CQueue) (addr : Nat) (mask value : Word) (commit : Bool)
  | plainRegisterWrite (src : Src) (addr : Nat) (w : Word)
  | commit (src : Src) (page : Nat)
  | sreset (src : Src) (page : Nat)
  | evtPendClear (src : Src) (page : Nat) (w : Word)
  | eventPacketSend (owner : Nat) (room : Bool)
  | injectArm (src : Src) (page mode det count : Nat)
  -- boundaries (03, 05, 06, 08)
  | sieveFrameBoundary (m : Vector FrameMeas 4)
  | sieveEpochBoundary (m : Vector EpochMeas 4) (slack : List Nat) (clk : ClkMeas)
  | sliceBlockBoundary (m : BoundaryMeas)
  | bedCommitBoundary
  | followingTick (ms : List CandMeas)
  | portFrame
  -- inputs, sieve, slices, snapshot (02, 03, 06)
  | gainArrival (i : Inp)
  | acquisitionEnd (i : Inp)
  | convStartDone (i : Inp)
  | rateChangeDone (i : Inp)
  | coefSwap (i : Inp)
  | sliceSettleEnd (i : Slc)
  | surveyVisit (i : Slc) (m : SurveyMeas)
  | snapArm (src : Src) (c : SnapCh)
  | snapTrigger (c : SnapCh)
  | snapCaptureDone (c : SnapCh)
  | snapRead (src : Src) (c : SnapCh)
  | snapReadoutDone (c : SnapCh) (bad : List Nat)
  | snapDiscard (src : Src) (c : SnapCh)
  -- analogue reception (04)
  | amCarrierLock (i : Slc)
  | amCarrierDrop (i : Slc)
  | pilotLock (i : Slc)
  | pilotLost (i : Slc)
  | rdsBlock (i : Slc) (b : RdsBlk) (ago : Nat)
  | rdsGroup (i : Slc) (a b c d : BitVec 16) (cPrime : Bool) (offE : Vector Bool 4) (need : Vector Nat 4) (info : Vector (BitVec 16) 4) (ago : Nat)
  | amssBlock (i : Slc) (block : Nat) (ok spaced : Bool) (ago : Nat) (data : Nat) (sid : Option Nat) (afs : List Freq)
  | demodGapRestart (i : Slc)
  -- digital ensembles (05)
  | drmFac (i : Slc) (f : Option Fac) (m : DrmMeas) (texts : List TextMsg) (ago : Nat)
  | drmSdc (i : Slc) (ok : Bool) (m : Sdc) (ago : Nat)
  | drmReconfigApply (i : Slc)
  | drmSyncLost (i : Slc) (gap : Bool)
  | bedNullSync (k : BedId) (nullAgo : Nat)
  | bedFib (k : BedId) (f : Fib)
  | bedMciComplete (k : BedId)
  | bedCif (k : BedId) (cif : Nat) (frame : Option BedFrame) (soft : List (BitVec 4)) (m : CifContent)
  | bedReconfig (k : BedId)
  | bedSyncLoss (k : BedId)
  | bedHoldEntry (k : BedId)
  | bedHoldResume (k : BedId)
  | bedHoldTimeout (k : BedId) (seen : Bool)
  | decEnable (src : Src) (d : DecId)
  | decDisable (src : Src) (d : DecId)
  | decSourceReady (d : DecId)
  | decFrame (d : DecId) (f : AudioFrame)
  | decConcealTimeout (d : DecId) (seen : Bool)
  -- service following (06)
  | svcEnable (src : Src) (v : SvcId)
  | svcDisable (src : Src) (v : SvcId)
  | candWrite (src : Src) (v : SvcId) (n : CandId) (w : Word)
  | candGiveUp (v : SvcId) (n : CandId) (seen : Bool)
  | loudnessValid (v : SvcId) (n : CandId)
  | standbyFilled (v : SvcId)
  | switchSplice (v : SvcId)
  | blendEnd (v : SvcId)
  | mulchConcealExpiry (v : SvcId) (seen : Bool)
  | candFailRetry (v : SvcId) (n : CandId)
  | trialDecoderMove (v : SvcId)
  | learnedIdDrop (v : SvcId)
  -- streams (07)
  | streamCommit (src : Src)
  | bundleCommit (src : Src)
  | queueReset (src : Src) (q : SQueue)
  | packetPeriod (i : StrmId) (m : PktMeas)
  | bundleRelease (b : BundId)
  | bundleDeadline (b : BundId) (seen : Bool)
  | streamKeySwitch (n : TenId)
  | oldStreamKeyExpiry (n : TenId)
  -- audio port (08)
  | audMuteRampEnd
  | audNewClockEdge (gap : Nat)
  | audClockQualified
  | asrcLock (o : OutId) (ratio : Nat)
  | audClockStop (seen : Bool)
  | audFrameGlitch
  | audRateWrong
  | audUnderrun (o : OutId)
  -- calibration (09)
  | calRun (src : Src)
  | calStepComplete (probe : Bool)
  | calRunDone (inputs : Vector SectionResult 4) (probe : ProbeResult) (words : List (Nat × Word))
  | calLoad (src : Src)
  | calAbort (src : Src)
  | calWinAccess (src : Src) (w : Option Word)
  | refCheck (q : CQueue) (mask : Nat)
  | refCheckDone (tones : Vector Int 4)
  -- sounding link (10)
  | txRequest (src : Src)
  | txDeferClear
  | txDeferTimeout (seen : Bool)
  | txReturnWrite (src : Src) (ret : Nat)
  | txRampUpStart (gnt : Bool)
  | grantHeld
  | grantWaitExpiry (seen : Bool)
  | rampUpEnd
  | txLastChip
  | grantDrop (seen : Bool)
  | maskViolation (bins : List MaskBin := [])
  | rampDownEnd (u : Unit)
  | maskClear (src : Src)
  | firTapAccess (src : Src) (w : Option Word)
  | profileCommit (src : Src)
  | sndDesignate (src : Src)
  | preambleDetect (searcher : Fin 4) (m : Preamble)
  | rxHeader (hdr crc : Nat)
  | rxPacketEnd (m : RxMeas)
  | rxInterrupted
  -- cloche (11)
  | ptSet (p : PtId) (srcKind src det std khz : Nat)
  | ptDelete (p : PtId) (u : Unit)
  | recRead (first count : Nat)
  | recReceipt (seq : Nat) (digest : BitVec 256)
  | getCert
  | sealBreak
  | sealRestore (tamperN seen : Bool)
  | sxWrite (v : SxVal)
  | reverify (mask : Nat)
  | markSet (slot : Nat) (mark : Word)
  | fwInstall (image : List Byte)
  | intervalBoundary (p : PtId) (u : Unit)
  | clocheCheckpoint (u : Unit)
  | clocheSelftest (test : Fin 3) (fail : Bool)
  | tamper
  | clochePowerRestore (secs : Nat)
  -- ring (12)
  | portEnable (p : Port)
  | bitLock (p : Port)
  | blockLock (p : Port)
  | ts1 (p : Port) (lane : Fin 2) (peerB : Bool) (peerLane : Fin 2) (serial : BitVec 64) (inverted : Bool)
  | ts2 (p : Port)
  | delayReq (p : Port) (sendAt recvAt respAt : Nat)
  | delayResp (p : Port) (t1 t2 t3 t4 : Nat)
  | trainingTimeout (p : Port)
  | retrainTimer (p : Port)
  | healCleanMet (p : Port)
  | heal (p : Port)
  | healAck (p : Port)
  | linkDown (p : Port)
  | leave (p : Port)
  | blockLockLoss (p : Port)
  | align (p : Port) (lane : Fin 2) (crcOk : Bool)
  | skip (p : Port) (lane : Fin 2)
  | frameReceive (p : Port) (f : RFrame)
  | frameSendTimer (q : OutQueue)
  | discover (p : Port) (count : Nat) (renumber : Bool)
  | ringSize (p : Port) (n : Nat)
  | assign (p : Port) (serial : BitVec 64) (pos : Nat)
  | timeWord (p : Port) (hops corr tseq : Nat) (traceable : Bool) (devtimeTx epoch arrival residence : Nat)
  | devtimeStep
  -- clocks (15)
  | clockQualify (p : Port) (freq : Int)
  | portDisqual (p : Port) (edges : Bool)
  | vcoSettle
  | rootLock (fl : Int)
  | acquisitionTimeout
  | lockLost
  | refSwitch
  | holdoverReentry (freq : Int)
  | holdMaxExpiry
  -- power (16)
  | rungTargetWrite (src : Src) (w : Word)
  | rungStepDone
  | seqRestoreRaise
  | setpointConfirm (vout : Nat)
  | vsettleExpiry (seen : Bool)
  | hrcfgWrite (src : Src) (w : Word)
  | pmbPoll (reads : List (Fin 4 × PmbRead))
  | pmbAlert (reads : List (Fin 4 × PmbRead))
  | pmbAddrWrite (src : Src) (slot : Fin 4) (w : Word) (mode : Option (BitVec 8))
  -- two-wire bus (14)
  | twbAddressMatch (addr : Nat) (read : Bool)
  | twbWriteTransfer (bytes : List Byte) (stop : Bool)
  | twbReadTransfer (count : Nat) (stop : Bool)
  | twbStartAbandon
  | sclLowTimeout (seen : Bool)
  | sdaReleaseTimeout (seen : Bool)
  | nineClockRecovery
  | mboxInWord (src : Src) (w : Word) (tagOk : Bool)
  | mboxOutRead (src : Src)
  | claimWindowClose (seen : Bool)
  -- roles and keys (17)
  | serviceWindowClose (seen : Bool)
  | sessOpen (q : CQueue) (code : Nat) (key : BitVec 512) (nonce : Quad)
  | sessConfirm (q : CQueue) (id : BitVec 16) (sig : BitVec 512)
  | sessPendingExpiry (cloche : Bool) (k : KeySlot) (seen : Bool)
  | sessClose (q : CQueue)
  | claim (q : CQueue) (key : BitVec 512)
  | devCert (q : CQueue)
  | tenantEnroll (n : Nat) (key : BitVec 512)
  | tenantProve (n : Nat) (sig : BitVec 512)
  | enrollTimeout (n : TenId) (seen : Bool)
  | tenantRevoke (n : Nat)
  | siteRelease
  | vendorProfile (words : List Word)
  | vendorErase
  | debugUnlock
  | secRowCommit (src : Src)
  -- Loam store and firmware bank (18)
  | profSave (n : Nat)
  | profLoad (n : Nat)
  | profErase (n : Nat)
  | rakeSegment
  | fwOpen (slot : Nat)
  | fwWrite (off : Nat) (data : List Quad)
  | fwCheck (slot : Nat)
  | fwSwitch (arg : Nat)
  | fwSwitchRestart
  | mramScrub (region addr : Nat) (bad : Nat)
  -- faults, telemetry, balls (19, 21)
  | sramScrub (w : ScrubWord)
  | stallWatchdog (page : Nat) (unit : Nat) (stalled : Bool)
  | logTailCopy
  | fltLogAck (src : Src) (seq : Nat)
  | telemetryPeriod (eyes : Vector EyeMeas 2)
  | sensorRead (t : Vector Int 6)
  | railWarn (rail : Fin 6) (mv : Nat) (low high : Bool)
  | ballFunc (arg : Nat)
  | portDisable (src : Src) (p : Port)
  | dacFifoUnderflow
  | ppsEdge (high : Bool)
deriving DecidableEq, Repr

end Sys2Proof
end

