-- ==== Sys2Proof/Config.lean ====
section
/-! DEFINITION. What the manual leaves to no rule of its own: the cryptographic functions, taken as uninterpreted (log 5), and the free values (log 9). None has a body, so nothing can be proved of a value of one. -/

namespace Sys2Proof.Config

/-- SHA-256 of a string of bytes. -/
opaque sha256 : List Byte → BitVec 256

/-- Whether an ECDSA P-256 signature verifies: public key, message hash, signature (R463). -/
opaque ecdsaVerify : BitVec 512 → BitVec 256 → BitVec 512 → Bool

/-- The signature of a hash by the device identity key. -/
opaque deviceSign : BitVec 256 → BitVec 512

/-- The signature of a hash by the cloche signing key. -/
opaque clocheSign : BitVec 256 → BitVec 512

/-- The public key of a private key. -/
opaque publicKey : BitVec 256 → BitVec 512

/-- The X coordinate that ECDH P-256 shares: private key, public key (R465). -/
opaque ecdh : BitVec 256 → BitVec 512 → BitVec 256

/-- The 104 bytes of HKDF-SHA-256: input key material, salt, info (R465). -/
opaque hkdf : BitVec 256 → List Byte → List Byte → BitVec 832

/-- What AES-256-GCM makes of a body: session keys and the part's counter, additional data, body; the ciphertext words and the tag word (R466). -/
opaque gcmSeal : BitVec 832 → Nat → List Quad → List Quad → List Quad

/-- The same for a stream packet: stream key, STREAM_ID, SEQ, DEVTIME, H0 with PATH 0, payload (R232, R469). -/
opaque streamSeal : BitVec 256 → Nat → Nat → Nat → Quad → List Quad → List Quad

/-- The device certificate chain (DEV_CERT). -/
opaque deviceChain : List Byte

/-- The cloche certificate chain (GET_CERT). -/
opaque clocheChain : List Byte

/-- The public key of a certificate that chains to the metrology root, or none where it does not chain (R462). -/
opaque verifierCert : List Byte → Option (BitVec 512)

/-- Whether a signature of a firmware image verifies under the Gleizmeide firmware key of a hash: key hash, hash signed, signature (R471). -/
opaque firmwareSig : BitVec 256 → BitVec 256 → BitVec 512 → Bool

/-- The code of a kind of sealed parameter in audit entries and PARAM_CHANGED, which the manual does not list (log 9). -/
opaque paramKind : Nat → BitVec 8

/-- The index byte of a point of a table of sealed parameters, by kind, input and point (log 9). -/
opaque tableIndex : Nat → Nat → Nat → BitVec 8

/-- Stereo samples that the part makes up for audio it lacks, from the audio before and after the gap where there is any: how many (R14, R126, R501, log 72). -/
opaque concealed : List (Int × Int) → List (Int × Int) → Nat → List (Int × Int)

/-- The 50 Hz high-pass and the low-pass at the passband edge that AM audio passes, whose responses the manual does not give: the edge in Hz, the filters' memory, the samples in; their memory after, and the samples out (log 72). -/
opaque amBand : Nat → List Int → List Int → List Int × List Int

/-- The part's resampler for an audio output, whose response the manual does not give: the ratio it tracks, the source's samples, where the output sample lies among them in ticks; the output sample (log 72). -/
opaque resample : Nat → List (Int × Int) → Nat → Int × Int

/-- A free value of 512 bits, by its index: the random values of the part, and every value the manual leaves open (log 9). -/
opaque freeValue : Nat → BitVec 512

end Sys2Proof.Config
end

