-- ==== Sys2Proof/Machine/Bits.lean ====
section
/-! DEFINITION. Bit fields, sign, byte order and bounded arithmetic used by every page. -/

namespace Sys2Proof.Machine

/-- A 32-bit counter that saturates, as every "saturating" counter of the pages does. -/
def satAdd (w : Word) (n : Nat) : Word :=
  if w.toNat + n < 2 ^ 32 then BitVec.ofNat 32 (w.toNat + n) else BitVec.allOnes 32

/-- Bits hi to lo of a word, as a number. -/
def fieldOf (w : Word) (hi lo : Nat) : Nat := w.toNat / 2 ^ lo % 2 ^ (hi + 1 - lo)

/-- A word whose bits hi to lo hold v. -/
def place (hi lo v : Nat) : Word := BitVec.ofNat 32 (v % 2 ^ (hi + 1 - lo) * 2 ^ lo)

/-- The mask of bits hi to lo. -/
def maskOf (hi lo : Nat) : Word := place hi lo (2 ^ (hi + 1 - lo) - 1)

/-- A word with bits hi to lo replaced by v. -/
def withField (w : Word) (hi lo v : Nat) : Word := (w &&& ~~~ maskOf hi lo) ||| place hi lo v

/-- The bits of `new` where the mask is set, those of `old` elsewhere. -/
def merge (old new mask : Word) : Word := (old &&& ~~~ mask) ||| (new &&& mask)

/-- A Bool as a bit. -/
def bit (b : Bool) : Nat := if b then 1 else 0

/-- A signed number as two's complement of w bits. -/
def twos (w : Nat) (i : Int) : Nat := (i % (2 ^ w : Int)).toNat

/-- A field of w bits read as two's complement. -/
def signedOf (w v : Nat) : Int := if v < 2 ^ (w - 1) then (v : Int) else (v : Int) - 2 ^ w

/-- Bit i of a number. -/
def bitAt (n i : Nat) : Bool := n / 2 ^ i % 2 = 1

/-- One element of a table replaced by a function of itself. -/
def upd {α : Type} {n : Nat} (v : Vector α n) (i : Fin n) (f : α → α) : Vector α n := v.set i (f v[i])

/-- The smallest multiple of p at or after n. -/
def multAtOrAfter (p n : Nat) : Nat := (n + (p - 1)) / p * p

/-- The smallest multiple of p after n. -/
def multAfter (p n : Nat) : Nat := (n / p + 1) * p

/-- ceil(a / b), b positive. -/
def ceilDiv (a b : Int) : Int := -((-a).fdiv b)

/-- A number rounded to the nearest multiple, halves away from zero: round(a / b), b positive. -/
def roundDiv (a : Int) (b : Nat) : Int :=
  if 0 ≤ a then (a + (b : Int) / 2) / b else -((-a + (b : Int) / 2) / b)

/-- An integer held between two bounds. -/
def clampInt (x lo hi : Int) : Int := max lo (min x hi)

/-- A number as k bytes, most significant first. -/
def bytesBE : Nat → Nat → List Byte
  | 0, _ => []
  | k + 1, v => BitVec.ofNat 8 (v / 2 ^ (8 * k)) :: bytesBE k v

/-- Bytes, most significant first, as a number. -/
def natOfBE (l : List Byte) : Nat := l.foldl (fun n b => n * 256 + b.toNat) 0

/-- Four 32-bit words in one 128-bit word, the first in bits 127:96. -/
def quadOf (a b c d : Word) : Quad := (((a ++ b) ++ c) ++ d).cast (by decide)

/-- 32-bit words packed four to a 128-bit word, unused slots 0 (R340, R377). -/
def quadsOf : List Word → List Quad
  | a :: b :: c :: d :: l => quadOf a b c d :: quadsOf l
  | [] => []
  | [a] => [quadOf a 0 0 0]
  | [a, b] => [quadOf a b 0 0]
  | [a, b, c] => [quadOf a b c 0]

/-- The four 32-bit words of a 128-bit word, the first from bits 127:96. -/
def wordsOf (q : Quad) : List Word := [q.extractLsb' 96 32, q.extractLsb' 64 32, q.extractLsb' 32 32, q.extractLsb' 0 32]

/-- A value placed in bits hi to lo of a 128-bit word. -/
def quadPlace (hi lo v : Nat) : Quad := BitVec.ofNat 128 (v % 2 ^ (hi + 1 - lo) * 2 ^ lo)

/-- Fields (hi, lo, value) placed in one 128-bit word. -/
def quadPack (fs : List (Nat × Nat × Nat)) : Quad := fs.foldl (fun w f => w ||| quadPlace f.1 f.2.1 f.2.2) 0

/-- One step of a CRC of w bits, polynomial p, most significant bit first, over one bit of data. -/
def crcBit (w p : Nat) (c : Nat) (b : Bool) : Nat :=
  let top := bitAt c (w - 1)
  let c' := c * 2 % 2 ^ w
  if xor top b then c' ^^^ p else c'

/-- A CRC over bytes, most significant bit of each byte first. -/
def crcBytes (w p : Nat) (init : Nat) (l : List Byte) : Nat :=
  l.foldl (fun c b => (List.range 8).foldl (fun c i => crcBit w p c (b.getLsbD (7 - i))) c) init

/-- One step of the CRC-32 of IEEE 802.3 over one bit of data, least significant bit first. -/
def crc32Bit (c : Nat) (b : Bool) : Nat :=
  if xor (c % 2 = 1) b then c / 2 ^^^ 0xEDB88320 else c / 2

/-- The CRC-32 of Table 9.4: IEEE 802.3 polynomial, initial value 0xFFFF_FFFF, result inverted.
PRESUMED (log 12): bits enter in the order of IEEE 802.3, least significant bit of each byte first. -/
def crc32 (l : List Byte) : Nat :=
  l.foldl (fun c b => (List.range 8).foldl (fun c i => crc32Bit c (b.getLsbD i)) c) 0xFFFFFFFF ^^^ 0xFFFFFFFF

/-- The bytes of a 32-bit word, most significant first. -/
def wordBytes (w : Word) : List Byte := bytesBE 4 w.toNat

/-- The first element of a list that meets p replaced by a function of itself. -/
def updFirst {α : Type} (p : α → Bool) (f : α → α) : List α → List α
  | [] => []
  | a :: l => if p a then f a :: l else a :: updFirst p f l

/-- Whether two lists share no element. -/
def disjoint {α : Type} [DecidableEq α] (a b : List α) : Bool := a.all (fun x => !(b.contains x))

end Sys2Proof.Machine
end

