-- ==== Sys2Proof/Machine/State.lean ====
section
/-! DEFINITION. The state of the part as plain data: what the register tables do not show lives here, every register of the manual in `regs`; the queue of waiting commands; the outcomes a step can end in; the state after reset. -/

namespace Sys2Proof.Machine

/-- The ordering variants of R1, fused. -/
inductive Variant where
  | cs | c | s | n
deriving DecidableEq, Repr

/-- Whether the cloche is present (Table 0.1). -/
def Variant.cloche : Variant → Bool
  | .cs | .c => true
  | .s | .n => false

/-- Whether the sounding transmitter and receiver are present (Table 0.1). -/
def Variant.sounding : Variant → Bool
  | .cs | .s => true
  | .c | .n => false

/-- What the die holds in fuses: suffix, serial number, die revision and the hash of the Gleizmeide firmware key (R1, R380, Table 17.3). -/
structure Fuse where
  variant : Variant
  serial : BitVec 64
  dieMajor : BitVec 4
  dieMinor : BitVec 4
  fwKeyHash : BitVec 256
deriving DecidableEq, Repr

/-- How far the part has come up: in reset; in boot; both firmware slots failed (R471, R520); boot complete. -/
inductive Boot where
  | held | booting | bankOnly | complete
deriving DecidableEq, Repr

/-- The status codes of Table 13.5. -/
inductive Status where
  | ok | badArg | accessDenied | absentUnit | resourceBusy | notReady | sealed | timeout | staleSession | noSpace | txNotReady | rejectedLimit | abandoned
deriving DecidableEq, Repr

/-- The code of a status (Table 13.5). -/
def Status.code : Status → Nat
  | .ok => 0 | .badArg => 1 | .accessDenied => 2 | .absentUnit => 3 | .resourceBusy => 4 | .notReady => 5 | .sealed => 6
  | .timeout => 7 | .staleSession => 8 | .noSpace => 9 | .txNotReady => 10 | .rejectedLimit => 11 | .abandoned => 12

/-- A staged value of one role's staging copy (role code 0 on a page that is not shared): R370, R545. -/
structure Staged where
  role : Nat
  key : Nat
  word : Word
deriving DecidableEq, Repr

/-- A commit that has been answered and waits for its boundary: page, committing role, the grid times of its response and of the boundary, the captured staging copy (R370, R371). -/
structure Captured where
  page : Nat
  role : Nat
  at_ : Nat
  due : Nat
  words : List (Nat × Word)
deriving DecidableEq, Repr

/-- LAST_STATUS of a page for a role (R372, R545). -/
structure LastStatus where
  page : Nat
  role : Nat
  status : Status
deriving DecidableEq, Repr

/-- A command that waits in Q0 to Q2 (R341), and whether it came through the bus mailbox. -/
structure Waiting where
  head : CmdHead
  bus : Bool
deriving DecidableEq, Repr

/-- A TAG accepted on a queue and when, for the duplicate rule of R341. -/
structure TagSeen where
  tag : Nat
  at_ : Nat
deriving DecidableEq, Repr

/-- What a packet is sent under: the session's ID, the counter it took, the session's keys (R466). -/
structure Under where
  sid : BitVec 16
  ctr : Nat
  keys : BitVec 832
deriving DecidableEq, Repr

/-- An answer packet: A0 of Table 12.5, its data words, and what it is sent under (R466). -/
structure Answer where
  op : Nat
  tag : Nat
  status : Status
  tenant : Nat
  rseq : Word
  result : Word
  data : List Quad
  sess : Option Under
deriving DecidableEq, Repr

/-- An event word that waits for its E0 packet: the owner code it goes to, the page it is of, the word, the DEVTIME at which it was raised (R375, R376). -/
structure EvtWord where
  to_ : Nat
  page : Nat
  word : Word
  at_ : Nat
deriving DecidableEq, Repr

/-- An event packet on Q5 (E0 of Table 12.5). -/
structure EvtPacket where
  to_ : Nat
  words : List Word
  devtime : Nat
  sess : Option Under
deriving DecidableEq, Repr

/-- What leaves on Q6 (R314, R326): an answer of the cloche, or a record for an owner under its session. -/
inductive SmcOut where
  | answer (a : Answer)
  | record (owner seq : Nat) (bytes : List Byte) (sess : Under)
deriving DecidableEq, Repr

/-- The command queues Q0 to Q2 and what has gone into the outgoing Q4 to Q6 (R341, R376); `framed` how many packets of each of these have been placed in ring frames (R339). -/
structure Queues where
  cmd : Vector (List Waiting) 3
  seen : Vector (List TagSeen) 3
  dropAt : Option Nat
  q4 : List Answer
  q5 : List EvtPacket
  q6 : List SmcOut
  gather : List EvtWord
  lostPages : List Nat
  framed : Vector Nat 3
deriving DecidableEq, Repr

/-- A boundary of R61, R62 or R133, or a following tick of R172. -/
inductive Bound where
  | frame | epoch | block | bed | tick
deriving DecidableEq, Repr

/-- The time of the part. `mono` counts ticks of the root since reset; `devtime` is DEVTIME; `grid` is what DEVTIME would be had no step occurred since the boundary grid was placed (R61, R62); `gone` remembers the last boundary taken of each kind; `retained` is the DEVTIME held at entry to STANDBY until the counter resumes (R418); `afterSafe` that clockless safe unset it (R470); `step` a DEVTIME step decided and not yet applied (R352, R417); `steps` the DEVTIME steps of the last 90 s, newest first, each with the root time at which it took effect and what it took off. -/
structure Time where
  mono : Nat
  devtime : Nat
  set : Bool
  running : Bool
  retained : Option Nat
  afterSafe : Bool
  grid : Nat
  placed : Bool
  goneFrame : Option Nat
  goneEpoch : Option Nat
  goneBlock : Option Nat
  goneBed : Option Nat
  goneTick : Option Nat
  epochNo : Nat
  step : Option Int
  steps : List (Nat × Int)
deriving DecidableEq, Repr

/-- The conditions of Table 7.4 over a span of root time that runs from `from_` to the next span: which inputs yield samples, which are without them for want of a clock, which are at half rate, and whether the clock coasts. -/
structure CondSpan where
  from_ : Nat
  live : Vector Bool 4
  unlocked : Vector Bool 4
  half : Vector Bool 4
  holdover : Bool
deriving DecidableEq, Repr

/-- The condition flags that a sample, record or unit carries (Table 7.4). -/
structure Cond where
  unlocked : Bool
  holdover : Bool
  half : Bool
deriving DecidableEq, Repr

/-- A run of stereo samples of 24 bits at 48 kHz: the root time of the first at the aerial, the samples, whether concealment made them, the conditions of what they were made from (R98, R155, R220). -/
structure Clip where
  at_ : Nat
  frames : List (Int × Int)
  conceal : Bool
  cond : Cond
deriving DecidableEq, Repr

/-- CONV_STATE of an input (Tables 2.4, 2.13). -/
inductive Conv where
  | off | starting | run | stoppedUnlocked | stoppedClock | rateChange
deriving DecidableEq, Repr

/-- The code of CONV_STATE (Table 2.13). -/
def Conv.code : Conv → Nat
  | .off => 0 | .starting => 1 | .run => 2 | .stoppedUnlocked => 3 | .stoppedClock => 4 | .rateChange => 5

/-- A gain decision on its way to the converter: the number of frames until it arrives, and the code (R46). -/
structure Flight where
  left : Nat
  code : Nat
deriving DecidableEq, Repr

/-- One RF input. `half` is the rate the sequencer holds for it, `shownHalf` the rate at which it samples (INP_STATE.HALF_RATE); `convAt` the root time at which STARTING or RATE_CHANGE began (R54); `pendingGain` is the gain that the last decision will give (R45); `acqLeft` the epochs of acquisition left (R47); `attacked` whether an attack was decided in this epoch (R48); `words` and `comp` the converter words of the last frame and what the digital gain stage passes to the sieve (R39, R41); `ovrs` the runs of frames with an overrange in the last 5 s, newest first, by the root times at which the first and the last of each ended (R53, R66); `binUpTo` by bin the root time up to which the samples of its streams have been counted for saturation (R67). -/
structure Input where
  conv : Conv
  convAt : Nat
  half : Bool
  shownHalf : Bool
  gain : Nat
  pendingGain : Nat
  flight : List Flight
  step : Bool
  acqLeft : Nat
  hold : Nat
  rmsLow : Nat
  attacked : Bool
  words : List (BitVec 16)
  comp : List (BitVec 24)
  ovrs : List (Nat × Nat)
  binUpTo : List (Nat × Nat)
  ovrRun : Nat
  ovrEpoch : Bool
  ovrRaised : Bool
  limRaised : Bool
  overloaded : Bool
  measured : Bool
  onRefin : Bool
  rebuild : Option Nat
deriving DecidableEq, Repr

/-- USE of a slice (Table 3.3). -/
inductive Use where
  | idle | host | bed | watch | sounding
deriving DecidableEq, Repr

/-- The code of USE (Table 3.3). -/
def Use.code : Use → Nat
  | .idle => 0 | .host => 1 | .bed => 2 | .watch => 3 | .sounding => 4

/-- A claim or release that has been answered and waits for its slice-block boundary (R18, R79). -/
inductive SliceMove where
  | none | claimHost | claimBed | claimSound | release
deriving DecidableEq, Repr

/-- One channel slice, apart from its registers: its use, the move under way, whether the survey has it, EDGE and MIRROR, settle blocks left and one (R76), whether DOZE powered its state off (R541), the gap so far in ticks and whether a restart is due at its end (R126), the root times at which its last valid blocks began (R76), the root time up to which the I/Q samples of its streams have been counted for saturation and whether IQ_SATURATED was raised in this block (R73), the slots whose candidates share it as a watch slice. -/
structure SliceSt where
  use : Use
  move : SliceMove
  survey : Bool
  edge : Nat
  mirror : Bool
  settleLeft : Nat
  down : Bool
  gapTicks : Nat
  restartDue : Bool
  valid : List Nat
  iqUpTo : Nat
  satRaised : Bool
  watchSlots : List SvcId
deriving DecidableEq, Repr

/-- State of a capture channel (Table 3.4). -/
inductive SnapState where
  | idle | armed | capturing | held | reading
deriving DecidableEq, Repr

/-- The code of STATE (Table 3.22). -/
def SnapState.code : SnapState → Nat
  | .idle => 0 | .armed => 1 | .capturing => 2 | .held => 3 | .reading => 4

/-- What an arm sets for a capture: input, FRAMES, pre-trigger frames kept, TRIG and the AT_TIME instant (Tables 3.19 to 3.21). -/
structure SnapCfg where
  input : Inp
  frames : Nat
  pre : Nat
  trig : Nat
  at_ : Nat
deriving DecidableEq, Repr

/-- A capture channel: state, armer, memory claimed, what the arm set, the converter words of the frames stored (of the last frames while armed), frames still to store after the trigger, 128-bit words of the readout sent, whether the input was halved at the arm, grid time of the arm, T0 and the root time of the same sample (R86 to R89). -/
structure Snap where
  state : SnapState
  owner : Nat
  bytes : Nat
  cfg : SnapCfg
  frames : List (List (BitVec 16))
  toStore : Nat
  sent : Nat
  halfAtArm : Bool
  armAt : Nat
  t0 : Nat
  from_ : Nat
  endedEarly : Bool
  late : Bool
  eccErr : Bool
deriving DecidableEq, Repr

/-- A text segment: the last reception that awaits its repetition, and the accepted characters (Table 4.3). -/
structure Seg where
  cand : Option Nat
  acc : Option Nat
deriving DecidableEq, Repr

/-- RDS decoding of a slice (R113 to R118): synchronisation, the offset of the last valid block while searching, the position of the next block, the outcome of the last blocks (true = uncorrectable, newest first), the run of uncorrectable blocks, the receptions that await their repetition, the AF list under reception (codes still to come, codes so far) and the last complete one, the same by PI(ON) for EON, the application registered for a group type by 3A, the root times of the last correctable block and of the last block. -/
structure Rds where
  sync : Bool
  last : Option RdsOffset
  pos : Nat
  bad : List Bool
  badRun : Nat
  first : Bool
  piCand : Option Nat
  bCand : Option Nat
  taCand : Option Nat
  ps : Vector Seg 4
  rt : Vector Seg 16
  rtStarted : Bool
  rtEnd : Option Nat
  afNeed : Nat
  afCodes : List Nat
  afList : List Freq
  eonNeed : List (Nat × Nat × List Nat)
  eon : List (Nat × List Freq)
  oda : List (Nat × Nat)
  lastGood : Nat
  blockAt : Nat
deriving DecidableEq, Repr

/-- AMSS decoding of a slice (R119): synchronisation, blocks passed and failed in a row, the identifier that awaits its repetition, the alternative frequencies last carried, the root times of the last block that passed and of the last block. -/
structure Amss where
  sync : Bool
  goodRun : Nat
  badRun : Nat
  sidCand : Option Nat
  afs : List Freq
  lastGood : Nat
  blockAt : Nat
deriving DecidableEq, Repr

/-- DRM reception of a slice (R150, R151): the run of failed FAC blocks, whether an SDC was accepted since DRM_SYNC, the reconfiguration index, whether a change of it is announced, the services and streams that it brings, the entity content last handed over, the labels, applications, and languages and countries of SDC entities 1, 5 and 12, the last SDC content. -/
structure Drm where
  synced : Bool
  facBadRun : Nat
  sdcSince : Bool
  reconf : Option Nat
  pending : Bool
  nextServices : List DrmService
  nextStreams : List DrmStream
  afs : List Freq
  labels : List (Nat × List Byte)
  apps : List (Nat × List Byte)
  langs : List (Nat × List Byte)
  sdc : List Byte
deriving DecidableEq, Repr

/-- The memory of a first-order filter: its last input and its last output. -/
structure FiltMem where
  x : Int
  y : Int
deriving DecidableEq, Repr

/-- The demodulator of a slice: stereo share (R108); soft-mute attenuation reached and high-cut travel, in 0.25 dB (R106, R111); carrier; whether a synchronous detector has fallen back (R103); memories of the two channels' de-emphasis and high-cut, and of the AM audio filters (R110, R111); the audio of the last 4 s, oldest first (R98); the root time from which the detector runs, since its restart (R101); and the side-data decoders. Every decoded value that a register shows lives in that register. -/
structure Demod where
  share : Rat
  softMute : Rat
  hicut : Nat
  carrier : Bool
  fellBack : Bool
  deemph : Vector FiltMem 2
  hicutMem : Vector FiltMem 2
  band : List Int
  audio : List Clip
  since : Nat
  rds : Rds
  amss : Amss
  drm : Drm
deriving DecidableEq, Repr

/-- State of a bed (Table 5.2). -/
inductive BedState where
  | off | search | sync | fic | mci | hold
deriving DecidableEq, Repr

/-- The code of BED_STS.STATE (Table 5.13). -/
def BedState.code : BedState → Nat
  | .off => 0 | .search => 1 | .sync => 2 | .fic => 3 | .mci => 4 | .hold => 5

/-- A bed, apart from its registers: state, the state held in HOLD, instant of the gap, root time of the last entry to SEARCH from OFF or a retune (R138), run of good FIBs in SYNC, frames without a new entry, configuration in force and next (R144), what FIG 0/3, 0/5, 0/8, 0/13 and 0/17 gave, links and lists handed to service following (R143), label under reception, the soft values of the last 16 CIFs, newest first (R145), by SubChId the CIFs since its de-interleaving began anew (R154), the root time up to which the I/Q samples of its streams have been counted for saturation and whether IQ_SATURATED was raised in this slice block (R138), claim under way (R134). -/
structure Bed where
  state : BedState
  held : BedState
  gapStart : Nat
  searchAt : Option Nat
  goodFibs : Nat
  quietFrames : Nat
  newEntry : Bool
  reconf : Option Nat
  subch : List SubchDef
  svcs : List SvcDef
  nextSubch : List SubchDef
  nextSvcs : List SvcDef
  curSubch : List SubchDef
  curSvcs : List SvcDef
  packets : List PacketComp
  subLangs : List (Nat × Nat)
  comps : List SvcComp
  apps : List (Nat × Nat × List Nat)
  ptys : List (Nat × Nat)
  links : List Link
  freqs : List FreqInfo
  others : List OtherEns
  ecc : Option Nat
  label : Option (List Byte × Nat)
  svcLabels : List (Nat × List Byte)
  svcLabelCand : List (Nat × List Byte)
  mem : List (List (BitVec 4))
  renewed : List (Nat × Nat)
  iqUpTo : Nat
  satRaised : Bool
  claim : Bool
  edge : Nat
deriving DecidableEq, Repr

/-- State of a decoder (Table 5.3). -/
inductive DecState where
  | idle | wait | sync | run | conceal | sourceGone
deriving DecidableEq, Repr

/-- The code of STATE (Table 5.19). -/
def DecState.code : DecState → Nat
  | .idle => 0 | .wait => 1 | .sync => 2 | .run => 3 | .conceal => 4 | .sourceGone => 5

/-- A decoder, apart from its registers: state, owner code, slot of service following that claimed it, whether DEC_MISMATCH has been raised, milliseconds concealed; the audio of the last 4 s, oldest first; the last good frame, how often it has been repeated, whether the next audio ramps up (R155, R156); the frames of the last second, newest first, true where erroneous (R191). -/
structure Dec where
  state : DecState
  owner : Nat
  slot : Option SvcId
  mismatch : Bool
  ca : Bool
  raised : Bool
  found : Nat
  concealMs : Nat
  audio : List Clip
  lastGood : List (Int × Int)
  repeats : Nat
  rampUp : Bool
  recent : List (Nat × Bool)
deriving DecidableEq, Repr

/-- State of a candidate (Table 6.4). -/
inductive CandState where
  | empty | unwatched | watched | verified | aligned | standby | active | failed
deriving DecidableEq, Repr

/-- The code of a candidate's STATE (Table 6.8). -/
def CandState.code : CandState → Nat
  | .empty => 0 | .unwatched => 1 | .watched => 2 | .verified => 3 | .aligned => 4 | .standby => 5 | .active => 6 | .failed => 7

/-- FAIL_REASON (Table 6.8). -/
inductive FailReason where
  | none | mismatch | noSignal | ca | blocked | noAudioMatch
deriving DecidableEq, Repr

/-- The code of FAIL_REASON (Table 6.8). -/
def FailReason.code : FailReason → Nat
  | .none => 0 | .mismatch => 1 | .noSignal => 2 | .ca => 3 | .blocked => 4 | .noAudioMatch => 5

/-- WAIT (Table 6.8). -/
inductive Wait where
  | none | noSlice | noBed | noDecoder | unreachable
deriving DecidableEq, Repr

/-- The code of WAIT (Table 6.8). -/
def Wait.code : Wait → Nat
  | .none => 0 | .noSlice => 1 | .noBed => 2 | .noDecoder => 3 | .unreachable => 4

/-- The receiver of a candidate (RX_KIND and RX of Table 6.8). -/
inductive Rx where
  | none | watch (i : Slc) | shared (i : Slc) | bed (k : BedId)
deriving DecidableEq, Repr

/-- The alignment of a candidate under R195 to R198: none; a coarse offset found and the fine search due; OFS valid. -/
inductive Align where
  | none | coarse | fine
deriving DecidableEq, Repr

/-- One candidate entry of a slot (Tables 6.4 and 6.8), with the counts its rules keep: tick of entry, root time of a failure, receiver, decoder (its own or shared), SubChId or stream, root time from which the give-up time counts and of the first audio, tick at which it became ALIGNED (R203), Q of the last ticks, newest first, alignment, ticks of the next search and check, checks low and good in a row, OFS, CORR, decoding delay in samples, FILLED, loudness with its last valid value and the one measured now, LOUD_CLAMP, the last identity accepted, whether verified by audio, or only by a learned identity; its delay line, oldest first, and the root time up to which the line has taken the receiver's audio (R175, R177); its content envelope, newest first (R194). -/
structure Cand where
  state : CandState
  std : Std
  khz : Nat
  origin : Nat
  pin : Bool
  block : Bool
  entered : Nat
  reason : FailReason
  failedAt : Nat
  wait : Wait
  waitRaised : Bool
  decRaised : Bool
  rx : Rx
  dec : Option DecId
  ownDec : Bool
  subch : Nat
  since : Option Nat
  audioAt : Option Nat
  alignedAt : Nat
  qHist : List Nat
  align : Align
  nextSearch : Nat
  nextCheck : Nat
  lowChecks : Nat
  goodChecks : Nat
  ofs : Int
  corr : Nat
  d : Nat
  fillAt : Nat
  filled : Bool
  loudValid : Bool
  loudDiff : Int
  loudNow : Int
  clamped : Bool
  idKind : Nat
  id : Nat
  byAudio : Bool
  byLearned : Bool
  line : List Clip
  lineUpTo : Nat
  env : List Nat
deriving DecidableEq, Repr

/-- State of a slot (Table 6.7). -/
inductive SvcState where
  | off | acquiring | following | noSource
deriving DecidableEq, Repr

/-- The code of a slot's STATE (Table 6.7). -/
def SvcState.code : SvcState → Nat
  | .off => 0 | .acquiring => 1 | .following => 2 | .noSource => 3

/-- A change of the candidate table for the next generation (R182): a host write, a host removal, an automatic offer. -/
inductive Offer where
  | write (n : CandId) (std : Std) (khz : Nat) (block : Bool)
  | remove (n : CandId)
  | auto (std : Std) (khz : Nat) (origin : Nat) (q : Nat)
deriving DecidableEq, Repr

/-- A splice or blend under way (R202, R206): entry taken, the output instant S and the length of the blend, both in root ticks, whether S has come. -/
structure Splice where
  target : CandId
  at_ : Nat
  blend : Nat
  started : Bool
deriving DecidableEq, Repr

/-- A source that a slot plays, or has yet to play out (R176, R202 to R207): the candidate whose delay line it reads, or once that is dropped the line it leaves behind; the input it draws on; its presentation delay in samples; its gain in 0.001 dB; the output instant before which it does not play, and the one at which it began; over how many ticks it fades in, and whether as part of a splice or blend; the instants at which it begins to fade out and has ended. -/
structure Voice where
  cand : Option CandId
  line : List Clip
  input : Option Inp
  pres : Nat
  gain : Int
  after : Nat
  from_ : Option Nat
  rise : Nat
  blend : Bool
  fall : Option (Nat × Nat)
deriving DecidableEq, Repr

/-- A stereo frame that a slot has played (R177, R179): the root time of its stamp, its two samples of 16 bits, whether it was concealed, whether a splice or blend touched it, its conditions. -/
structure OutFrame where
  at_ : Nat
  left : Int
  right : Int
  conceal : Bool
  splice : Bool
  cond : Cond
deriving DecidableEq, Repr

/-- A followed-service slot, apart from its registers: state, owner, active and standby entries, CAND_GEN, P_a in samples, gain in 0.001 dB, ticks since enable, tick of the last switch, dwell counts, the entries that outrank the standby and for how long, the entry that fills to replace the standby, splice, start of a concealed gap, whether a gap is why the decoder of the active is in CONCEAL or SYNC (R206), entry of the trial decoder and since which tick, identities learned (SVC_LEARNED, PI, DRM identifier), since when a learned linkage is gone, CAND_DROPPED raised in this tick, offers for the next generation, entries; the sources it plays; what it has played in the last 4 s, oldest first; the content envelope of its output, newest first (R194). -/
structure Slot where
  state : SvcState
  owner : Nat
  active : Option CandId
  standby : Option CandId
  candGen : Nat
  presNow : Nat
  gain : Int
  ticks : Nat
  lastSwitch : Option Nat
  dwellBad : Option Nat
  dwellBetter : Option Nat
  outrank : List (CandId × Nat)
  filling : Option CandId
  splice : Option Splice
  concealFrom : Option Nat
  gapDec : Bool
  trial : Option CandId
  trialSince : Nat
  learned : Nat
  learnedPi : Nat
  learnedDrm : Nat
  linkLost : Option Nat
  dropRaised : Bool
  offers : List Offer
  cands : Vector Cand 12
  voices : List Voice
  out : List OutFrame
  env : List Nat
deriving DecidableEq, Repr

/-- A frequency of an identity of the AF database: standard, kHz, last-seen Q, last-seen second (R209). -/
structure AfFreq where
  std : Std
  khz : Nat
  q : Nat
  seen : Nat
deriving DecidableEq, Repr

/-- An identity of the AF database: owner code, kind (1 PI, 2 DAB SId with ECC, 3 DRM or AMSS), value, frequencies, those last written to the Loam store, and the root time of that write (R209, R210, R483). -/
structure AfIdentity where
  owner : Nat
  kind : Nat
  id : Nat
  freqs : List AfFreq
  saved : List AfFreq
  stored : Option Nat
deriving DecidableEq, Repr

/-- A change of the AF database for its next generation (R210): a frequency written to an identity of an owner; a frequency of an owner heard at a second of ring time. -/
inductive AfNews where
  | write (owner kind id : Nat) (f : AfFreq)
  | heard (owner : Nat) (std : Std) (khz sec : Nat)
deriving DecidableEq, Repr

/-- The owner of a change of the AF database. -/
def AfNews.owner : AfNews → Nat
  | .write o _ _ _ => o
  | .heard o _ _ _ => o

/-- A bin that the background survey has visited for an owner: input, bin, root time of the last visit, the slice that visits it now, visits for which it is still held (R211). -/
structure SurveyVisit where
  owner : Nat
  input : Inp
  bin : Nat
  last : Nat
  slice : Option Slc
  left : Nat
deriving DecidableEq, Repr

/-- A packet of a stream: the header fields of Table 7.1, the root time of its first sample, record or unit, and its payload words. -/
structure Packet where
  stream : StrmId
  bundled : Option BundId
  kind : Nat
  len : Nat
  seq : Nat
  mulch : Bool
  unlocked : Bool
  holdover : Bool
  timeStep : Bool
  halfRate : Bool
  encrypted : Bool
  gap : Bool
  kflags : Nat
  at_ : Nat
  devtime : Nat
  payload : List Quad
deriving DecidableEq, Repr

/-- The per-block values that a MEASURE record is the mean of (Table 7.5). -/
structure MeasVal where
  valid : Bool
  level : Nat
  cnr : Nat
  mer : Nat
  mp : Nat
  bler : Nat
  offset : Int
  devPeak : Nat
deriving DecidableEq, Repr

/-- A stream ID, apart from its registers: owner code (0 free), EN in force, the root time of the response to a disable whose packet period is not over (R223), SEQ of the next packet, GAP due, the root time of a DEVTIME step whose first packet is still to come, whether STRM_SOURCE_GONE has been raised, root time at which the next packet period starts, packets of its own that are late and to be discarded (R215), records gathered for the side-data packet with the root times of the first and of the end of the last and whether one carries OVR, the values of the slice blocks that its MEASURE record covers with their root times, oldest first, whether the next period is mulch after a stall of the stream engine (R497). -/
structure Strm where
  owner : Nat
  en : Bool
  ending : Option Nat
  seq : Nat
  gap : Bool
  timeStep : Option Nat
  goneRaised : Bool
  nextPeriod : Nat
  late : Nat
  records : List Quad
  recTime : Nat
  recEnd : Nat
  recOvr : Bool
  meas : List (Nat × MeasVal)
  mulchNext : Bool
deriving DecidableEq, Repr

/-- A bundle, apart from its registers: owner code (0 free), reservation in bytes, packets held, root time at which the next period to release starts, whether BUNDLE_LATE was raised in this slice block. -/
structure Bund where
  owner : Nat
  rsv : Nat
  held : List Packet
  period : Nat
  lateRaised : Bool
deriving DecidableEq, Repr

/-- A stream queue: the packets buffered, the words from the first of them on that have been placed in ring frames, and whether QUEUE_OVERFLOW was raised in this slice block (R226). -/
structure StrmQueue where
  packets : List Packet
  gone : Nat
  ovfRaised : Bool
deriving DecidableEq, Repr

/-- The stream keys of a tenant: current, previous and next K_S, the DEVTIME from which the current one applies, that of the switch to the next one, and the root time of the last switch (R470). -/
structure StreamKeys where
  current : Option (BitVec 256)
  previous : Option (BitVec 256)
  next : Option (BitVec 256)
  from_ : Nat
  switchAt : Nat
  switchedMono : Nat
deriving DecidableEq, Repr

/-- State of the synthesiser (Table 15.4). -/
inductive ClkState where
  | off | qualifying | acquiring | locked | holdover | safe
deriving DecidableEq, Repr

/-- The code of CLK_STS.STATE (Table 15.9). -/
def ClkState.code : ClkState → Nat
  | .off => 0 | .qualifying => 1 | .acquiring => 2 | .locked => 3 | .holdover => 4 | .safe => 5

/-- What the synthesiser holds of one port's clock: qualified, root time since which it has met every test of R409 but the guard, root time since which its frames have carried CQ 0, whether it has been UP since the part acquired it, root time of the last PORT_DISQUAL event. -/
structure ClkPort where
  qual : Bool
  passSince : Option Nat
  cq0Since : Option Nat
  wasUp : Bool
  disqualAt : Option Nat
deriving DecidableEq, Repr

/-- The clock synthesiser, apart from its registers (R401 to R424): state, reference or port being acquired, ports, learned word in force, VCO settled, root time at which it began to settle, whether the next lock is the first since a reset or an exit from STANDBY (R285), root times at which CQ_OUT last left 0 and returned to it, root time of the start of acquisition and of holdover, F_L in 0.01 ppm, UPSTREAM_COAST raised, root times at which the converter and ring-forwarding gates closed, and whether the exit is from clockless safe. -/
structure Clk where
  state : ClkState
  ref : Option Port
  ports : Vector ClkPort 2
  learned : Bool
  settled : Bool
  vcoAt : Nat
  cold : Bool
  cqNonZeroAt : Option Nat
  cqZeroAt : Option Nat
  acqAt : Nat
  holdFrom : Nat
  fl : Int
  upstreamRaised : Bool
  convClosedAt : Option Nat
  ringClosedAt : Option Nat
  fromSafe : Bool
deriving DecidableEq, Repr

/-- What the sequencer of R438 to R441 is doing: nothing; raising the setpoint for a restore; confirmed and waiting for the first whole epoch; measuring it. -/
inductive Restore where
  | none | raising | waiting | measuring
deriving DecidableEq, Repr

/-- The power manager, apart from its registers (R425 to R448): rung in force; transition under way and its direction; setpoint in force; whether it is confirmed, or unconfirmed beyond VSETTLE; `entry` the setpoint retained at the last exit from RUN; `held` the ceiling of R437; the restore under way; counts in epochs: slack above 30 %, fabric minimum below 5 % at the ceiling, slot 0 clear, since the last halving or restore, slot 0 warning since the last halving; slot 0 newly warning or LOST; a converter FIFO at 75 %; restores suspended; epoch of the last restore; root time at which the present rise began, and time spent before in it (R444); root time of the last VOUT_COMMAND and by how many steps of 10 mV it moved the setpoint (R433); root time of the last poll. -/
structure Pwr where
  rung : Nat
  busy : Bool
  rising : Bool
  setpoint : Nat
  confirmed : Bool
  unconfWarn : Bool
  entry : Nat
  held : Option Nat
  restore : Restore
  downRun : Nat
  lowRun : Nat
  clearRun : Nat
  sinceChange : Nat
  warnRun : Nat
  warnNew : Bool
  fifoHigh : Bool
  suspended : Bool
  lastRestore : Option Nat
  riseAt : Option Nat
  riseAcc : Nat
  setAt : Nat
  moved : Nat
  polledAt : Nat
deriving DecidableEq, Repr

/-- A PMBus slot: present, lost, fault, warning bits, failed transactions in a row, whether a warning is in force (R436). -/
structure PmbSlot where
  present : Bool
  modeBad : Bool
  lost : Bool
  fault : Bool
  warnBits : Bool
  warned : Bool
  failRun : Nat
deriving DecidableEq, Repr

/-- A PMBus command sent: slot, command code, data (Table 16.3). -/
structure PmbCmd where
  slot : Fin 4
  code : Nat
  data : Nat
deriving DecidableEq, Repr

/-- An open session (R464 to R467): its ID, last CTR accepted, last CTR sent, tag failures in a row, the 104 bytes of R465. -/
structure Session where
  id : BitVec 16
  ctrIn : Nat
  ctrOut : Nat
  fails : Nat
  keys : BitVec 832
deriving DecidableEq, Repr

/-- A pending open (R464): session ID, transcript T, shared secret X, salt, when its answer was given. -/
structure PendingOpen where
  id : BitVec 16
  transcript : BitVec 256
  shared : BitVec 256
  salt : List Byte
  at_ : Nat
deriving DecidableEq, Repr

/-- Life of a tenant slot (Table 17.4). -/
inductive TState where
  | empty | enrolling | enrolled
deriving DecidableEq, Repr

/-- The code of TSTATE (Table 17.11). -/
def TState.code : TState → Nat
  | .empty => 0 | .enrolling => 1 | .enrolled => 2

/-- A tenant key slot: state, key (pending or stored), challenge, when it was given (R459). -/
structure TenantSlot where
  state : TState
  key : BitVec 512
  challenge : BitVec 256
  at_ : Nat
deriving DecidableEq, Repr

/-- Roles, keys and sessions of the part (R451 to R477). -/
structure Sec where
  siteKey : Option (BitVec 512)
  devKey : BitVec 512
  vendorKey : BitVec 512
  tenants : Vector TenantSlot 4
  sess : Vector (Option Session) 8
  pend : Vector (Option PendingOpen) 8
  csess : Vector (Option Session) 8
  cpend : Vector (Option PendingOpen) 8
  svnRun : Nat
  svnMin : Nat
  debugOpen : Bool
  serviceOpen : Bool
  claimOpen : Bool
  openAt : Nat
  claimBlocked : Bool
  authFailAt : Option Nat
deriving DecidableEq, Repr

/-- An entry of the error log (Table 19.2). -/
structure LogEntry where
  event : Word
  ptype : Nat
  inst : Nat
  det : Nat
  src : Nat
  first : Nat
  seq : Nat
  rep : Nat
  detail : Word
  last : Nat
  copied : Nat
  copiedAt : Nat
deriving DecidableEq, Repr

/-- The error log, its Loam copies waiting, and the log tail (R502 to R506); `intake` the findings that have come to the intake at the root time `intakeAt` (R503). -/
structure ErrLog where
  entries : List LogEntry
  nextSeq : Nat
  fullRaised : Bool
  ovfAt : Option Nat
  waiting : List LogEntry
  tail : List LogEntry
  resetDue : Bool
  intake : Nat
  intakeAt : Nat
deriving DecidableEq, Repr

/-- What the temperature decisions of R511 hold: TEMP_HIGH in force, a sensor above TEMP_CRIT, the shutdown, whether every sensor has been below 100 °C since, epochs (64 at most) for which every sensor has been 5 °C below TEMP_CRIT since one was above it, the log entries that wait for a telemetry record, and by TELEMETRY stream the records that found no room to leave (R28), the root time of the last telemetry period. -/
structure Temps where
  high : Bool
  crit : Bool
  shutdown : Bool
  cool : Bool
  clearEpochs : Nat
  newEntries : List LogEntry
  held : List (StrmId × List Quad)
  telAt : Nat
deriving DecidableEq, Repr

/-- CLK_STATE of the audio port (Table 8.4). -/
inductive AudClk where
  | stopped | qualifying | running | switching
deriving DecidableEq, Repr

/-- The code of CLK_STATE (Table 8.4). -/
def AudClk.code : AudClk → Nat
  | .stopped => 0 | .qualifying => 1 | .running => 2 | .switching => 3

/-- An output of the audio port, apart from its registers (R237, R244, R245): its converter's input buffer, oldest first; the lag L of its source in ticks, once that is fixed; whether it still plays out a source that it has been moved from (R248); root time at which its last fade began, its length and whether it fades in; the words of its last frame's two slots. -/
structure AudOut where
  buf : List Clip
  lag : Option Nat
  leaving : Bool
  fadeAt : Nat
  fadeLen : Nat
  fadeIn : Bool
  left : Nat
  right : Nat
deriving DecidableEq, Repr

/-- The audio port, apart from its registers (R239 to R248): clock state; whether a stop of R246 stopped it; whether the ramp of a stop-switch-restart is still to end, and the root time at which it began; whether SWITCH_DONE is due; wrong AWS periods in a row; root time of the last FRAME_ERR event; outputs that ramp back up, and the root time at which they may; the outputs. -/
structure Aud where
  clk : AudClk
  fault : Bool
  ramping : Bool
  rampAt : Nat
  switchDue : Bool
  glitches : Nat
  frameErrAt : Option Nat
  unmuteAt : List (OutId × Nat)
  outs : Vector AudOut 4
deriving DecidableEq, Repr

/-- The steps of a calibration run (CAL_STS.STEP, Table 9.10). -/
inductive CalStep where
  | settle | offsets | skew | gain | align | back
deriving DecidableEq, Repr

/-- The code of STEP (Table 9.10). -/
def CalStep.code : CalStep → Nat
  | .settle => 1 | .offsets => 2 | .skew => 3 | .gain => 4 | .align => 5 | .back => 6

/-- Who sent a command, as its answer needs it: role, queue (none: the direct window), the waiting command, its session slot. -/
structure Caller where
  role : Role
  q : Option CQueue
  w : Waiting
  ses : Option KeySlot
deriving DecidableEq, Repr

/-- A calibration run from its E0 on (R257): the root time of E0, inputs named, inputs still in it, PROBE named, whether the PROBE step waits for a packet, the root time at which it begins, PROBE result latched, step, frequency, gains before E0, whether the switch back has ended. -/
structure CalRun where
  e0 : Nat
  inputs : Nat
  live : Nat
  probe : Bool
  probeWait : Bool
  probeAt : Nat
  probeDone : Bool
  probeLive : Bool
  step : CalStep
  freq : Nat
  gains : Vector Nat 4
  returned : Bool
deriving DecidableEq, Repr

/-- A reference check under way (R268): its inputs, its root time, its caller, the gains before it. -/
structure RefCheck where
  mask : Nat
  at_ : Nat
  caller : Caller
  gains : Vector Nat 4
deriving DecidableEq, Repr

/-- The calibration engine, apart from its registers: the run, a load that waits for its epoch, the sections a rebuild is for, the reference check, root time of the last reference check of each input, epochs for which a criterion of Table 9.6 has held, and whether RECAL_ADVISED has been raised. -/
structure Cal where
  run : Option CalRun
  load : Bool
  check : Option RefCheck
  checkedAt : Vector (Option Nat) 4
  trackRun : Vector Nat 4
  advised : Vector Bool 4
deriving DecidableEq, Repr

/-- State of the sounding transmitter (Table 10.3). -/
inductive TxState where
  | off | warm | waitGrant | rampUp | tx | rampDown
deriving DecidableEq, Repr

/-- The code of STATE (Table 10.7). -/
def TxState.code : TxState → Nat
  | .off => 0 | .warm => 1 | .waitGrant => 2 | .rampUp => 3 | .tx => 4 | .rampDown => 5

/-- Outcome of a packet (Table 10.4). -/
inductive TxOutcome where
  | sent | maskAbort | grantLost | grantTimeout | clockAbort
deriving DecidableEq, Repr

/-- The code of OUTCOME (Table 10.4). -/
def TxOutcome.code : TxOutcome → Nat
  | .sent => 0 | .maskAbort => 1 | .grantLost => 2 | .grantTimeout => 3 | .clockAbort => 4

/-- A transmit request, every field latched at acceptance (R282): and the planned first chip G, the root times of RAMP_UP and of RAMP_DOWN, the outcome decided. -/
structure TxReq where
  freq : Nat
  halfbw : Nat
  level : Nat
  sf : Nat
  type : Nat
  len : Nat
  bcast : Bool
  dst : Nat
  prio : Bool
  data : List Byte
  g : Nat
  upAt : Nat
  downAt : Nat
  outcome : Option TxOutcome
deriving DecidableEq, Repr

/-- RX_STATE of the sounding receiver (Table 10.7). -/
inductive RxState where
  | search | delimiter | header | payload
deriving DecidableEq, Repr

/-- The code of RX_STATE (Table 10.7). -/
def RxState.code : RxState → Nat
  | .search => 0 | .delimiter => 1 | .header => 2 | .payload => 3

/-- The packet that the sounding receiver holds: root time of its detection, SF code, power in 0.01 dBm, whether it captured the receiver, its header once that has passed (R292). -/
structure RxHeld where
  from_ : Nat
  sf : Nat
  power : Int
  captured : Bool
  hdr : Option Nat
deriving DecidableEq, Repr

/-- The sounding link, apart from its registers (R271 to R297): transmitter, request accepted, request deferred with its caller, root time at which the deferral or the wait for the grant began, MASK_LOCK, last outcome, CX_REQ, CX_PRI, CX_GNT as sampled, packets and their airtime (root time of RAMP_UP, µs), root time of the lock since which the full allowance counts as spent (R285), arrival of the last packet received from each position, receiver. -/
structure Snd where
  state : TxState
  req : Option TxReq
  deferred : Option (TxReq × Caller)
  waitAt : Nat
  maskLock : Bool
  outcome : TxOutcome
  cxReq : Bool
  cxPri : Bool
  gnt : Bool
  spent : List (Nat × Nat)
  lastRx : List (Nat × Nat)
  rx : RxState
  held : Option RxHeld
  desig : Option Slc
  lockAt : Option Nat
deriving DecidableEq, Repr

/-- States of the seal (Table 11.4). -/
inductive Seal where
  | absent | factory | sealed | brokenVerifier | brokenTamper
deriving DecidableEq, Repr

/-- The code of SMC_SEAL.STATE (Table 11.11). -/
def Seal.code : Seal → Nat
  | .absent => 0 | .factory => 1 | .sealed => 2 | .brokenVerifier => 3 | .brokenTamper => 4

/-- State of a measurement point (Table 11.12). -/
inductive PtState where
  | free | waiting | integrating | paused
deriving DecidableEq, Repr

/-- The code of a point's STATE (Table 11.12). -/
def PtState.code : PtState → Nat
  | .free => 0 | .waiting => 1 | .integrating => 2 | .paused => 3

/-- What a point has accumulated over the covered blocks of its open interval (Table 11.1, R306): blocks and milliseconds covered; tap power, MER, carrier offset and SNR summed; FM deviations with their counts, greatest first; greatest envelope excursion; power of the MPX over the second under way, with its blocks, and over each of the last 60 seconds, latest first; greatest 60 s mean; milliseconds of the second under way in which the criterion failed; outage seconds. -/
structure PtAcc where
  blocks : Nat
  ms : Nat
  power : Nat
  mer : Int
  offset : Int
  snr : Int
  hist : List (Nat × Nat)
  excursion : Nat
  mpxSum : Nat
  mpxCount : Nat
  mpx : List (Nat × Nat)
  mpxBest : Option Nat
  failed : Nat
  outages : Nat
deriving DecidableEq, Repr

/-- A checkpoint of a point's accumulators: its DEVTIME and root time, and what they held (R324). -/
structure Ckpt where
  dev : Nat
  at_ : Nat
  acc : PtAcc
deriving DecidableEq, Repr

/-- A measurement point: owner code, source (1 slice, 2 bed, number), detector, standard and kHz, start of the open interval in DEVTIME, in root time and on the grid, flags gathered in it (R311), its accumulators, last checkpoint (R324). -/
structure Point where
  owner : Nat
  state : PtState
  srcKind : Nat
  src : Nat
  det : Nat
  std : Nat
  khz : Nat
  start : Nat
  startAt : Nat
  startGrid : Nat
  flags : Nat
  acc : PtAcc
  ckpt : Option Ckpt
  lastValue : Word
  lastFlags : Nat
  lastCov : Nat
deriving DecidableEq, Repr

/-- A record in the cloche log (R310, R314): owner 1 to 5, sequence, its 128 bytes, whether it has been placed on Q6. -/
structure Rec where
  owner : Nat
  seq : Nat
  bytes : List Byte
  sent : Bool
deriving DecidableEq, Repr

/-- An audit entry (R322). -/
structure Audit where
  count : Nat
  devtime : Nat
  slot : Nat
  kind : Nat
  param : Nat
  crc : Nat
deriving DecidableEq, Repr

/-- A verification mark (R323). -/
structure Mark where
  mark : Word
  slot : Nat
  secs : Nat
deriving DecidableEq, Repr

/-- A correlator result of a PROBE packet at the cloche's tap (R294, R308): input, sender's position, path gain in 0.01 dB, centre in kHz, root time. -/
structure Corr where
  input : Inp
  pos : Nat
  gain : Int
  khz : Nat
  at_ : Nat
deriving DecidableEq, Repr

/-- The cloche (R298 to R328). `given` lists the sealed parameters that have a value; `counted` the event kinds met while suspended and how often beyond the first (R316); `lastCkpt` the root time of the last checkpoint. The sealed values themselves live in the register file. -/
structure Smc where
  sealSt : Seal
  sealGen : Nat
  tamperLow : Bool
  lateTamper : Bool
  powered : Bool
  failed : Bool
  paused : Bool
  pauseReason : Nat
  suspended : Bool
  highRaised : Bool
  points : Vector Point 16
  log : List Rec
  nextSeq : Vector Nat 5
  auditCnt : Nat
  audit : List Audit
  marks : Vector Mark 4
  given : List Nat
  counted : List (Nat × Nat)
  corr : List Corr
  lastCkpt : Nat
  fwName : List Byte
  fwVer : Word
  fwCrc : Word
  svnMin : Nat
  tenantKeys : Vector (Option (BitVec 512)) 4
  verifierKeys : Vector (Option (BitVec 512)) 3
deriving DecidableEq, Repr

/-- State of a ring port (Table 12.6). -/
inductive PortState where
  | down | clock | bitlock | blocklock | deskew | delay | up
deriving DecidableEq, Repr

/-- The code of STATE (Table 12.12). -/
def PortState.code : PortState → Nat
  | .down => 0 | .clock => 1 | .bitlock => 2 | .blocklock => 3 | .deskew => 4 | .delay => 5 | .up => 6

/-- What a port puts on its lanes: a control block of Table 12.2 by lane, type and content, a frame, or the words of a forwarded time word or notice on Q3. -/
inductive OutItem where
  | block (lane type : Nat) (content : Quad)
  | frame (f : RFrame)
  | notice (words : List Quad)
deriving DecidableEq, Repr

/-- A frame that waits at a port for credit: the port on which it arrived, if it is forwarded, and the root time of its arrival (R347 to R349). -/
structure WaitFrame where
  frame : RFrame
  from_ : Option Port
  at_ : Nat
deriving DecidableEq, Repr

/-- A ring port, apart from its registers: state, root times at which training and the present fall began and since when it runs clean (R342, R358), whether it has healed (R358), whether it has fallen from UP since reset or a rise to IDLE (R356), lanes on which TS1 has come, whether TS2 has, agreeing delay exchanges and the delay of the first of them, the outcome of the last frames (true: CRC failed, newest first), lane errors in the last ALIGN block of each lane, sequence expected per class, frames freed, frames sent and credit returned per class (R348), frames waiting for credit, sequence of the next frame per class, the class of the next CR field, HEAL sent, HEAL received, CQ and CHOPS received, root time of the last FRAME_CRC and LANE_CRC events, what has been sent. -/
structure Prt where
  state : PortState
  trainAt : Nat
  downAt : Nat
  cleanFrom : Nat
  healed : Bool
  fell : Bool
  ts1 : Vector Bool 2
  ts2 : Bool
  agree : Nat
  agreeDelay : Int
  crcHist : List Bool
  laneBad : Vector Bool 2
  hseqIn : Vector (Option Nat) 4
  freed : Vector Nat 4
  sent : Vector Nat 4
  credit : Vector Nat 4
  wait : List WaitFrame
  hseqOut : Vector Nat 4
  crTc : Nat
  healSent : Bool
  healSeen : Bool
  cqIn : Nat
  chopsIn : Nat
  crcAt : Option Nat
  laneAt : Option Nat
  out : List OutItem
deriving DecidableEq, Repr

/-- The ring position and ring time of the part (R343 to R353): position, RING_N, CQ and CHOPS sent, whether DEVTIME is aligned, the time errors of the words in a row beyond TSTEP_TH in 1/256 tick, TRACEABLE, EPOCH once a word has carried it, whether a position taken while converters run has unset DEVTIME, the ports at which the part is wrapping, root time of the last time word used. -/
structure Ring where
  pos : Option Nat
  ringN : Nat
  cqOut : Nat
  chopsOut : Nat
  aligned : Bool
  late : List Int
  traceable : Bool
  epoch : Option Nat
  newPos : Bool
  wrapped : Vector Bool 2
  lastTw : Option Nat
deriving DecidableEq, Repr

/-- What the two-wire block is doing (R388 to R396). -/
inductive BusState where
  | idle | addressed | writing | refused | reading
deriving DecidableEq, Repr

/-- The two-wire bus and its mailbox, apart from its registers: strap S, transfer state, pointer, bytes committed of a pointer or register, bytes of a register that a read transfer has still to drive, whether the transfer under way holds Site rights (R385, R398), the bytes driven by the read transfer under way or last, mailbox words in and out. -/
structure Twb where
  strap : BitVec 6
  state : BusState
  pointer : Nat
  part : List Byte
  left : List Byte
  site : Bool
  driven : List Byte
  inWords : List Word
  out : List Word
deriving DecidableEq, Repr

/-- A journal record (Tables 18.2, 18.3): type, key, DELETE, owner, sequence, segment and its generation, granules from the head to the commit granule, whether torn, data. -/
structure JRec where
  type : Nat
  key : Nat
  delete : Bool
  owner : Nat
  seq : Nat
  seg : Nat
  gen : Nat
  off : Nat
  gran : Nat
  torn : Bool
  data : List Byte
deriving DecidableEq, Repr

/-- State of a firmware slot (R492). -/
inductive FwState where
  | empty | writing | valid | bad
deriving DecidableEq, Repr

/-- The code of A_STATE and B_STATE (Table 18.7). -/
def FwState.code : FwState → Nat
  | .empty => 0 | .writing => 1 | .valid => 2 | .bad => 3

/-- A firmware slot: state, VERSION and SVN of a valid image, and the 128-bit words written, by word index, sparse and rising. -/
structure FwSlot where
  state : FwState
  version : Nat
  svn : Nat
  words : List (Nat × Quad)
deriving DecidableEq, Repr

/-- The Loam store and firmware bank (R478 to R495). `recs` are the records from the tail to the append point, oldest first; `seg` and `off` the append point; `active` the slot running; `restart` whether a restart is due, `restartAt` the root time of the answer that ordered it. -/
structure Loam where
  recs : List JRec
  seg : Nat
  gen : Nat
  off : Nat
  tail : Nat
  seq : Nat
  anchorGen : Nat
  raking : Bool
  reserve : Bool
  slots : Vector FwSlot 2
  active : Fin 2
  restart : Bool
  restartAt : Nat
deriving DecidableEq, Repr

/-- An MFP ball (R530, Table 21.4): its function, whether a claim has locked it, and the level that PPS or TX_ACTIVE drives on it. -/
structure Mfp where
  func : Nat
  locked : Bool
  high : Bool
deriving DecidableEq, Repr



/-- The whole part. -/
@[ext]
structure State where
  fuse : Fuse
  boot : Boot
  rseq : Word
  freeCtr : Nat
  pending : List Instr
  regs : List (Nat × Word)
  staged : List Staged
  captured : List Captured
  lastStatus : List LastStatus
  q : Queues
  time : Time
  conds : List CondSpan
  inputs : Vector Input 4
  slices : Vector SliceSt 96
  demods : Vector Demod 96
  planGen : Nat
  snaps : Vector Snap 4
  beds : Vector Bed 12
  decs : Vector Dec 24
  slots : Vector Slot 32
  afdb : List AfIdentity
  afNext : List AfNews
  survey : List SurveyVisit
  strms : Vector Strm 512
  bunds : Vector Bund 64
  squeues : Vector StrmQueue 9
  skeys : Vector StreamKeys 4
  clk : Clk
  pwr : Pwr
  pmb : Vector PmbSlot 4
  pmbSent : List PmbCmd
  sec : Sec
  log : ErrLog
  temps : Temps
  ports : Vector Prt 2
  ring : Ring
  twb : Twb
  smc : Smc
  aud : Aud
  cal : Cal
  snd : Snd
  loam : Loam
  mfp : Vector Mfp 4
deriving DecidableEq, Repr

/-- A named stop of the machine. No meaning of this model raises one: every command of the table has an effect that the manual gives (NOTES, Stops). -/
inductive Fault where
  /-- Never raised. -/
  | none
deriving DecidableEq, Repr

/-- A refusal. -/
inductive Refusal where
  /-- Raised by an arm of `exec` whose command has no meaning yet. Safe: the machine stops. -/
  | notModelled (mnemonic : String)
deriving DecidableEq, Repr

/-- An input with its converter OFF (R54). -/
def Input.fresh : Input :=
  { conv := .off, convAt := 0, half := false, shownHalf := false, gain := 0, pendingGain := 0, flight := [], step := false, acqLeft := 0, hold := 0,
    rmsLow := 0, attacked := false, words := [], comp := [], ovrs := [], binUpTo := [], ovrRun := 0, ovrEpoch := false, ovrRaised := false, limRaised := false, overloaded := false, measured := false,
    onRefin := false, rebuild := none }

/-- An idle slice. -/
def SliceSt.fresh : SliceSt :=
  { use := .idle, move := .none, survey := false, edge := 0, mirror := false, settleLeft := 0, down := false, gapTicks := 0,
    restartDue := false, valid := [], iqUpTo := 0, satRaised := false, watchSlots := [] }

/-- A demodulator as R101 starts it: mono, no attenuation, nothing received. -/
def Demod.fresh : Demod :=
  { share := 0, softMute := 0, hicut := 0, carrier := false, fellBack := false, deemph := Vector.replicate 2 ⟨0, 0⟩, hicutMem := Vector.replicate 2 ⟨0, 0⟩,
    band := [], audio := [], since := 0,
    rds := { sync := false, last := none, pos := 0, bad := [], badRun := 0, first := false, piCand := none, bCand := none, taCand := none,
             ps := Vector.replicate 4 ⟨none, none⟩, rt := Vector.replicate 16 ⟨none, none⟩, rtStarted := false,
             rtEnd := none, afNeed := 0, afCodes := [], afList := [], eonNeed := [], eon := [], oda := [], lastGood := 0, blockAt := 0 },
    amss := { sync := false, goodRun := 0, badRun := 0, sidCand := none, afs := [], lastGood := 0, blockAt := 0 },
    drm := { synced := false, facBadRun := 0, sdcSince := false, reconf := none, pending := false, nextServices := [], nextStreams := [], afs := [], labels := [], apps := [], langs := [], sdc := [] } }

/-- An idle capture channel. -/
def Snap.fresh : Snap :=
  { state := .idle, owner := 0, bytes := 0, cfg := ⟨0, 0, 0, 0, 0⟩, frames := [], toStore := 0, sent := 0, halfAtArm := false, armAt := 0, t0 := 0, from_ := 0, endedEarly := false,
    late := false, eccErr := false }

/-- A bed in OFF. -/
def Bed.fresh : Bed :=
  { state := .off, held := .off, gapStart := 0, searchAt := none, goodFibs := 0, quietFrames := 0, newEntry := false,
    reconf := none, subch := [], svcs := [], nextSubch := [], nextSvcs := [], curSubch := [], curSvcs := [], packets := [], subLangs := [], comps := [], apps := [], ptys := [], links := [], freqs := [],
    others := [], ecc := none, label := none, svcLabels := [], svcLabelCand := [], mem := [], renewed := [], iqUpTo := 0, satRaised := false, claim := false, edge := 0 }

/-- An idle decoder. -/
def Dec.fresh : Dec :=
  { state := .idle, owner := 0, slot := none, mismatch := false, ca := false, raised := false, found := 0, concealMs := 0, audio := [], lastGood := [], repeats := 0, rampUp := false,
    recent := [] }

/-- An empty candidate entry. -/
def Cand.fresh : Cand :=
  { state := .empty, std := .fm, khz := 0, origin := 0, pin := false, block := false, entered := 0, reason := .none, failedAt := 0,
    wait := .none, waitRaised := false, decRaised := false, rx := .none, dec := none, ownDec := false, subch := 0, since := none,
    audioAt := none, alignedAt := 0, qHist := [], align := .none, nextSearch := 0, nextCheck := 0, lowChecks := 0, goodChecks := 0, ofs := 0, corr := 0,
    d := 0, fillAt := 0, filled := false, loudValid := false, loudDiff := 0, loudNow := 0, clamped := false, idKind := 0, id := 0,
    byAudio := false, byLearned := false, line := [], lineUpTo := 0, env := [] }

/-- A disabled slot. -/
def Slot.fresh : Slot :=
  { state := .off, owner := 0, active := none, standby := none, candGen := 0, presNow := 0, gain := 0, ticks := 0, lastSwitch := none,
    dwellBad := none, dwellBetter := none, outrank := [], filling := none, splice := none, concealFrom := none, gapDec := false, trial := none,
    trialSince := 0, learned := 0, learnedPi := 0, learnedDrm := 0, linkLost := none, dropRaised := false, offers := [],
    cands := Vector.replicate 12 Cand.fresh, voices := [], out := [], env := [] }

/-- A free stream ID. -/
def Strm.fresh : Strm :=
  { owner := 0, en := false, ending := none, seq := 0, gap := false, timeStep := none, goneRaised := false, nextPeriod := 0, late := 0, records := [],
    recTime := 0, recEnd := 0, recOvr := false, meas := [], mulchNext := false }

/-- A free bundle. -/
def Bund.fresh : Bund := { owner := 0, rsv := 0, held := [], period := 0, lateRaised := false }

/-- A port clock not yet qualified. -/
def ClkPort.fresh : ClkPort := { qual := false, passSince := none, cq0Since := none, wasUp := false, disqualAt := none }

/-- The synthesiser at the release of reset: VCO on at the factory word, no port qualified (R401, R521). -/
def Clk.fresh : Clk :=
  { state := .qualifying, ref := none, ports := Vector.replicate 2 ClkPort.fresh, learned := false, settled := false, vcoAt := 0, cold := true,
    cqNonZeroAt := none, cqZeroAt := none, acqAt := 0, holdFrom := 0, fl := 0, upstreamRaised := false, convClosedAt := none,
    ringClosedAt := none, fromSafe := false }

/-- The power manager in RUN with the lowest setpoint confirmed (Table 20.1, step 3). -/
def Pwr.fresh : Pwr :=
  { rung := 0, busy := false, rising := false, setpoint := 110, confirmed := true, unconfWarn := false, entry := 110, held := none,
    restore := .none, downRun := 0, lowRun := 0, clearRun := 0, sinceChange := 0, warnRun := 0, warnNew := false, fifoHigh := false,
    suspended := false, lastRestore := none, riseAt := none, riseAcc := 0, setAt := 0, moved := 0, polledAt := 0 }

/-- An empty tenant slot. -/
def TenantSlot.fresh : TenantSlot := { state := .empty, key := 0, challenge := 0, at_ := 0 }

/-- No session, no key; windows as R397 and R473 open them for a part without a site key. -/
def Sec.fresh : Sec :=
  { siteKey := none, devKey := 0, vendorKey := 0, tenants := Vector.replicate 4 TenantSlot.fresh, sess := Vector.replicate 8 none,
    pend := Vector.replicate 8 none, csess := Vector.replicate 8 none, cpend := Vector.replicate 8 none, svnRun := 0, svnMin := 0,
    debugOpen := false, serviceOpen := true, claimOpen := true, openAt := 0, claimBlocked := false, authFailAt := none }

/-- A ring port in DOWN, full credit (R348). -/
def Prt.fresh : Prt :=
  { state := .down, trainAt := 0, downAt := 0, cleanFrom := 0, healed := false, fell := false, ts1 := Vector.replicate 2 false, ts2 := false, agree := 0, agreeDelay := 0, crcHist := [],
    laneBad := Vector.replicate 2 false, hseqIn := Vector.replicate 4 none, freed := Vector.replicate 4 0, sent := Vector.replicate 4 0,
    credit := Vector.replicate 4 0, wait := [], hseqOut := Vector.replicate 4 0, crTc := 0, healSent := false, healSeen := false, cqIn := 0,
    chopsIn := 0, crcAt := none, laneAt := none, out := [] }

/-- Accumulators at the start of an interval. -/
def PtAcc.fresh : PtAcc :=
  { blocks := 0, ms := 0, power := 0, mer := 0, offset := 0, snr := 0, hist := [], excursion := 0, mpxSum := 0, mpxCount := 0, mpx := [], mpxBest := none,
    failed := 0, outages := 0 }

/-- A free measurement point. -/
def Point.fresh : Point :=
  { owner := 0, state := .free, srcKind := 0, src := 0, det := 0, std := 0, khz := 0, start := 0, startAt := 0, startGrid := 0, flags := 0, acc := PtAcc.fresh, ckpt := none, lastValue := 0,
    lastFlags := 0, lastCov := 0 }

/-- A cloche as it leaves manufacture (log 7). -/
def Smc.fresh : Smc :=
  { sealSt := .factory, sealGen := 0, tamperLow := false, lateTamper := false, powered := true, failed := false, paused := false,
    pauseReason := 0, suspended := false, highRaised := false, points := Vector.replicate 16 Point.fresh, log := [],
    nextSeq := Vector.replicate 5 1, auditCnt := 0, audit := [], marks := Vector.replicate 4 ⟨0, 0, 0⟩, given := [], counted := [], corr := [],
    lastCkpt := 0, fwName := [], fwVer := 0, fwCrc := 0, svnMin := 0, tenantKeys := Vector.replicate 4 none,
    verifierKeys := Vector.replicate 3 none }

/-- A Loam store with an empty journal; firmware slot A running (log 7). -/
def Loam.fresh : Loam :=
  { recs := [], seg := 0, gen := 1, off := 0, tail := 0, seq := 1, anchorGen := 1, raking := false, reserve := false,
    slots := #v[⟨.valid, 0, 0, []⟩, ⟨.empty, 0, 0, []⟩], active := 0, restart := false, restartAt := 0 }

/-- No time: DEVTIME unset (R518, R523). -/
def Time.fresh : Time :=
  { mono := 0, devtime := 0, set := false, running := false, retained := none, afterSafe := false, grid := 0, placed := false, goneFrame := none, goneEpoch := none,
    goneBlock := none, goneBed := none, goneTick := none, epochNo := 0, step := none, steps := [] }

/-- The part with everything at its reset value but what a reset spares: the fused values, the MRAM, the cloche (R516, R518). -/
def State.fresh (f : Fuse) (l : Loam) (c : Smc) : State :=
  { fuse := f, boot := .complete, rseq := 0, freeCtr := 0, pending := [], regs := [], staged := [], captured := [], lastStatus := [],
    q := { cmd := Vector.replicate 3 [], seen := Vector.replicate 3 [], dropAt := none, q4 := [], q5 := [], q6 := [], gather := [],
           lostPages := [], framed := Vector.replicate 3 0 },
    time := Time.fresh, conds := [], inputs := Vector.replicate 4 Input.fresh, slices := Vector.replicate 96 SliceSt.fresh,
    demods := Vector.replicate 96 Demod.fresh, planGen := 0, snaps := Vector.replicate 4 Snap.fresh, beds := Vector.replicate 12 Bed.fresh,
    decs := Vector.replicate 24 Dec.fresh, slots := Vector.replicate 32 Slot.fresh, afdb := [], afNext := [], survey := [],
    strms := Vector.replicate 512 Strm.fresh, bunds := Vector.replicate 64 Bund.fresh, squeues := Vector.replicate 9 ⟨[], 0, false⟩,
    skeys := Vector.replicate 4 ⟨none, none, none, 0, 0, 0⟩, clk := Clk.fresh, pwr := Pwr.fresh,
    pmb := Vector.replicate 4 ⟨false, false, false, false, false, false, 0⟩, pmbSent := [], sec := Sec.fresh,
    log := ⟨[], 0, false, none, [], [], false, 0, 0⟩, temps := ⟨false, false, false, false, 64, [], [], 0⟩, ports := Vector.replicate 2 Prt.fresh,
    ring := ⟨none, 0, 0, 0, false, [], false, none, false, Vector.replicate 2 false, none⟩,
    twb := ⟨0, .idle, 0, [], [], false, [], [], []⟩, smc := c,
    aud := ⟨.stopped, false, false, 0, false, 0, none, [], Vector.replicate 4 ⟨[], none, false, 0, 0, false, 0, 0⟩⟩,
    cal := ⟨none, false, none, Vector.replicate 4 none, Vector.replicate 4 0, Vector.replicate 4 false⟩,
    snd := ⟨.off, none, none, 0, false, .sent, false, false, false, [], [], .search, none, none, none⟩,
    loam := l, mfp := Vector.replicate 4 ⟨0, false, false⟩ }

/-- The fused values of the part modelled (log 6). -/
def Fuse.default : Fuse := { variant := .cs, serial := 0, dieMajor := 0, dieMinor := 0, fwKeyHash := 0 }

/-- The machine right after reset, at the end of boot, on a part as it leaves manufacture (R518, R519; logs 6, 7, 8). -/
def State.reset : State := State.fresh Fuse.default Loam.fresh Smc.fresh

end Sys2Proof.Machine
end

