-- ==== Sys2Proof/Machine/Samples.lean ====
section
/-! DEFINITION. Samples: the words and packing of I/Q and PCM streams (R67, R73, R138, R216), gains in decibels, fades, first-order filters, and runs of audio by their instants (R98, R155). -/

namespace Sys2Proof.Machine

/-- Bytes packed into 128-bit words from bit 127, unused bytes 0. -/
def packBytes (l : List Byte) : List Quad :=
  (List.range ((l.length + 15) / 16)).map (fun i =>
    let b := (l.drop (16 * i)).take 16
    BitVec.ofNat 128 (natOfBE (b ++ List.replicate (16 - b.length) 0)))

/-! ### I/Q words (R67, R73, R138) -/

/-- A component in units of 2⁻²⁹ of the magnitude at 0 dBFS_c on the scale of 16,384 × 2^shift, to the nearest, before saturation (R67). -/
def iqScale (shift : Nat) (v : Int) : Int := (v * 2 ^ shift + 2 ^ 14) / 2 ^ 15

/-- Whether a sample saturates on its scale: I or Q beyond ±32,767 (R67, R73). -/
def iqSaturates (shift : Nat) (x : Int × Int) : Bool :=
  decide (32767 < (iqScale shift x.1).natAbs) || decide (32767 < (iqScale shift x.2).natAbs)

/-- The word of a sample: I in bits 31:16, Q in bits 15:0, two's complement, saturated at ±32,767 (R67). -/
def iqWord (shift : Nat) (x : Int × Int) : Word :=
  BitVec.ofNat 32 (twos 16 (clampInt (iqScale shift x.1) (-32767) 32767) * 65536 + twos 16 (clampInt (iqScale shift x.2) (-32767) 32767))

/-- The samples of a packet of an I/Q kind: as many as it carries, a missing one 0. -/
def iqSamples (n : Nat) (l : List (Int × Int)) : List (Int × Int) := l.take n ++ List.replicate (n - l.length) (0, 0)

/-- The payload of an I/Q packet of n samples: four to a word, the earliest in bits 127:96, unused bits 0 (R67, R216). -/
def iqPayload (shift n : Nat) (l : List (Int × Int)) : List Quad := quadsOf ((iqSamples n l).map (iqWord shift))

/-! ### Gains and fades -/

/-- 2^120, the one of the fixed-point factors below. -/
def unity : Nat := 2 ^ 120

/-- A factor, in units of 2⁻¹²⁰, raised to a power. -/
def fixedPow (f : Nat) : Nat → Nat
  | 0 => unity
  | n + 1 => fixedPow f n * f / unity

/-- The amplitude of a gain in 0.001 dB, in units of 2⁻¹²⁰: 10^(1/20000) or its inverse, raised to the gain. -/
def dbFactor (g : Int) : Nat :=
  fixedPow (if 0 ≤ g then 1329381037622957435635628040236499863 else 1329074971565452827750383920250332236) g.natAbs

/-- A sample multiplied by a factor in units of 2⁻¹²⁰, to the nearest. -/
def scaleBy (f : Nat) (v : Int) : Int := (v * f + 2 ^ 119) / 2 ^ 120

/-- The power of a level of n steps of −0.05 dB, in units of 2⁻¹²⁰: 10^(−1/400) twice a step (Tables 3.16, 7.5). -/
def levelPower (n : Nat) : Nat := fixedPow 1321598325389450815124148505447420886 (2 * n)

/-- The level whose power is nearest, in decibels, to a power: the first of 4,095 from n on, whose lower half step lies at power h, that does not exceed it. -/
def levelFrom (power : Nat) : Nat → Nat → Nat → Nat
  | 0, n, _ => n
  | fuel + 1, n, h =>
    if h ≤ power then n
    else levelFrom power fuel (n + 1) (h * 1321598325389450815124148505447420886 / unity * 1321598325389450815124148505447420886 / unity)

/-- The level of a power, in −0.05 dB steps, 0 to 4,095. -/
def levelOf (power : Nat) : Nat := levelFrom power 4095 0 1321598325389450815124148505447420886

/-- The power of a level in 0.01 dB, in units of 2⁻¹²⁰: 10^(1/1000) raised to the level. -/
def centiPower (l : Int) : Nat :=
  let f := fixedPow 1332292182775009525573244226295572618 (l % 1000).toNat
  if 0 ≤ l then f * 10 ^ (l / 1000).toNat else f / 10 ^ (-(l / 1000)).toNat

/-- The greatest level between two whose power, half a step lower, does not exceed a power. -/
def centiSearch (power : Nat) : Nat → Int → Int → Int
  | 0, lo, _ => lo
  | fuel + 1, lo, hi =>
    let mid := (lo + hi + 1) / 2
    if centiPower mid * centiPower (mid - 1) ≤ power * power then centiSearch power fuel mid hi else centiSearch power fuel lo (mid - 1)

/-- The level of a power, in 0.01 dB, to the nearest, from −300 dB to 100 dB. -/
def centiLevel (power : Nat) : Int := centiSearch power 16 (-30000) 10000

/-- The terms of the cosine series from one on, in units of 2⁻⁶⁰: z² by its square, k the index of the term. -/
def cosTerms (z2 : Int) : Nat → Nat → Int → Int
  | 0, _, _ => 0
  | n + 1, k, t => t + cosTerms z2 n (k + 1) (-(t * z2 / 2 ^ 60) / ((2 * k + 1) * (2 * k + 2)))

/-- The gain of R202 at t of a blend of n, in units of 2⁻⁶⁰: (1 − cos(π t / n)) / 2; 1 from the end on. -/
def raisedCos (t n : Nat) : Int :=
  if n ≤ t then 2 ^ 60
  else
    let z : Int := 3622009729038561421 * t / n
    (2 ^ 60 - cosTerms (z * z / 2 ^ 60) 20 0 (2 ^ 60)) / 2

/-- A sample multiplied by a gain in units of 2⁻⁶⁰, to the nearest. -/
def fadeBy (g v : Int) : Int := (v * g + 2 ^ 59) / 2 ^ 60

/-! ### Filters (R110, R111) -/

/-- A step of the first-order low-pass b(1 + z⁻¹) / (d − a z⁻¹), b + b + a = d, on inputs and outputs held to 2⁻¹⁶ of a sample. -/
def FiltMem.step (m : FiltMem) (b a d v : Int) : FiltMem := ⟨v * 65536, (b * (v * 65536 + m.x) + a * m.y) / d⟩

/-- A sample as a filter leaves it. -/
def FiltMem.out (m : FiltMem) : Int := (m.y + 32768) / 65536

/-- A run of samples through a first-order low-pass: the memory after, and the samples out. -/
def lowPass (b a d : Int) (m : FiltMem) : List Int → FiltMem × List Int
  | [] => (m, [])
  | v :: l =>
    let m1 := m.step b a d v
    let r := lowPass b a d m1 l
    (r.1, m1.out :: r.2)

/-- De-emphasis with a time constant in µs at 48 kHz, by the bilinear transform (R110); none for 0. -/
def deEmphasis (tau : Nat) (m : FiltMem) (l : List Int) : FiltMem × List Int :=
  if tau = 0 then (⟨0, 0⟩, l) else lowPass 1000 (96 * (tau : Int) - 1000) (96 * tau + 1000) m l

/-- The corner of the high-cut in Hz after d of its 48 quarter decibels of travel: 15 kHz · 5^(−d/48), from 15 kHz to 3 kHz, by bisection (R111). -/
def hicutSearch (d : Nat) : Nat → Nat → Nat → Nat
  | 0, lo, _ => lo
  | fuel + 1, lo, hi =>
    let mid := (lo + hi + 1) / 2
    if mid ^ 48 * 5 ^ d ≤ 15000 ^ 48 then hicutSearch d fuel mid hi else hicutSearch d fuel lo (mid - 1)

/-- The corner of the high-cut in Hz (R111). -/
def hicutCorner (d : Nat) : Nat := hicutSearch d 14 3000 15000

/-- The high-cut at 48 kHz, by the bilinear transform with π as 355/113; none where it has not moved (R111). -/
def highCut (d : Nat) (m : FiltMem) (l : List Int) : FiltMem × List Int :=
  if d = 0 then (⟨0, 0⟩, l) else lowPass (355 * hicutCorner d) (48000 * 113 - 355 * hicutCorner d) (48000 * 113 + 355 * hicutCorner d) m l

/-! ### Audio by its instants (R98, R155, R216) -/

/-- A sample held to 24 bits. -/
def clamp24 (v : Int) : Int := clampInt v (-8388608) 8388607

/-- A 24-bit sample in 16 bits: rounded, saturated (R177, R237). -/
def to16 (v : Int) : Int := clampInt ((v + 128) / 256) (-32768) 32767

/-- The ticks of n samples at 48 kHz, to the nearest (R216). -/
def sampleTicks (n : Nat) : Nat := (n * 80000 + 3) / 6

/-- The root time of sample n of a clip. -/
def Clip.instant (c : Clip) (n : Nat) : Nat := c.at_ + sampleTicks n

/-- The root time at which a clip ends. -/
def Clip.stop (c : Clip) : Nat := c.instant c.frames.length

/-- The number of a clip's samples that lie before an instant. -/
def Clip.before (c : Clip) (t : Nat) : Nat := ((List.range c.frames.length).takeWhile (fun n => decide (c.instant n < t))).length

/-- The part of a clip whose samples lie from one instant up to another; none where no sample does. -/
def Clip.within (c : Clip) (from_ to_ : Nat) : Option Clip :=
  if c.stop ≤ from_ ∨ to_ ≤ c.at_ then none
  else
    let a := c.before from_
    let b := c.before to_
    if a < b then some { c with at_ := c.instant a, frames := (c.frames.take b).drop a } else none

/-- The audio that a list of clips holds from one instant up to another. -/
def clipsWithin (l : List Clip) (from_ to_ : Nat) : List Clip := l.filterMap (fun c => c.within from_ to_)

/-- The samples of a list of clips, in order. -/
def clipFrames (l : List Clip) : List (Int × Int) := l.flatMap (·.frames)

/-- The sample that a list of clips has nearest an instant, within half a sample. -/
def clipAt (l : List Clip) (t : Nat) : Option (Clip × (Int × Int)) :=
  l.findSome? (fun c =>
    if t + 6666 < c.at_ then none
    else
      let n := (t + 6666 - c.at_) * 6 / 80000
      if decide (c.instant n ≤ t + 6666) then (c.frames[n]?).map (fun f => (c, f)) else none)

/-- Clips of which nothing lies after an instant dropped. -/
def clipsSince (l : List Clip) (t : Nat) : List Clip := l.filter (fun c => decide (t < c.stop))

/-- The conditions of two sets of samples together. -/
def Cond.join (a b : Cond) : Cond := ⟨a.unlocked || b.unlocked, a.holdover || b.holdover, a.half || b.half⟩

/-- No condition. -/
def Cond.none : Cond := ⟨false, false, false⟩

/-- The payload of a PCM packet: 24-bit samples, left before right, most significant bit first, from bit 127 of the first word on (R216). -/
def packPcm (l : List (Int × Int)) : List Quad := packBytes (l.flatMap (fun f => bytesBE 3 (twos 24 f.1) ++ bytesBE 3 (twos 24 f.2)))

end Sys2Proof.Machine
end

