-- ==== Sys2Proof/Machine/Fields.lean ====
section
/-! DEFINITION. The register fields by name: offset in the page, stride of a repeated register, bits hi to lo (the register tables of the chapters). -/

namespace Sys2Proof.Machine

/-- A field of a page: offset, stride between repetitions, high bit, low bit. -/
structure Fld where
  off : Nat
  stride : Nat
  hi : Nat
  lo : Nat
deriving DecidableEq, Repr

/-- Repetition k of a field. -/
def Fld.nth (f : Fld) (k : Nat) : Fld := ⟨f.off + f.stride * k, f.stride, f.hi, f.lo⟩

-- INP pages (02)
def inpHrRank : Fld := ⟨0x40, 0, 9, 8⟩
def inpAgcMode : Fld := ⟨0x40, 0, 5, 4⟩
def inpGainCode : Fld := ⟨0x44, 0, 6, 0⟩
def inpGainMax : Fld := ⟨0x48, 0, 22, 16⟩
def inpGainMin : Fld := ⟨0x48, 0, 6, 0⟩
def inpHyst : Fld := ⟨0x4C, 0, 23, 16⟩
def inpAttackTh : Fld := ⟨0x4C, 0, 15, 8⟩
def inpTargetRms : Fld := ⟨0x4C, 0, 7, 0⟩
def inpHoldAfterAttack : Fld := ⟨0x50, 0, 31, 24⟩
def inpDecayWin : Fld := ⟨0x50, 0, 23, 16⟩
def inpDecayStep : Fld := ⟨0x50, 0, 11, 8⟩
def inpAttackStep : Fld := ⟨0x50, 0, 5, 0⟩
def inpOvrPersist : Fld := ⟨0x54, 0, 7, 0⟩
def inpConvState : Fld := ⟨0x58, 0, 18, 16⟩
def inpAcquiring : Fld := ⟨0x58, 0, 9, 9⟩
def inpHalfRate : Fld := ⟨0x58, 0, 8, 8⟩
def inpGainNow : Fld := ⟨0x58, 0, 6, 0⟩
def inpStepTime : Fld := ⟨0x5C, 0, 31, 0⟩
def inpValid : Fld := ⟨0x60, 0, 31, 31⟩
def inpEpochPeak : Fld := ⟨0x60, 0, 23, 16⟩
def inpEpochRms : Fld := ⟨0x60, 0, 7, 0⟩
def inpOvrCnt : Fld := ⟨0x64, 0, 31, 0⟩
def inpStepCnt : Fld := ⟨0x68, 0, 31, 0⟩
def inpHrCnt : Fld := ⟨0x6C, 0, 31, 0⟩
-- SIEVE page (03)
def sieveEqEn : Fld := ⟨0x40, 0, 3, 0⟩
def sieveShift3 : Fld := ⟨0x44, 0, 15, 12⟩
def sieveShift2 : Fld := ⟨0x44, 0, 11, 8⟩
def sieveShift1 : Fld := ⟨0x44, 0, 7, 4⟩
def sieveShift0 : Fld := ⟨0x44, 0, 3, 0⟩
def sieveCoefGen : Fld := ⟨0x48, 0, 31, 24⟩
def sieveRebuild : Fld := ⟨0x48, 0, 7, 4⟩
def sieveHalf : Fld := ⟨0x48, 0, 3, 0⟩
def sieveEpochLo : Fld := ⟨0x4C, 0, 31, 0⟩
def sieveEpochHi : Fld := ⟨0x50, 0, 31, 0⟩
def sieveOvfCnt0 : Fld := ⟨0x54, 0, 31, 0⟩
def sieveOvfCnt1 : Fld := ⟨0x58, 0, 31, 0⟩
def sieveOvfCnt2 : Fld := ⟨0x5C, 0, 31, 0⟩
def sieveOvfCnt3 : Fld := ⟨0x60, 0, 31, 0⟩
-- SLC pages (03)
def slcInput : Fld := ⟨0x40, 0, 9, 8⟩
def slcBin : Fld := ⟨0x40, 0, 6, 0⟩
def slcTune : Fld := ⟨0x44, 0, 31, 0⟩
def slcIqShift : Fld := ⟨0x48, 0, 27, 24⟩
def slcDemod : Fld := ⟨0x48, 0, 18, 16⟩
def slcFilter : Fld := ⟨0x48, 0, 3, 0⟩
def slcUse : Fld := ⟨0x4C, 0, 26, 24⟩
def slcSurvey : Fld := ⟨0x4C, 0, 20, 20⟩
def slcEdge : Fld := ⟨0x4C, 0, 17, 16⟩
def slcMirror : Fld := ⟨0x4C, 0, 12, 12⟩
def slcSettling : Fld := ⟨0x4C, 0, 8, 8⟩
def slcPlanGen : Fld := ⟨0x4C, 0, 7, 0⟩
def slcValid : Fld := ⟨0x50, 0, 31, 31⟩
def slcLevel : Fld := ⟨0x50, 0, 11, 0⟩
def slcBlockLo : Fld := ⟨0x54, 0, 31, 0⟩
def slcBlockHi : Fld := ⟨0x58, 0, 31, 0⟩
def slcOvrCnt : Fld := ⟨0x5C, 0, 31, 0⟩
def slcSatCnt : Fld := ⟨0x60, 0, 31, 0⟩
-- ALN page (03)
def alnTotal : Fld := ⟨0x40, 0, 31, 0⟩
def alnShare : Fld := ⟨0x44, 0, 31, 0⟩
def alnReserved : Fld := ⟨0x48, 0, 31, 0⟩
def alnSnapHeld : Fld := ⟨0x4C, 0, 31, 0⟩
def alnFree : Fld := ⟨0x50, 0, 31, 0⟩
def alnInput : Fld := ⟨0x60, 0x20, 29, 28⟩
def alnTrig : Fld := ⟨0x60, 0x20, 25, 24⟩
def alnPre : Fld := ⟨0x60, 0x20, 23, 16⟩
def alnArm : Fld := ⟨0x60, 0x20, 0, 0⟩
def alnFrames : Fld := ⟨0x64, 0x20, 16, 0⟩
def alnTrigLo : Fld := ⟨0x68, 0x20, 31, 0⟩
def alnTrigHi : Fld := ⟨0x6C, 0x20, 31, 0⟩
def alnT0Lo : Fld := ⟨0x70, 0x20, 31, 0⟩
def alnT0Hi : Fld := ⟨0x74, 0x20, 31, 0⟩
def alnOwner : Fld := ⟨0x78, 0x20, 31, 24⟩
def alnEccErr : Fld := ⟨0x78, 0x20, 11, 11⟩
def alnLate : Fld := ⟨0x78, 0x20, 10, 10⟩
def alnEndedEarly : Fld := ⟨0x78, 0x20, 9, 9⟩
def alnState : Fld := ⟨0x78, 0x20, 2, 0⟩
def alnDiscard : Fld := ⟨0x7C, 0x20, 31, 31⟩
def alnRead : Fld := ⟨0x7C, 0x20, 30, 30⟩
def alnStreamId : Fld := ⟨0x7C, 0x20, 8, 0⟩
-- SLC pages, AM set (04)
def amDet : Fld := ⟨0x80, 0, 9, 8⟩
def amAmssEn : Fld := ⟨0x80, 0, 4, 4⟩
def amSoftmuteEn : Fld := ⟨0x80, 0, 0, 0⟩
def amSoftmuteDepth : Fld := ⟨0x84, 0, 15, 8⟩
def amSoftmuteTh : Fld := ⟨0x84, 0, 7, 0⟩
def amValid : Fld := ⟨0xC0, 0, 31, 31⟩
def amAmssSync : Fld := ⟨0xC0, 0, 2, 2⟩
def amCarrierLock : Fld := ⟨0xC0, 0, 1, 1⟩
def amCarrier : Fld := ⟨0xC0, 0, 0, 0⟩
def amModDepth : Fld := ⟨0xC4, 0, 15, 8⟩
def amCnr : Fld := ⟨0xC4, 0, 7, 0⟩
def amOffset : Fld := ⟨0xC8, 0, 31, 0⟩
def amSidValid : Fld := ⟨0xD0, 0, 31, 31⟩
def amSid : Fld := ⟨0xD0, 0, 23, 0⟩
def amAmssGood : Fld := ⟨0xD4, 0, 31, 16⟩
def amAmssBad : Fld := ⟨0xD4, 0, 15, 0⟩
-- SLC pages, FM set (04)
def fmDeemph : Fld := ⟨0x80, 0, 13, 12⟩
def fmStereo : Fld := ⟨0x80, 0, 9, 8⟩
def fmHicutEn : Fld := ⟨0x80, 0, 7, 7⟩
def fmCorrMax : Fld := ⟨0x80, 0, 6, 4⟩
def fmRdsUnknown : Fld := ⟨0x80, 0, 3, 3⟩
def fmRdsStd : Fld := ⟨0x80, 0, 2, 2⟩
def fmRdsEn : Fld := ⟨0x80, 0, 1, 1⟩
def fmSoftmuteEn : Fld := ⟨0x80, 0, 0, 0⟩
def fmBlendMp : Fld := ⟨0x84, 0, 31, 24⟩
def fmBlendHi : Fld := ⟨0x84, 0, 15, 8⟩
def fmBlendLo : Fld := ⟨0x84, 0, 7, 0⟩
def fmHicutTh : Fld := ⟨0x88, 0, 23, 16⟩
def fmSoftmuteDepth : Fld := ⟨0x88, 0, 15, 8⟩
def fmSoftmuteTh : Fld := ⟨0x88, 0, 7, 0⟩
def fmRdsMask : Fld := ⟨0x8C, 0, 31, 0⟩
def fmValid : Fld := ⟨0xC0, 0, 31, 31⟩
def fmRdsSync : Fld := ⟨0xC0, 0, 12, 12⟩
def fmStereoShare : Fld := ⟨0xC0, 0, 11, 4⟩
def fmPilotLock : Fld := ⟨0xC0, 0, 1, 1⟩
def fmCarrier : Fld := ⟨0xC0, 0, 0, 0⟩
def fmMp : Fld := ⟨0xC4, 0, 31, 24⟩
def fmDevPeak : Fld := ⟨0xC4, 0, 23, 12⟩
def fmCnr : Fld := ⟨0xC4, 0, 7, 0⟩
def fmOffset : Fld := ⟨0xC8, 0, 31, 0⟩
def fmPilotDev : Fld := ⟨0xCC, 0, 11, 0⟩
def fmPiValid : Fld := ⟨0xD0, 0, 31, 31⟩
def fmMs : Fld := ⟨0xD0, 0, 26, 26⟩
def fmTa : Fld := ⟨0xD0, 0, 25, 25⟩
def fmTp : Fld := ⟨0xD0, 0, 24, 24⟩
def fmPty : Fld := ⟨0xD0, 0, 20, 16⟩
def fmPi : Fld := ⟨0xD0, 0, 15, 0⟩
def fmRdsPs0 : Fld := ⟨0xD4, 0, 31, 0⟩
def fmRdsPs1 : Fld := ⟨0xD8, 0, 31, 0⟩
def fmCtValid : Fld := ⟨0xDC, 0, 31, 31⟩
def fmMjd : Fld := ⟨0xDC, 0, 16, 0⟩
def fmHour : Fld := ⟨0xE0, 0, 20, 16⟩
def fmMinute : Fld := ⟨0xE0, 0, 13, 8⟩
def fmLocalOfs : Fld := ⟨0xE0, 0, 5, 0⟩
def fmCtTime : Fld := ⟨0xE4, 0, 31, 0⟩
def fmRtComplete : Fld := ⟨0xE8, 0, 31, 31⟩
def fmRtAb : Fld := ⟨0xE8, 0, 30, 30⟩
def fmRtLen : Fld := ⟨0xE8, 0, 6, 0⟩
def fmPsComplete : Fld := ⟨0xEC, 0, 31, 31⟩
def fmPsSeg : Fld := ⟨0xEC, 0, 3, 0⟩
def fmRdsGrpCnt : Fld := ⟨0xF0, 0, 31, 0⟩
def fmRdsBadCnt : Fld := ⟨0xF4, 0, 31, 0⟩
def fmBler : Fld := ⟨0xF8, 0, 9, 0⟩
def fmAfValid : Fld := ⟨0xFC, 0, 31, 31⟩
def fmAfMethod : Fld := ⟨0xFC, 0, 24, 24⟩
def fmAfCount : Fld := ⟨0xFC, 0, 7, 0⟩
def fmRdsRtn : Fld := ⟨0x100, 0x4, 31, 0⟩
-- BED pages (05)
def bedInput : Fld := ⟨0x40, 0, 9, 8⟩
def bedBin : Fld := ⟨0x40, 0, 6, 0⟩
def bedTune : Fld := ⟨0x44, 0, 31, 0⟩
def bedIqShift : Fld := ⟨0x48, 0, 27, 24⟩
def bedFibRec : Fld := ⟨0x48, 0, 1, 0⟩
def bedPadMaskLo : Fld := ⟨0x4C, 0, 31, 0⟩
def bedPadMaskHi : Fld := ⟨0x50, 0, 31, 0⟩
def bedState : Fld := ⟨0x54, 0, 26, 24⟩
def bedEdge : Fld := ⟨0x54, 0, 17, 16⟩
def bedSvcOvf : Fld := ⟨0x54, 0, 9, 9⟩
def bedReconfPending : Fld := ⟨0x54, 0, 8, 8⟩
def bedMciGen : Fld := ⟨0x54, 0, 7, 0⟩
def bedValid_058 : Fld := ⟨0x58, 0, 31, 31⟩
def bedMer : Fld := ⟨0x58, 0, 25, 16⟩
def bedFicBer : Fld := ⟨0x58, 0, 15, 0⟩
def bedOffset : Fld := ⟨0x5C, 0, 31, 0⟩
def bedLvlValid : Fld := ⟨0x60, 0, 31, 31⟩
def bedLevel : Fld := ⟨0x60, 0, 11, 0⟩
def bedFrameLo : Fld := ⟨0x64, 0, 31, 0⟩
def bedFrameHi : Fld := ⟨0x68, 0, 31, 0⟩
def bedEidValid : Fld := ⟨0x6C, 0, 31, 31⟩
def bedCifCnt : Fld := ⟨0x6C, 0, 28, 16⟩
def bedEid : Fld := ⟨0x6C, 0, 15, 0⟩
def bedFibOk : Fld := ⟨0x70, 0, 31, 0⟩
def bedFibBad : Fld := ⟨0x74, 0, 31, 0⟩
def bedOvrCnt : Fld := ⟨0x78, 0, 31, 0⟩
def bedSatCnt : Fld := ⟨0x7C, 0, 31, 0⟩
def bedLabel : Fld := ⟨0x80, 0x4, 31, 0⟩
def bedLabelValid : Fld := ⟨0x90, 0, 31, 31⟩
def bedCharset : Fld := ⟨0x90, 0, 3, 0⟩
def bedSyncLoss : Fld := ⟨0x94, 0, 31, 0⟩
def bedValid_100 : Fld := ⟨0x100, 0x4, 31, 31⟩
def bedForm : Fld := ⟨0x100, 0x4, 30, 30⟩
def bedStart : Fld := ⟨0x100, 0x4, 29, 20⟩
def bedSize : Fld := ⟨0x100, 0x4, 19, 10⟩
def bedProt : Fld := ⟨0x100, 0x4, 5, 0⟩
def bedSid : Fld := ⟨0x200, 0x8, 31, 0⟩
def bedValid_204 : Fld := ⟨0x204, 0x8, 31, 31⟩
def bedLinked : Fld := ⟨0x204, 0x8, 30, 30⟩
def bedCa : Fld := ⟨0x204, 0x8, 29, 29⟩
def bedPrimarySubch : Fld := ⟨0x204, 0x8, 21, 16⟩
def bedType : Fld := ⟨0x204, 0x8, 13, 8⟩
def bedTmid : Fld := ⟨0x204, 0x8, 5, 4⟩
def bedComponents : Fld := ⟨0x204, 0x8, 3, 0⟩
-- DEC page (05)
def decEn : Fld := ⟨0x40, 0x20, 31, 31⟩
def decSrcKind : Fld := ⟨0x40, 0x20, 29, 28⟩
def decSrc : Fld := ⟨0x40, 0x20, 25, 19⟩
def decSubch : Fld := ⟨0x40, 0x20, 17, 12⟩
def decDualSel : Fld := ⟨0x40, 0x20, 9, 8⟩
def decCodec : Fld := ⟨0x40, 0x20, 7, 5⟩
def decConcealMax : Fld := ⟨0x44, 0x20, 7, 0⟩
def decOwner : Fld := ⟨0x48, 0x20, 31, 24⟩
def decState : Fld := ⟨0x48, 0x20, 22, 20⟩
def decMismatch : Fld := ⟨0x48, 0x20, 19, 19⟩
def decCa : Fld := ⟨0x48, 0x20, 18, 18⟩
def decCodecFound : Fld := ⟨0x48, 0x20, 17, 15⟩
def decSrate : Fld := ⟨0x4C, 0x20, 31, 15⟩
def decChmode : Fld := ⟨0x4C, 0x20, 12, 11⟩
def decSbr : Fld := ⟨0x4C, 0x20, 10, 10⟩
def decBitrate : Fld := ⟨0x4C, 0x20, 9, 0⟩
def decGood : Fld := ⟨0x50, 0x20, 31, 0⟩
def decBad : Fld := ⟨0x54, 0x20, 31, 0⟩
def decRsCorr : Fld := ⟨0x58, 0x20, 31, 16⟩
def decRsFail : Fld := ⟨0x58, 0x20, 15, 0⟩
def decMute : Fld := ⟨0x5C, 0x20, 31, 0⟩
-- SLC pages, DRM set (05)
def drmModeForce : Fld := ⟨0x80, 0, 10, 8⟩
def drmSdcRec : Fld := ⟨0x80, 0, 5, 4⟩
def drmTextRec : Fld := ⟨0x80, 0, 2, 2⟩
def drmFacRec : Fld := ⟨0x80, 0, 1, 1⟩
def drmValid_0c0 : Fld := ⟨0xC0, 0, 31, 31⟩
def drmSdcOk : Fld := ⟨0xC0, 0, 19, 19⟩
def drmFacOk : Fld := ⟨0xC0, 0, 18, 18⟩
def drmFrameSync : Fld := ⟨0xC0, 0, 17, 17⟩
def drmFreqSync : Fld := ⟨0xC0, 0, 16, 16⟩
def drmTimeSync : Fld := ⟨0xC0, 0, 15, 15⟩
def drmRobMode : Fld := ⟨0xC0, 0, 14, 12⟩
def drmOcc : Fld := ⟨0xC0, 0, 11, 9⟩
def drmInterleave : Fld := ⟨0xC0, 0, 8, 8⟩
def drmMscQam : Fld := ⟨0xC0, 0, 7, 6⟩
def drmSdcQam : Fld := ⟨0xC0, 0, 5, 5⟩
def drmMer : Fld := ⟨0xC4, 0, 25, 16⟩
def drmMerFac : Fld := ⟨0xC4, 0, 9, 0⟩
def drmOffset : Fld := ⟨0xC8, 0, 31, 0⟩
def drmDoppler : Fld := ⟨0xCC, 0, 31, 16⟩
def drmDelay : Fld := ⟨0xCC, 0, 15, 0⟩
def drmValid_0d0 : Fld := ⟨0xD0, 0x4, 31, 31⟩
def drmAudio : Fld := ⟨0xD0, 0x4, 30, 30⟩
def drmCa : Fld := ⟨0xD0, 0x4, 29, 29⟩
def drmStream : Fld := ⟨0xD0, 0x4, 25, 24⟩
def drmSid : Fld := ⟨0xD0, 0x4, 23, 0⟩
def drmValid_0e0 : Fld := ⟨0xE0, 0x4, 31, 31⟩
def drmCoding : Fld := ⟨0xE0, 0x4, 23, 21⟩
def drmBitrate : Fld := ⟨0xE0, 0x4, 19, 0⟩
def drmFacGood : Fld := ⟨0xF0, 0, 31, 16⟩
def drmFacBad : Fld := ⟨0xF0, 0, 15, 0⟩
def drmSdcGood : Fld := ⟨0xF4, 0, 31, 16⟩
def drmSdcBad : Fld := ⟨0xF4, 0, 15, 0⟩
-- SVC pages (06)
def svcMaxDelay : Fld := ⟨0x40, 0, 28, 16⟩
def svcInputB3 : Fld := ⟨0x40, 0, 13, 12⟩
def svcInputB2 : Fld := ⟨0x40, 0, 11, 10⟩
def svcInputLf : Fld := ⟨0x40, 0, 9, 8⟩
def svcRbds : Fld := ⟨0x40, 0, 7, 7⟩
def svcDeemph75 : Fld := ⟨0x40, 0, 6, 6⟩
def svcIdByAudio : Fld := ⟨0x40, 0, 5, 5⟩
def svcSoftLinkOk : Fld := ⟨0x40, 0, 4, 4⟩
def svcUseDb : Fld := ⟨0x40, 0, 3, 3⟩
def svcLearnDb : Fld := ⟨0x40, 0, 2, 2⟩
def svcAutoCand : Fld := ⟨0x40, 0, 1, 1⟩
def svcPrio : Fld := ⟨0x44, 0, 26, 24⟩
def svcPresent : Fld := ⟨0x44, 0, 16, 0⟩
def svcPiMask : Fld := ⟨0x48, 0, 31, 16⟩
def svcPi : Fld := ⟨0x48, 0, 15, 0⟩
def svcEcc : Fld := ⟨0x4C, 0, 31, 24⟩
def svcSid_04c : Fld := ⟨0x4C, 0, 15, 0⟩
def svcSid_050 : Fld := ⟨0x50, 0, 23, 0⟩
def svcLearned : Fld := ⟨0x54, 0, 10, 8⟩
def svcEn : Fld := ⟨0x54, 0, 2, 0⟩
def svcQLow : Fld := ⟨0x58, 0, 31, 24⟩
def svcSwMargin : Fld := ⟨0x58, 0, 23, 16⟩
def svcBetterMargin : Fld := ⟨0x58, 0, 15, 8⟩
def svcCorrMin : Fld := ⟨0x58, 0, 7, 0⟩
def svcDwellBad : Fld := ⟨0x5C, 0, 31, 24⟩
def svcDwellBetter : Fld := ⟨0x5C, 0, 23, 16⟩
def svcHoldoff : Fld := ⟨0x5C, 0, 15, 8⟩
def svcFailRetry : Fld := ⟨0x5C, 0, 7, 0⟩
def svcLoudEn : Fld := ⟨0x60, 0, 31, 31⟩
def svcBlendMs : Fld := ⟨0x60, 0, 24, 16⟩
def svcLoudRel : Fld := ⟨0x60, 0, 15, 8⟩
def svcBonusFm : Fld := ⟨0x64, 0, 31, 24⟩
def svcBonusAm : Fld := ⟨0x64, 0, 23, 16⟩
def svcBonusDab : Fld := ⟨0x64, 0, 15, 8⟩
def svcBonusDrm : Fld := ⟨0x64, 0, 7, 0⟩
def svcThFm : Fld := ⟨0x68, 0, 31, 24⟩
def svcThAm : Fld := ⟨0x68, 0, 23, 16⟩
def svcThDab : Fld := ⟨0x68, 0, 15, 8⟩
def svcThDrm : Fld := ⟨0x68, 0, 7, 0⟩
def svcState_080 : Fld := ⟨0x80, 0, 31, 30⟩
def svcActive : Fld := ⟨0x80, 0, 27, 24⟩
def svcStandby : Fld := ⟨0x80, 0, 23, 20⟩
def svcCandGen : Fld := ⟨0x80, 0, 15, 8⟩
def svcPresNow : Fld := ⟨0x84, 0, 31, 0⟩
def svcGain : Fld := ⟨0x88, 0, 31, 0⟩
def svcSwitchCnt : Fld := ⟨0x8C, 0, 31, 0⟩
def svcNosrcCnt : Fld := ⟨0x90, 0, 31, 0⟩
def svcCandDrop : Fld := ⟨0x94, 0, 31, 0⟩
def svcLastSwLo : Fld := ⟨0x98, 0, 31, 0⟩
def svcLastSwHi : Fld := ⟨0x9C, 0, 31, 0⟩
def svcValid : Fld := ⟨0x100, 0x20, 31, 31⟩
def svcPin : Fld := ⟨0x100, 0x20, 30, 30⟩
def svcBlock : Fld := ⟨0x100, 0x20, 29, 29⟩
def svcStd : Fld := ⟨0x100, 0x20, 28, 26⟩
def svcFreq : Fld := ⟨0x100, 0x20, 17, 0⟩
def svcState_104 : Fld := ⟨0x104, 0x20, 31, 28⟩
def svcFailReason : Fld := ⟨0x104, 0x20, 27, 25⟩
def svcOrigin : Fld := ⟨0x104, 0x20, 24, 16⟩
def svcQ : Fld := ⟨0x104, 0x20, 15, 8⟩
def svcTooLate : Fld := ⟨0x104, 0x20, 7, 7⟩
def svcLoudClamp : Fld := ⟨0x104, 0x20, 6, 6⟩
def svcFilled : Fld := ⟨0x104, 0x20, 5, 5⟩
def svcLoudValid : Fld := ⟨0x104, 0x20, 4, 4⟩
def svcWait : Fld := ⟨0x104, 0x20, 2, 0⟩
def svcRxKind : Fld := ⟨0x108, 0x20, 31, 30⟩
def svcRx : Fld := ⟨0x108, 0x20, 29, 23⟩
def svcDec : Fld := ⟨0x108, 0x20, 22, 18⟩
def svcSubch : Fld := ⟨0x108, 0x20, 17, 12⟩
def svcOfs : Fld := ⟨0x10C, 0x20, 31, 0⟩
def svcCorr : Fld := ⟨0x110, 0x20, 31, 24⟩
def svcLoudDiff : Fld := ⟨0x110, 0x20, 15, 0⟩
def svcIdKind : Fld := ⟨0x114, 0x20, 31, 30⟩
def svcId : Fld := ⟨0x114, 0x20, 23, 0⟩
-- STRM page (07)
def strmSel : Fld := ⟨0x40, 0, 8, 0⟩
def strmEn_044 : Fld := ⟨0x44, 0, 31, 31⟩
def strmKind : Fld := ⟨0x44, 0, 27, 24⟩
def strmQueue : Fld := ⟨0x44, 0, 19, 16⟩
def strmBundled : Fld := ⟨0x44, 0, 15, 15⟩
def strmBundle : Fld := ⟨0x44, 0, 13, 8⟩
def strmSrcKind : Fld := ⟨0x48, 0, 31, 28⟩
def strmSrc : Fld := ⟨0x48, 0, 22, 16⟩
def strmSub : Fld := ⟨0x48, 0, 15, 0⟩
def strmOwner_04c : Fld := ⟨0x4C, 0, 31, 24⟩
def strmEncrypted : Fld := ⟨0x4C, 0, 16, 16⟩
def strmState : Fld := ⟨0x4C, 0, 1, 0⟩
def strmSeq : Fld := ⟨0x50, 0, 15, 0⟩
def strmPktCnt : Fld := ⟨0x54, 0, 31, 0⟩
def strmDropCnt : Fld := ⟨0x58, 0, 31, 0⟩
def strmLateCnt : Fld := ⟨0x5C, 0, 31, 0⟩
def strmBundSel : Fld := ⟨0x60, 0, 5, 0⟩
def strmEn_064 : Fld := ⟨0x64, 0, 31, 31⟩
def strmHold : Fld := ⟨0x64, 0, 11, 0⟩
def strmOwner_068 : Fld := ⟨0x68, 0, 31, 24⟩
def strmMembers : Fld := ⟨0x68, 0, 8, 0⟩
def strmBRsv : Fld := ⟨0x6C, 0, 31, 0⟩
def strmBDropCnt : Fld := ⟨0x70, 0, 31, 0⟩
def strmBLateCnt : Fld := ⟨0x74, 0, 31, 0⟩
def strmOwner_080 : Fld := ⟨0x80, 0x4, 31, 24⟩
def strmQreset : Fld := ⟨0x80, 0x4, 8, 8⟩
def strmPorts : Fld := ⟨0x80, 0x4, 5, 4⟩
def strmTc : Fld := ⟨0x80, 0x4, 1, 0⟩
def strmFill : Fld := ⟨0xC0, 0x4, 14, 0⟩
def strmQDrop : Fld := ⟨0x100, 0x4, 31, 0⟩
-- AUD page (08)
def audMclkSrc : Fld := ⟨0x40, 0, 9, 8⟩
def audSlot : Fld := ⟨0x40, 0, 7, 6⟩
def audFs : Fld := ⟨0x40, 0, 5, 4⟩
def audMode : Fld := ⟨0x40, 0, 1, 0⟩
def audSscEn : Fld := ⟨0x44, 0, 31, 31⟩
def audRate : Fld := ⟨0x44, 0, 14, 8⟩
def audDepth : Fld := ⟨0x44, 0, 4, 0⟩
def audEn : Fld := ⟨0x48, 0x4, 31, 31⟩
def audSrcKind : Fld := ⟨0x48, 0x4, 30, 28⟩
def audSrc : Fld := ⟨0x48, 0x4, 22, 16⟩
def audOwner : Fld := ⟨0x48, 0x4, 15, 8⟩
def audLock : Fld := ⟨0x48, 0x4, 1, 1⟩
def audMuted : Fld := ⟨0x48, 0x4, 0, 0⟩
def audRatio : Fld := ⟨0x58, 0x4, 31, 0⟩
def audClkState : Fld := ⟨0x68, 0, 1, 0⟩
def audGap : Fld := ⟨0x6C, 0, 31, 0⟩
def audFrameErr : Fld := ⟨0x70, 0, 31, 0⟩
def audLostCnt : Fld := ⟨0x74, 0, 31, 0⟩
-- CAL page (09)
def calProbe : Fld := ⟨0x40, 0, 12, 12⟩
def calInputs : Fld := ⟨0x40, 0, 11, 8⟩
def calOp : Fld := ⟨0x40, 0, 1, 0⟩
def calFreq : Fld := ⟨0x44, 0, 17, 0⟩
def calBusy : Fld := ⟨0x48, 0, 31, 31⟩
def calStep : Fld := ⟨0x48, 0, 30, 28⟩
def calSrcProbe : Fld := ⟨0x48, 0, 17, 16⟩
def calSrc : Fld := ⟨0x48, 0, 15, 8⟩
def calAborted : Fld := ⟨0x48, 0, 7, 4⟩
def calPass : Fld := ⟨0x48, 0, 3, 0⟩
def calProbePass : Fld := ⟨0x4C, 0, 0, 0⟩
def calBank : Fld := ⟨0x50, 0, 17, 16⟩
def calIdx : Fld := ⟨0x50, 0, 8, 0⟩
def calWinData : Fld := ⟨0x54, 0, 31, 0⟩
def calLastLo : Fld := ⟨0x58, 0, 31, 0⟩
def calLastHi : Fld := ⟨0x5C, 0, 31, 0⟩
def calChainAltered : Fld := ⟨0x60, 0, 3, 0⟩
def calImage : Fld := ⟨0x64, 0x4, 31, 24⟩
def calSpur : Fld := ⟨0x64, 0x4, 23, 16⟩
def calStepRes : Fld := ⟨0x64, 0x4, 15, 8⟩
def calTempDelta : Fld := ⟨0x64, 0x4, 7, 0⟩
-- SND page (10)
def sndMaskClear : Fld := ⟨0x40, 0, 31, 31⟩
def sndCxGntPol : Fld := ⟨0x40, 0, 3, 3⟩
def sndCxEn : Fld := ⟨0x40, 0, 2, 2⟩
def sndReturn : Fld := ⟨0x40, 0, 1, 0⟩
def sndTxFreq : Fld := ⟨0x44, 0, 17, 0⟩
def sndPrio : Fld := ⟨0x48, 0, 31, 31⟩
def sndSf : Fld := ⟨0x48, 0, 26, 24⟩
def sndHalfbw : Fld := ⟨0x48, 0, 23, 16⟩
def sndLevel : Fld := ⟨0x48, 0, 8, 0⟩
def sndGo : Fld := ⟨0x4C, 0, 31, 31⟩
def sndType : Fld := ⟨0x4C, 0, 17, 16⟩
def sndLen : Fld := ⟨0x4C, 0, 15, 9⟩
def sndBcast : Fld := ⟨0x4C, 0, 8, 8⟩
def sndDst : Fld := ⟨0x4C, 0, 5, 0⟩
def sndTxData : Fld := ⟨0x50, 0x4, 31, 0⟩
def sndState : Fld := ⟨0x90, 0, 31, 29⟩
def sndOutcome : Fld := ⟨0x90, 0, 28, 26⟩
def sndMaskLock : Fld := ⟨0x90, 0, 25, 25⟩
def sndPending : Fld := ⟨0x90, 0, 24, 24⟩
def sndDutyUsed : Fld := ⟨0x90, 0, 23, 0⟩
def sndCxLead : Fld := ⟨0x94, 0, 31, 24⟩
def sndGrantWait : Fld := ⟨0x94, 0, 23, 16⟩
def sndTxDeferMax : Fld := ⟨0x94, 0, 15, 8⟩
def sndRxEn : Fld := ⟨0x98, 0, 31, 31⟩
def sndReportBad : Fld := ⟨0x98, 0, 30, 30⟩
def sndInput : Fld := ⟨0x98, 0, 29, 28⟩
def sndSlice : Fld := ⟨0x98, 0, 27, 21⟩
def sndDesig : Fld := ⟨0x98, 0, 20, 20⟩
def sndCaptMargin : Fld := ⟨0x98, 0, 19, 12⟩
def sndSf3 : Fld := ⟨0x98, 0, 11, 9⟩
def sndSf2 : Fld := ⟨0x98, 0, 8, 6⟩
def sndSf1 : Fld := ⟨0x98, 0, 5, 3⟩
def sndSf0 : Fld := ⟨0x98, 0, 2, 0⟩
def sndRxFreq : Fld := ⟨0x9C, 0, 17, 0⟩
def sndRxState : Fld := ⟨0xA0, 0, 31, 30⟩
def sndRxOk : Fld := ⟨0xA4, 0, 31, 0⟩
def sndRxBad : Fld := ⟨0xA8, 0, 31, 0⟩
def sndRxAbandon : Fld := ⟨0xAC, 0, 31, 0⟩
def sndTxCnt : Fld := ⟨0xB0, 0, 31, 0⟩
def sndWindows : Fld := ⟨0xC0, 0, 31, 24⟩
def sndMaxLevel : Fld := ⟨0xC0, 0, 23, 15⟩
def sndMaxDuty : Fld := ⟨0xC0, 0, 9, 0⟩
def sndLo : Fld := ⟨0xC8, 0x8, 17, 0⟩
def sndHi : Fld := ⟨0xCC, 0x8, 17, 0⟩
def sndFirIdx : Fld := ⟨0x150, 0, 5, 0⟩
def sndFirData : Fld := ⟨0x154, 0, 15, 0⟩
def sndOfs : Fld := ⟨0x160, 0x4, 25, 16⟩
def sndLimit : Fld := ⟨0x160, 0x4, 15, 8⟩
def sndUsed : Fld := ⟨0x160, 0x4, 0, 0⟩
-- SMC page 0x100 (11)
def smc0FwName : Fld := ⟨0x40, 0x4, 31, 0⟩
def smc0FwVer : Fld := ⟨0x50, 0, 31, 0⟩
def smc0FwCrc : Fld := ⟨0x54, 0, 31, 0⟩
def smc0SealGen : Fld := ⟨0x58, 0, 31, 16⟩
def smc0SealInd : Fld := ⟨0x58, 0, 5, 5⟩
def smc0TamperN : Fld := ⟨0x58, 0, 4, 4⟩
def smc0State : Fld := ⟨0x58, 0, 2, 0⟩
def smc0Sts : Fld := ⟨0x5C, 0, 4, 0⟩
def smc0LogFill : Fld := ⟨0x60, 0, 10, 0⟩
def smc0LogHeld : Fld := ⟨0x64, 0x4, 10, 0⟩
def smc0NextSeq : Fld := ⟨0x78, 0, 31, 0⟩
def smc0AuditCnt : Fld := ⟨0x7C, 0, 31, 0⟩
def smc0Mark : Fld := ⟨0x80, 0x8, 31, 0⟩
def smc0Slot : Fld := ⟨0x84, 0x8, 31, 30⟩
def smc0Time : Fld := ⟨0x84, 0x8, 29, 0⟩
-- SMC page 0x101 (11)
def smc1State : Fld := ⟨0x40, 0x10, 31, 29⟩
def smc1SrcKind : Fld := ⟨0x40, 0x10, 28, 27⟩
def smc1Src : Fld := ⟨0x40, 0x10, 26, 20⟩
def smc1Det : Fld := ⟨0x40, 0x10, 19, 16⟩
def smc1Freq : Fld := ⟨0x44, 0x10, 31, 0⟩
def smc1LastValue : Fld := ⟨0x48, 0x10, 31, 0⟩
def smc1LastFlags : Fld := ⟨0x4C, 0x10, 31, 16⟩
def smc1LastCoverage : Fld := ⟨0x4C, 0x10, 15, 8⟩
-- SMC page 0x102 (11)
def smc2RefinCert : Fld := ⟨0x40, 0, 31, 0⟩
def smc2RefinTol : Fld := ⟨0x44, 0, 31, 0⟩
def smc2TwMaxAge : Fld := ⟨0x48, 0, 31, 24⟩
def smc2StepTol : Fld := ⟨0x48, 0, 23, 0⟩
def smc2DetSel : Fld := ⟨0x4C, 0, 3, 0⟩
def smc2Quantity : Fld := ⟨0x50, 0, 31, 24⟩
def smc2StdMask : Fld := ⟨0x50, 0, 23, 19⟩
def smc2Int : Fld := ⟨0x50, 0, 11, 0⟩
def smc2Bw : Fld := ⟨0x54, 0, 31, 16⟩
def smc2LvlTh : Fld := ⟨0x54, 0, 15, 0⟩
def smc2MerTh : Fld := ⟨0x58, 0, 31, 16⟩
def smc2OutMin : Fld := ⟨0x58, 0, 15, 0⟩
def smc2SnrMin : Fld := ⟨0x5C, 0, 31, 16⟩
def smc2Fraction : Fld := ⟨0x5C, 0, 15, 0⟩
def smc2DgSel : Fld := ⟨0x60, 0, 1, 0⟩
def smc2Mode : Fld := ⟨0x64, 0, 31, 31⟩
def smc2SrcPos : Fld := ⟨0x64, 0, 24, 19⟩
def smc2MaxAge : Fld := ⟨0x64, 0, 18, 0⟩
def smc2GAer : Fld := ⟨0x68, 0, 31, 16⟩
def smc2Coupling : Fld := ⟨0x68, 0, 15, 0⟩
def smc2Hi : Fld := ⟨0x6C, 0, 31, 16⟩
def smc2Lo : Fld := ⟨0x6C, 0, 15, 0⟩
-- SMC page 0x103 (11)
def smc3Kind : Fld := ⟨0x40, 0, 31, 30⟩
def smc3Input : Fld := ⟨0x40, 0, 9, 8⟩
def smc3Idx : Fld := ⟨0x40, 0, 5, 0⟩
def smc3TblW0 : Fld := ⟨0x44, 0, 31, 0⟩
def smc3TblW1 : Fld := ⟨0x48, 0, 31, 0⟩
def smc3TblW2 : Fld := ⟨0x4C, 0, 31, 0⟩
def smc3TblW3 : Fld := ⟨0x50, 0, 31, 0⟩
-- LNK common page (12)
def lnkValid : Fld := ⟨0x40, 0, 31, 31⟩
def lnkRingN : Fld := ⟨0x40, 0, 22, 16⟩
def lnkPos : Fld := ⟨0x40, 0, 6, 0⟩
def lnkTopo : Fld := ⟨0x44, 0, 31, 30⟩
def lnkWrapA : Fld := ⟨0x44, 0, 29, 29⟩
def lnkWrapB : Fld := ⟨0x44, 0, 28, 28⟩
def lnkCqOut : Fld := ⟨0x44, 0, 27, 26⟩
def lnkChopsOut : Fld := ⟨0x44, 0, 25, 19⟩
def lnkTraceable : Fld := ⟨0x44, 0, 18, 18⟩
def lnkAligned : Fld := ⟨0x44, 0, 17, 17⟩
def lnkTstepTh : Fld := ⟨0x48, 0, 31, 24⟩
def lnkHealClean : Fld := ⟨0x48, 0, 23, 16⟩
def lnkRetrain : Fld := ⟨0x48, 0, 15, 8⟩
def lnkTimeErr : Fld := ⟨0x4C, 0, 31, 0⟩
def lnkEpochLo : Fld := ⟨0x50, 0, 31, 0⟩
def lnkEpochHi : Fld := ⟨0x54, 0, 31, 0⟩
def lnkTwCnt : Fld := ⟨0x58, 0, 31, 0⟩
def lnkWrapCnt : Fld := ⟨0x5C, 0, 31, 0⟩
def lnkCmdDrop : Fld := ⟨0x60, 0, 31, 0⟩
-- LNK port pages (12)
def prtState : Fld := ⟨0x40, 0, 31, 29⟩
def prtClkQual : Fld := ⟨0x40, 0, 28, 28⟩
def prtLaneLock : Fld := ⟨0x40, 0, 27, 26⟩
def prtLaneSwap : Fld := ⟨0x40, 0, 25, 25⟩
def prtPolInv : Fld := ⟨0x40, 0, 24, 23⟩
def prtPeerPos : Fld := ⟨0x40, 0, 22, 16⟩
def prtCqIn : Fld := ⟨0x40, 0, 15, 12⟩
def prtEn : Fld := ⟨0x44, 0, 31, 31⟩
def prtTxSwing : Fld := ⟨0x44, 0, 27, 24⟩
def prtTxDeemph : Fld := ⟨0x44, 0, 23, 20⟩
def prtDelay : Fld := ⟨0x48, 0, 31, 0⟩
def prtEyeH1 : Fld := ⟨0x4C, 0, 31, 24⟩
def prtEyeV1 : Fld := ⟨0x4C, 0, 23, 16⟩
def prtEyeH0 : Fld := ⟨0x4C, 0, 15, 8⟩
def prtEyeV0 : Fld := ⟨0x4C, 0, 7, 0⟩
def prtCrcErr : Fld := ⟨0x50, 0, 31, 0⟩
def prtLaneErr1 : Fld := ⟨0x54, 0, 31, 16⟩
def prtLaneErr0 : Fld := ⟨0x54, 0, 15, 0⟩
def prtSeqGap : Fld := ⟨0x58, 0, 31, 0⟩
def prtDownCnt : Fld := ⟨0x5C, 0, 31, 0⟩
def prtDiscard : Fld := ⟨0x60, 0, 31, 0⟩
def prtTxFrames : Fld := ⟨0x64, 0, 31, 0⟩
-- common header (13, Table 13.2)
def pgType : Fld := ⟨0x0, 0, 31, 24⟩
def pgTver : Fld := ⟨0x0, 0, 23, 16⟩
def pgInstance : Fld := ⟨0x0, 0, 15, 0⟩
def pgPresent : Fld := ⟨0x4, 0, 31, 31⟩
def pgFeatures : Fld := ⟨0x4, 0, 30, 0⟩
def pgSreset : Fld := ⟨0x8, 0, 1, 1⟩
def pgEn : Fld := ⟨0x8, 0, 0, 0⟩
def pgLastStatus : Fld := ⟨0xC, 0, 15, 8⟩
def pgDirty : Fld := ⟨0xC, 0, 2, 2⟩
def pgPending : Fld := ⟨0xC, 0, 1, 1⟩
def pgEnabled : Fld := ⟨0xC, 0, 0, 0⟩
def pgEvtRaw : Fld := ⟨0x10, 0, 31, 0⟩
def pgEvtEn : Fld := ⟨0x14, 0, 31, 0⟩
def pgEvtPend : Fld := ⟨0x18, 0, 31, 0⟩
def pgRoute : Fld := ⟨0x1C, 0, 1, 0⟩
def pgMode : Fld := ⟨0x20, 0, 31, 30⟩
def pgDet : Fld := ⟨0x20, 0, 7, 0⟩
def pgInjCnt : Fld := ⟨0x24, 0, 31, 0⟩
def pgOwner : Fld := ⟨0x28, 0, 7, 0⟩
def pgCommitSeq : Fld := ⟨0x2C, 0, 31, 1⟩
def pgCommit : Fld := ⟨0x2C, 0, 0, 0⟩
def pgKind : Fld := ⟨0x30, 0, 2, 0⟩
def pgRaceCnt : Fld := ⟨0x34, 0, 31, 0⟩
-- ID page (13)
def idDieMajor : Fld := ⟨0x40, 0, 31, 28⟩
def idDieMinor : Fld := ⟨0x40, 0, 27, 24⟩
def idSuffix : Fld := ⟨0x40, 0, 23, 16⟩
def idPart : Fld := ⟨0x40, 0, 15, 0⟩
def idSerialLo : Fld := ⟨0x44, 0, 31, 0⟩
def idSerialHi : Fld := ⟨0x48, 0, 31, 0⟩
def idInputs : Fld := ⟨0x4C, 0, 31, 29⟩
def idSlices : Fld := ⟨0x4C, 0, 28, 22⟩
def idBeds : Fld := ⟨0x4C, 0, 21, 18⟩
def idDecoders : Fld := ⟨0x4C, 0, 17, 13⟩
def idSlots : Fld := ⟨0x4C, 0, 12, 7⟩
def idAln : Fld := ⟨0x50, 0, 31, 26⟩
def idPorts : Fld := ⟨0x50, 0, 25, 24⟩
def idCloche : Fld := ⟨0x50, 0, 23, 23⟩
def idSndTx : Fld := ⟨0x50, 0, 22, 22⟩
def idSndRx : Fld := ⟨0x50, 0, 21, 21⟩
def idAudioOuts : Fld := ⟨0x50, 0, 20, 18⟩
def idFwVer : Fld := ⟨0x54, 0, 31, 0⟩
def idFwCrc : Fld := ⟨0x58, 0, 31, 0⟩
def idSlot : Fld := ⟨0x5C, 0, 0, 0⟩
def idRung : Fld := ⟨0x60, 0, 31, 29⟩
def idPos : Fld := ⟨0x60, 0, 28, 22⟩
def idSeal : Fld := ⟨0x60, 0, 2, 0⟩
-- TWB page (14)
def twbSclLowMax : Fld := ⟨0x40, 0, 31, 24⟩
def twbSdaHoldMax : Fld := ⟨0x40, 0, 23, 16⟩
def twbClaimWindow : Fld := ⟨0x40, 0, 15, 0⟩
def twbAddr : Fld := ⟨0x44, 0, 30, 24⟩
def twbStrap : Fld := ⟨0x44, 0, 21, 16⟩
def twbRights : Fld := ⟨0x44, 0, 15, 8⟩
def twbClaimOpen : Fld := ⟨0x44, 0, 7, 7⟩
def twbClaimed : Fld := ⟨0x44, 0, 6, 6⟩
def twbSclLow : Fld := ⟨0x48, 0, 1, 1⟩
def twbSdaReleased : Fld := ⟨0x48, 0, 0, 0⟩
def twbLastAddr : Fld := ⟨0x4C, 0, 27, 8⟩
def twbLastStatus : Fld := ⟨0x4C, 0, 7, 0⟩
def twbAbandonCnt : Fld := ⟨0x50, 0, 31, 0⟩
def twbDiscardCnt : Fld := ⟨0x54, 0, 31, 0⟩
def twbWakeCnt : Fld := ⟨0x58, 0, 31, 0⟩
def twbClaimLeft : Fld := ⟨0x5C, 0, 15, 0⟩
def twbOutWords : Fld := ⟨0x60, 0, 31, 16⟩
def twbOutLost : Fld := ⟨0x60, 0, 9, 9⟩
def twbInBusy : Fld := ⟨0x60, 0, 8, 8⟩
def twbQueue : Fld := ⟨0x60, 0, 1, 0⟩
def twbMboxIn : Fld := ⟨0x64, 0, 31, 0⟩
def twbMboxOut : Fld := ⟨0x68, 0, 31, 0⟩
def twbLastRseq : Fld := ⟨0x6C, 0, 31, 0⟩
-- CLK page (15)
def clkHoldMax : Fld := ⟨0x40, 0, 23, 16⟩
def clkRevert : Fld := ⟨0x40, 0, 4, 4⟩
def clkPref : Fld := ⟨0x40, 0, 1, 0⟩
def clkState : Fld := ⟨0x44, 0, 31, 29⟩
def clkRef : Fld := ⟨0x44, 0, 28, 27⟩
def clkAQual : Fld := ⟨0x44, 0, 26, 26⟩
def clkBQual : Fld := ⟨0x44, 0, 25, 25⟩
def clkAElig : Fld := ⟨0x44, 0, 24, 24⟩
def clkBElig : Fld := ⟨0x44, 0, 23, 23⟩
def clkLearned : Fld := ⟨0x44, 0, 22, 22⟩
def clkHoldLeft : Fld := ⟨0x44, 0, 15, 8⟩
def clkFreqA : Fld := ⟨0x48, 0, 31, 0⟩
def clkFreqB : Fld := ⟨0x4C, 0, 31, 0⟩
def clkDrift : Fld := ⟨0x50, 0, 31, 0⟩
def clkHoldLast : Fld := ⟨0x54, 0, 31, 0⟩
def clkStepLast : Fld := ⟨0x58, 0, 31, 0⟩
def clkStepAtLo : Fld := ⟨0x5C, 0, 31, 0⟩
def clkStepAtHi : Fld := ⟨0x60, 0, 31, 0⟩
def clkConvGap : Fld := ⟨0x64, 0, 31, 0⟩
def clkRingGap : Fld := ⟨0x68, 0, 31, 0⟩
def clkSwitchCnt : Fld := ⟨0x6C, 0, 31, 0⟩
def clkHoldCnt : Fld := ⟨0x70, 0, 31, 0⟩
def clkUnlockCnt : Fld := ⟨0x74, 0, 31, 0⟩
def clkEdgeErrB : Fld := ⟨0x78, 0, 31, 16⟩
def clkEdgeErrA : Fld := ⟨0x78, 0, 15, 0⟩
def clkSafeCnt : Fld := ⟨0x7C, 0, 31, 0⟩
def clkStepCnt : Fld := ⟨0x80, 0, 31, 0⟩
-- PWR page (16)
def pwrBusy : Fld := ⟨0x40, 0, 31, 31⟩
def pwrNow : Fld := ⟨0x40, 0, 26, 24⟩
def pwrTarget : Fld := ⟨0x40, 0, 2, 0⟩
def pwrVmax : Fld := ⟨0x44, 0, 31, 24⟩
def pwrVmin : Fld := ⟨0x44, 0, 23, 16⟩
def pwrStepUp : Fld := ⟨0x44, 0, 15, 12⟩
def pwrStepDn : Fld := ⟨0x44, 0, 11, 8⟩
def pwrDownEpochs : Fld := ⟨0x44, 0, 7, 0⟩
def pwrRestoreMargin : Fld := ⟨0x48, 0, 31, 24⟩
def pwrRestoreEpochs : Fld := ⟨0x48, 0, 23, 16⟩
def pwrWarnStep : Fld := ⟨0x48, 0, 15, 8⟩
def pwrRestoreSlack : Fld := ⟨0x48, 0, 7, 1⟩
def pwrRestoreSusp : Fld := ⟨0x48, 0, 0, 0⟩
def pwrSetpoint : Fld := ⟨0x4C, 0, 31, 24⟩
def pwrCeiling : Fld := ⟨0x4C, 0, 23, 16⟩
def pwrHalved : Fld := ⟨0x4C, 0, 15, 12⟩
def pwrSeq : Fld := ⟨0x4C, 0, 11, 10⟩
def pwrWarn : Fld := ⟨0x4C, 0, 9, 9⟩
def pwrAtCeiling : Fld := ⟨0x4C, 0, 8, 8⟩
def pwrSlack0 : Fld := ⟨0x50, 0, 31, 0⟩
def pwrSlack1 : Fld := ⟨0x54, 0, 31, 0⟩
def pwrMinEpoch : Fld := ⟨0x58, 0, 31, 24⟩
def pwrMinSince : Fld := ⟨0x58, 0, 23, 16⟩
def pwrFifoPeak : Fld := ⟨0x5C, 0, 31, 0⟩
def pwrHrCnt : Fld := ⟨0x60, 0, 31, 0⟩
def pwrFifoOvf : Fld := ⟨0x64, 0, 31, 0⟩
def pwrExitLast : Fld := ⟨0x68, 0, 31, 0⟩
def pwrRungCnt : Fld := ⟨0x6C, 0, 31, 0⟩
-- PMB page (16)
def pmbSpeed : Fld := ⟨0x40, 0, 31, 30⟩
def pmbPoll : Fld := ⟨0x40, 0, 23, 16⟩
def pmbSlew : Fld := ⟨0x40, 0, 15, 8⟩
def pmbVsettle : Fld := ⟨0x40, 0, 7, 0⟩
def pmbEn : Fld := ⟨0x44, 0x8, 31, 31⟩
def pmbAddr : Fld := ⟨0x44, 0x8, 22, 16⟩
def pmbStatusWord : Fld := ⟨0x48, 0x8, 31, 16⟩
def pmbModeBad : Fld := ⟨0x48, 0x8, 12, 12⟩
def pmbLost : Fld := ⟨0x48, 0x8, 11, 11⟩
def pmbFault : Fld := ⟨0x48, 0x8, 10, 10⟩
def pmbWarn : Fld := ⟨0x48, 0x8, 9, 9⟩
def pmbPresent : Fld := ⟨0x48, 0x8, 8, 8⟩
def pmbVoutExp : Fld := ⟨0x48, 0x8, 4, 0⟩
def pmbVout : Fld := ⟨0x64, 0, 31, 16⟩
def pmbIout : Fld := ⟨0x64, 0, 15, 0⟩
def pmbNackCnt : Fld := ⟨0x68, 0, 31, 16⟩
def pmbPecCnt : Fld := ⟨0x68, 0, 15, 0⟩
-- SEC page (17)
def secClaimed : Fld := ⟨0x40, 0, 31, 31⟩
def secDebugOpen : Fld := ⟨0x40, 0, 30, 30⟩
def secServiceOpen : Fld := ⟨0x40, 0, 29, 29⟩
def secTstate : Fld := ⟨0x40, 0, 23, 16⟩
def secVendorSess : Fld := ⟨0x40, 0, 5, 5⟩
def secTenantSess : Fld := ⟨0x40, 0, 4, 1⟩
def secSiteSess : Fld := ⟨0x40, 0, 0, 0⟩
def secSvnRun : Fld := ⟨0x44, 0, 31, 16⟩
def secSvnMin : Fld := ⟨0x44, 0, 15, 0⟩
def secSiteKeyid : Fld := ⟨0x48, 0, 31, 0⟩
def secDevKeyid : Fld := ⟨0x4C, 0, 31, 0⟩
def secTkeyid : Fld := ⟨0x50, 0x4, 31, 0⟩
def secAuthFail : Fld := ⟨0x60, 0, 31, 0⟩
def secStaleCnt : Fld := ⟨0x64, 0, 31, 0⟩
def secDebugCnt : Fld := ⟨0x68, 0, 31, 0⟩
def secSlicesLo : Fld := ⟨0x80, 0x20, 31, 0⟩
def secSlicesMid : Fld := ⟨0x84, 0x20, 31, 0⟩
def secSlicesHi : Fld := ⟨0x88, 0x20, 31, 0⟩
def secDecoders : Fld := ⟨0x8C, 0x20, 23, 0⟩
def secSlots : Fld := ⟨0x90, 0x20, 31, 0⟩
def secAudOuts : Fld := ⟨0x94, 0x20, 19, 16⟩
def secQueues : Fld := ⟨0x94, 0x20, 8, 0⟩
def secAlnShare : Fld := ⟨0x98, 0x20, 31, 0⟩
def secStrmMax : Fld := ⟨0x9C, 0x20, 25, 16⟩
def secAfQuota : Fld := ⟨0x9C, 0x20, 12, 0⟩
-- LOAM page (18)
def loamRaking : Fld := ⟨0x40, 0, 31, 31⟩
def loamReserve : Fld := ⟨0x40, 0, 30, 30⟩
def loamSegUsed : Fld := ⟨0x40, 0, 29, 24⟩
def loamFill : Fld := ⟨0x40, 0, 23, 16⟩
def loamLive : Fld := ⟨0x40, 0, 15, 8⟩
def loamSeq : Fld := ⟨0x44, 0, 31, 0⟩
def loamAnchorGen : Fld := ⟨0x48, 0, 31, 0⟩
def loamRakeCnt : Fld := ⟨0x4C, 0, 31, 0⟩
def loamTornCnt : Fld := ⟨0x50, 0, 31, 0⟩
def loamEccCorr : Fld := ⟨0x54, 0, 31, 16⟩
def loamEccUncorr : Fld := ⟨0x54, 0, 15, 0⟩
def loamNospaceCnt : Fld := ⟨0x58, 0, 31, 0⟩
def loamActive : Fld := ⟨0x5C, 0, 31, 31⟩
def loamNext : Fld := ⟨0x5C, 0, 30, 30⟩
def loamAState : Fld := ⟨0x5C, 0, 29, 28⟩
def loamBState : Fld := ⟨0x5C, 0, 27, 26⟩
def loamFwbAVer : Fld := ⟨0x60, 0, 31, 0⟩
def loamFwbBVer : Fld := ⟨0x64, 0, 31, 0⟩
def loamBSvn : Fld := ⟨0x68, 0, 31, 16⟩
def loamASvn : Fld := ⟨0x68, 0, 15, 0⟩
def loamProfiles : Fld := ⟨0x6C, 0, 15, 0⟩
-- FLT page (19)
def fltCount : Fld := ⟨0x40, 0, 24, 16⟩
def fltHeadSeq : Fld := ⟨0x40, 0, 15, 0⟩
def fltNextSeq : Fld := ⟨0x44, 0, 15, 0⟩
def fltBank : Fld := ⟨0x48, 0, 31, 31⟩
def fltSel : Fld := ⟨0x48, 0, 15, 0⟩
def fltLogW : Fld := ⟨0x4C, 0x4, 31, 0⟩
def fltLogAck : Fld := ⟨0x6C, 0, 15, 0⟩
def fltOvfNotice : Fld := ⟨0x70, 0, 31, 0⟩
def fltOvfDegraded : Fld := ⟨0x74, 0, 31, 0⟩
def fltOvfFault : Fld := ⟨0x78, 0, 31, 0⟩
def fltOvfFatal : Fld := ⟨0x7C, 0, 31, 0⟩
def fltLoamDrop : Fld := ⟨0x80, 0, 31, 0⟩
def fltInjCnt : Fld := ⟨0x84, 0, 31, 0⟩
def fltLoamPend : Fld := ⟨0x88, 0, 4, 0⟩
-- TEL page (19)
def telPeriod : Fld := ⟨0x40, 0, 31, 16⟩
def telTempWarn : Fld := ⟨0x40, 0, 15, 8⟩
def telTempCrit : Fld := ⟨0x40, 0, 7, 0⟩
def telRec : Fld := ⟨0x44, 0, 4, 0⟩
def telValid : Fld := ⟨0x48, 0x4, 31, 31⟩
def telTemp : Fld := ⟨0x48, 0x4, 15, 0⟩
def telHigh : Fld := ⟨0x60, 0x4, 17, 17⟩
def telLow : Fld := ⟨0x60, 0x4, 16, 16⟩
def telRail : Fld := ⟨0x60, 0x4, 15, 0⟩
def telDiscardCnt : Fld := ⟨0x78, 0, 31, 0⟩
def telMaxTemp : Fld := ⟨0x7C, 0, 15, 0⟩

end Sys2Proof.Machine
end

