-- ==== Sys2Proof/Machine/Layout.lean ====
section
/-! DEFINITION. The register layouts of the pages, by access class, and the reset word of every register (Tables 13.2, 13.7 and the register tables of the chapters; R367, R369). -/

namespace Sys2Proof.Machine

/-- One register, or one repeated register, of a page: offset, stride, count; the masks of its RW, RS, W1C, WO, RC and SX bits; its reset word (bits the manual gives no reset value are 0 here). -/
structure RegRow where
  off : Nat
  stride : Nat
  count : Nat
  rw : Nat
  rs : Nat
  w1c : Nat
  wo : Nat
  rc : Nat
  sx : Nat
  res : Nat
deriving DecidableEq, Repr

/-- The layouts: one for each kind of page, one for each demodulator set of R100. -/
inductive PageKind where
  | id | pwr | clk | lnk | prt | twb | pmb | loam | sec | flt | tel
  | inp | cal | sieve | aln | dec | aud | snd | strm | bed | slc | svc
  | am | fm | drm | smc0 | smc1 | smc2 | smc3
deriving DecidableEq, Repr

/-- Registers of the common header (13, Table 13.2). -/
def hdrRows : List RegRow := [
  ⟨0x0, 0, 1, 0, 0, 0, 0, 0, 0, 0x10000⟩,
  ⟨0x4, 0, 1, 0, 0, 0, 0, 0, 0, 0⟩,
  ⟨0x8, 0, 1, 0, 0, 0, 0x2, 0, 0, 0⟩,
  ⟨0xC, 0, 1, 0, 0, 0, 0, 0, 0, 0⟩,
  ⟨0x10, 0, 1, 0, 0, 0, 0, 0xFFFFFFFF, 0, 0⟩,
  ⟨0x14, 0, 1, 0xFFFFFFFF, 0, 0, 0, 0, 0, 0⟩,
  ⟨0x18, 0, 1, 0, 0, 0xFFFFFFFF, 0, 0, 0, 0⟩,
  ⟨0x1C, 0, 1, 0x3, 0, 0, 0, 0, 0, 0x1⟩,
  ⟨0x20, 0, 1, 0xC00000FF, 0, 0, 0, 0, 0, 0⟩,
  ⟨0x24, 0, 1, 0xFFFFFFFF, 0, 0, 0, 0, 0, 0⟩,
  ⟨0x28, 0, 1, 0, 0, 0, 0, 0, 0, 0⟩,
  ⟨0x2C, 0, 1, 0, 0, 0, 0x1, 0, 0, 0⟩,
  ⟨0x30, 0, 1, 0, 0, 0, 0, 0, 0, 0⟩,
  ⟨0x34, 0, 1, 0, 0, 0, 0, 0xFFFFFFFF, 0, 0⟩,
  ⟨0x38, 0, 1, 0, 0, 0, 0, 0, 0, 0⟩,
  ⟨0x3C, 0, 1, 0, 0, 0, 0, 0, 0, 0⟩]

/-- Registers of the ID page (13). -/
def idRows : List RegRow := [
  ⟨0x40, 0, 1, 0, 0, 0, 0, 0, 0, 0x2388⟩,
  ⟨0x44, 0, 1, 0, 0, 0, 0, 0, 0, 0⟩,
  ⟨0x48, 0, 1, 0, 0, 0, 0, 0, 0, 0⟩,
  ⟨0x4C, 0, 1, 0, 0, 0, 0, 0, 0, 0x98331000⟩,
  ⟨0x50, 0, 1, 0, 0, 0, 0, 0, 0, 0x82100000⟩,
  ⟨0x54, 0, 1, 0, 0, 0, 0, 0, 0, 0⟩,
  ⟨0x58, 0, 1, 0, 0, 0, 0, 0, 0, 0⟩,
  ⟨0x5C, 0, 1, 0, 0, 0, 0, 0, 0, 0⟩,
  ⟨0x60, 0, 1, 0, 0, 0, 0, 0, 0, 0⟩]

/-- Registers of the PWR page (16). -/
def pwrRows : List RegRow := [
  ⟨0x40, 0, 1, 0x7, 0, 0, 0, 0, 0, 0⟩,
  ⟨0x44, 0, 1, 0xFFFFFFFF, 0, 0, 0, 0, 0, 0xB46E2110⟩,
  ⟨0x48, 0, 1, 0xFFFFFFFE, 0, 0, 0, 0, 0, 0xC401032⟩,
  ⟨0x4C, 0, 1, 0, 0, 0, 0, 0, 0, 0x6EB40000⟩,
  ⟨0x50, 0, 1, 0, 0, 0, 0, 0, 0, 0x64646464⟩,
  ⟨0x54, 0, 1, 0, 0, 0, 0, 0, 0, 0x64646464⟩,
  ⟨0x58, 0, 1, 0, 0, 0, 0, 0xFF0000, 0, 0x64640000⟩,
  ⟨0x5C, 0, 1, 0, 0, 0, 0, 0xFFFFFFFF, 0, 0⟩,
  ⟨0x60, 0, 1, 0, 0, 0, 0, 0xFFFFFFFF, 0, 0⟩,
  ⟨0x64, 0, 1, 0, 0, 0, 0, 0xFFFFFFFF, 0, 0⟩,
  ⟨0x68, 0, 1, 0, 0, 0, 0, 0, 0, 0⟩,
  ⟨0x6C, 0, 1, 0, 0, 0, 0, 0xFFFFFFFF, 0, 0⟩]

/-- Registers of the CLK page (15). -/
def clkRows : List RegRow := [
  ⟨0x40, 0, 1, 0xFF0013, 0, 0, 0, 0, 0, 0x140010⟩,
  ⟨0x44, 0, 1, 0, 0, 0, 0, 0, 0, 0⟩,
  ⟨0x48, 0, 1, 0, 0, 0, 0, 0, 0, 0⟩,
  ⟨0x4C, 0, 1, 0, 0, 0, 0, 0, 0, 0⟩,
  ⟨0x50, 0, 1, 0, 0, 0, 0, 0, 0, 0⟩,
  ⟨0x54, 0, 1, 0, 0, 0, 0, 0, 0, 0⟩,
  ⟨0x58, 0, 1, 0, 0, 0, 0, 0, 0, 0⟩,
  ⟨0x5C, 0, 1, 0, 0, 0, 0, 0, 0, 0⟩,
  ⟨0x60, 0, 1, 0, 0, 0, 0, 0, 0, 0⟩,
  ⟨0x64, 0, 1, 0, 0, 0, 0, 0, 0, 0⟩,
  ⟨0x68, 0, 1, 0, 0, 0, 0, 0, 0, 0⟩,
  ⟨0x6C, 0, 1, 0, 0, 0, 0, 0xFFFFFFFF, 0, 0⟩,
  ⟨0x70, 0, 1, 0, 0, 0, 0, 0xFFFFFFFF, 0, 0⟩,
  ⟨0x74, 0, 1, 0, 0, 0, 0, 0xFFFFFFFF, 0, 0⟩,
  ⟨0x78, 0, 1, 0, 0, 0, 0, 0xFFFFFFFF, 0, 0⟩,
  ⟨0x7C, 0, 1, 0, 0, 0, 0, 0xFFFFFFFF, 0, 0⟩,
  ⟨0x80, 0, 1, 0, 0, 0, 0, 0xFFFFFFFF, 0, 0⟩]

/-- Registers of the LNK common page (12). -/
def lnkRows : List RegRow := [
  ⟨0x40, 0, 1, 0, 0, 0, 0, 0, 0, 0⟩,
  ⟨0x44, 0, 1, 0, 0, 0, 0, 0, 0, 0⟩,
  ⟨0x48, 0, 1, 0xFFFFFF00, 0, 0, 0, 0, 0, 0x8010A00⟩,
  ⟨0x4C, 0, 1, 0, 0, 0, 0, 0, 0, 0⟩,
  ⟨0x50, 0, 1, 0, 0, 0, 0, 0, 0, 0⟩,
  ⟨0x54, 0, 1, 0, 0, 0, 0, 0, 0, 0⟩,
  ⟨0x58, 0, 1, 0, 0, 0, 0, 0xFFFFFFFF, 0, 0⟩,
  ⟨0x5C, 0, 1, 0, 0, 0, 0, 0xFFFFFFFF, 0, 0⟩,
  ⟨0x60, 0, 1, 0, 0, 0, 0, 0xFFFFFFFF, 0, 0⟩]

/-- Registers of the LNK port pages (12). -/
def prtRows : List RegRow := [
  ⟨0x40, 0, 1, 0, 0, 0, 0, 0, 0, 0⟩,
  ⟨0x44, 0, 1, 0x8FF00000, 0, 0, 0, 0, 0, 0x88200000⟩,
  ⟨0x48, 0, 1, 0, 0, 0, 0, 0, 0, 0⟩,
  ⟨0x4C, 0, 1, 0, 0, 0, 0, 0, 0, 0⟩,
  ⟨0x50, 0, 1, 0, 0, 0, 0, 0xFFFFFFFF, 0, 0⟩,
  ⟨0x54, 0, 1, 0, 0, 0, 0, 0xFFFFFFFF, 0, 0⟩,
  ⟨0x58, 0, 1, 0, 0, 0, 0, 0xFFFFFFFF, 0, 0⟩,
  ⟨0x5C, 0, 1, 0, 0, 0, 0, 0xFFFFFFFF, 0, 0⟩,
  ⟨0x60, 0, 1, 0, 0, 0, 0, 0xFFFFFFFF, 0, 0⟩,
  ⟨0x64, 0, 1, 0, 0, 0, 0, 0xFFFFFFFF, 0, 0⟩]

/-- Registers of the TWB page (14). -/
def twbRows : List RegRow := [
  ⟨0x40, 0, 1, 0xFFFF0000, 0, 0, 0, 0, 0, 0x190A012C⟩,
  ⟨0x44, 0, 1, 0, 0, 0, 0, 0, 0, 0⟩,
  ⟨0x48, 0, 1, 0, 0, 0x3, 0, 0, 0, 0⟩,
  ⟨0x4C, 0, 1, 0, 0, 0, 0, 0, 0, 0⟩,
  ⟨0x50, 0, 1, 0, 0, 0, 0, 0xFFFFFFFF, 0, 0⟩,
  ⟨0x54, 0, 1, 0, 0, 0, 0, 0xFFFFFFFF, 0, 0⟩,
  ⟨0x58, 0, 1, 0, 0, 0, 0, 0xFFFFFFFF, 0, 0⟩,
  ⟨0x5C, 0, 1, 0, 0, 0, 0, 0, 0, 0⟩,
  ⟨0x60, 0, 1, 0x3, 0, 0x200, 0, 0, 0, 0⟩,
  ⟨0x64, 0, 1, 0, 0, 0, 0xFFFFFFFF, 0, 0, 0⟩,
  ⟨0x68, 0, 1, 0, 0, 0, 0, 0xFFFFFFFF, 0, 0⟩,
  ⟨0x6C, 0, 1, 0, 0, 0, 0, 0, 0, 0⟩]

/-- Registers of the PMB page (16). -/
def pmbRows : List RegRow := [
  ⟨0x40, 0, 1, 0xC0FFFFFF, 0, 0, 0, 0, 0, 0x800A0514⟩,
  ⟨0x44, 0, 1, 0x7F0000, 0, 0, 0, 0, 0, 0x80400000⟩,
  ⟨0x4C, 0, 1, 0x807F0000, 0, 0, 0, 0, 0, 0x410000⟩,
  ⟨0x54, 0, 1, 0x807F0000, 0, 0, 0, 0, 0, 0x420000⟩,
  ⟨0x5C, 0, 1, 0x807F0000, 0, 0, 0, 0, 0, 0x430000⟩,
  ⟨0x48, 0x8, 4, 0, 0, 0, 0, 0, 0, 0⟩,
  ⟨0x64, 0, 1, 0, 0, 0, 0, 0, 0, 0⟩,
  ⟨0x68, 0, 1, 0, 0, 0, 0, 0xFFFFFFFF, 0, 0⟩]

/-- Registers of the LOAM page (18). -/
def loamRows : List RegRow := [
  ⟨0x40, 0, 1, 0, 0, 0, 0, 0, 0, 0⟩,
  ⟨0x44, 0, 1, 0, 0, 0, 0, 0, 0, 0⟩,
  ⟨0x48, 0, 1, 0, 0, 0, 0, 0, 0, 0⟩,
  ⟨0x4C, 0, 1, 0, 0, 0, 0, 0xFFFFFFFF, 0, 0⟩,
  ⟨0x50, 0, 1, 0, 0, 0, 0, 0xFFFFFFFF, 0, 0⟩,
  ⟨0x54, 0, 1, 0, 0, 0, 0, 0xFFFFFFFF, 0, 0⟩,
  ⟨0x58, 0, 1, 0, 0, 0, 0, 0xFFFFFFFF, 0, 0⟩,
  ⟨0x5C, 0, 1, 0, 0, 0, 0, 0, 0, 0⟩,
  ⟨0x60, 0, 1, 0, 0, 0, 0, 0, 0, 0⟩,
  ⟨0x64, 0, 1, 0, 0, 0, 0, 0, 0, 0⟩,
  ⟨0x68, 0, 1, 0, 0, 0, 0, 0, 0, 0⟩,
  ⟨0x6C, 0, 1, 0, 0, 0, 0, 0, 0, 0⟩]

/-- Registers of the SEC page (17). -/
def secRows : List RegRow := [
  ⟨0x40, 0, 1, 0, 0, 0, 0, 0, 0, 0⟩,
  ⟨0x44, 0, 1, 0, 0, 0, 0, 0, 0, 0⟩,
  ⟨0x48, 0, 1, 0, 0, 0, 0, 0, 0, 0⟩,
  ⟨0x4C, 0, 1, 0, 0, 0, 0, 0, 0, 0⟩,
  ⟨0x50, 0x4, 4, 0, 0, 0, 0, 0, 0, 0⟩,
  ⟨0x60, 0, 1, 0, 0, 0, 0, 0xFFFFFFFF, 0, 0⟩,
  ⟨0x64, 0, 1, 0, 0, 0, 0, 0xFFFFFFFF, 0, 0⟩,
  ⟨0x68, 0, 1, 0, 0, 0, 0, 0, 0, 0⟩,
  ⟨0x80, 0x20, 4, 0, 0xFFFFFFFF, 0, 0, 0, 0, 0⟩,
  ⟨0x84, 0x20, 4, 0, 0xFFFFFFFF, 0, 0, 0, 0, 0⟩,
  ⟨0x88, 0x20, 4, 0, 0xFFFFFFFF, 0, 0, 0, 0, 0⟩,
  ⟨0x8C, 0x20, 4, 0, 0xFFFFFF, 0, 0, 0, 0, 0⟩,
  ⟨0x90, 0x20, 4, 0, 0xFFFFFFFF, 0, 0, 0, 0, 0⟩,
  ⟨0x94, 0x20, 4, 0, 0xF01FF, 0, 0, 0, 0, 0⟩,
  ⟨0x98, 0x20, 4, 0, 0xFFFFFFFF, 0, 0, 0, 0, 0⟩,
  ⟨0x9C, 0x20, 4, 0, 0x3FF1FFF, 0, 0, 0, 0, 0⟩]

/-- Registers of the FLT page (19). -/
def fltRows : List RegRow := [
  ⟨0x40, 0, 1, 0, 0, 0, 0, 0, 0, 0⟩,
  ⟨0x44, 0, 1, 0, 0, 0, 0, 0, 0, 0⟩,
  ⟨0x48, 0, 1, 0x8000FFFF, 0, 0, 0, 0, 0, 0⟩,
  ⟨0x4C, 0x4, 8, 0, 0, 0, 0, 0, 0, 0⟩,
  ⟨0x6C, 0, 1, 0, 0, 0, 0xFFFF, 0, 0, 0⟩,
  ⟨0x70, 0, 1, 0, 0, 0, 0, 0xFFFFFFFF, 0, 0⟩,
  ⟨0x74, 0, 1, 0, 0, 0, 0, 0xFFFFFFFF, 0, 0⟩,
  ⟨0x78, 0, 1, 0, 0, 0, 0, 0xFFFFFFFF, 0, 0⟩,
  ⟨0x7C, 0, 1, 0, 0, 0, 0, 0xFFFFFFFF, 0, 0⟩,
  ⟨0x80, 0, 1, 0, 0, 0, 0, 0xFFFFFFFF, 0, 0⟩,
  ⟨0x84, 0, 1, 0, 0, 0, 0, 0xFFFFFFFF, 0, 0⟩,
  ⟨0x88, 0, 1, 0, 0, 0, 0, 0, 0, 0⟩]

/-- Registers of the TEL page (19). -/
def telRows : List RegRow := [
  ⟨0x40, 0, 1, 0xFFFFFFFF, 0, 0, 0, 0, 0, 0x3E86973⟩,
  ⟨0x44, 0, 1, 0x1F, 0, 0, 0, 0, 0, 0xF⟩,
  ⟨0x48, 0x4, 6, 0, 0, 0, 0, 0, 0, 0⟩,
  ⟨0x60, 0x4, 6, 0, 0, 0, 0, 0, 0, 0⟩,
  ⟨0x78, 0, 1, 0, 0, 0, 0, 0xFFFFFFFF, 0, 0⟩,
  ⟨0x7C, 0, 1, 0, 0, 0, 0, 0xFFFF, 0, 0x8000⟩]

/-- Registers of the INP pages (02). -/
def inpRows : List RegRow := [
  ⟨0x40, 0, 1, 0, 0x330, 0, 0, 0, 0, 0x300⟩,
  ⟨0x44, 0, 1, 0, 0x7F, 0, 0, 0, 0, 0⟩,
  ⟨0x48, 0, 1, 0, 0x7F007F, 0, 0, 0, 0, 0x540000⟩,
  ⟨0x4C, 0, 1, 0, 0xFFFFFF, 0, 0, 0, 0, 0x80C40⟩,
  ⟨0x50, 0, 1, 0, 0xFFFF0F3F, 0, 0, 0, 0, 0x4010010C⟩,
  ⟨0x54, 0, 1, 0, 0xFF, 0, 0, 0, 0, 0x8⟩,
  ⟨0x58, 0, 1, 0, 0, 0, 0, 0, 0, 0⟩,
  ⟨0x5C, 0, 1, 0, 0, 0, 0, 0, 0, 0⟩,
  ⟨0x60, 0, 1, 0, 0, 0, 0, 0, 0, 0xFF00FF⟩,
  ⟨0x64, 0, 1, 0, 0, 0, 0, 0xFFFFFFFF, 0, 0⟩,
  ⟨0x68, 0, 1, 0, 0, 0, 0, 0xFFFFFFFF, 0, 0⟩,
  ⟨0x6C, 0, 1, 0, 0, 0, 0, 0xFFFFFFFF, 0, 0⟩]

/-- Registers of the CAL page (09). -/
def calRows : List RegRow := [
  ⟨0x40, 0, 1, 0, 0x1F03, 0, 0, 0, 0, 0⟩,
  ⟨0x44, 0, 1, 0, 0x3FFFF, 0, 0, 0, 0, 0x30D40⟩,
  ⟨0x48, 0, 1, 0, 0, 0, 0, 0, 0, 0⟩,
  ⟨0x4C, 0, 1, 0, 0, 0, 0, 0, 0, 0⟩,
  ⟨0x50, 0, 1, 0x301FF, 0, 0, 0, 0, 0, 0⟩,
  ⟨0x54, 0, 1, 0xFFFFFFFF, 0, 0, 0, 0, 0, 0⟩,
  ⟨0x58, 0, 1, 0, 0, 0, 0, 0, 0, 0⟩,
  ⟨0x5C, 0, 1, 0, 0, 0, 0, 0, 0, 0⟩,
  ⟨0x60, 0, 1, 0, 0, 0, 0, 0, 0, 0xF⟩,
  ⟨0x64, 0x4, 4, 0, 0, 0, 0, 0, 0, 0⟩]

/-- Registers of the SIEVE page (03). -/
def sieveRows : List RegRow := [
  ⟨0x40, 0, 1, 0, 0xF, 0, 0, 0, 0, 0xF⟩,
  ⟨0x44, 0, 1, 0, 0xFFFF, 0, 0, 0, 0, 0⟩,
  ⟨0x48, 0, 1, 0, 0, 0, 0, 0, 0, 0⟩,
  ⟨0x4C, 0, 1, 0, 0, 0, 0, 0, 0, 0⟩,
  ⟨0x50, 0, 1, 0, 0, 0, 0, 0, 0, 0⟩,
  ⟨0x54, 0, 1, 0, 0, 0, 0, 0xFFFFFFFF, 0, 0⟩,
  ⟨0x58, 0, 1, 0, 0, 0, 0, 0xFFFFFFFF, 0, 0⟩,
  ⟨0x5C, 0, 1, 0, 0, 0, 0, 0xFFFFFFFF, 0, 0⟩,
  ⟨0x60, 0, 1, 0, 0, 0, 0, 0xFFFFFFFF, 0, 0⟩]

/-- Registers of the ALN page (03). -/
def alnRows : List RegRow := [
  ⟨0x40, 0, 1, 0, 0, 0, 0, 0, 0, 0x1000000⟩,
  ⟨0x44, 0, 1, 0, 0, 0, 0, 0, 0, 0⟩,
  ⟨0x48, 0, 1, 0, 0, 0, 0, 0, 0, 0⟩,
  ⟨0x4C, 0, 1, 0, 0, 0, 0, 0, 0, 0⟩,
  ⟨0x50, 0, 1, 0, 0, 0, 0, 0, 0, 0⟩,
  ⟨0x60, 0x20, 4, 0, 0x33FF0001, 0, 0, 0, 0, 0⟩,
  ⟨0x64, 0x20, 4, 0, 0x1FFFF, 0, 0, 0, 0, 0⟩,
  ⟨0x68, 0x20, 4, 0, 0xFFFFFFFF, 0, 0, 0, 0, 0⟩,
  ⟨0x6C, 0x20, 4, 0, 0xFFFFFFFF, 0, 0, 0, 0, 0⟩,
  ⟨0x70, 0x20, 4, 0, 0, 0, 0, 0, 0, 0⟩,
  ⟨0x74, 0x20, 4, 0, 0, 0, 0, 0, 0, 0⟩,
  ⟨0x78, 0x20, 4, 0, 0, 0, 0, 0, 0, 0⟩,
  ⟨0x7C, 0x20, 4, 0, 0x1FF, 0, 0xC0000000, 0, 0, 0⟩]

/-- Registers of the DEC page (05). -/
def decRows : List RegRow := [
  ⟨0x40, 0x20, 24, 0, 0xB3FBF3E0, 0, 0, 0, 0, 0⟩,
  ⟨0x44, 0x20, 24, 0, 0xFF, 0, 0, 0, 0, 0x30⟩,
  ⟨0x48, 0x20, 24, 0, 0, 0, 0, 0, 0, 0⟩,
  ⟨0x4C, 0x20, 24, 0, 0, 0, 0, 0, 0, 0⟩,
  ⟨0x50, 0x20, 24, 0, 0, 0, 0, 0xFFFFFFFF, 0, 0⟩,
  ⟨0x54, 0x20, 24, 0, 0, 0, 0, 0xFFFFFFFF, 0, 0⟩,
  ⟨0x58, 0x20, 24, 0, 0, 0, 0, 0xFFFFFFFF, 0, 0⟩,
  ⟨0x5C, 0x20, 24, 0, 0, 0, 0, 0xFFFFFFFF, 0, 0⟩]

/-- Registers of the AUD page (08). -/
def audRows : List RegRow := [
  ⟨0x40, 0, 1, 0, 0x3F3, 0, 0, 0, 0, 0x60⟩,
  ⟨0x44, 0, 1, 0, 0x80007F1F, 0, 0, 0, 0, 0x1E0A⟩,
  ⟨0x48, 0x4, 4, 0, 0xF07F0000, 0, 0, 0, 0, 0x1⟩,
  ⟨0x58, 0x4, 4, 0, 0, 0, 0, 0, 0, 0⟩,
  ⟨0x68, 0, 1, 0, 0, 0, 0, 0, 0, 0⟩,
  ⟨0x6C, 0, 1, 0, 0, 0, 0, 0, 0, 0⟩,
  ⟨0x70, 0, 1, 0, 0, 0, 0, 0xFFFFFFFF, 0, 0⟩,
  ⟨0x74, 0, 1, 0, 0, 0, 0, 0xFFFFFFFF, 0, 0⟩]

/-- Registers of the SND page (10). -/
def sndRows : List RegRow := [
  ⟨0x40, 0, 1, 0xF, 0, 0, 0x80000000, 0, 0, 0⟩,
  ⟨0x44, 0, 1, 0x3FFFF, 0, 0, 0, 0, 0, 0x132A4⟩,
  ⟨0x48, 0, 1, 0x87FF01FF, 0, 0, 0, 0, 0, 0x54F0000⟩,
  ⟨0x4C, 0, 1, 0x3FF3F, 0, 0, 0x80000000, 0, 0, 0⟩,
  ⟨0x50, 0x4, 16, 0xFFFFFFFF, 0, 0, 0, 0, 0, 0⟩,
  ⟨0x90, 0, 1, 0, 0, 0, 0, 0, 0, 0⟩,
  ⟨0x94, 0, 1, 0xFFFFFF00, 0, 0, 0, 0, 0, 0x320A0200⟩,
  ⟨0x98, 0, 1, 0xC00FFFFF, 0x3FF00000, 0, 0, 0, 0, 0xCB10⟩,
  ⟨0x9C, 0, 1, 0, 0x3FFFF, 0, 0, 0, 0, 0x132A4⟩,
  ⟨0xA0, 0, 1, 0, 0, 0, 0, 0, 0, 0⟩,
  ⟨0xA4, 0, 1, 0, 0, 0, 0, 0xFFFFFFFF, 0, 0⟩,
  ⟨0xA8, 0, 1, 0, 0, 0, 0, 0xFFFFFFFF, 0, 0⟩,
  ⟨0xAC, 0, 1, 0, 0, 0, 0, 0xFFFFFFFF, 0, 0⟩,
  ⟨0xB0, 0, 1, 0, 0, 0, 0, 0xFFFFFFFF, 0, 0⟩,
  ⟨0xC0, 0, 1, 0, 0xFFFF83FF, 0, 0, 0, 0, 0⟩,
  ⟨0xC8, 0x8, 16, 0, 0x3FFFF, 0, 0, 0, 0, 0⟩,
  ⟨0xCC, 0x8, 16, 0, 0x3FFFF, 0, 0, 0, 0, 0⟩,
  ⟨0x150, 0, 1, 0x3F, 0, 0, 0, 0, 0, 0⟩,
  ⟨0x154, 0, 1, 0xFFFF, 0, 0, 0, 0, 0, 0⟩,
  ⟨0x160, 0x4, 16, 0x3FFFF01, 0, 0, 0, 0, 0, 0⟩]

/-- Registers of the STRM page (07). -/
def strmRows : List RegRow := [
  ⟨0x40, 0, 1, 0x1FF, 0, 0, 0, 0, 0, 0⟩,
  ⟨0x44, 0, 1, 0, 0x8F0FBF00, 0, 0, 0, 0, 0⟩,
  ⟨0x48, 0, 1, 0, 0xF07FFFFF, 0, 0, 0, 0, 0⟩,
  ⟨0x4C, 0, 1, 0, 0, 0, 0, 0, 0, 0⟩,
  ⟨0x50, 0, 1, 0, 0, 0, 0, 0, 0, 0⟩,
  ⟨0x54, 0, 1, 0, 0, 0, 0, 0xFFFFFFFF, 0, 0⟩,
  ⟨0x58, 0, 1, 0, 0, 0, 0, 0xFFFFFFFF, 0, 0⟩,
  ⟨0x5C, 0, 1, 0, 0, 0, 0, 0xFFFFFFFF, 0, 0⟩,
  ⟨0x60, 0, 1, 0x3F, 0, 0, 0, 0, 0, 0⟩,
  ⟨0x64, 0, 1, 0, 0x80000FFF, 0, 0, 0, 0, 0⟩,
  ⟨0x68, 0, 1, 0, 0, 0, 0, 0, 0, 0⟩,
  ⟨0x6C, 0, 1, 0, 0, 0, 0, 0, 0, 0⟩,
  ⟨0x70, 0, 1, 0, 0, 0, 0, 0xFFFFFFFF, 0, 0⟩,
  ⟨0x74, 0, 1, 0, 0, 0, 0, 0xFFFFFFFF, 0, 0⟩,
  ⟨0x80, 0x4, 9, 0, 0x33, 0, 0x100, 0, 0, 0x32⟩,
  ⟨0xC0, 0x4, 9, 0, 0, 0, 0, 0, 0, 0⟩,
  ⟨0x100, 0x4, 9, 0, 0, 0, 0, 0xFFFFFFFF, 0, 0⟩]

/-- Registers of the BED pages (05), part 1. -/
def bedRowsa : List RegRow := [
  ⟨0x40, 0, 1, 0, 0x37F, 0, 0, 0, 0, 0⟩,
  ⟨0x44, 0, 1, 0, 0xFFFFFFFF, 0, 0, 0, 0, 0⟩,
  ⟨0x48, 0, 1, 0, 0xF000003, 0, 0, 0, 0, 0x1⟩,
  ⟨0x4C, 0, 1, 0, 0xFFFFFFFF, 0, 0, 0, 0, 0⟩,
  ⟨0x50, 0, 1, 0, 0xFFFFFFFF, 0, 0, 0, 0, 0⟩,
  ⟨0x54, 0, 1, 0, 0, 0, 0, 0, 0, 0⟩,
  ⟨0x58, 0, 1, 0, 0, 0, 0, 0, 0, 0⟩,
  ⟨0x5C, 0, 1, 0, 0, 0, 0, 0, 0, 0⟩,
  ⟨0x60, 0, 1, 0, 0, 0, 0, 0, 0, 0xFFF⟩,
  ⟨0x64, 0, 1, 0, 0, 0, 0, 0, 0, 0⟩,
  ⟨0x68, 0, 1, 0, 0, 0, 0, 0, 0, 0⟩,
  ⟨0x6C, 0, 1, 0, 0, 0, 0, 0, 0, 0⟩,
  ⟨0x70, 0, 1, 0, 0, 0, 0, 0xFFFFFFFF, 0, 0⟩,
  ⟨0x74, 0, 1, 0, 0, 0, 0, 0xFFFFFFFF, 0, 0⟩,
  ⟨0x78, 0, 1, 0, 0, 0, 0, 0xFFFFFFFF, 0, 0⟩,
  ⟨0x7C, 0, 1, 0, 0, 0, 0, 0xFFFFFFFF, 0, 0⟩,
  ⟨0x80, 0x4, 4, 0, 0, 0, 0, 0, 0, 0⟩,
  ⟨0x90, 0, 1, 0, 0, 0, 0, 0, 0, 0⟩,
  ⟨0x94, 0, 1, 0, 0, 0, 0, 0xFFFFFFFF, 0, 0⟩,
  ⟨0x100, 0x4, 64, 0, 0, 0, 0, 0, 0, 0⟩]
/-- Registers of the BED pages (05), part 2. -/
def bedRowsb : List RegRow := [
  ⟨0x200, 0x8, 32, 0, 0, 0, 0, 0, 0, 0⟩,
  ⟨0x204, 0x8, 32, 0, 0, 0, 0, 0, 0, 0⟩]
/-- Registers of the BED pages (05). -/
def bedRows : List RegRow := bedRowsa ++ bedRowsb

/-- Registers of the SLC pages (03). -/
def slcRows : List RegRow := [
  ⟨0x40, 0, 1, 0, 0x37F, 0, 0, 0, 0, 0⟩,
  ⟨0x44, 0, 1, 0, 0xFFFFFFFF, 0, 0, 0, 0, 0⟩,
  ⟨0x48, 0, 1, 0, 0xF07000F, 0, 0, 0, 0, 0⟩,
  ⟨0x4C, 0, 1, 0, 0, 0, 0, 0, 0, 0⟩,
  ⟨0x50, 0, 1, 0, 0, 0, 0, 0, 0, 0xFFF⟩,
  ⟨0x54, 0, 1, 0, 0, 0, 0, 0, 0, 0⟩,
  ⟨0x58, 0, 1, 0, 0, 0, 0, 0, 0, 0⟩,
  ⟨0x5C, 0, 1, 0, 0, 0, 0, 0xFFFFFFFF, 0, 0⟩,
  ⟨0x60, 0, 1, 0, 0, 0, 0, 0xFFFFFFFF, 0, 0⟩]

/-- Registers of the SVC pages (06), part 1. -/
def svcRowsa : List RegRow := [
  ⟨0x40, 0, 1, 0, 0x1FFF3FFE, 0, 0, 0, 0, 0x64000E⟩,
  ⟨0x44, 0, 1, 0, 0x701FFFF, 0, 0, 0, 0, 0x3E8⟩,
  ⟨0x48, 0, 1, 0, 0xFFFFFFFF, 0, 0, 0, 0, 0xFFFF0000⟩,
  ⟨0x4C, 0, 1, 0, 0xFF00FFFF, 0, 0, 0, 0, 0⟩,
  ⟨0x50, 0, 1, 0, 0xFFFFFF, 0, 0, 0, 0, 0⟩,
  ⟨0x54, 0, 1, 0, 0x7, 0, 0, 0, 0, 0⟩,
  ⟨0x58, 0, 1, 0, 0xFFFFFFFF, 0, 0, 0, 0, 0x70102899⟩,
  ⟨0x5C, 0, 1, 0, 0xFFFFFFFF, 0, 0, 0, 0, 0x5641E3C⟩,
  ⟨0x60, 0, 1, 0, 0x81FFFF00, 0, 0, 0, 0, 0x80C80000⟩,
  ⟨0x64, 0, 1, 0, 0xFFFFFFFF, 0, 0, 0, 0, 0⟩,
  ⟨0x68, 0, 1, 0, 0xFFFFFFFF, 0, 0, 0, 0, 0x503C2030⟩,
  ⟨0x80, 0, 1, 0, 0, 0, 0, 0, 0, 0xFF00000⟩,
  ⟨0x84, 0, 1, 0, 0, 0, 0, 0, 0, 0⟩,
  ⟨0x88, 0, 1, 0, 0, 0, 0, 0, 0, 0⟩,
  ⟨0x8C, 0, 1, 0, 0, 0, 0, 0xFFFFFFFF, 0, 0⟩,
  ⟨0x90, 0, 1, 0, 0, 0, 0, 0xFFFFFFFF, 0, 0⟩,
  ⟨0x94, 0, 1, 0, 0, 0, 0, 0xFFFFFFFF, 0, 0⟩,
  ⟨0x98, 0, 1, 0, 0, 0, 0, 0, 0, 0⟩,
  ⟨0x9C, 0, 1, 0, 0, 0, 0, 0, 0, 0⟩,
  ⟨0x100, 0x20, 12, 0, 0xBC03FFFF, 0, 0, 0, 0, 0⟩]
/-- Registers of the SVC pages (06), part 2. -/
def svcRowsb : List RegRow := [
  ⟨0x104, 0x20, 12, 0, 0, 0, 0, 0, 0, 0⟩,
  ⟨0x108, 0x20, 12, 0, 0, 0, 0, 0, 0, 0x7C0000⟩,
  ⟨0x10C, 0x20, 12, 0, 0, 0, 0, 0, 0, 0⟩,
  ⟨0x110, 0x20, 12, 0, 0, 0, 0, 0, 0, 0⟩,
  ⟨0x114, 0x20, 12, 0, 0, 0, 0, 0, 0, 0⟩,
  ⟨0x118, 0x20, 12, 0, 0, 0, 0, 0, 0, 0⟩,
  ⟨0x11C, 0x20, 12, 0, 0, 0, 0, 0, 0, 0⟩]
/-- Registers of the SVC pages (06). -/
def svcRows : List RegRow := svcRowsa ++ svcRowsb

/-- Registers of the SLC pages, AM set (04). -/
def amRows : List RegRow := [
  ⟨0x80, 0, 1, 0, 0x311, 0, 0, 0, 0, 0x111⟩,
  ⟨0x84, 0, 1, 0, 0xFFFF, 0, 0, 0, 0, 0x2828⟩,
  ⟨0xC0, 0, 1, 0, 0, 0, 0, 0, 0, 0⟩,
  ⟨0xC4, 0, 1, 0, 0, 0, 0, 0, 0, 0⟩,
  ⟨0xC8, 0, 1, 0, 0, 0, 0, 0, 0, 0⟩,
  ⟨0xD0, 0, 1, 0, 0, 0, 0, 0, 0, 0⟩,
  ⟨0xD4, 0, 1, 0, 0, 0, 0, 0xFFFFFFFF, 0, 0⟩]

/-- Registers of the SLC pages, FM set (04), part 1. -/
def fmRowsa : List RegRow := [
  ⟨0x80, 0, 1, 0, 0x33FF, 0, 0, 0, 0, 0x10A3⟩,
  ⟨0x84, 0, 1, 0, 0xFF00FFFF, 0, 0, 0, 0, 0x60008050⟩,
  ⟨0x88, 0, 1, 0, 0xFFFFFF, 0, 0, 0, 0, 0x602828⟩,
  ⟨0x8C, 0, 1, 0, 0xFFFFFFFF, 0, 0, 0, 0, 0xFFFFFFFF⟩,
  ⟨0xC0, 0, 1, 0, 0, 0, 0, 0, 0, 0⟩,
  ⟨0xC4, 0, 1, 0, 0, 0, 0, 0, 0, 0⟩,
  ⟨0xC8, 0, 1, 0, 0, 0, 0, 0, 0, 0⟩,
  ⟨0xCC, 0, 1, 0, 0, 0, 0, 0, 0, 0⟩,
  ⟨0xD0, 0, 1, 0, 0, 0, 0, 0, 0, 0⟩,
  ⟨0xD4, 0, 1, 0, 0, 0, 0, 0, 0, 0⟩,
  ⟨0xD8, 0, 1, 0, 0, 0, 0, 0, 0, 0⟩,
  ⟨0xDC, 0, 1, 0, 0, 0, 0, 0, 0, 0⟩,
  ⟨0xE0, 0, 1, 0, 0, 0, 0, 0, 0, 0⟩,
  ⟨0xE4, 0, 1, 0, 0, 0, 0, 0, 0, 0⟩,
  ⟨0xE8, 0, 1, 0, 0, 0, 0, 0, 0, 0⟩,
  ⟨0xEC, 0, 1, 0, 0, 0, 0, 0, 0, 0⟩,
  ⟨0xF0, 0, 1, 0, 0, 0, 0, 0xFFFFFFFF, 0, 0⟩,
  ⟨0xF4, 0, 1, 0, 0, 0, 0, 0xFFFFFFFF, 0, 0⟩,
  ⟨0xF8, 0, 1, 0, 0, 0, 0, 0, 0, 0⟩,
  ⟨0xFC, 0, 1, 0, 0, 0, 0, 0, 0, 0⟩]
/-- Registers of the SLC pages, FM set (04), part 2. -/
def fmRowsb : List RegRow := [
  ⟨0x100, 0x4, 16, 0, 0, 0, 0, 0, 0, 0⟩]
/-- Registers of the SLC pages, FM set (04). -/
def fmRows : List RegRow := fmRowsa ++ fmRowsb

/-- Registers of the SLC pages, DRM set (05). -/
def drmRows : List RegRow := [
  ⟨0x80, 0, 1, 0, 0x736, 0, 0, 0, 0, 0x14⟩,
  ⟨0xC0, 0, 1, 0, 0, 0, 0, 0, 0, 0⟩,
  ⟨0xC4, 0, 1, 0, 0, 0, 0, 0, 0, 0⟩,
  ⟨0xC8, 0, 1, 0, 0, 0, 0, 0, 0, 0⟩,
  ⟨0xCC, 0, 1, 0, 0, 0, 0, 0, 0, 0⟩,
  ⟨0xD0, 0x4, 4, 0, 0, 0, 0, 0, 0, 0⟩,
  ⟨0xE0, 0x4, 4, 0, 0, 0, 0, 0, 0, 0⟩,
  ⟨0xF0, 0, 1, 0, 0, 0, 0, 0xFFFFFFFF, 0, 0⟩,
  ⟨0xF4, 0, 1, 0, 0, 0, 0, 0xFFFFFFFF, 0, 0⟩]

/-- Registers of the SMC page 0x100 (11). -/
def smc0Rows : List RegRow := [
  ⟨0x40, 0x4, 4, 0, 0, 0, 0, 0, 0, 0⟩,
  ⟨0x50, 0, 1, 0, 0, 0, 0, 0, 0, 0⟩,
  ⟨0x54, 0, 1, 0, 0, 0, 0, 0, 0, 0⟩,
  ⟨0x58, 0, 1, 0, 0, 0, 0, 0, 0, 0⟩,
  ⟨0x5C, 0, 1, 0, 0, 0, 0, 0, 0, 0⟩,
  ⟨0x60, 0, 1, 0, 0, 0, 0, 0, 0, 0⟩,
  ⟨0x64, 0x4, 5, 0, 0, 0, 0, 0, 0, 0⟩,
  ⟨0x78, 0, 1, 0, 0, 0, 0, 0, 0, 0x1⟩,
  ⟨0x7C, 0, 1, 0, 0, 0, 0, 0, 0, 0⟩,
  ⟨0x80, 0x8, 4, 0, 0, 0, 0, 0, 0, 0⟩,
  ⟨0x84, 0x8, 4, 0, 0, 0, 0, 0, 0, 0⟩]

/-- Registers of the SMC page 0x101 (11). -/
def smc1Rows : List RegRow := [
  ⟨0x40, 0x10, 16, 0, 0, 0, 0, 0, 0, 0⟩,
  ⟨0x44, 0x10, 16, 0, 0, 0, 0, 0, 0, 0⟩,
  ⟨0x48, 0x10, 16, 0, 0, 0, 0, 0, 0, 0⟩,
  ⟨0x4C, 0x10, 16, 0, 0, 0, 0, 0, 0, 0⟩]

/-- Registers of the SMC page 0x102 (11). -/
def smc2Rows : List RegRow := [
  ⟨0x40, 0, 1, 0, 0, 0, 0, 0, 0xFFFFFFFF, 0⟩,
  ⟨0x44, 0, 1, 0, 0, 0, 0, 0, 0xFFFFFFFF, 0⟩,
  ⟨0x48, 0, 1, 0, 0, 0, 0, 0, 0xFFFFFFFF, 0⟩,
  ⟨0x4C, 0, 1, 0xF, 0, 0, 0, 0, 0, 0⟩,
  ⟨0x50, 0, 1, 0, 0, 0, 0, 0, 0xFFF80FFF, 0⟩,
  ⟨0x54, 0, 1, 0, 0, 0, 0, 0, 0xFFFFFFFF, 0⟩,
  ⟨0x58, 0, 1, 0, 0, 0, 0, 0, 0xFFFFFFFF, 0⟩,
  ⟨0x5C, 0, 1, 0, 0, 0, 0, 0, 0xFFFFFFFF, 0⟩,
  ⟨0x60, 0, 1, 0x3, 0, 0, 0, 0, 0, 0⟩,
  ⟨0x64, 0, 1, 0, 0, 0, 0, 0, 0x81FFFFFF, 0⟩,
  ⟨0x68, 0, 1, 0, 0, 0, 0, 0, 0xFFFFFFFF, 0⟩,
  ⟨0x6C, 0, 1, 0, 0, 0, 0, 0, 0xFFFFFFFF, 0⟩]

/-- Registers of the SMC page 0x103 (11). -/
def smc3Rows : List RegRow := [
  ⟨0x40, 0, 1, 0xC000033F, 0, 0, 0, 0, 0, 0⟩,
  ⟨0x44, 0, 1, 0, 0, 0, 0, 0, 0xFFFFFFFF, 0⟩,
  ⟨0x48, 0, 1, 0, 0, 0, 0, 0, 0xFFFFFFFF, 0⟩,
  ⟨0x4C, 0, 1, 0, 0, 0, 0, 0, 0xFFFFFFFF, 0⟩,
  ⟨0x50, 0, 1, 0, 0, 0, 0, 0, 0xFFFFFFFF, 0⟩]

/-- PG_CTL.EN on the pages whose unit it enables (Table 13.2). -/
def enRow : RegRow := ⟨0x008, 0, 1, 0, 0x1, 0, 0x2, 0, 0, 0⟩

/-- The registers of a page kind, header first (R367). -/
def layout : PageKind → List RegRow
  | .id => hdrRows ++ idRows
  | .pwr => hdrRows ++ pwrRows
  | .clk => hdrRows ++ clkRows
  | .lnk => hdrRows ++ lnkRows
  | .prt => hdrRows ++ prtRows
  | .twb => hdrRows ++ twbRows
  | .pmb => hdrRows ++ pmbRows
  | .loam => hdrRows ++ loamRows
  | .sec => hdrRows ++ secRows
  | .flt => hdrRows ++ fltRows
  | .tel => hdrRows ++ telRows
  | .inp => enRow :: (hdrRows ++ inpRows)
  | .cal => hdrRows ++ calRows
  | .sieve => hdrRows ++ sieveRows
  | .aln => hdrRows ++ alnRows
  | .dec => hdrRows ++ decRows
  | .aud => hdrRows ++ audRows
  | .snd => hdrRows ++ sndRows
  | .strm => hdrRows ++ strmRows
  | .bed => enRow :: (hdrRows ++ bedRows)
  | .slc => enRow :: (hdrRows ++ slcRows)
  | .svc => enRow :: (hdrRows ++ svcRows)
  | .am => amRows
  | .fm => fmRows
  | .drm => drmRows
  | .smc0 => hdrRows ++ smc0Rows
  | .smc1 => hdrRows ++ smc1Rows
  | .smc2 => hdrRows ++ smc2Rows
  | .smc3 => hdrRows ++ smc3Rows

end Sys2Proof.Machine
end

