-- ==== Sys2Proof/Machine/Regs.lean ====
section
/-! DEFINITION. The register file: pages (Table 13.1), keys of the registers, reads and writes of registers and fields in force. -/

namespace Sys2Proof.Machine

/-- Page numbers of Table 13.1 that hold one instance. -/
def pgId : Nat := 0x000
/-- The PWR page. -/
def pgPwr : Nat := 0x001
/-- The CLK page. -/
def pgClk : Nat := 0x002
/-- The LNK common page. -/
def pgLnk : Nat := 0x003
/-- The LNK page of a port. -/
def pgPort (p : Port) : Nat := 0x004 + p.val
/-- The TWB page. -/
def pgTwb : Nat := 0x006
/-- The PMB page. -/
def pgPmb : Nat := 0x007
/-- The LOAM page. -/
def pgLoam : Nat := 0x008
/-- The SEC page. -/
def pgSec : Nat := 0x009
/-- The FLT page. -/
def pgFlt : Nat := 0x00A
/-- The TEL page. -/
def pgTel : Nat := 0x00B
/-- The INP page of an input. -/
def pgInp (i : Inp) : Nat := 0x010 + i.val
/-- The CAL page. -/
def pgCal : Nat := 0x014
/-- The SIEVE page. -/
def pgSieve : Nat := 0x015
/-- The ALN page. -/
def pgAln : Nat := 0x016
/-- The DEC page. -/
def pgDec : Nat := 0x017
/-- The AUD page. -/
def pgAud : Nat := 0x018
/-- The SND page. -/
def pgSnd : Nat := 0x019
/-- The STRM page. -/
def pgStrm : Nat := 0x01A
/-- The BED page of a bed. -/
def pgBed (k : BedId) : Nat := 0x020 + k.val
/-- The SLC page of a slice. -/
def pgSlc (i : Slc) : Nat := 0x040 + i.val
/-- The SVC page of a slot. -/
def pgSvc (v : SvcId) : Nat := 0x0C0 + v.val
/-- The pages of the SMC read view. -/
def pgSmc (n : Nat) : Nat := 0x100 + n

-- Registers kept per object under one address live at pages above the 20-bit space.
/-- The AM set of a slice's demodulator fields (R100). -/
def pgAm (i : Slc) : Nat := 0x440 + i.val
/-- The FM set (R100). -/
def pgFm (i : Slc) : Nat := 0x840 + i.val
/-- The DRM set (R148). -/
def pgDrm (i : Slc) : Nat := 0xC40 + i.val
/-- The stream window registers of one stream ID (Table 7.10). -/
def pgStream (i : StrmId) : Nat := 0x1000 + i.val
/-- The bundle window registers of one bundle (Table 7.11). -/
def pgBundle (b : BundId) : Nat := 0x1400 + b.val
/-- STRM_SEL and BUND_SEL of one role, by owner code (R545). -/
def pgSel (role : Nat) : Nat := 0x1800 + role

/-- The kind of a page, for its layout. -/
def kindOfPage (p : Nat) : Option PageKind :=
  if p = 0x000 then some .id else if p = 0x001 then some .pwr else if p = 0x002 then some .clk
  else if p = 0x003 then some .lnk else if p ≤ 0x005 then some .prt else if p = 0x006 then some .twb
  else if p = 0x007 then some .pmb else if p = 0x008 then some .loam else if p = 0x009 then some .sec
  else if p = 0x00A then some .flt else if p = 0x00B then some .tel else if p < 0x010 then none
  else if p ≤ 0x013 then some .inp else if p = 0x014 then some .cal else if p = 0x015 then some .sieve
  else if p = 0x016 then some .aln else if p = 0x017 then some .dec else if p = 0x018 then some .aud
  else if p = 0x019 then some .snd else if p = 0x01A then some .strm else if p < 0x020 then none
  else if p ≤ 0x02B then some .bed else if p < 0x040 then none else if p ≤ 0x09F then some .slc
  else if p < 0x0C0 then none else if p ≤ 0x0DF then some .svc else if p < 0x100 then none
  else if p = 0x100 then some .smc0 else if p = 0x101 then some .smc1 else if p = 0x102 then some .smc2
  else if p = 0x103 then some .smc3 else if p < 0x440 then none else if p ≤ 0x49F then some .am
  else if p < 0x840 then none else if p ≤ 0x89F then some .fm else if p < 0xC40 then none
  else if p ≤ 0xC9F then some .drm else if p < 0x1000 then none else if p < 0x1C00 then some .strm
  else none

/-- The page type of Table 13.1. -/
def typeOfKind : PageKind → Nat
  | .id => 0x01 | .pwr => 0x02 | .clk => 0x03 | .lnk => 0x04 | .prt => 0x04 | .twb => 0x05 | .pmb => 0x06 | .loam => 0x07
  | .sec => 0x08 | .flt => 0x09 | .tel => 0x0A | .inp => 0x10 | .cal => 0x11 | .sieve => 0x12 | .aln => 0x1A | .dec => 0x15
  | .aud => 0x18 | .snd => 0x19 | .strm => 0x17 | .bed => 0x14 | .slc => 0x13 | .svc => 0x16
  | .am => 0x13 | .fm => 0x13 | .drm => 0x13 | .smc0 => 0x20 | .smc1 => 0x20 | .smc2 => 0x20 | .smc3 => 0x20

/-- The first page of each run of instances (Table 13.1). -/
def firstPage : PageKind → Nat → Nat
  | .lnk, _ => 0x003 | .prt, _ => 0x003 | .inp, _ => 0x010 | .bed, _ => 0x020 | .slc, _ => 0x040 | .svc, _ => 0x0C0
  | .smc0, _ => 0x100 | .smc1, _ => 0x100 | .smc2, _ => 0x100 | .smc3, _ => 0x100 | _, p => p

/-- The page type and instance of an allocated page; (0, 0) otherwise. -/
def pageTypeInst (p : Nat) : Nat × Nat :=
  match kindOfPage p with
  | some k => (typeOfKind k, p - firstPage k p)
  | none => (0, 0)

/-- The boundary kind of a page (Tables 13.1 and 13.4): 0 immediate, 1 sieve frame, 2 sieve epoch, 3 slice block, 4 DAB transmission frame, 5 port frame. -/
def kindCode (p : Nat) : Nat :=
  match kindOfPage p with
  | some .inp => 1 | some .cal => 2 | some .sieve => 2 | some .slc => 3 | some .bed => 4 | some .aud => 5
  | _ => 0

/-- A row of a layout that covers an offset. -/
def RegRow.covers (r : RegRow) (off : Nat) : Bool :=
  if r.stride = 0 then off = r.off
  else decide (r.off ≤ off) && decide ((off - r.off) % r.stride = 0) && decide ((off - r.off) / r.stride < r.count)

/-- The row of the register at a key, if the key holds one. -/
def rowOf (key : Nat) : Option RegRow :=
  match kindOfPage (key / 0x400) with
  | some k => (layout k).find? (fun r => r.covers (key % 0x400))
  | none => none

/-- The reset word of a register; 0 where the manual lists none. -/
def resetOf (key : Nat) : Word :=
  match rowOf key with
  | some r => BitVec.ofNat 32 r.res
  | none => 0

/-- The word listed for a key. -/
def lookupReg : List (Nat × Word) → Nat → Option Word
  | [], _ => none
  | (k, w) :: l, key => if key = k then some w else lookupReg l key

/-- A list of registers with one more entry, in its place. -/
def insertReg : List (Nat × Word) → Nat → Word → List (Nat × Word)
  | [], key, w => [(key, w)]
  | (k, x) :: l, key, w =>
    if key < k then (key, w) :: (k, x) :: l
    else if key = k then (key, w) :: l
    else (k, x) :: insertReg l key w

/-- A list of registers without an entry. -/
def eraseReg (l : List (Nat × Word)) (key : Nat) : List (Nat × Word) := l.filter (fun x => !(x.1 == key))

/-- The canonical form of the register file: keys strictly rising, no entry equal to its reset word. -/
def regsWf : List (Nat × Word) → Bool
  | [] => true
  | [(k, w)] => !(w == resetOf k)
  | (k, w) :: (k', w') :: l => !(w == resetOf k) && decide (k < k') && regsWf ((k', w') :: l)

/-- Reads a register from a register file: its reset word where the file lists nothing. -/
def getReg (l : List (Nat × Word)) (key : Nat) : Word := (lookupReg l key).getD (resetOf key)

/-- Writes a register into a register file, keeping the canonical form. -/
def putReg (l : List (Nat × Word)) (key : Nat) (w : Word) : List (Nat × Word) :=
  if w = resetOf key then eraseReg l key else insertReg l key w

/-- The value in force of a register. -/
def State.reg (s : State) (key : Nat) : Word := getReg s.regs key

/-- The state with one register changed. -/
def State.setReg (s : State) (key : Nat) (w : Word) : State := { s with regs := putReg s.regs key w }

/-- The key of a field's register. -/
def keyOf (page : Nat) (f : Fld) : Nat := page * 0x400 + f.off

/-- A field in force. -/
def State.get (s : State) (page : Nat) (f : Fld) : Nat := fieldOf (s.reg (keyOf page f)) f.hi f.lo

/-- The state with one field changed. -/
def State.put (s : State) (page : Nat) (f : Fld) (v : Nat) : State :=
  s.setReg (keyOf page f) (withField (s.reg (keyOf page f)) f.hi f.lo v)

/-- A one-bit field in force. -/
def State.flag (s : State) (page : Nat) (f : Fld) : Bool := s.get page f = 1

/-- A counter field increased by n, saturating at its width. -/
def State.count (s : State) (page : Nat) (f : Fld) (n : Nat) : State :=
  s.put page f (min (s.get page f + n) (2 ^ (f.hi + 1 - f.lo) - 1))

/-- A 64-bit value written to a pair of registers, low word first. -/
def State.putPair (s : State) (page : Nat) (lo hi : Fld) (v : Nat) : State :=
  (s.put page lo (v % 2 ^ 32)).put page hi (v / 2 ^ 32 % 2 ^ 32)

/-- A 64-bit value read from a pair of registers. -/
def State.getPair (s : State) (page : Nat) (lo hi : Fld) : Nat := s.get page lo + 2 ^ 32 * s.get page hi

/-- The state with fields of one page changed, in order. -/
def State.puts (s : State) (page : Nat) (l : List (Fld × Nat)) : State :=
  l.foldl (fun s x => s.put page x.1 x.2) s

/-- Every register of the pages from p whose offset lies from lo to hi back at its reset word. -/
def State.clearRegs (s : State) (page lo hi : Nat) : State :=
  { s with regs := s.regs.filter (fun x => !(decide (page * 0x400 + lo ≤ x.1) && decide (x.1 ≤ page * 0x400 + hi))) }

end Sys2Proof.Machine
end

