-- ==== Sys2Proof/Machine/Ops.lean ====
section
/-! DEFINITION. Operations shared by every unit: time and its boundaries, presence, partitions and rights, staging copies and their capture. -/

namespace Sys2Proof.Machine

/-! ### Time (R61, R62, R75, R133, R172) -/

/-- Ticks in one microsecond of the DEVTIME counter (Table 15.1). -/
def usTicks : Nat := 640
/-- Ticks in one millisecond. -/
def msTicks : Nat := 640000
/-- Ticks in one second. -/
def secTicks : Nat := 640000000

/-- Ticks per sieve epoch (R61). -/
def epochTicks : Nat := 524288

/-- Whether a time that began at a root time has run out (Table 15.6, classes ROOT, COAST and OPEN). -/
def State.ranOut (s : State) (from_ len : Nat) : Bool := decide (from_ + len ≤ s.time.mono)

/-- Whether a time of the ONE_SHOT class that began at a root time may have run out: the interval timer is up to 25 % fast (Table 15.6). -/
def State.mayRunOut (s : State) (from_ len : Nat) : Bool := s.ranOut from_ (len * 3 / 4)

/-- Whether a time that the root times while it is locked, and an interval timer otherwise, may have run out (R459, R464, Table 15.6). -/
def State.rootRanOut (s : State) (from_ len : Nat) : Bool := if s.clk.state = .locked then s.ranOut from_ len else s.mayRunOut from_ len

/-- The spacing of a boundary in ticks (R61, R133, R172). -/
def Bound.period : Bound → Nat
  | .frame => 128 | .epoch => 524288 | .block => 1280000 | .bed => 61440000 | .tick => 64000000

/-- The last boundary of a kind that was taken. -/
def Time.gone (t : Time) : Bound → Option Nat
  | .frame => t.goneFrame | .epoch => t.goneEpoch | .block => t.goneBlock | .bed => t.goneBed | .tick => t.goneTick

/-- The grid time of the next boundary of a kind that has not been taken: the first multiple of its period at or after the present (log 2). -/
def Time.next (t : Time) (b : Bound) : Nat :=
  let m := multAtOrAfter b.period t.grid
  if t.gone b = some m then m + b.period else m

/-- Time moved on by d ticks; DEVTIME moves while its counter runs. -/
def Time.advance (t : Time) (d : Nat) : Time :=
  { t with mono := t.mono + d, devtime := if t.running then t.devtime + d else t.devtime, grid := t.grid + d }

/-- Remembers that the boundary of a kind at the present grid time is taken. -/
def Time.mark (t : Time) : Bound → Time
  | .frame => { t with goneFrame := some t.grid }
  | .epoch => { t with goneEpoch := some t.grid, epochNo := t.epochNo + 1 }
  | .block => { t with goneBlock := some t.grid }
  | .bed => { t with goneBed := some t.grid }
  | .tick => { t with goneTick := some t.grid }

/-- Time at the next boundary of a kind, that boundary taken. -/
def Time.take (t : Time) (b : Bound) : Time := (t.advance (t.next b - t.grid)).mark b

/-- The boundary grid placed at DEVTIME multiples, at a start of the converters from OFF (R61). -/
def Time.place (t : Time) : Time :=
  if t.placed then t
  else { t with grid := t.devtime, placed := true, goneFrame := none, goneEpoch := none, goneBlock := none, goneBed := none, goneTick := none }

/-- The root time of an instant of the grid. -/
def Time.monoOf (t : Time) (g : Nat) : Nat := t.mono + g - t.grid

/-- The DEVTIME that an instant of the root has or had: the present one less the ticks since, with every step since put back (R417). -/
def Time.devAt (t : Time) (m : Nat) : Nat :=
  ((t.devtime : Int) - ((t.mono : Int) - m) + ((t.steps.filter (fun x => decide (m < x.1))).map (·.2)).sum).toNat

/-- The DEVTIME some ticks ago. -/
def Time.devAgo (t : Time) (ago : Nat) : Nat :=
  ((t.devtime : Int) - ago + ((t.steps.filter (fun x => decide (t.mono < x.1 + ago))).map (·.2)).sum).toNat

/-- The start, in root time, of the slice block that holds an instant of the root (R61). -/
def Time.blockOf (t : Time) (m : Nat) : Nat := m - (t.grid - (t.mono - m)) % 1280000

/-- The first multiple of a period after now, in root time: on the boundary grid, or before that is placed in DEVTIME (R61, R223). -/
def Time.nextMultiple (t : Time) (p : Nat) : Nat :=
  let n := if t.placed then t.grid else t.devtime
  t.mono + (multAfter p n - n)

/-- The DEVTIME of an instant of the grid. -/
def Time.devOf (t : Time) (g : Nat) : Nat := t.devtime + g - t.grid

/-- The ring time of a DEVTIME: seconds in bits 63:30, nanoseconds in bits 29:0 (chapter 12). -/
def ringTime (epoch dev : Nat) : Nat :=
  let ns := epoch % 2 ^ 30 + dev * 25 / 16
  (epoch / 2 ^ 30 + ns / 10 ^ 9) * 2 ^ 30 + ns % 10 ^ 9

/-- The ring time now, as the EPOCH register shows it (0 before a time word has carried it). -/
def State.ringNow (s : State) : Nat := ringTime (s.ring.epoch.getD 0) s.time.devtime

/-- The low 32 bits of DEVTIME, as a register word. -/
def devLo (n : Nat) : Word := BitVec.ofNat 32 n

/-- The grid time at which a commit answered now takes effect, by boundary kind (Table 13.4, R75, R133). -/
def commitDue (t : Time) : Nat → Nat
  | 1 => multAfter 128 t.grid
  | 2 => multAfter 524288 t.grid
  | 3 => multAtOrAfter 1280000 (t.grid + 64000)
  | 4 => multAtOrAfter 61440000 (t.grid + 64000)
  | _ => t.grid

/-! ### The conditions of Table 7.4 (R14, R55, R57, R65, R220) -/

/-- The conditions as they stand. -/
def State.condNow (s : State) : CondSpan :=
  { from_ := s.time.mono
    live := s.inputs.map (fun x => decide (x.conv = .run) && !x.onRefin)
    unlocked := s.inputs.map (fun x => decide (x.conv = .stoppedUnlocked) || decide (x.conv = .stoppedClock))
    half := s.inputs.map (fun x => x.shownHalf || decide (x.conv = .rateChange))
    holdover := decide (s.clk.state = .holdover) }

/-- Spans that ended more than 64 s before an instant dropped. -/
def CondSpan.prune (now : Nat) : List CondSpan → List CondSpan
  | x :: l => if x.from_ + 64 * secTicks < now then [x] else x :: CondSpan.prune now l
  | [] => []

/-- The conditions kept with those of the time that passes now: a new span where they differ from the last. -/
def State.keepConds (s : State) : List CondSpan :=
  let c := s.condNow
  match s.conds with
  | x :: l => if { x with from_ := c.from_ } = c then x :: l else CondSpan.prune c.from_ (if x.from_ = c.from_ then c :: l else c :: x :: l)
  | [] => [c]

/-- The part some ticks later, with the conditions of the time that passes kept. -/
def State.after (s : State) (d : Nat) : State := { s with time := s.time.advance d, conds := s.keepConds }

/-- The part at the next boundary of a kind, that boundary taken. -/
def State.advance (s : State) (b : Bound) : State := { s with time := s.time.take b, conds := s.keepConds }

/-- The spans, newest first, that meet the time from a up to b, where the newest ends at `next`. -/
def CondSpan.meeting (a b : Nat) : Nat → List CondSpan → List CondSpan
  | next, x :: l => if x.from_ < b ∧ a < next then x :: CondSpan.meeting a b x.from_ l else CondSpan.meeting a b x.from_ l
  | _, [] => []

/-- The spans of conditions that meet the root time from a up to b, the present among them. -/
def State.condSpans (s : State) (a b : Nat) : List CondSpan := CondSpan.meeting a (max b (a + 1)) (a + 1) (s.condNow :: s.conds)

/-- The conditions of samples of an input from the root time a up to b (Table 7.4). -/
def State.condIn (s : State) (i : Option Inp) (a b : Nat) : Cond :=
  let l := s.condSpans a b
  match i with
  | some n => ⟨l.any (fun x => x.unlocked[n]), l.any (·.holdover), l.any (fun x => x.half[n])⟩
  | none => ⟨false, l.any (·.holdover), false⟩

/-- Whether an input yielded samples throughout the root time from a up to b (R55). -/
def State.liveIn (s : State) (i : Inp) (a b : Nat) : Bool := (s.condSpans a b).all (fun x => x.live[i])

/-- A fresh free value's index: the counter read and moved on (log 9). -/
def State.draw (s : State) : Nat × State := (s.freeCtr, { s with freeCtr := s.freeCtr + 1 })

/-! ### Presence, partitions and rights (R3 to R10, R373, R451 to R456, R545) -/

/-- Whether the unit of a page is present on this variant (Table 0.1). -/
def State.present (s : State) (page : Nat) : Bool :=
  if page = pgSnd then s.fuse.variant.sounding
  else if 0x100 ≤ page ∧ page ≤ 0x103 then s.fuse.variant.cloche
  else true

/-- The owner code of a role (R368); Vendor has none and reads as Anyone does (R453). -/
def roleCode : Role → Nat
  | .anyone => 0x00 | .site => 0x10 | .tenant n => 0x21 + n.val | .verifier _ => 0x30 | .vendor => 0x00

/-- The partition that holds a resource, from the SEC rows: the tenant whose bit is set, else Site (R455). -/
def partitionOf (inRow : Nat → Bool) : Nat :=
  if inRow 0 then 0x21 else if inRow 1 then 0x22 else if inRow 2 then 0x23 else if inRow 3 then 0x24 else 0x10

/-- Whether slice i lies in tenant row n, in rows given as words of the three slice registers. -/
def sliceInRow (lo mid hi : Nat) (i : Nat) : Bool :=
  if i < 32 then bitAt lo i else if i < 64 then bitAt mid (i - 32) else bitAt hi (i - 64)

/-- The partition of a slice (R455). -/
def State.sliceOwner (s : State) (i : Slc) : Nat :=
  partitionOf (fun n => sliceInRow (s.get pgSec (secSlicesLo.nth n)) (s.get pgSec (secSlicesMid.nth n)) (s.get pgSec (secSlicesHi.nth n)) i.val)

/-- The partition of a decoder. -/
def State.decPartition (s : State) (d : DecId) : Nat := partitionOf (fun n => bitAt (s.get pgSec (secDecoders.nth n)) d.val)

/-- The partition of a service slot. -/
def State.svcOwner (s : State) (v : SvcId) : Nat := partitionOf (fun n => bitAt (s.get pgSec (secSlots.nth n)) v.val)

/-- The partition of an audio output. -/
def State.outOwner (s : State) (o : OutId) : Nat := partitionOf (fun n => bitAt (s.get pgSec (secAudOuts.nth n)) o.val)

/-- The partition of a stream queue. -/
def State.queueOwner (s : State) (q : SQueue) : Nat := partitionOf (fun n => bitAt (s.get pgSec (secQueues.nth n)) q.val)

/-- Slice 8k + j of bed k. -/
def bedSlice (k : BedId) (j : Fin 8) : Slc := ⟨8 * k.val + j.val, by omega⟩

/-- The holder of a bed: the partition that holds all eight slices, or no one (R456). -/
def State.bedOwner (s : State) (k : BedId) : Nat :=
  let o := s.sliceOwner (bedSlice k 0)
  if (List.finRange 8).all (fun j => s.sliceOwner (bedSlice k j) = o) then o else 0

/-- The owner code of a page (Table 13.1, R368). -/
def State.pageOwner (s : State) (page : Nat) : Nat :=
  match kindOfPage page with
  | some .slc => if h : page - 0x040 < 96 then s.sliceOwner ⟨page - 0x040, h⟩ else 0x10
  | some .bed => if h : page - 0x020 < 12 then s.bedOwner ⟨page - 0x020, h⟩ else 0x10
  | some .svc => if h : page - 0x0C0 < 32 then s.svcOwner ⟨page - 0x0C0, h⟩ else 0x10
  | some .smc0 | some .smc1 | some .smc2 | some .smc3 => 0x30
  | some _ => 0x10
  | none => 0

/-- Whether a page is shared (R545). -/
def sharedPage (page : Nat) : Bool := page = pgAln || page = pgDec || page = pgAud || page = pgStrm

/-- The role code under which a staging copy of a page is kept: one per role on a shared page, one for all otherwise (R370, R545). -/
def stageRole (page role : Nat) : Nat := if sharedPage page then role else 0

/-! ### Staging (R370 to R372) -/

/-- The staged word of a register for a staging copy: the word staged, else the value in force. -/
def State.staged? (s : State) (role key : Nat) : Option Word :=
  (s.staged.find? (fun x => x.role = role && x.key = key)).map (·.word)

/-- The RS bits of a register. -/
def rsMask (key : Nat) : Word :=
  match rowOf key with
  | some r => BitVec.ofNat 32 r.rs
  | none => 0

/-- The bits of a register that a write stages: its RS bits, and the WO bits that act at a commit (QRESET, ARM, READ, DISCARD, GO). -/
def stageMask (key : Nat) : Word :=
  match rowOf key with
  | some r =>
    if (0x040 ≤ key % 0x400 ∧ (kindOfPage (key / 0x400) = some .strm ∨ kindOfPage (key / 0x400) = some .aln)) ∨ key = keyOf pgSnd sndGo then
      BitVec.ofNat 32 (r.rs ||| r.wo)
    else BitVec.ofNat 32 r.rs
  | none => 0

/-- The page that commits the register at a key: its own page, or the page whose window it is (R100, Table 7.10). -/
def homePage (key : Nat) : Nat :=
  let p := key / 0x400
  if p < 0x400 then p
  else if p < 0x1000 then p % 0x400
  else if p < 0x1C00 then pgStrm
  else p

/-- The word of a register that a waiting commit of a staging copy has captured. -/
def State.capturedWord (s : State) (role key : Nat) : Option Word :=
  (s.captured.find? (fun c => c.page = homePage key && c.role = role)).bind (fun c => (c.words.find? (fun x => x.1 = key)).map (·.2))

/-- The staging copy of a register where nothing has been staged since the last commit: what a waiting commit has captured, else the value in force (R370). -/
def State.base (s : State) (role key : Nat) : Word :=
  match s.capturedWord role key with
  | some w => merge (s.reg key) w (stageMask key)
  | none => s.reg key

/-- The staged value of a register: what a commit would capture. -/
def State.stg (s : State) (role key : Nat) : Word :=
  match s.staged? role key with
  | some w => merge (s.reg key) w (stageMask key)
  | none => s.base role key

/-- A staged field. -/
def State.stgGet (s : State) (role page : Nat) (f : Fld) : Nat := fieldOf (s.stg role (keyOf page f)) f.hi f.lo

/-- Whether a key is the entry register of a candidate, whose write acts on the entry whatever it holds (R184). -/
def isCandKey (key : Nat) : Bool :=
  decide (kindOfPage (key / 0x400) = some .svc) && decide (0x100 ≤ key % 0x400) && decide (key % 0x20 = 0)

/-- Whether a key lies in the stream or bundle window, whose values apply to whichever object the role selects (R545). -/
def isWindowKey (key : Nat) : Bool :=
  decide (key / 0x400 = pgStrm) && ((decide (0x044 ≤ key % 0x400) && decide (key % 0x400 < 0x060)) || (decide (0x064 ≤ key % 0x400) && decide (key % 0x400 < 0x078)))

/-- Whether a key is SIEVE_CFG, whose commit rebuilds the coefficient sets even where EQ_EN keeps its value (R84). -/
def isSieveCfg (key : Nat) : Bool := decide (key = keyOf pgSieve sieveEqEn)

/-- Stages the RS bits of a word for a register; bits equal to the staging copy's own leave nothing staged, candidate entries, windows and SIEVE_CFG apart. -/
def State.stage (s : State) (role key : Nat) (w : Word) : State :=
  let rest := s.staged.filter (fun x => !(x.role = role && x.key = key))
  { s with staged := if (w ^^^ s.base role key) &&& stageMask key = 0 ∧ !isCandKey key ∧ !isWindowKey key ∧ !isSieveCfg key then rest else ⟨role, key, w⟩ :: rest }

/-- Stages one field. -/
def State.stagePut (s : State) (role page : Nat) (f : Fld) (v : Nat) : State :=
  s.stage role (keyOf page f) (withField (s.stg role (keyOf page f)) f.hi f.lo v)

/-- The staged words of a page in a staging copy. -/
def State.stagedOf (s : State) (page role : Nat) : List (Nat × Word) :=
  (s.staged.filter (fun x => x.role = role && homePage x.key = page)).map (fun x => (x.key, x.word))

/-- Drops the staged words of a page in a staging copy. -/
def State.unstage (s : State) (page role : Nat) : State :=
  { s with staged := s.staged.filter (fun x => !(x.role = role && homePage x.key = page)) }

/-- Whether a commit of a page by this staging copy waits for its boundary. -/
def State.pendingCommit (s : State) (page role : Nat) : Bool :=
  s.captured.any (fun c => c.page = page && c.role = role)

/-- LAST_STATUS of a page for a staging copy. -/
def State.lastStatusOf (s : State) (page role : Nat) : Status :=
  ((s.lastStatus.find? (fun x => x.page = page && x.role = role)).map (·.status)).getD .ok

/-- Records LAST_STATUS (R372). -/
def State.setLast (s : State) (page role : Nat) (st : Status) : State :=
  { s with lastStatus := (if st = .ok then [] else [⟨page, role, st⟩]) ++ s.lastStatus.filter (fun x => !(x.page = page && x.role = role)) }

/-- One more commit of a page has taken effect (COMMIT_SEQ, Table 13.2). -/
def State.bumpSeq (s : State) (page : Nat) : State :=
  s.put page pgCommitSeq ((s.get page pgCommitSeq + 1) % 2 ^ 31)

/-- A captured staging copy put in force: the RS bits of every register take their staged value; the first entry of a register is the one that counts, as where it is read. -/
def State.applyWords (s : State) (ws : List (Nat × Word)) : State :=
  ws.reverse.foldl (fun s x => if isCandKey x.1 then s else s.setReg x.1 (merge (s.reg x.1) x.2 (rsMask x.1))) s

/-- The staging copy of a role put in force at the response, and emptied (an immediate page). -/
def State.applyStaged (s : State) (page role : Nat) : State :=
  ((s.applyWords (s.stagedOf page role)).unstage page role).bumpSeq page

/-- The staging copy of a role captured for its boundary, and emptied (R370). -/
def State.capture (s : State) (page role : Nat) : State :=
  let due := commitDue s.time (kindCode page)
  { (s.unstage page role) with captured := s.captured ++ [⟨page, role, s.time.grid, due, s.stagedOf page role⟩] }

/-- A stream ID named by a register field. -/
def strmOf (n : Nat) : StrmId := ⟨n % 512, by omega⟩
/-- A bundle named by a register field. -/
def bundOf (n : Nat) : BundId := ⟨n % 64, by omega⟩

/-- The stream selected by a role (STRM_SEL, R545). -/
def State.selStream (s : State) (role : Nat) : StrmId := strmOf (s.get (pgSel role) strmSel)

/-- The bundle selected by a role (BUND_SEL, R545). -/
def State.selBundle (s : State) (role : Nat) : BundId := bundOf (s.get (pgSel role) strmBundSel)

/-- The register in force behind a staged key: for a window, that of the object the role selects. -/
def State.inForceKey (s : State) (role key : Nat) : Nat :=
  if isWindowKey key then (if key % 0x400 < 0x060 then pgStream (s.selStream role) else pgBundle (s.selBundle role)) * 0x400 + key % 0x400 else key

/-- The words captured by a commit of a page that waits. -/
def State.capturedOf (s : State) (page role : Nat) : List (Nat × Word) :=
  ((s.captured.find? (fun c => c.page = page && c.role = role)).map (·.words)).getD []

/-- Whether a staged value of a page differs from the value in force (DIRTY, Table 13.2). -/
def State.dirty (s : State) (page role : Nat) : Bool :=
  (s.stagedOf page role ++ s.capturedOf page role).any (fun x =>
    isCandKey x.1 || !((s.stg role x.1 ^^^ s.reg (s.inForceKey role x.1)) &&& stageMask x.1 = 0))

/-! ### Small updates of unit tables -/

/-- The state with one RF input changed. -/
def State.updInp (s : State) (i : Inp) (f : Input → Input) : State := { s with inputs := upd s.inputs i f }
/-- The state with one slice changed. -/
def State.updSlc (s : State) (i : Slc) (f : SliceSt → SliceSt) : State := { s with slices := upd s.slices i f }
/-- The state with one demodulator changed. -/
def State.updDemod (s : State) (i : Slc) (f : Demod → Demod) : State := { s with demods := upd s.demods i f }
/-- The state with one capture channel changed. -/
def State.updSnap (s : State) (c : SnapCh) (f : Snap → Snap) : State := { s with snaps := upd s.snaps c f }
/-- The state with one bed changed. -/
def State.updBed (s : State) (k : BedId) (f : Bed → Bed) : State := { s with beds := upd s.beds k f }
/-- The state with one decoder changed. -/
def State.updDec (s : State) (d : DecId) (f : Dec → Dec) : State := { s with decs := upd s.decs d f }
/-- The state with one slot changed. -/
def State.updSlot (s : State) (v : SvcId) (f : Slot → Slot) : State := { s with slots := upd s.slots v f }
/-- The state with one candidate of a slot changed. -/
def State.updCand (s : State) (v : SvcId) (n : CandId) (f : Cand → Cand) : State :=
  s.updSlot v (fun x => { x with cands := upd x.cands n f })
/-- The state with one stream changed. -/
def State.updStrm (s : State) (i : StrmId) (f : Strm → Strm) : State := { s with strms := upd s.strms i f }
/-- The state with one bundle changed. -/
def State.updBund (s : State) (b : BundId) (f : Bund → Bund) : State := { s with bunds := upd s.bunds b f }
/-- The state with one stream queue changed. -/
def State.updQueue (s : State) (q : SQueue) (f : StrmQueue → StrmQueue) : State := { s with squeues := upd s.squeues q f }

/-- An input named by two bits of a register. -/
def inpOf (n : Nat) : Inp := ⟨n % 4, by omega⟩
/-- A slice named by a register field, if it is one. -/
def slcOf (n : Nat) : Option Slc := if h : n < 96 then some ⟨n, h⟩ else none
/-- A bed named by a register field, if it is one. -/
def bedOf (n : Nat) : Option BedId := if h : n < 12 then some ⟨n, h⟩ else none
/-- A decoder named by a register field, if it is one. -/
def decOf (n : Nat) : Option DecId := if h : n < 24 then some ⟨n, h⟩ else none
/-- A slot named by a register field, if it is one. -/
def svcOf (n : Nat) : Option SvcId := if h : n < 32 then some ⟨n, h⟩ else none
/-- A stream queue named by its number, 7 to 15. -/
def queueOf (n : Nat) : Option SQueue := if h : n - 7 < 9 ∧ 7 ≤ n then some ⟨n - 7, h.1⟩ else none

/-- The tenants, T1 to T4. -/
def allTenants : List TenId := List.finRange 4

end Sys2Proof.Machine
end

