-- ==== Sys2Proof/Machine/Operands.lean ====
section
/-! DEFINITION. The values that the fields of a register accept: the ranges that the register tables state, and the relations between fields (R58, R90, R97, R131, R147, R164, R174, R233). -/

namespace Sys2Proof.Machine

/-- A field, how often it repeats, and the values it accepts. -/
structure Rng where
  f : Fld
  count : Nat
  lo : Nat
  hi : Nat
deriving DecidableEq, Repr

/-- The ranges of the INP pages (Tables 2.7 to 2.12). -/
def inpRanges : List Rng := [
  ⟨inpAgcMode, 1, 0, 2⟩, ⟨inpGainCode, 1, 0, 84⟩, ⟨inpGainMax, 1, 0, 84⟩, ⟨inpGainMin, 1, 0, 84⟩, ⟨inpHyst, 1, 0, 40⟩,
  ⟨inpAttackTh, 1, 0, 80⟩, ⟨inpTargetRms, 1, 20, 160⟩, ⟨inpDecayWin, 1, 1, 255⟩, ⟨inpDecayStep, 1, 1, 12⟩,
  ⟨inpAttackStep, 1, 1, 48⟩, ⟨inpOvrPersist, 1, 1, 255⟩]

/-- The ranges of the SVC pages (Table 6.7); candidate entries are checked apart (R174). -/
def svcRanges : List Rng := [
  ⟨svcMaxDelay, 1, 1, 8191⟩, ⟨svcPresent, 1, 10, 81910⟩, ⟨svcDwellBad, 1, 1, 255⟩, ⟨svcDwellBetter, 1, 1, 255⟩,
  ⟨svcFailRetry, 1, 1, 255⟩, ⟨svcBlendMs, 1, 0, 500⟩, ⟨svcLoudRel, 1, 0, 200⟩]

/-- The ranges of the PWR page (Table 16.8). -/
def pwrRanges : List Rng := [
  ⟨pwrTarget, 1, 0, 5⟩, ⟨pwrVmax, 1, 110, 180⟩, ⟨pwrVmin, 1, 110, 180⟩, ⟨pwrStepUp, 1, 1, 8⟩, ⟨pwrStepDn, 1, 1, 4⟩,
  ⟨pwrDownEpochs, 1, 1, 255⟩, ⟨pwrRestoreMargin, 1, 2, 40⟩, ⟨pwrRestoreEpochs, 1, 1, 255⟩, ⟨pwrWarnStep, 1, 1, 255⟩,
  ⟨pwrRestoreSlack, 1, 15, 60⟩]

/-- The ranges of the SND page (Tables 10.8 to 10.16). -/
def sndRanges : List Rng := [
  ⟨sndReturn, 1, 0, 2⟩, ⟨sndTxFreq, 1, 1000, 240000⟩, ⟨sndSf, 1, 0, 5⟩, ⟨sndHalfbw, 1, 1, 250⟩, ⟨sndLevel, 1, 0, 500⟩,
  ⟨sndGrantWait, 1, 1, 255⟩, ⟨sndTxDeferMax, 1, 1, 100⟩, ⟨sndSlice, 1, 0, 95⟩, ⟨sndRxFreq, 1, 1000, 240000⟩,
  ⟨sndSf0, 1, 0, 5⟩, ⟨sndSf1, 1, 0, 5⟩, ⟨sndSf2, 1, 0, 5⟩, ⟨sndSf3, 1, 0, 5⟩,
  ⟨sndWindows, 1, 1, 16⟩, ⟨sndMaxLevel, 1, 0, 500⟩, ⟨sndMaxDuty, 1, 0, 1000⟩, ⟨sndOfs, 16, 0, 1000⟩, ⟨sndLimit, 16, 0, 160⟩]

/-- The ranges that the register tables state, by page kind; a field not listed accepts every value. -/
def rangesOf : PageKind → List Rng
  | .inp => inpRanges
  | .slc => [⟨slcDemod, 1, 0, 4⟩, ⟨slcFilter, 1, 0, 10⟩]
  | .am => [⟨amSoftmuteDepth, 1, 0, 80⟩, ⟨amSoftmuteTh, 1, 0, 160⟩]
  | .fm => [⟨fmDeemph, 1, 0, 2⟩, ⟨fmStereo, 1, 0, 2⟩, ⟨fmCorrMax, 1, 0, 5⟩, ⟨fmSoftmuteDepth, 1, 0, 80⟩, ⟨fmSoftmuteTh, 1, 0, 160⟩]
  | .drm => [⟨drmModeForce, 1, 0, 4⟩, ⟨drmSdcRec, 1, 0, 2⟩]
  | .aln => [⟨alnTrig, 4, 0, 2⟩, ⟨alnFrames, 4, 1, 65536⟩]
  | .bed => [⟨bedBin, 1, 0, 126⟩, ⟨bedFibRec, 1, 0, 2⟩]
  | .dec => [⟨decSrcKind, 24, 0, 2⟩, ⟨decDualSel, 24, 0, 2⟩, ⟨decCodec, 24, 0, 4⟩, ⟨decConcealMax, 24, 0, 100⟩]
  | .svc => svcRanges
  | .aud => [⟨audMclkSrc, 1, 0, 1⟩, ⟨audSlot, 1, 0, 2⟩, ⟨audRate, 1, 10, 100⟩, ⟨audDepth, 1, 0, 20⟩]
  | .cal => [⟨calBank, 1, 0, 2⟩]
  | .snd => sndRanges
  | .lnk => [⟨lnkTstepTh, 1, 1, 255⟩, ⟨lnkHealClean, 1, 1, 255⟩, ⟨lnkRetrain, 1, 1, 255⟩]
  | .prt => [⟨prtTxSwing, 1, 4, 12⟩, ⟨prtTxDeemph, 1, 0, 6⟩]
  | .twb => [⟨twbSclLowMax, 1, 15, 255⟩, ⟨twbSdaHoldMax, 1, 1, 255⟩, ⟨twbQueue, 1, 0, 2⟩]
  | .clk => [⟨clkHoldMax, 1, 1, 200⟩, ⟨clkPref, 1, 0, 2⟩]
  | .pwr => pwrRanges
  | .pmb => [⟨pmbSpeed, 1, 0, 2⟩, ⟨pmbPoll, 1, 1, 255⟩, ⟨pmbSlew, 1, 5, 50⟩, ⟨pmbVsettle, 1, 1, 255⟩]
  | .sec => [⟨secAlnShare, 4, 0, 16777216⟩, ⟨secStrmMax, 4, 0, 512⟩, ⟨secAfQuota, 4, 0, 4096⟩]
  | .tel => [⟨telPeriod, 1, 10, 10000⟩, ⟨telTempWarn, 1, 60, 110⟩, ⟨telTempCrit, 1, 100, 120⟩]
  | .smc3 => [⟨smc3Kind, 1, 0, 2⟩]
  | _ => []

/-- Whether a range speaks of the register at an offset. -/
def Rng.covers (r : Rng) (off : Nat) : Bool :=
  if r.f.stride = 0 then off = r.f.off
  else decide (r.f.off ≤ off) && decide ((off - r.f.off) % r.f.stride = 0) && decide ((off - r.f.off) / r.f.stride < r.count)

/-- Whether the fields of a word lie in their ranges, for the register at a key. -/
def wordInRange (key : Nat) (w : Word) : Bool :=
  match kindOfPage (key / 0x400) with
  | some k => (rangesOf k).all (fun r =>
      if r.covers (key % 0x400) then
        let v := fieldOf w r.f.hi r.f.lo
        decide (r.lo ≤ v) && decide (v ≤ r.hi)
      else true)
  | none => true

/-- Whether every staged field of a page in a staging copy lies in its stated range. -/
def State.stagedInRange (s : State) (page role : Nat) : Bool :=
  (s.stagedOf page role).all (fun x => wordInRange x.1 x.2)

/-- The relations between fields of one register that is written at once (Tables 16.8, 19.9). -/
def relationsOk (key : Nat) (w : Word) : Bool :=
  if key = keyOf pgPwr pwrVmax then fieldOf w 23 16 ≤ fieldOf w 31 24
  else if key = keyOf pgTel telTempCrit then decide (fieldOf w 15 8 < fieldOf w 7 0)
  else true

/-- The filter codes that a demodulator accepts (R71, R97, R147). -/
def filterOk (demod filter : Nat) : Bool :=
  match demod with
  | 0 => decide (filter ≤ 10)
  | 1 => decide (6 ≤ filter) && decide (filter ≤ 10)
  | 2 => decide (1 ≤ filter) && decide (filter ≤ 5)
  | 3 => decide (filter = 5) || decide (filter = 6)
  | 4 => decide (filter = 5)
  | _ => false

/-- The passband edge of each filter code, Hz (Table 3.2). -/
def passEdge : Nat → Nat
  | 0 => 130000 | 1 => 120000 | 2 => 100000 | 3 => 75000 | 4 => 55000 | 5 => 50000
  | 6 => 10000 | 7 => 5000 | 8 => 4500 | 9 => 3000 | _ => 2500

/-- The stopband edge of each filter code, Hz (Table 3.2). -/
def stopEdge : Nat → Nat
  | 0 => 182500 | 1 => 150000 | 2 => 130000 | 3 => 110000 | 4 => 85000 | 5 => 62000
  | 6 => 12500 | 7 => 6500 | 8 => 5800 | 9 => 4000 | _ => 3300

/-- The settle blocks of each filter code (Table 3.2). -/
def settleBlocks : Nat → Nat
  | 0 => 1 | 1 => 1 | 2 => 1 | 3 => 1 | 4 => 1 | 5 => 1 | 6 => 2 | 7 => 2 | 8 => 2 | 9 => 3 | _ => 3

end Sys2Proof.Machine
end

