-- ==== Sys2Proof/Machine/Flags.lean ====
section
/-! DEFINITION. Events (R375, R376), detectors and injection (R496 to R501) and the error log (R502 to R506). -/

namespace Sys2Proof.Machine

/-- The severities of R375. -/
inductive Sev where
  | notice | degraded | fault | fatal
deriving DecidableEq, Repr

/-- The code of a severity (R375). -/
def Sev.code : Sev → Nat
  | .notice => 0 | .degraded => 1 | .fault => 2 | .fatal => 3

/-- An event of a page type: its number and its severity. -/
structure Ev where
  num : Nat
  sev : Sev
deriving DecidableEq, Repr

/-- OVERRANGE of the INP page type (NOTICE). -/
def evInpOverrange : Ev := ⟨1, .notice⟩
/-- OVERLOAD of the INP page type (DEGRADED). -/
def evInpOverload : Ev := ⟨2, .degraded⟩
/-- OVERLOAD_END of the INP page type (NOTICE). -/
def evInpOverloadEnd : Ev := ⟨3, .notice⟩
/-- GAIN_AT_LIMIT of the INP page type (NOTICE). -/
def evInpGainAtLimit : Ev := ⟨4, .notice⟩
/-- HALF_RATE of the INP page type (DEGRADED). -/
def evInpHalfRate : Ev := ⟨5, .degraded⟩
/-- FULL_RATE of the INP page type (NOTICE). -/
def evInpFullRate : Ev := ⟨6, .notice⟩
/-- CONV_STOPPED of the INP page type (DEGRADED). -/
def evInpConvStopped : Ev := ⟨7, .degraded⟩
/-- SIEVE_OVERFLOW of the SIEVE page type (DEGRADED). -/
def evSieveOverflow : Ev := ⟨1, .degraded⟩
/-- COEF_SWAP of the SIEVE page type (NOTICE). -/
def evSieveCoefSwap : Ev := ⟨2, .notice⟩
/-- RES_CONFLICT of the SLC page type (NOTICE). -/
def evSlcResConflict : Ev := ⟨1, .notice⟩
/-- EDGE of the SLC page type (NOTICE). -/
def evSlcEdge : Ev := ⟨2, .notice⟩
/-- IQ_SATURATED of the SLC page type (NOTICE). -/
def evSlcIqSaturated : Ev := ⟨3, .notice⟩
/-- RES_CONFLICT of the ALN page type (NOTICE). -/
def evAlnResConflict : Ev := ⟨1, .notice⟩
/-- SNAP_TRIGGERED of the ALN page type (NOTICE). -/
def evAlnSnapTriggered : Ev := ⟨2, .notice⟩
/-- SNAP_HELD of the ALN page type (NOTICE). -/
def evAlnSnapHeld : Ev := ⟨3, .notice⟩
/-- SNAP_ENDED_EARLY of the ALN page type (NOTICE). -/
def evAlnSnapEndedEarly : Ev := ⟨4, .notice⟩
/-- SNAP_ECC of the ALN page type (DEGRADED). -/
def evAlnSnapEcc : Ev := ⟨5, .degraded⟩
/-- CARRIER_LOCK of the SLC page type (NOTICE). -/
def evSlcCarrierLock : Ev := ⟨9, .notice⟩
/-- CARRIER_LOST of the SLC page type (NOTICE). -/
def evSlcCarrierLost : Ev := ⟨10, .notice⟩
/-- PILOT_LOCK of the SLC page type (NOTICE). -/
def evSlcPilotLock : Ev := ⟨11, .notice⟩
/-- PILOT_LOST of the SLC page type (NOTICE). -/
def evSlcPilotLost : Ev := ⟨12, .notice⟩
/-- RDS_SYNC of the SLC page type (NOTICE). -/
def evSlcRdsSync : Ev := ⟨13, .notice⟩
/-- RDS_SYNC_LOST of the SLC page type (NOTICE). -/
def evSlcRdsSyncLost : Ev := ⟨14, .notice⟩
/-- PI_CHANGE of the SLC page type (NOTICE). -/
def evSlcPiChange : Ev := ⟨15, .notice⟩
/-- PS_COMPLETE of the SLC page type (NOTICE). -/
def evSlcPsComplete : Ev := ⟨16, .notice⟩
/-- RT_COMPLETE of the SLC page type (NOTICE). -/
def evSlcRtComplete : Ev := ⟨17, .notice⟩
/-- CT_RECEIVED of the SLC page type (NOTICE). -/
def evSlcCtReceived : Ev := ⟨18, .notice⟩
/-- AMSS_SYNC of the SLC page type (NOTICE). -/
def evSlcAmssSync : Ev := ⟨19, .notice⟩
/-- AMSS_SYNC_LOST of the SLC page type (NOTICE). -/
def evSlcAmssSyncLost : Ev := ⟨20, .notice⟩
/-- RES_CONFLICT of the BED page type (NOTICE). -/
def evBedResConflict : Ev := ⟨1, .notice⟩
/-- EDGE of the BED page type (NOTICE). -/
def evBedEdge : Ev := ⟨2, .notice⟩
/-- BED_SYNC of the BED page type (NOTICE). -/
def evBedSync : Ev := ⟨3, .notice⟩
/-- BED_SYNC_LOST of the BED page type (DEGRADED). -/
def evBedSyncLost : Ev := ⟨4, .degraded⟩
/-- MCI_COMPLETE of the BED page type (NOTICE). -/
def evBedMciComplete : Ev := ⟨5, .notice⟩
/-- RECONFIG of the BED page type (NOTICE). -/
def evBedReconfig : Ev := ⟨6, .notice⟩
/-- EID_CHANGE of the BED page type (NOTICE). -/
def evBedEidChange : Ev := ⟨7, .notice⟩
/-- IQ_SATURATED of the BED page type (NOTICE). -/
def evBedIqSaturated : Ev := ⟨8, .notice⟩
/-- RES_CONFLICT of the DEC page type (NOTICE). -/
def evDecResConflict : Ev := ⟨1, .notice⟩
/-- DEC_RUN of the DEC page type (NOTICE). -/
def evDecRun : Ev := ⟨2, .notice⟩
/-- DEC_CONCEAL of the DEC page type (NOTICE). -/
def evDecConceal : Ev := ⟨3, .notice⟩
/-- DEC_MUTE of the DEC page type (DEGRADED). -/
def evDecMute : Ev := ⟨4, .degraded⟩
/-- DEC_SOURCE_GONE of the DEC page type (NOTICE). -/
def evDecSourceGone : Ev := ⟨5, .notice⟩
/-- DEC_MISMATCH of the DEC page type (NOTICE). -/
def evDecMismatch : Ev := ⟨6, .notice⟩
/-- DRM_SYNC of the SLC page type (NOTICE). -/
def evSlcDrmSync : Ev := ⟨21, .notice⟩
/-- DRM_SYNC_LOST of the SLC page type (NOTICE). -/
def evSlcDrmSyncLost : Ev := ⟨22, .notice⟩
/-- SDC_OK of the SLC page type (NOTICE). -/
def evSlcSdcOk : Ev := ⟨23, .notice⟩
/-- DRM_RECONFIG of the SLC page type (NOTICE). -/
def evSlcDrmReconfig : Ev := ⟨24, .notice⟩
/-- AFS_UPDATE of the SLC page type (NOTICE). -/
def evSlcAfsUpdate : Ev := ⟨25, .notice⟩
/-- RES_CONFLICT of the SVC page type (NOTICE). -/
def evSvcResConflict : Ev := ⟨1, .notice⟩
/-- SVC_SWITCH of the SVC page type (NOTICE). -/
def evSvcSwitch : Ev := ⟨2, .notice⟩
/-- SVC_NO_SOURCE of the SVC page type (DEGRADED). -/
def evSvcNoSource : Ev := ⟨3, .degraded⟩
/-- SVC_SOURCE_BACK of the SVC page type (NOTICE). -/
def evSvcSourceBack : Ev := ⟨4, .notice⟩
/-- CAND_ADDED of the SVC page type (NOTICE). -/
def evSvcCandAdded : Ev := ⟨5, .notice⟩
/-- CAND_FAILED of the SVC page type (NOTICE). -/
def evSvcCandFailed : Ev := ⟨6, .notice⟩
/-- CAND_DROPPED of the SVC page type (NOTICE). -/
def evSvcCandDropped : Ev := ⟨7, .notice⟩
/-- NO_WATCH_SLICE of the SVC page type (NOTICE). -/
def evSvcNoWatchSlice : Ev := ⟨8, .notice⟩
/-- NO_DECODER of the SVC page type (NOTICE). -/
def evSvcNoDecoder : Ev := ⟨9, .notice⟩
/-- ALIGN_LOST of the SVC page type (NOTICE). -/
def evSvcAlignLost : Ev := ⟨10, .notice⟩
/-- RES_CONFLICT of the STRM page type (NOTICE). -/
def evStrmResConflict : Ev := ⟨1, .notice⟩
/-- QUEUE_OVERFLOW of the STRM page type (DEGRADED). -/
def evStrmQueueOverflow : Ev := ⟨2, .degraded⟩
/-- BUNDLE_DROP of the STRM page type (DEGRADED). -/
def evStrmBundleDrop : Ev := ⟨3, .degraded⟩
/-- BUNDLE_LATE of the STRM page type (NOTICE). -/
def evStrmBundleLate : Ev := ⟨4, .notice⟩
/-- STRM_SOURCE_GONE of the STRM page type (NOTICE). -/
def evStrmSourceGone : Ev := ⟨5, .notice⟩
/-- PORT_CLK_LOST of the AUD page type (DEGRADED). -/
def evAudPortClkLost : Ev := ⟨1, .degraded⟩
/-- PORT_CLK_BACK of the AUD page type (NOTICE). -/
def evAudPortClkBack : Ev := ⟨2, .notice⟩
/-- FRAME_ERR of the AUD page type (NOTICE). -/
def evAudFrameErr : Ev := ⟨3, .notice⟩
/-- CLK_WRONG of the AUD page type (DEGRADED). -/
def evAudClkWrong : Ev := ⟨4, .degraded⟩
/-- UNDERRUN of the AUD page type (NOTICE). -/
def evAudUnderrun : Ev := ⟨5, .notice⟩
/-- SWITCH_DONE of the AUD page type (NOTICE). -/
def evAudSwitchDone : Ev := ⟨6, .notice⟩
/-- CAL_DONE of the CAL page type (NOTICE). -/
def evCalDone : Ev := ⟨1, .notice⟩
/-- CAL_FAIL of the CAL page type (DEGRADED). -/
def evCalFail : Ev := ⟨2, .degraded⟩
/-- CAL_ABORTED of the CAL page type (DEGRADED). -/
def evCalAborted : Ev := ⟨3, .degraded⟩
/-- LOAD_DONE of the CAL page type (NOTICE). -/
def evCalLoadDone : Ev := ⟨4, .notice⟩
/-- RECAL_ADVISED of the CAL page type (NOTICE). -/
def evCalRecalAdvised : Ev := ⟨5, .notice⟩
/-- RES_CONFLICT of the SND page type (NOTICE). -/
def evSndResConflict : Ev := ⟨1, .notice⟩
/-- TX_DONE of the SND page type (NOTICE). -/
def evSndTxDone : Ev := ⟨2, .notice⟩
/-- TX_MASK of the SND page type (DEGRADED). -/
def evSndTxMask : Ev := ⟨3, .degraded⟩
/-- RX_PACKET of the SND page type (NOTICE). -/
def evSndRxPacket : Ev := ⟨4, .notice⟩
/-- RX_ABANDONED of the SND page type (NOTICE). -/
def evSndRxAbandoned : Ev := ⟨5, .notice⟩
/-- PROFILE_CHANGED of the SND page type (NOTICE). -/
def evSndProfileChanged : Ev := ⟨6, .notice⟩
/-- SEAL_BROKEN of the SMC page type (DEGRADED). -/
def evSmcSealBroken : Ev := ⟨1, .degraded⟩
/-- TAMPER of the SMC page type (FAULT). -/
def evSmcTamper : Ev := ⟨2, .fault⟩
/-- SEALED of the SMC page type (NOTICE). -/
def evSmcSealed : Ev := ⟨3, .notice⟩
/-- LOG_HIGH of the SMC page type (NOTICE). -/
def evSmcLogHigh : Ev := ⟨4, .notice⟩
/-- LOG_SUSPENDED of the SMC page type (DEGRADED). -/
def evSmcLogSuspended : Ev := ⟨5, .degraded⟩
/-- LOG_RESUMED of the SMC page type (NOTICE). -/
def evSmcLogResumed : Ev := ⟨6, .notice⟩
/-- SMC_FAIL of the SMC page type (FATAL). -/
def evSmcFail : Ev := ⟨7, .fatal⟩
/-- POS_ASSIGNED of the LNK page type (NOTICE). -/
def evLnkPosAssigned : Ev := ⟨1, .notice⟩
/-- WRAP of the LNK page type (DEGRADED). -/
def evLnkWrap : Ev := ⟨2, .degraded⟩
/-- HEAL of the LNK page type (NOTICE). -/
def evLnkHeal : Ev := ⟨3, .notice⟩
/-- CMD_DROP of the LNK page type (NOTICE). -/
def evLnkCmdDrop : Ev := ⟨4, .notice⟩
/-- EPOCH_CHANGE of the LNK page type (NOTICE). -/
def evLnkEpochChange : Ev := ⟨5, .notice⟩
/-- PORT_UP of the PRT page type (NOTICE). -/
def evPrtPortUp : Ev := ⟨1, .notice⟩
/-- PORT_DOWN of the PRT page type (DEGRADED). -/
def evPrtPortDown : Ev := ⟨2, .degraded⟩
/-- LANE_CRC of the PRT page type (NOTICE). -/
def evPrtLaneCrc : Ev := ⟨3, .notice⟩
/-- FRAME_CRC of the PRT page type (NOTICE). -/
def evPrtFrameCrc : Ev := ⟨4, .notice⟩
/-- SDA_RELEASED of the TWB page type (NOTICE). -/
def evTwbSdaReleased : Ev := ⟨1, .notice⟩
/-- SCL_LOW_TIMEOUT of the TWB page type (NOTICE). -/
def evTwbSclLowTimeout : Ev := ⟨2, .notice⟩
/-- WAKE of the TWB page type (NOTICE). -/
def evTwbWake : Ev := ⟨3, .notice⟩
/-- CLAIMED of the TWB page type (NOTICE). -/
def evTwbClaimed : Ev := ⟨4, .notice⟩
/-- CLAIM_CLOSED of the TWB page type (NOTICE). -/
def evTwbClaimClosed : Ev := ⟨5, .notice⟩
/-- MBOX_LOST of the TWB page type (NOTICE). -/
def evTwbMboxLost : Ev := ⟨6, .notice⟩
/-- REF_SWITCH of the CLK page type (NOTICE). -/
def evClkRefSwitch : Ev := ⟨1, .notice⟩
/-- HOLDOVER of the CLK page type (DEGRADED). -/
def evClkHoldover : Ev := ⟨2, .degraded⟩
/-- HOLDOVER_END of the CLK page type (NOTICE). -/
def evClkHoldoverEnd : Ev := ⟨3, .notice⟩
/-- CLOCKLESS_SAFE of the CLK page type (FAULT). -/
def evClkClocklessSafe : Ev := ⟨4, .fault⟩
/-- CLOCK_BACK of the CLK page type (NOTICE). -/
def evClkClockBack : Ev := ⟨5, .notice⟩
/-- LOCK_LOST of the CLK page type (DEGRADED). -/
def evClkLockLost : Ev := ⟨6, .degraded⟩
/-- TIME_STEP of the CLK page type (NOTICE). -/
def evClkTimeStep : Ev := ⟨7, .notice⟩
/-- PORT_DISQUAL of the CLK page type (NOTICE). -/
def evClkPortDisqual : Ev := ⟨8, .notice⟩
/-- UPSTREAM_COAST of the CLK page type (NOTICE). -/
def evClkUpstreamCoast : Ev := ⟨9, .notice⟩
/-- VCORE_CEILING of the PWR page type (NOTICE). -/
def evPwrVcoreCeiling : Ev := ⟨1, .notice⟩
/-- SLACK_LOW of the PWR page type (DEGRADED). -/
def evPwrSlackLow : Ev := ⟨2, .degraded⟩
/-- RESTORED of the PWR page type (NOTICE). -/
def evPwrRestored : Ev := ⟨3, .notice⟩
/-- FIFO_OVERFLOW of the PWR page type (FAULT). -/
def evPwrFifoOverflow : Ev := ⟨4, .fault⟩
/-- RUNG_DONE of the PWR page type (NOTICE). -/
def evPwrRungDone : Ev := ⟨5, .notice⟩
/-- RESTORE_SUSP of the PWR page type (NOTICE). -/
def evPwrRestoreSusp : Ev := ⟨6, .notice⟩
/-- REG_WARN of the PMB page type (DEGRADED). -/
def evPmbRegWarn : Ev := ⟨1, .degraded⟩
/-- REG_FAULT of the PMB page type (FAULT). -/
def evPmbRegFault : Ev := ⟨2, .fault⟩
/-- REG_CLEAR of the PMB page type (NOTICE). -/
def evPmbRegClear : Ev := ⟨3, .notice⟩
/-- PMB_LOST of the PMB page type (FAULT). -/
def evPmbLost : Ev := ⟨4, .fault⟩
/-- PMB_BACK of the PMB page type (NOTICE). -/
def evPmbBack : Ev := ⟨5, .notice⟩
/-- TENANT_ENROLLED of the SEC page type (NOTICE). -/
def evSecTenantEnrolled : Ev := ⟨1, .notice⟩
/-- TENANT_REVOKED of the SEC page type (NOTICE). -/
def evSecTenantRevoked : Ev := ⟨2, .notice⟩
/-- AUTH_FAIL of the SEC page type (DEGRADED). -/
def evSecAuthFail : Ev := ⟨3, .degraded⟩
/-- SESSION_ENDED of the SEC page type (NOTICE). -/
def evSecSessionEnded : Ev := ⟨4, .notice⟩
/-- SITE_RELEASED of the SEC page type (NOTICE). -/
def evSecSiteReleased : Ev := ⟨5, .notice⟩
/-- DEBUG_UNLOCKED of the SEC page type (FAULT). -/
def evSecDebugUnlocked : Ev := ⟨6, .fault⟩
/-- FW_REJECTED of the SEC page type (FAULT). -/
def evSecFwRejected : Ev := ⟨7, .fault⟩
/-- RAKE_START of the LOAM page type (NOTICE). -/
def evLoamRakeStart : Ev := ⟨1, .notice⟩
/-- RAKE_DONE of the LOAM page type (NOTICE). -/
def evLoamRakeDone : Ev := ⟨2, .notice⟩
/-- LOAM_RESERVE of the LOAM page type (DEGRADED). -/
def evLoamReserve : Ev := ⟨3, .degraded⟩
/-- LOAM_ECC of the LOAM page type (FAULT). -/
def evLoamEcc : Ev := ⟨4, .fault⟩
/-- TORN_FOUND of the LOAM page type (NOTICE). -/
def evLoamTornFound : Ev := ⟨5, .notice⟩
/-- FW_SLOT_VALID of the LOAM page type (NOTICE). -/
def evLoamFwSlotValid : Ev := ⟨6, .notice⟩
/-- LOG_FULL of the FLT page type (NOTICE). -/
def evFltLogFull : Ev := ⟨1, .notice⟩
/-- LOG_OVERFLOW of the FLT page type (DEGRADED). -/
def evFltLogOverflow : Ev := ⟨2, .degraded⟩
/-- SRAM_SEC of the FLT page type (NOTICE). -/
def evFltSramSec : Ev := ⟨3, .notice⟩
/-- SRAM_DED of the FLT page type (DEGRADED). -/
def evFltSramDed : Ev := ⟨4, .degraded⟩
/-- SRAM_DED_CTL of the FLT page type (FATAL). -/
def evFltSramDedCtl : Ev := ⟨5, .fatal⟩
/-- STALL of the FLT page type (FAULT). -/
def evFltStall : Ev := ⟨6, .fault⟩
/-- TEMP_HIGH of the TEL page type (DEGRADED). -/
def evTelTempHigh : Ev := ⟨1, .degraded⟩
/-- TEMP_CRIT of the TEL page type (FAULT). -/
def evTelTempCrit : Ev := ⟨2, .fault⟩
/-- TEMP_SHUTDOWN of the TEL page type (FATAL). -/
def evTelTempShutdown : Ev := ⟨3, .fatal⟩
/-- TEMP_OK of the TEL page type (NOTICE). -/
def evTelTempOk : Ev := ⟨4, .notice⟩
/-- RAIL_WARN of the TEL page type (DEGRADED). -/
def evTelRailWarn : Ev := ⟨5, .degraded⟩
/-- RAIL_OK of the TEL page type (NOTICE). -/
def evTelRailOk : Ev := ⟨6, .notice⟩
/-- ABSENT_WRITE (R5, R375). -/
def evAbsentWrite : Ev := ⟨0x3F, .notice⟩

/-- The event word of R375. -/
def eventWord (page : Nat) (ev : Ev) (lost : Bool) : Word :=
  let ti := pageTypeInst page
  BitVec.ofNat 32 (ti.1 * 2 ^ 24 + ti.2 % 256 * 2 ^ 16 + ev.num * 2 ^ 8 + ev.sev.code * 2 ^ 6 + bit lost * 2 ^ 5)

/-- Whether an event for this owner code can be placed on Q5: a tenant or the Verifier needs an open session (R468). -/
def State.hearsEvents (s : State) (owner : Nat) : Bool :=
  if owner = 0x30 then (s.sec.csess[5]).isSome || (s.sec.csess[6]).isSome || (s.sec.csess[7]).isSome
  else if h : 0x21 ≤ owner ∧ owner ≤ 0x24 then (s.sec.sess[owner - 0x20]'(by omega)).isSome
  else true

/-- An event word put where the next E0 packet for its owner is gathered (R376). -/
def State.gather (s : State) (page : Nat) (ev : Ev) (owner : Nat) : State :=
  if s.hearsEvents owner then
    let lost := s.q.lostPages.contains page
    { s with q := { s.q with
        gather := s.q.gather ++ [⟨owner, page, eventWord page ev lost, s.time.devtime⟩]
        lostPages := s.q.lostPages.filter (fun p => p ≠ page) } }
  else s

/-- One bit of a header register of a page set. -/
def State.setBit (s : State) (page off b : Nat) : State :=
  s.setReg (page * 0x400 + off) (s.reg (page * 0x400 + off) ||| place b b 1)

/-- An event of an object that belongs to `owner` raised on a page (R376): its RAW bit, and where its EN bit is 1 its PEND bit and its delivery as ROUTE sets. ATTN_N follows from the PEND bits (`State.attn`). -/
def State.raiseTo (s : State) (page : Nat) (ev : Ev) (owner : Nat) : State :=
  let s1 := s.setBit page 0x010 (ev.num - 1)
  if bitAt (s.get page pgEvtEn) (ev.num - 1) then
    let s2 := s1.setBit page 0x018 (ev.num - 1)
    if s.get page pgRoute % 2 = 1 then s2.gather page ev owner else s2
  else s1

/-- An event raised on a page for the page's own owner. -/
def State.raise (s : State) (page : Nat) (ev : Ev) : State := s.raiseTo page ev (s.pageOwner page)

/-- ABSENT_WRITE: always sent on Q5 to the writer, with no bit and no ATTN_N (R376). -/
def State.raiseAbsent (s : State) (page writer : Nat) : State := s.gather page evAbsentWrite writer

/-- The pages of Table 13.1. -/
def allPages : List Nat := (List.range 0x104).filter (fun p => (kindOfPage p).isSome)

/-- Whether a page drives ATTN_N low: ROUTE 2 or 3 and a PEND bit set (R376). -/
def State.pageAttn (s : State) (page : Nat) : Bool :=
  decide (2 ≤ s.get page pgRoute) && !(s.reg (page * 0x400 + 0x018) == 0)

/-- Whether ATTN_N is driven low (R376). -/
def State.attn (s : State) : Bool := allPages.any (fun p => s.present p && s.pageAttn p)

/-! ### The error log -/

/-- The overflow counter of a severity (Table 19.7). -/
def ovfField : Nat → Fld
  | 0 => fltOvfNotice | 1 => fltOvfDegraded | 2 => fltOvfFault | _ => fltOvfFatal

/-- Severity bits of an event word. -/
def sevOf (w : Word) : Nat := fieldOf w 7 6

/-- Whether a finding coalesces into an entry (R504). -/
def LogEntry.same (e : LogEntry) (event : Word) (ptype inst det src : Nat) : Bool :=
  e.event = event && e.ptype = ptype && e.inst = inst && e.det = det && e.src = src

/-- The NOTICE and DEGRADED entries held. -/
def ErrLog.low (l : ErrLog) : Nat := (l.entries.filter (fun e => decide (sevOf e.event ≤ 1))).length

/-- A finding that cannot be logged is counted; LOG_OVERFLOW at most once per 10 ms (R503, R505). -/
def State.logOverflow (s : State) (sev : Nat) : State :=
  let s1 := s.count pgFlt (ovfField sev) 1
  let due := match s.log.ovfAt with
    | some t => decide (t + 10 * msTicks ≤ s.time.mono)
    | none => true
  if due then { s1.raise pgFlt evFltLogOverflow with log := { s.log with ovfAt := some s.time.mono } } else s1

/-- A new entry: FAULT and FATAL entries queue for the Loam store, 16 at most (R505, R506). -/
def State.logNew (s : State) (e : LogEntry) : State :=
  let l := s.log
  let hot := decide (2 ≤ sevOf e.event)
  let room := decide (l.waiting.length < 16)
  let s1 := { s with log := { l with
      entries := l.entries ++ [{ e with seq := l.nextSeq }]
      nextSeq := (l.nextSeq + 1) % 65536
      waiting := if hot && room then l.waiting ++ [{ e with seq := l.nextSeq }] else l.waiting }
                     temps := if bitAt (s.get pgTel telRec) 4 then { s.temps with newEntries := s.temps.newEntries ++ [{ e with seq := l.nextSeq }] } else s.temps }
  let s2 := if hot && !room then s1.count pgFlt fltLoamDrop 1 else s1
  if decide (240 ≤ s2.log.low) && !s2.log.fullRaised then
    { s2.raise pgFlt evFltLogFull with log := { s2.log with fullRaised := true } }
  else s2

/-- The findings that stand in the intake at the present instant (R503). DESIGN CHOICE (log 77): what came at one instant has reached the log by the next. -/
def State.inIntake (s : State) : Nat := if s.log.intakeAt = s.time.mono then s.log.intake else 0

/-- A finding recorded in the error log (R502 to R505): counted and not logged where 32 findings of this instant stand in the intake; else coalesced, or a new entry, or counted as overflow. Entries that name a tenant's page carry DETAIL 0 (R454). -/
def State.logFinding (s : State) (event : Word) (page det src : Nat) (detail : Word) : State :=
  let ti := pageTypeInst page
  let inst := ti.2 % 256
  let owner := s.pageOwner page
  let det' : Word := if 0x21 ≤ owner ∧ owner ≤ 0x24 then 0 else detail
  let s00 := if 2 ≤ src then s.count pgFlt fltInjCnt 1 else s
  let s0 := { s00 with log := { s00.log with intake := s.inIntake + 1, intakeAt := s.time.mono } }
  if 32 ≤ s.inIntake then s00.count pgFlt (ovfField (sevOf event)) 1
  else if s0.log.entries.any (fun e => e.same event ti.1 inst det src) then
    { s0 with log := { s0.log with
        entries := updFirst (fun e => e.same event ti.1 inst det src)
          (fun e => { e with rep := min (e.rep + 1) 65535, last := s.time.devtime }) s0.log.entries } }
  else
    let e : LogEntry := ⟨event, ti.1, inst, det, src, s.time.devtime, 0, 1, det', s.time.devtime, 0, 0⟩
    let sev := sevOf event
    if (sev ≤ 1 ∧ 240 ≤ s0.log.low) ∨ 256 ≤ s0.log.entries.length then s0.logOverflow sev
    else s0.logNew e

/-! ### Detectors and injection -/

/-- Whether the injection of a page acts at a detector (R499). -/
def State.injected (s : State) (page det : Nat) : Bool :=
  decide (s.get page pgMode ≠ 0) && decide (s.get page pgDet = det)

/-- An evaluation that an injection has acted on: one-shot ends, count goes down (R499). -/
def State.consumeInj (s : State) (page : Nat) : State :=
  match s.get page pgMode with
  | 1 => s.put page pgMode 0
  | 3 =>
    let n := s.get page pgInjCnt - 1
    let s1 := s.put page pgInjCnt n
    if n = 0 then s1.put page pgMode 0 else s1
  | _ => s

/-- The source code of a finding: 0 none, 1 real, 2 injected, 3 both (R501, Table 19.2). -/
def findingSrc (real inj : Bool) : Nat := bit real + 2 * bit inj

/-- One evaluation of a detector: what it finds, and the state with the injection used up. -/
def State.evaluate (s : State) (page det : Nat) (real : Bool) : Nat × State :=
  let inj := s.injected page det
  (findingSrc real inj, if inj then s.consumeInj page else s)

/-- A finding: its event raised for its owner, and its entry made (R498). `page` holds the detector, `evPage` the event. -/
def State.finding (s : State) (page det evPage : Nat) (ev : Ev) (owner src : Nat) (detail : Word) : State :=
  (s.raiseTo evPage ev owner).logFinding (eventWord evPage ev false) page det src detail

/-- Counts a race on a page (R379, RACE_CNT). -/
def State.race (s : State) (page : Nat) : State := s.count page pgRaceCnt 1

end Sys2Proof.Machine
end

