-- ==== Sys2Proof/Machine/Serve.lean ====
section
/-! DEFINITION. Commands of Q0 to Q2 from arrival to answer: authentication (R451, R452, R464 to R468), the answer and where it goes (R17, R340, R387, R466), and the register write of the direct window (R385, R386). -/

namespace Sys2Proof.Machine

/-- The session slot of a role at an endpoint (R464). -/
def slotOfRole : Role → Option KeySlot
  | .site => some 0
  | .tenant n => some ⟨n.val + 1, by omega⟩
  | .vendor => some 5
  | .verifier k => some ⟨k.val + 5, by omega⟩
  | .anyone => none

/-- The role of a session slot: at the part 0 Site, 1 to 4 tenants, 5 Vendor; at the cloche 1 to 4 tenants, 5 to 7 Verifier. -/
def roleOfSlot (cloche : Bool) (k : KeySlot) : Role :=
  if k.val = 0 then .site
  else if h : k.val ≤ 4 ∧ 1 ≤ k.val then .tenant ⟨k.val - 1, by omega⟩
  else if cloche then (if h : 5 ≤ k.val then .verifier ⟨k.val - 5, by omega⟩ else .anyone)
  else .vendor

/-- The sessions of an endpoint: the cloche for Q2, the part otherwise (R464). -/
def State.sessions (s : State) (cloche : Bool) : Vector (Option Session) 8 := if cloche then s.sec.csess else s.sec.sess

/-- The sessions of an endpoint replaced. -/
def State.setSessions (s : State) (cloche : Bool) (v : Vector (Option Session) 8) : State :=
  if cloche then { s with sec := { s.sec with csess := v } } else { s with sec := { s.sec with sess := v } }

/-- One session slot replaced. -/
def State.setSession (s : State) (cloche : Bool) (k : KeySlot) (x : Option Session) : State :=
  s.setSessions cloche ((s.sessions cloche).set k x)

/-- The slot whose open session carries an ID. -/
def State.findSession (s : State) (cloche : Bool) (sid : BitVec 16) : Option KeySlot :=
  (List.finRange 8).find? (fun k => match (s.sessions cloche)[k] with
    | some x => x.id = sid
    | none => false)

/-- A session ends other than by SESS_CLOSE: SESSION_ENDED (R468). -/
def State.endSession (s : State) (cloche : Bool) (k : KeySlot) : State :=
  match (s.sessions cloche)[k] with
  | some _ => (s.setSession cloche k none).raise pgSec evSecSessionEnded
  | none => s

/-- Several sessions of an endpoint end. -/
def State.endSessions (s : State) (cloche : Bool) (ks : List KeySlot) : State :=
  ks.foldl (fun s k => s.endSession cloche k) s

/-- Whether a role may use a queue, on the bus or on the ring (Table 17.1, R453). -/
def mayUse (r : Role) (q : CQueue) (bus : Bool) : Bool :=
  match r with
  | .site => q.val = 0
  | .tenant _ => decide (q.val = 1) || decide (q.val = 2)
  | .verifier _ => q.val = 2
  | .vendor => decide (q.val = 0) && bus
  | .anyone => true

/-- The TENANT field that Table 12.5 requires of a session's commands: its number on Q1, 0 elsewhere. -/
def tenantField (r : Role) (q : CQueue) : Nat :=
  match r with
  | .tenant n => if q.val = 1 then n.val + 1 else 0
  | _ => 0

/-- How a command fared in the checks of R467: refused in clear with a status, or accepted in a role, under a session or none. -/
inductive Checked where
  | refused (st : Status)
  | accepted (r : Role) (ses : Option KeySlot)
deriving DecidableEq, Repr

/-- A tag failure: counted, a finding of the authentication detector at most once per 10 ms as an event, and the session ends at the eighth in a row (R467, R468, Table 19.1). -/
def State.tagFailure (s : State) (cloche : Bool) (k : KeySlot) (x : Session) (src : Nat) : State :=
  let s1 := s.count pgSec secAuthFail 1
  let due := match s.sec.authFailAt with
    | some t => decide (t + 10 * msTicks ≤ s.time.mono)
    | none => true
  let s2 := if due then { s1.raise pgSec evSecAuthFail with sec := { s1.sec with authFailAt := some s.time.mono } } else s1
  let s3 := s2.logFinding (eventWord pgSec evSecAuthFail false) pgSec 1 src 0
  if 8 ≤ x.fails + 1 then s3.endSession cloche k
  else s3.setSession cloche k (some { x with fails := x.fails + 1 })

/-- The checks of R467 on an authenticated command. -/
def State.checkAuth (s : State) (q : CQueue) (w : Waiting) (a : Auth) : State × Checked :=
  let cloche := decide (q.val = 2)
  if w.head.len < 3 ∨ !w.head.argZero then (s, .refused .badArg)
  else match s.findSession cloche a.sid with
    | none => (s.count pgSec secStaleCnt 1, .refused .staleSession)
    | some k =>
      match (s.sessions cloche)[k] with
      | none => (s, .refused .staleSession)
      | some x =>
        if a.ctr ≤ x.ctrIn then (s.count pgSec secStaleCnt 1, .refused .staleSession)
        else
          let ev := s.evaluate pgSec 1 (!a.tagOk)
          if ev.1 ≠ 0 then (ev.2.tagFailure cloche k x ev.1, .refused .accessDenied)
          else
            let role := roleOfSlot cloche k
            let s1 := s.setSession cloche k (some { x with ctrIn := a.ctr, fails := 0 })
            let s2 := if a.ctr = 2 ^ 64 - 1 then s1.endSession cloche k else s1
            if w.head.tenant ≠ tenantField role q ∨ !mayUse role q w.bus then (s2, .refused .accessDenied)
            else (s2, .accepted role (some k))

/-- The role of a command without session words (R451, R452). -/
def State.clearRole (s : State) (q : CQueue) (w : Waiting) : Role :=
  if s.sec.siteKey.isNone ∧ w.bus ∧ q.val = 0 then .site else .anyone

/-- The checks on any command, in clear or authenticated. -/
def State.check (s : State) (q : CQueue) (w : Waiting) : State × Checked :=
  match w.head.auth with
  | some a => s.checkAuth q w a
  | none => (s, .accepted (s.clearRole q w) none)

/-- What a command answers: status, RESULT, data words. -/
structure Reply where
  status : Status
  result : Word
  data : List Quad
deriving DecidableEq, Repr

/-- An answer that is a status alone. -/
def Reply.st (x : Status) : Reply := ⟨x, 0, []⟩

/-- A0 of Table 12.5. -/
def a0Word (a : Answer) (len : Nat) (inner : Bool) : Quad :=
  quadPack [(127, 120, a.op), (119, 110, len), (109, 94, a.tag), (93, 86, a.status.code), (85, 83, a.tenant),
    (63, 32, a.rseq.toNat), (31, 0, if inner then 0 else a.result.toNat)]

/-- The words of a packet in the form of Table 17.7: its first word, S0, and the ciphertext and tag of the inner word and the packet's own words. -/
def sealedQuads (u : Under) (w0 i0 : Quad) (data : List Quad) : List Quad :=
  let s0 := quadPack [(127, 112, u.sid.toNat), (111, 48, u.ctr)]
  w0 :: s0 :: Config.gcmSeal u.keys u.ctr [w0, s0] (i0 :: data)

/-- The words of an answer packet, in clear or in the form of Table 17.7. -/
def answerQuads (a : Answer) : List Quad :=
  match a.sess with
  | none => a0Word a a.data.length false :: a.data
  | some u => sealedQuads u (a0Word a (a.data.length + 3) true) (quadPack [(127, 96, a.result.toNat)]) a.data

/-- An answer placed in TWB_MBOX_OUT, 4,096 words at most; one that does not fit is discarded with OUT_LOST and MBOX_LOST (R387). -/
def State.mboxPut (s : State) (ws : List Word) : State :=
  if s.twb.out.length + ws.length ≤ 4096 then { s with twb := { s.twb with out := s.twb.out ++ ws } }
  else (s.put pgTwb twbOutLost 1).raise pgTwb evTwbMboxLost

/-- Takes the next value of RSEQ (R17). -/
def State.takeRseq (s : State) : Word × State := (s.rseq, { s with rseq := s.rseq + 1 })

/-- The answer to a command: the next RSEQ, the session's counter, and its place: the mailbox for a bus command, Q6 for Q2, Q4 otherwise. Without a cloche nothing goes on Q6 (R6), and the answer of a Q2 command goes on Q4 (log 13). -/
def State.post (s : State) (q : CQueue) (w : Waiting) (ses : Option KeySlot) (r : Reply) : State :=
  let cloche := decide (q.val = 2)
  let (rs, s1) := s.takeRseq
  let open_ : Option (KeySlot × Session) := match ses with
    | some k => ((s1.sessions cloche)[k]).map (fun x => (k, x))
    | none => none
  let (s2, sess) : State × Option Under := match open_ with
    | some (k, x) => (s1.setSession cloche k (some { x with ctrOut := x.ctrOut + 1 }), some ⟨x.id, x.ctrOut + 1, x.keys⟩)
    | none => (s1, none)
  let a : Answer := ⟨w.head.op, w.head.tag, r.status, w.head.tenant, rs, r.result, r.data, sess⟩
  if w.bus then s2.mboxPut ((answerQuads a).flatMap wordsOf)
  else if cloche && s2.fuse.variant.cloche then { s2 with q := { s2.q with q6 := s2.q.q6 ++ [.answer a] } }
  else { s2 with q := { s2.q with q4 := s2.q.q4 ++ [a] } }

/-- The command at the front of a queue taken off it. -/
def State.popCmd (s : State) (q : CQueue) : State := { s with q := { s.q with cmd := upd s.q.cmd q List.tail } }

/-- The role that the direct window carries (R385). -/
def State.windowRole (s : State) : Role := if s.sec.siteKey.isNone then .site else .anyone

/-- A write through the direct window takes the next RSEQ (R17, R386). -/
def State.windowSeq (s : State) : State :=
  let (rs, s1) := s.takeRseq
  s1.put pgTwb twbLastRseq rs.toNat

/-- A register access through the direct window: its status and address are recorded, and a write that takes effect takes the next RSEQ (R386, R391). -/
def State.windowDone (s : State) (addr : Nat) (st : Status) : State :=
  let s1 := (s.put pgTwb twbLastAddr addr).put pgTwb twbLastStatus st.code
  if st = .ok then s1.windowSeq else s1

/-- The answer to a caller: a packet, or the status of the direct window. -/
def State.answer (s : State) (c : Caller) (addr : Nat) (r : Reply) : State :=
  match c.q with
  | some q => s.post q c.w c.ses r
  | none => s.windowDone addr r.status

/-- What a caller's command leaves: its answer given now, or withheld until a later command gives it. -/
def State.reply (c : Caller) (addr : Nat) (x : State × Option Reply) : State :=
  match x.2 with
  | some r => x.1.answer c addr r
  | none => x.1

/-- The opcodes of the register writes (Table 13.6). -/
def writeOps : List Nat := [0x02, 0x03]

/-- The opcodes of every register command (Table 13.6). -/
def registerOps : List Nat := [0x01, 0x02, 0x03]

/-- The opcodes that the manual assigns on Q0 and Q1 (Tables 13.6, 17.5, 17.6, 18.5, R530). -/
def assignedOps : List Nat :=
  [0x01, 0x02, 0x03, 0x20, 0x21, 0x22, 0x23, 0x30, 0x31, 0x32, 0x40, 0x41, 0x42, 0x43, 0x50, 0xF0, 0xF1, 0xF2, 0xF3, 0xF4]

/-- The opcodes that a command without a stated opcode may carry: REF_CHECK, PROF_SAVE, PROF_LOAD, PROF_ERASE (log 17). -/
def unassignedOps : List Nat := (List.range 256).filter (fun n => !assignedOps.contains n)

/-- The opcodes of the cloche mailbox (Table 11.7). -/
def mailboxOps : List Nat := [0x01, 0x02, 0x03, 0x04, 0x05, 0x10, 0x11, 0x12, 0x13, 0x14, 0x15]

/-- The session commands of Table 17.5. -/
def sessionOps : List Nat := [0xF0, 0xF1, 0xF2, 0xF3, 0xF4]

/-- The firmware-bank commands of Table 18.5. -/
def bankOps : List Nat := [0x40, 0x41, 0x42, 0x43]

/-- The opcodes of a queue's command set: session commands on each; the mailbox on Q2; register commands and those without a stated opcode on Q1 (log 17); on Q0 all of these and the key-management, firmware-bank and ball commands. -/
def queueOps (q : CQueue) (op : Nat) : Bool :=
  if q.val = 2 then (mailboxOps ++ sessionOps).contains op
  else if q.val = 1 then (registerOps ++ sessionOps ++ unassignedOps).contains op
  else true

/-- The words after C0 that Tables 17.5, 17.6 and 18.5 and R530 give a command in clear; none where the command's own rules check them. -/
def opWords (op : Nat) : Option (Nat × Nat) :=
  match op with
  | 0xF0 => some (5, 5) | 0xF1 => some (4, 4) | 0xF2 => some (0, 0) | 0xF3 => some (4, 4) | 0xF4 => some (0, 0)
  | 0x20 => some (4, 4) | 0x21 => some (4, 4) | 0x22 => some (0, 0) | 0x23 => some (0, 0)
  | 0x30 => some (9, 9) | 0x31 => some (0, 0) | 0x32 => some (0, 0)
  | 0x40 => some (0, 0) | 0x41 => some (1, 1016) | 0x42 => some (0, 0) | 0x43 => some (0, 0) | 0x50 => some (0, 0)
  | _ => none

/-- The words of a command without its session words (Table 17.7). -/
def clearLen (h : CmdHead) : Nat := if h.auth.isSome then h.len - 3 else h.len

/-- Whether a command is well formed: its LEN and, for a session command, its AUTH bit are those of its table (Table 13.5, R463). Q2 has opcodes of its own. -/
def formOk (h : CmdHead) (q : CQueue) : Bool :=
  if sessionOps.contains h.op then
    decide (h.auth.isSome = decide (h.op = 0xF2)) && (match opWords h.op with
      | some (a, b) => decide (a ≤ clearLen h) && decide (clearLen h ≤ b)
      | none => true)
  else if q.val = 2 then true
  else match opWords h.op with
    | some (a, b) => decide (a ≤ clearLen h) && decide (clearLen h ≤ b)
    | none => true

/-- Whether commands of an opcode are served: after boot, all; when both firmware slots have failed, register commands and the firmware-bank commands (R471). -/
def State.servesOp (s : State) (op : Nat) : Bool :=
  decide (s.boot = .complete) || (decide (s.boot = .bankOnly) && (registerOps ++ bankOps).contains op)

/-- A command taken off the front of its queue, checked and run. -/
def State.serveFront (s : State) (q : CQueue) (w : Waiting) (act : Caller → State → State × Option Reply) : State :=
  let s0 := s.popCmd q
  if q.val = 2 ∧ !s0.fuse.variant.cloche then s0.post q w none (.st .absentUnit)
  else match s0.check q w with
    | (s1, .refused st) => s1.post q w none (.st st)
    | (s1, .accepted r ses) =>
      let c : Caller := ⟨r, some q, w, ses⟩
      if formOk w.head q then State.reply c 0 (act c s1) else s1.answer c 0 (.st .badArg)

/-- Commands at the front of a queue whose opcode is none of the queue's command set are malformed: each completes BAD_ARG (Table 13.5). A queue holds 32 at most. -/
def State.flushForeign (s : State) (q : CQueue) : Nat → State
  | 0 => s
  | n + 1 =>
    match s.q.cmd[q] with
    | [] => s
    | w :: _ => if queueOps q w.head.op then s else (s.serveFront q w (fun _ s => (s, some (.st .badArg)))).flushForeign q n

/-- Serves the command at the front of a queue when it carries one of the given opcodes: checks, runs it for its caller, answers (log 14: a queue is served in order of arrival). A command of Q2 on a part without a cloche answers ABSENT_UNIT (R6). -/
def State.serve (s : State) (q : CQueue) (ops : List Nat) (act : Caller → State → State × Option Reply) : State :=
  match s.q.cmd[q] with
  | [] => s
  | w :: _ =>
    if s.servesOp w.head.op ∧ ops.contains w.head.op then (s.serveFront q w act).flushForeign q 32 else s

/-- A command with no words of its own: what the direct window stands for. -/
def noWords : Waiting := ⟨⟨0, 0, 0, 0, true, none⟩, true⟩

/-- Whether the direct window answers: once the register file is open (R519), or with both firmware slots failed (R471), in DOZE and above (Table 14.2). -/
def State.windowOpen (s : State) : Bool := (decide (s.boot = .complete) || decide (s.boot = .bankOnly)) && decide (s.pwr.rung ≤ 3)

/-- A register access made by the command at the front of Q0 or Q1, or through the direct window. -/
def State.viaOps (s : State) (ops : List Nat) (src : Src) (addr : Nat) (act : Caller → State → State × Option Reply) : State :=
  match src with
  | .cmd q => if q.val = 2 then s else s.serve q ops act
  | .window =>
    if s.windowOpen then
      let c : Caller := ⟨s.windowRole, none, noWords, none⟩
      State.reply c addr (act c s)
    else s

/-- A register write made by the command at the front of Q0 or Q1, or through the direct window. -/
def State.viaWrite (s : State) (src : Src) (addr : Nat) (act : Caller → State → State × Option Reply) : State :=
  s.viaOps writeOps src addr act

end Sys2Proof.Machine
end

