-- ==== Sys2Proof/Machine/Access.lean ====
section
/-! DEFINITION. Who may read and write what (Table 17.2, R373, R545), and which register an address reaches for a role (R100, Tables 7.10, 7.11). -/

namespace Sys2Proof.Machine

/-- The page of the demodulator set of a slice for a DEMOD value, if it has one (R100, R148). -/
def demodPage (i : Slc) : Nat → Option Nat
  | 1 => some (pgAm i)
  | 2 => some (pgFm i)
  | 3 => some (pgDrm i)
  | 4 => some (pgDrm i)
  | _ => none

/-- The key that an address of the 20-bit space reaches for a role; `write` tells a write, which follows the staged DEMOD, from a read, which follows the DEMOD in force. None where reads return 0 and writes are ignored. -/
def State.resolve (s : State) (role : Nat) (write : Bool) (addr : Nat) : Option Nat :=
  let page := addr / 0x400
  let off := addr % 0x400
  if page = pgStrm then
    if off = 0x040 ∨ off = 0x060 then some (pgSel role * 0x400 + off)
    else if 0x044 ≤ off ∧ off < 0x060 then some (pgStream (s.selStream role) * 0x400 + off)
    else if 0x064 ≤ off ∧ off < 0x078 then some (pgBundle (s.selBundle role) * 0x400 + off)
    else some addr
  else match (if kindOfPage page = some .slc then slcOf (page - 0x040) else none) with
    | some i =>
      if 0x080 ≤ off ∧ off < 0x200 then
        (demodPage i (if write then s.stgGet 0 page slcDemod else s.get page slcDemod)).map (fun p => p * 0x400 + off)
      else some addr
    | none => some addr

/-- The owner of the entry of a shared page at an offset: `none` for what no entry owns (header and port registers); an owner code 0 for an entry that is free. -/
def State.entryOwner (s : State) (role page off : Nat) : Option Nat :=
  if page = pgAln then
    if h : 0x060 ≤ off ∧ off < 0x0E0 then
      let c := s.snaps[(off - 0x060) / 0x20]'(by omega)
      some (if c.state = .idle then 0 else c.owner)
    else none
  else if page = pgDec then
    if h : 0x040 ≤ off ∧ off < 0x340 then some (s.decPartition ⟨(off - 0x040) / 0x20, by omega⟩) else none
  else if page = pgAud then
    if h : 0x048 ≤ off ∧ off < 0x058 then some (s.outOwner ⟨(off - 0x048) / 4, by omega⟩)
    else if h : 0x058 ≤ off ∧ off < 0x068 then some (s.outOwner ⟨(off - 0x058) / 4, by omega⟩)
    else none
  else if page = pgStrm then
    if 0x044 ≤ off ∧ off < 0x060 then some (s.strms[s.selStream role]).owner
    else if 0x064 ≤ off ∧ off < 0x078 then some (s.bunds[s.selBundle role]).owner
    else if h : 0x080 ≤ off ∧ off < 0x0A4 then some (s.queueOwner ⟨(off - 0x080) / 4, by omega⟩)
    else if h : 0x0C0 ≤ off ∧ off < 0x0E4 then some (s.queueOwner ⟨(off - 0x0C0) / 4, by omega⟩)
    else if h : 0x100 ≤ off ∧ off < 0x124 then some (s.queueOwner ⟨(off - 0x100) / 4, by omega⟩)
    else none
  else none

/-- Whether a role may hold entries of the shared pages: Site and the tenants (Table 17.2). -/
def mayHold (r : Role) : Bool :=
  match r with
  | .site => true
  | .tenant _ => true
  | _ => false

/-- What Anyone may read: the ID page, LNK_POS, the cloche identification and SMC_SEAL (Table 17.2). -/
def anyoneReads (page off : Nat) : Bool :=
  page = pgId || (page = pgLnk && decide (off = 0x040)) || (page = pgSmc 0 && decide (0x040 ≤ off) && decide (off ≤ 0x058))

/-- Whether a tenant may read a register of the SEC page: SEC_STS, its key ID, its row (Table 17.2). -/
def tenantReadsSec (n : TenId) (off : Nat) : Bool :=
  decide (off = 0x040) || decide (off = 0x050 + 4 * n.val) || (decide (0x080 + 0x20 * n.val ≤ off) && decide (off < 0x0A0 + 0x20 * n.val))

/-- Whether a role may read a register of the SMC read view beyond what Anyone reads (Table 11.9): its points and SMC_NEXT_SEQ only their owner, the rest of the block registers every role with a session, the header the Verifier. -/
def readsSmc (s : State) (r : Role) (page off : Nat) : Bool :=
  let code := roleCode r
  if off < 0x040 then decide (code = 0x30)
  else if page = pgSmc 1 then
    if h : off < 0x140 ∧ 0x040 ≤ off then decide (code ≠ 0) && decide ((s.smc.points[(off - 0x040) / 0x10]'(by omega)).owner = code) else true
  else if page = pgSmc 0 ∧ off = 0x078 then decide (0x20 < code)
  else decide (code ≠ 0)

/-- Whether a role may read the register at an address (R373, R454, R545). -/
def State.mayRead (s : State) (r : Role) (addr : Nat) : Bool :=
  let page := addr / 0x400
  let off := addr % 0x400
  if !s.present page then true
  else if anyoneReads page off then true
  else if sharedPage page then
    mayHold r && (match s.entryOwner (roleCode r) page off with
      | some o => decide (o = roleCode r) || decide (o = 0)
          || (decide (r = .site) && decide (page = pgStrm) && ((decide (0x080 ≤ off) && decide (off < 0x0A4)) || (decide (0x0C0 ≤ off) && decide (off < 0x0E4))))
      | none => true)
  else match kindOfPage page with
    | some .clk | some .inp | some .cal | some .sieve => decide (r = .site) || mayHold r || (match r with | .verifier _ => true | _ => false)
    | some .sec => match r with
      | .site => true
      | .tenant n => tenantReadsSec n off
      | .verifier _ => decide (off = 0x040)
      | _ => false
    | some .slc | some .bed | some .svc => mayHold r && decide (s.pageOwner page = roleCode r)
    | some .smc0 | some .smc1 | some .smc2 | some .smc3 => readsSmc s r page off
    | some .twb => decide (r = .site) || (decide (0x060 ≤ off) && decide (off ≤ 0x068))
    | some _ => decide (r = .site)
    | none => false

/-- Whether a role may write the register at an address (R373, R454, R545). The mailbox registers of the TWB page take writes from every role, since Table 17.2 could otherwise not be reached (R385, R387; log 16). -/
def State.mayWrite (s : State) (r : Role) (addr : Nat) : Bool :=
  let page := addr / 0x400
  let off := addr % 0x400
  if sharedPage page then
    match s.entryOwner (roleCode r) page off with
    | some o => mayHold r && (decide (o = roleCode r) || decide (o = 0))
    | none =>
      if off = 0x02C then mayHold r
      else if page = pgStrm ∧ (off = 0x040 ∨ off = 0x060) then mayHold r
      else decide (r = .site)
  else match kindOfPage page with
    | some .slc | some .bed | some .svc => mayHold r && decide (s.pageOwner page = roleCode r)
    | some .smc0 | some .smc1 | some .smc2 | some .smc3 =>
      if (page = pgSmc 2 ∧ (off = 0x04C ∨ off = 0x060)) ∨ (page = pgSmc 3 ∧ off = 0x040) then decide (roleCode r ≠ 0)
      else decide (0x040 ≤ off) || decide (roleCode r = 0x30)
    | some .twb => decide (r = .site) || decide (off = 0x060) || decide (off = 0x064)
    | some .id => decide (r = .site)
    | some _ => decide (r = .site)
    | none => false

end Sys2Proof.Machine
end

