-- ==== Sys2Proof/Machine/Views.lean ====
section
/-! DEFINITION. What the status fields of the pages show: fields that the state holds in its own form, and what a read of a register returns (R367, R369, the register tables of the chapters). -/

namespace Sys2Proof.Machine

/-- The number of an optional finite index, or a given number where there is none. -/
def idxOr {n : Nat} (o : Option (Fin n)) (d : Nat) : Nat := (o.map (·.val)).getD d

/-- Bits of a vector of n flags. -/
def maskOfBits (n : Nat) (p : Nat → Bool) : Nat := (List.range n).foldl (fun m i => m + bit (p i) * 2 ^ i) 0

/-- Whether the EN bit of a page is a unit enable (Table 13.2). -/
def hasEnable (page : Nat) : Bool :=
  match kindOfPage page with
  | some .inp | some .slc | some .bed | some .svc => true
  | _ => false

/-- The header fields of a page (Table 13.2, R545). -/
def State.viewHeader (s : State) (role page : Nat) : List (Fld × Nat) :=
  let ti := pageTypeInst page
  let r := stageRole page role
  [(pgType, ti.1), (pgTver, 1), (pgInstance, ti.2), (pgPresent, 1),
   (pgEn, if hasEnable page then s.get page pgEn else 1),
   (pgLastStatus, (s.lastStatusOf page r).code), (pgDirty, bit (s.dirty page r)), (pgPending, bit (s.pendingCommit page r)),
   (pgEnabled, if hasEnable page then s.get page pgEn else 1),
   (pgOwner, s.pageOwner page), (pgKind, kindCode page)]

/-- INP_STATE (Table 2.13). -/
def State.viewInp (s : State) (i : Inp) : List (Fld × Nat) :=
  let x := s.inputs[i]
  [(inpConvState, x.conv.code), (inpAcquiring, bit (x.acqLeft ≠ 0)), (inpHalfRate, bit x.shownHalf), (inpGainNow, x.gain)]

/-- SIEVE status (Table 3.17). -/
def State.viewSieve (s : State) : List (Fld × Nat) :=
  [(sieveRebuild, maskOfBits 4 (fun i => (s.inputs[inpOf i]).rebuild.isSome)), (sieveHalf, maskOfBits 4 (fun i => (s.inputs[inpOf i]).shownHalf))]

/-- SLC_STS (Table 3.20). -/
def State.viewSlc (s : State) (i : Slc) : List (Fld × Nat) :=
  let x := s.slices[i]
  [(slcUse, x.use.code), (slcSurvey, bit x.survey), (slcEdge, x.edge), (slcMirror, bit x.mirror), (slcSettling, bit (decide (0 < x.settleLeft))),
   (slcPlanGen, s.planGen % 2 ^ (slcPlanGen.hi + 1 - slcPlanGen.lo))]

/-- A capture channel (Table 3.22). -/
def State.viewSnap (s : State) (c : SnapCh) : List (Fld × Nat) :=
  let x := s.snaps[c]
  [(alnOwner.nth c.val, if x.state = .idle then 0 else x.owner), (alnEccErr.nth c.val, bit x.eccErr), (alnLate.nth c.val, bit x.late),
   (alnEndedEarly.nth c.val, bit x.endedEarly), (alnState.nth c.val, x.state.code),
   (alnT0Lo.nth c.val, x.t0), (alnT0Hi.nth c.val, x.t0 / 2 ^ 32)]

/-- Alignment memory claimed by a holder for capture channels (R86). -/
def State.snapHeld (s : State) (owner : Nat) : Nat :=
  s.snaps.toList.foldl (fun n c => if c.state ≠ .idle ∧ c.owner = owner then n + c.bytes else n) 0

/-- Bytes of a slot's reservation (R20, R173): MAX_DELAY in units of 10 ms at 192,000 bytes a second. -/
def slotBytes (maxDelay : Nat) : Nat := 1920 * maxDelay

/-- Alignment memory reserved by a holder for slots and bundles (R20, R228). -/
def State.alnRsv (s : State) (owner : Nat) : Nat :=
  (List.finRange 32).foldl (fun n v =>
      if (s.slots[v]).state ≠ .off ∧ (s.slots[v]).owner = owner then n + slotBytes (s.get (pgSvc v) svcMaxDelay) else n) 0
    + s.bunds.toList.foldl (fun n b => if b.owner = owner then n + b.rsv else n) 0

/-- A holder's share of alignment memory (R455). -/
def State.alnShareOf (s : State) (owner : Nat) : Nat :=
  if 0x21 ≤ owner ∧ owner ≤ 0x24 then s.get pgSec (secAlnShare.nth (owner - 0x21))
  else if owner = 0x10 then 16777216 - allTenants.foldl (fun n t => n + s.get pgSec (secAlnShare.nth t.val)) 0
  else 0

/-- The ALN page as a role reads it (Table 17.2). -/
def State.viewAln (s : State) (role : Nat) : List (Fld × Nat) :=
  let share := s.alnShareOf role
  let rsv := s.alnRsv role
  let held := s.snapHeld role
  [(alnShare, share), (alnReserved, rsv), (alnSnapHeld, held), (alnFree, share - rsv - held)]
    ++ (List.finRange 4).flatMap s.viewSnap

/-- The SubChId of a component: the one that FIG 0/2 names, or for packet mode the one that FIG 0/3 gives for its SCId, 0 until it does. -/
def Bed.subchOf (x : Bed) (c : SvcPart) : Nat :=
  if c.tmid = 3 then ((x.packets.find? (fun p => p.scid = c.scid)).map (·.subch)).getD 0 else c.subch.val

/-- A bed's status and its ensemble (Tables 5.13, 5.16, 5.17). -/
def State.viewBed (s : State) (k : BedId) (off : Nat) : List (Fld × Nat) :=
  let x := s.beds[k]
  if off < 0x100 then
    [(bedState, x.state.code), (bedEdge, x.edge), (bedReconfPending, bit x.reconf.isSome)]
  else if off < 0x200 then
    let i := (off - 0x100) / 4
    match x.curSubch.find? (fun d => d.id.val = i) with
    | some d => [(bedValid_100.nth i, 1), (bedForm.nth i, bit d.eep), (bedStart.nth i, d.start), (bedSize.nth i, d.size), (bedProt.nth i, d.prot)]
    | none => []
  else
    let i := (off - 0x200) / 8
    match x.curSvcs[i]? with
    | some d =>
      [(bedSid.nth i, d.sid), (bedValid_204.nth i, 1), (bedLinked.nth i, bit (x.links.any (fun l => l.sid = d.sid && l.active))),
       (bedCa.nth i, bit d.ca), (bedPrimarySubch.nth i, x.subchOf d.primary), (bedType.nth i, d.primary.type), (bedTmid.nth i, d.primary.tmid), (bedComponents.nth i, d.comps)]
    | none => []

/-- A decoder's status (Table 5.19). -/
def State.viewDec (s : State) (d : DecId) : List (Fld × Nat) :=
  let x := s.decs[d]
  [(decOwner.nth d.val, x.owner), (decState.nth d.val, x.state.code), (decMismatch.nth d.val, bit x.mismatch), (decCa.nth d.val, bit x.ca),
   (decCodecFound.nth d.val, x.found)]

/-- The code of a standard in a candidate entry (Table 6.8). -/
def Std.code : Std → Nat
  | .fm => 0 | .am => 1 | .dab => 2 | .drm => 3 | .drmPlus => 4

/-- A receiver as RX_KIND and RX (Table 6.8). -/
def Rx.codes : Rx → Nat × Nat
  | .none => (0, 0) | .watch i => (1, i.val) | .shared i => (2, i.val) | .bed k => (3, k.val)

/-- The mean of the last ten Q of a candidate (R191). -/
def Cand.q (x : Cand) : Nat := if x.qHist = [] then 0 else x.qHist.sum / x.qHist.length

/-- P_c of a candidate in samples, for a P_a (R176). -/
def Cand.pc (x : Cand) (pa : Nat) : Int := pa + x.ofs

/-- The wait of a candidate in samples (R176). -/
def Cand.waitOf (x : Cand) (pa : Nat) : Int := x.pc pa - x.d

/-- The wait of a slot's active. -/
def Slot.activeWait (x : Slot) : Int :=
  match x.active with
  | some n => (x.presNow : Int) - (x.cands[n]).d
  | none => 0

/-- TOO_LATE of a candidate whose offset is held: a wait below 20 ms, or the two waits beyond MAX_DELAY (R177), in samples. -/
def State.tooLate (s : State) (v : SvcId) (n : CandId) : Bool :=
  let x := s.slots[v]
  let c := x.cands[n]
  x.active.isSome && decide (x.active ≠ some n) && decide (c.align = .fine) &&
    (decide (c.waitOf x.presNow < 960) || decide ((s.get (pgSvc v) svcMaxDelay * 480 : Int) < x.activeWait + c.waitOf x.presNow))

/-- A candidate entry (Table 6.8). -/
def State.viewCand (s : State) (v : SvcId) (n : CandId) : List (Fld × Nat) :=
  let x := (s.slots[v]).cands[n]
  [(svcValid.nth n.val, bit (x.state ≠ .empty)), (svcPin.nth n.val, bit x.pin), (svcBlock.nth n.val, bit x.block), (svcStd.nth n.val, Std.code x.std),
   (svcFreq.nth n.val, x.khz), (svcState_104.nth n.val, x.state.code), (svcFailReason.nth n.val, x.reason.code), (svcOrigin.nth n.val, x.origin),
   (svcQ.nth n.val, x.q), (svcTooLate.nth n.val, bit (s.tooLate v n)), (svcLoudClamp.nth n.val, bit x.clamped), (svcFilled.nth n.val, bit x.filled),
   (svcLoudValid.nth n.val, bit (x.loudValid && s.flag (pgSvc v) svcLoudEn)), (svcWait.nth n.val, x.wait.code), (svcRxKind.nth n.val, (Rx.codes x.rx).1), (svcRx.nth n.val, (Rx.codes x.rx).2),
   (svcDec.nth n.val, idxOr x.dec 31), (svcSubch.nth n.val, x.subch), (svcOfs.nth n.val, twos 32 x.ofs), (svcCorr.nth n.val, x.corr),
   (svcLoudDiff.nth n.val, if s.flag (pgSvc v) svcLoudEn then twos 16 x.loudDiff else 0), (svcIdKind.nth n.val, x.idKind), (svcId.nth n.val, x.id)]

/-- A slot's status (Table 6.7). -/
def State.viewSvc (s : State) (v : SvcId) (off : Nat) : List (Fld × Nat) :=
  let x := s.slots[v]
  if off < 0x100 then
    [(svcLearned, x.learned), (svcState_080, x.state.code), (svcActive, idxOr x.active 15), (svcStandby, idxOr x.standby 15), (svcCandGen, x.candGen),
     (svcPresNow, x.presNow), (svcGain, twos 32 (x.gain.tdiv 100))]
  else if h : (off - 0x100) / 0x20 < 12 then s.viewCand v ⟨(off - 0x100) / 0x20, h⟩
  else []

/-- Words that a stream queue holds, headers included. -/
def StrmQueue.words (q : StrmQueue) : Nat := q.packets.foldl (fun n p => n + p.len + 1) 0

/-- Packets all of whose words have left, of which `left` have, taken from the front of a queue; with the words that have left of what remains. -/
def freedPackets : List Packet → Nat → List Packet × Nat
  | [], left => ([], left)
  | p :: l, left => if p.len + 1 ≤ left then freedPackets l (left - (p.len + 1)) else (p :: l, left)

/-- Words of a stream queue in local frames that wait at a port. -/
def Prt.queueWords (x : Prt) (q : SQueue) : Nat :=
  (x.wait.filter (fun w => w.from_.isNone && decide (w.frame.queue = q.val + 7))).foldl (fun n w => n + w.frame.payload.length) 0

/-- Words of a stream queue that stand in frames that have not left, of both copies the one that waits longer (R225). -/
def State.waitWords (s : State) (q : SQueue) : Nat := max ((s.ports[(0 : Port)]).queueWords q) ((s.ports[(1 : Port)]).queueWords q)

/-- A stream queue without the packets that have left whole: a packet's buffer is freed when all its words have left, in both copies (R225). -/
def State.buffered (s : State) (q : SQueue) : StrmQueue :=
  let x := s.squeues[q]
  let r := freedPackets x.packets (x.gone - s.waitWords q)
  { x with packets := r.1, gone := x.gone - (x.words - r.1.foldl (fun n p => n + p.len + 1) 0) }

/-- Whether a stream's payload is encrypted: a tenant's is (R232). -/
def tenantOwned (owner : Nat) : Bool := decide (0x21 ≤ owner) && decide (owner ≤ 0x24)

/-- The stream and bundle windows and the queues, as a role reads them (Tables 7.10 to 7.12). -/
def State.viewStrm (s : State) (role off : Nat) : List (Fld × Nat) :=
  if off < 0x060 then
    let x := s.strms[s.selStream role]
    [(strmOwner_04c, x.owner), (strmEncrypted, bit (tenantOwned x.owner)), (strmState, if x.owner = 0 then 0 else if x.en then 2 else 1), (strmSeq, x.seq)]
  else if off < 0x080 then
    let b := s.selBundle role
    let x := s.bunds[b]
    [(strmOwner_068, x.owner), (strmMembers, ((List.finRange 512).filter (fun i =>
        s.get (pgStream i) strmBundled = 1 && s.get (pgStream i) strmBundle = b.val && decide ((s.strms[i]).owner ≠ 0))).length), (strmBRsv, x.rsv)]
  else (List.finRange 9).flatMap (fun q => [(strmOwner_080.nth q.val, s.queueOwner q), (strmFill.nth q.val, (s.buffered q).words)])

/-- The audio port (Table 8.4). -/
def State.viewAud (s : State) : List (Fld × Nat) :=
  (audClkState, s.aud.clk.code) :: ((List.finRange 4).map (fun o => (audOwner.nth o.val, s.outOwner o)) ++
    (if s.pwr.rung = 0 then [] else (List.finRange 4).map (fun o => (audMuted.nth o.val, 1))))

/-- The key of word `idx` of a bank of the calibration set (R263). -/
def calKey (bank idx : Nat) : Nat := 0x700000 + bank * 0x800 + idx * 4

/-- The key of a shaping tap (R273). -/
def firKey (idx : Nat) : Nat := 0x710000 + idx * 4

/-- Calibration status and window (Table 9.10). -/
def State.viewCal (s : State) : List (Fld × Nat) :=
  [(calBusy, bit (s.cal.run.isSome || s.cal.load)),
   (calStep, match s.cal.run with
     | some r => r.step.code
     | none => 0),
   (calWinData, (s.reg (calKey (s.get pgCal calBank) (s.get pgCal calIdx))).toNat)]

/-- Root ticks of 60 s (R285). -/
def dutyWindow : Nat := 60 * secTicks

/-- Airtime of the packets counted in the 60 s before a root time, in µs; a packet that has not yet ended counts what it has sent (R285). -/
def Snd.spentAt (x : Snd) (now : Nat) : Nat :=
  x.spent.foldl (fun n p =>
    let a := max p.1 (now - dutyWindow)
    let b := min (p.1 + p.2 * usTicks) now
    n + (b - a) / usTicks) 0

/-- Airtime that counts as spent: the full allowance for 60 s from the first lock after a reset or an exit from STANDBY, else that of the packets (R285). -/
def State.airSpentAt (s : State) (at_ : Nat) : Nat :=
  let full := match s.snd.lockAt with
    | some t => decide (at_ < t + dutyWindow)
    | none => false
  if full then s.get pgSnd sndMaxDuty * 60000 else s.snd.spentAt at_

/-- The airtime spent in the last 60 s. -/
def State.airSpent (s : State) : Nat := s.airSpentAt s.time.mono

/-- The sounding link (Table 10.7). -/
def State.viewSnd (s : State) : List (Fld × Nat) :=
  [(sndState, s.snd.state.code), (sndOutcome, s.snd.outcome.code), (sndMaskLock, bit s.snd.maskLock), (sndPending, bit s.snd.deferred.isSome),
   (sndDutyUsed, min (s.airSpent / 4) 15000000), (sndRxState, s.snd.rx.code),
   (sndFirData, (s.reg (firKey (s.get pgSnd sndFirIdx))).toNat % 2 ^ 16)]

/-- Whether the cloche's read image shows anything: it is powered down in SLEEP and DORMANT (R302). -/
def State.smcUp (s : State) : Bool := s.smc.powered && decide (s.pwr.rung ≤ 3)

/-- Whether SEAL_IND is driven high: FACTORY, BROKEN_VERIFIER or BROKEN_TAMPER, in every rung; low where the cloche is absent (R8, R321, Table 21.3). -/
def State.sealInd (s : State) : Bool := s.fuse.variant.cloche && decide (s.smc.sealSt ≠ .sealed) && decide (s.smc.sealSt ≠ .absent)

/-- SMC_STS (Table 11.11). -/
def State.smcSts (s : State) : Nat :=
  bit (s.smc.points.toList.any (fun p => p.state = .integrating)) + 2 * bit s.smc.suspended + 4 * bit s.smc.failed + 8 * bit s.smc.paused

/-- Four name characters of the cloche firmware (R302). -/
def nameWord (l : List Byte) (n : Nat) : Nat := natOfBE (((l.drop (4 * n)).take 4) ++ List.replicate (4 - ((l.drop (4 * n)).take 4).length) 0)

/-- The index of an owner among the record owners: T1 to T4, then the Verifier (Table 11.2). -/
def recOwner (code : Nat) : Nat := if 0x21 ≤ code ∧ code ≤ 0x24 then code - 0x21 else 4

/-- Page 0x100 as a role reads it (Table 11.11). -/
def State.viewSmc0 (s : State) (role : Nat) : List (Fld × Nat) :=
  let x := s.smc
  let up := s.smcUp
  (List.range 4).map (fun n => (smc0FwName.nth n, if up then nameWord x.fwName n else 0))
    ++ [(smc0FwVer, if up then x.fwVer.toNat else 0), (smc0FwCrc, if up then x.fwCrc.toNat else 0), (smc0SealGen, x.sealGen),
        (smc0SealInd, bit s.sealInd), (smc0TamperN, bit (!x.tamperLow)), (smc0State, x.sealSt.code), (smc0Sts, s.smcSts),
        (smc0LogFill, x.log.length), (smc0NextSeq, (x.nextSeq.toList)[recOwner role]?.getD 0), (smc0AuditCnt, x.auditCnt)]
    ++ (List.range 5).map (fun o => (smc0LogHeld.nth o, (x.log.filter (fun r => r.owner = o + 1)).length))
    ++ (List.finRange 4).flatMap (fun m => [(smc0Mark.nth m.val, (x.marks[m]).mark.toNat), (smc0Slot.nth m.val, (x.marks[m]).slot), (smc0Time.nth m.val, (x.marks[m]).secs)])

/-- Page 0x101 (Table 11.12). -/
def State.viewSmc1 (s : State) : List (Fld × Nat) :=
  (List.finRange 16).flatMap (fun p =>
    let x := s.smc.points[p]
    [(smc1State.nth p.val, x.state.code), (smc1SrcKind.nth p.val, x.srcKind), (smc1Src.nth p.val, x.src), (smc1Det.nth p.val, x.det),
     (smc1Freq.nth p.val, if x.state = .free then 0 else x.std * 2 ^ 29 + x.khz), (smc1LastValue.nth p.val, x.lastValue.toNat),
     (smc1LastFlags.nth p.val, x.lastFlags), (smc1LastCoverage.nth p.val, x.lastCov)])

/-- The key of word w of detector definition d (Table 11.13). -/
def detKey (d w : Nat) : Nat := 0x720000 + d * 16 + w * 4
/-- The key of word w of the distribution set of input i (R307). -/
def distKey (i w : Nat) : Nat := 0x720400 + i * 16 + w * 4
/-- The key of word w of antenna factor point p of input i (R309). -/
def afKey (i p w : Nat) : Nat := 0x720800 + i * 0x200 + p * 8 + w * 4
/-- The key of word w of nominal gain point p of input i (R307). -/
def gnomKey (i p w : Nat) : Nat := 0x721000 + i * 0x80 + p * 8 + w * 4

/-- A whole register shown as one field. -/
def wordFld (off : Nat) : Fld := ⟨off, 0, 31, 0⟩

/-- Page 0x102: the windows of the selected detector and input (Table 11.13). -/
def State.viewSmc2 (s : State) : List (Fld × Nat) :=
  let d := s.get (pgSmc 2) smc2DetSel
  let i := s.get (pgSmc 2) smc2DgSel
  (List.range 4).map (fun w => (wordFld (0x050 + 4 * w), (s.reg (detKey d w)).toNat))
    ++ (List.range 3).map (fun w => (wordFld (0x064 + 4 * w), (s.reg (distKey i w)).toNat))

/-- Page 0x103: the table window (Table 11.14). -/
def State.viewSmc3 (s : State) : List (Fld × Nat) :=
  let i := s.get (pgSmc 3) smc3Input
  let x := s.get (pgSmc 3) smc3Idx
  match s.get (pgSmc 3) smc3Kind with
  | 0 => [(smc3TblW0, (s.reg (afKey i x 0)).toNat), (smc3TblW1, (s.reg (afKey i x 1)).toNat)]
  | 1 => if x < 16 then [(smc3TblW0, (s.reg (gnomKey i x 0)).toNat), (smc3TblW1, (s.reg (gnomKey i x 1)).toNat)] else []
  | _ => match s.smc.audit.reverse[x]? with
    | some a => [(smc3TblW0, a.count), (smc3TblW1, a.devtime % 2 ^ 32), (smc3TblW2, a.slot * 2 ^ 30 + a.kind * 2 ^ 24 + a.param % 2 ^ 16), (smc3TblW3, a.crc)]
    | none => []

/-- Whether a port carries traffic: UP and healed (R356, R358). -/
def State.carries (s : State) (p : Port) : Bool := decide ((s.ports[p]).state = .up) && (s.ports[p]).healed

/-- The other port. -/
def otherPort (p : Port) : Port := if p = 0 then 1 else 0

/-- Whether the part is wrapping at a port: the other carries traffic, this one does not and has fallen from UP (R356). -/
def State.wrapping (s : State) (p : Port) : Bool := s.carries (otherPort p) && !s.carries p && (s.ports[p]).fell

/-- Whether the part turns frames at a port, wrapping or open (R356). -/
def State.turned (s : State) (p : Port) : Bool := s.carries (otherPort p) && !s.carries p

/-- TOPO of LNK_STS (Table 12.11). -/
def State.topo (s : State) : Nat :=
  if s.carries 0 ∧ s.carries 1 then 1
  else if s.wrapping 0 ∨ s.wrapping 1 then 2
  else if s.turned 0 ∨ s.turned 1 then 3
  else 0

/-- The LNK common page (Table 12.11). -/
def State.viewLnk (s : State) : List (Fld × Nat) :=
  let r := s.ring
  [(lnkValid, bit r.pos.isSome), (lnkRingN, r.ringN), (lnkPos, r.pos.getD 0), (lnkTopo, s.topo), (lnkWrapA, bit (s.turned 0)), (lnkWrapB, bit (s.turned 1)),
   (lnkCqOut, r.cqOut), (lnkChopsOut, r.chopsOut), (lnkTraceable, bit r.traceable), (lnkAligned, bit r.aligned),
   (lnkEpochLo, r.epoch.getD 0), (lnkEpochHi, r.epoch.getD 0 / 2 ^ 32)]

/-- A LNK port page (Table 12.12). -/
def State.viewPrt (s : State) (p : Port) : List (Fld × Nat) :=
  let x := s.ports[p]
  [(prtState, x.state.code), (prtClkQual, bit (s.clk.ports[p]).qual), (prtLaneLock, if 4 ≤ x.state.code then 3 else 0), (prtCqIn, x.cqIn)]

/-- The ID page (Table 13.7). -/
def State.viewId (s : State) : List (Fld × Nat) :=
  let f := s.fuse
  let v := match f.variant with
    | .cs => 0 | .c => 1 | .s => 2 | .n => 3
  [(idDieMajor, f.dieMajor.toNat), (idDieMinor, f.dieMinor.toNat), (idSuffix, v), (idSerialLo, f.serial.toNat), (idSerialHi, f.serial.toNat / 2 ^ 32),
   (idCloche, bit f.variant.cloche), (idSndTx, bit f.variant.sounding), (idSndRx, bit f.variant.sounding),
   (idFwVer, (s.loam.slots[s.loam.active]).version), (idSlot, s.loam.active.val), (idRung, s.pwr.rung), (idPos, s.ring.pos.getD 0),
   (idSeal, if f.variant.cloche then s.smc.sealSt.code else 0)]

/-- The TWB page (Table 14.5). CLAIM_LEFT follows from the root time since the release of reset. -/
def State.viewTwb (s : State) : List (Fld × Nat) :=
  let t := s.twb
  [(twbAddr, 0x38 + t.strap.toNat), (twbStrap, t.strap.toNat), (twbRights, roleCode s.windowRole), (twbClaimOpen, bit s.sec.claimOpen),
   (twbClaimed, bit s.sec.siteKey.isSome), (twbClaimLeft, if s.sec.claimOpen then s.get pgTwb twbClaimWindow - (s.time.mono - s.sec.openAt) / secTicks else 0),
   (twbOutWords, t.out.length), (twbInBusy, bit (!t.inWords.isEmpty)), (twbMboxOut, (t.out.headD 0).toNat)]

/-- The first four bytes of the SHA-256 of a public key (Table 17.11). -/
def keyId (k : BitVec 512) : Nat := (Config.sha256 (bytesBE 64 k.toNat)).toNat / 2 ^ 224

/-- The SEC page's status and key registers (Table 17.11). -/
def State.viewSec (s : State) : List (Fld × Nat) :=
  let x := s.sec
  [(secClaimed, bit x.siteKey.isSome), (secDebugOpen, bit x.debugOpen), (secServiceOpen, bit x.serviceOpen),
   (secTstate, (List.finRange 4).foldl (fun n t => n + (x.tenants[t]).state.code * 4 ^ t.val) 0),
   (secVendorSess, bit (x.sess[5]).isSome), (secTenantSess, maskOfBits 4 (fun t => ((x.sess.toList)[t + 1]?.getD none).isSome)), (secSiteSess, bit (x.sess[0]).isSome),
   (secSvnRun, x.svnRun), (secSvnMin, x.svnMin),
   (secSiteKeyid, match x.siteKey with
     | some k => keyId k
     | none => 0),
   (secDevKeyid, keyId x.devKey)]
    ++ (List.finRange 4).map (fun t => (secTkeyid.nth t.val, if (x.tenants[t]).state = .enrolled then keyId (x.tenants[t]).key else 0))

/-- Granules of the general journal (R487). -/
def journalGranules : Nat := 23552

/-- Segments from the tail to the append point (Table 18.7). -/
def Loam.segUsed (l : Loam) : Nat := (l.seg + 46 - l.tail) % 46 + 1

/-- Granules between the tail's first granule and the append point (R487). -/
def Loam.fill (l : Loam) : Nat := (l.segUsed - 1) * 512 + l.off

/-- The record that is in force for a type and key (R480): the committed record with the latest sequence. -/
def Loam.lookup (l : Loam) (type key : Nat) : Option JRec :=
  match (l.recs.reverse.find? (fun r => !r.torn && r.type = type && r.key = key)) with
  | some r => if r.delete then none else some r
  | none => none

/-- Whether a record is the latest committed one of its type and key (R480, R487). -/
def Loam.isLive (l : Loam) (r : JRec) : Bool :=
  match (l.recs.reverse.find? (fun x => !x.torn && x.type = r.type && x.key = r.key)) with
  | some x => decide (x = r)
  | none => false

/-- Granules of live records. -/
def Loam.liveGranules (l : Loam) : Nat := (l.recs.filter l.isLive).foldl (fun n r => n + r.gran) 0

/-- The LOAM page (Table 18.7). -/
def State.viewLoam (s : State) : List (Fld × Nat) :=
  let l := s.loam
  let a := l.slots[0]
  let b := l.slots[1]
  let next := match l.lookup 0x52 0 with
    | some r => natOfBE r.data
    | none => l.active.val
  [(loamRaking, bit l.raking), (loamReserve, bit l.reserve), (loamSegUsed, l.segUsed), (loamFill, l.fill * 100 / journalGranules),
   (loamLive, l.liveGranules * 100 / journalGranules), (loamSeq, l.seq), (loamAnchorGen, l.anchorGen), (loamActive, l.active.val), (loamNext, next),
   (loamAState, a.state.code), (loamBState, b.state.code), (loamFwbAVer, if a.state = .valid then a.version else 0),
   (loamFwbBVer, if b.state = .valid then b.version else 0), (loamBSvn, if b.state = .valid then b.svn else 0),
   (loamASvn, if a.state = .valid then a.svn else 0), (loamProfiles, maskOfBits 16 (fun n => (l.lookup 0x10 n).isSome))]

/-- The two words of an error-log entry (Table 19.2). -/
def LogEntry.quads (e : LogEntry) : List Quad :=
  [quadPack [(127, 96, e.event.toNat), (95, 88, e.ptype), (87, 80, e.inst), (79, 72, e.det), (71, 70, e.src), (63, 0, e.first)],
   quadPack [(127, 112, e.seq), (111, 96, e.rep), (95, 64, e.detail.toNat), (63, 0, e.last)]]

/-- The FLT page (Table 19.7). -/
def State.viewFlt (s : State) : List (Fld × Nat) :=
  let l := s.log
  let sel := s.get pgFlt fltSel
  let e := if s.get pgFlt fltBank = 0 then l.entries.find? (fun e => e.seq = sel) else l.tail.find? (fun e => e.seq % 64 = sel)
  let ws := match e with
    | some e => e.quads.flatMap wordsOf
    | none => []
  [(fltCount, l.entries.length), (fltHeadSeq, match l.entries with
     | e :: _ => e.seq
     | [] => 0), (fltNextSeq, l.nextSeq), (fltLoamPend, l.waiting.length)]
    ++ (List.range 8).map (fun j => (fltLogW.nth j, (ws[j]?.getD 0).toNat))

/-- The guard of R409, in ticks. -/
def guardTicks : Nat := 10 * usTicks

/-- The root time since which a port has been eligible as the reference, or will be (R409): the tests of its frames and clock, and the guard, which runs from the later of its CQ becoming 0 and CQ_OUT leaving 0 and no longer binds once CQ_OUT is 0 again. -/
def State.eligFrom (s : State) (p : Port) : Option Nat :=
  let x := s.clk.ports[p]
  x.passSince.map (fun t => match s.clk.cqNonZeroAt with
    | none => t
    | some z =>
      let g := max (x.cq0Since.getD 0) z + guardTicks
      match s.clk.cqZeroAt with
      | none => max t g
      | some r => max t (min r g))

/-- Whether a port is eligible as the reference (R409). -/
def State.eligible (s : State) (p : Port) : Bool :=
  match s.eligFrom p with
  | some t => decide (t ≤ s.time.mono)
  | none => false

/-- Milliseconds of HOLD_MAX left (HOLD_LEFT). -/
def State.holdLeft (s : State) : Nat :=
  if s.clk.state = .holdover then (s.get pgClk clkHoldMax * msTicks - (s.time.mono - s.clk.holdFrom)) / msTicks else 0

/-- The CLK page (Table 15.9). -/
def State.viewClk (s : State) : List (Fld × Nat) :=
  let c := s.clk
  [(clkState, c.state.code), (clkRef, match c.ref with
     | some p => p.val + 1
     | none => 0), (clkAQual, bit (c.ports[0]).qual), (clkBQual, bit (c.ports[1]).qual), (clkAElig, bit (s.eligible 0)),
   (clkBElig, bit (s.eligible 1)), (clkLearned, bit c.learned), (clkHoldLeft, s.holdLeft)]

/-- The ceiling in force of the VDD_CORE setpoint (R437). -/
def State.ceiling (s : State) : Nat :=
  match s.pwr.held with
  | some h => min h (s.get pgPwr pwrVmax)
  | none => s.get pgPwr pwrVmax

/-- Whether slot 0 warns or is LOST (R436, R437, WARN of Table 16.8). -/
def State.slot0Warns (s : State) : Bool := (s.pmb[0]).warned || (s.pmb[0]).lost

/-- SEQ (Table 16.8): 3 FROZEN below RUN, 2 RAISING during a restore, 1 PARTIAL while an input is halved, 0 FULL. -/
def State.seqCode (s : State) : Nat :=
  if s.pwr.rung ≠ 0 then 3 else if s.pwr.restore ≠ .none then 2 else if s.inputs.toList.any (fun x => x.half) then 1 else 0

/-- The PWR page (Table 16.8). -/
def State.viewPwr (s : State) : List (Fld × Nat) :=
  let p := s.pwr
  [(pwrBusy, bit p.busy), (pwrNow, p.rung), (pwrSetpoint, p.setpoint), (pwrCeiling, s.ceiling),
   (pwrHalved, maskOfBits 4 (fun i => (s.inputs[inpOf i]).half)), (pwrSeq, s.seqCode), (pwrWarn, bit s.slot0Warns), (pwrAtCeiling, bit (decide (s.ceiling = p.setpoint))),
   (pwrRestoreSusp, bit p.suspended)]

/-- The PMB page (Table 16.9). -/
def State.viewPmb (s : State) : List (Fld × Nat) :=
  (List.finRange 4).flatMap (fun i =>
    let x := s.pmb[i]
    [(pmbModeBad.nth i.val, bit x.modeBad), (pmbLost.nth i.val, bit x.lost), (pmbFault.nth i.val, bit x.fault), (pmbWarn.nth i.val, bit x.warned),
     (pmbPresent.nth i.val, bit x.present)])

/-- The fields of a page that the state holds in its own form, as a role reads them at an offset. -/
def State.view (s : State) (role page off : Nat) : List (Fld × Nat) :=
  if off < 0x040 then s.viewHeader role page
  else match kindOfPage page with
    | some .id => s.viewId
    | some .pwr => s.viewPwr
    | some .clk => s.viewClk
    | some .lnk => s.viewLnk
    | some .prt => s.viewPrt (if page = 0x004 then 0 else 1)
    | some .twb => s.viewTwb
    | some .pmb => s.viewPmb
    | some .loam => s.viewLoam
    | some .sec => s.viewSec
    | some .flt => s.viewFlt
    | some .inp => s.viewInp (inpOf (page - 0x010))
    | some .cal => s.viewCal
    | some .sieve => s.viewSieve
    | some .aln => s.viewAln role
    | some .dec => if h : (off - 0x040) / 0x20 < 24 then s.viewDec ⟨(off - 0x040) / 0x20, h⟩ else []
    | some .aud => s.viewAud
    | some .snd => s.viewSnd
    | some .strm => s.viewStrm role off
    | some .bed => if h : page - 0x020 < 12 then s.viewBed ⟨page - 0x020, h⟩ off else []
    | some .slc => if h : page - 0x040 < 96 then s.viewSlc ⟨page - 0x040, h⟩ else []
    | some .svc => if h : page - 0x0C0 < 32 then s.viewSvc ⟨page - 0x0C0, h⟩ off else []
    | some .smc0 => s.viewSmc0 role
    | some .smc1 => s.viewSmc1
    | some .smc2 => s.viewSmc2
    | some .smc3 => s.viewSmc3
    | _ => []

/-- Bits of a register that read 0 (WO), from its row. -/
def woMask (key : Nat) : Word :=
  match rowOf key with
  | some r => BitVec.ofNat 32 r.wo
  | none => 0

/-- A word with the viewed fields of an offset put over it. -/
def overlay (w : Word) (off : Nat) (fs : List (Fld × Nat)) : Word :=
  fs.foldl (fun w x => if x.1.off = off then withField w x.1.hi x.1.lo x.2 else w) w

/-- What a read of a register returns to a role (R369, R545): 0 at a reserved offset and on the page of an absent unit (R4). -/
def State.readWord (s : State) (role addr : Nat) : Word :=
  if !s.present (addr / 0x400) then 0
  else match s.resolve role false addr with
    | none => 0
    | some key =>
      match rowOf key with
      | none => 0
      | some r =>
        let w := s.reg key
        overlay w (addr % 0x400) (s.view role (addr / 0x400) (addr % 0x400)) &&& ~~~ BitVec.ofNat 32 r.wo

end Sys2Proof.Machine
end

