-- ==== Sys2Proof/Machine/Streams.lean ====
section
/-! DEFINITION. Streams, bundles and stream queues (R214 to R235): claims and commits, packets from formation to queue, release of bundles, stream keys (R469, R470). -/

namespace Sys2Proof.Machine

/-! ### Kinds -/

/-- The packet period of a sampled kind, in ticks (Table 7.2); for MEASURE the slice block that its interval counts. -/
def kindPeriod : Nat → Nat
  | 1 => 1280000 | 2 => 640000 | 3 => 64000 | 4 => 1280000 | 7 => 1280000 | _ => 0

/-- The payload words of a sampled kind, without the tag word (Table 7.2). -/
def kindLen : Nat → Nat
  | 1 => 157 | 2 => 512 | 3 => 125 | 4 => 36 | _ => 0

/-- Whether a kind is sampled (R219). -/
def sampledKind (k : Nat) : Bool := decide (1 ≤ k) && decide (k ≤ 4)

/-- Whether the queue class TC suits a kind (Table 7.2). -/
def classSuits (kind tc : Nat) : Bool :=
  match kind with
  | 1 | 2 | 3 => tc = 2
  | 4 | 5 | 6 => tc = 1 || tc = 2
  | 7 => decide (1 ≤ tc) && decide (tc ≤ 3)
  | 8 | 9 => tc = 3
  | 10 => tc = 2 || tc = 3
  | _ => false

/-- The hold rate of a kind, bytes a second; 0 for a kind that no bundle takes (Table 7.2). -/
def holdRate : Nat → Nat
  | 1 => 1272000 | 2 => 8224000 | 3 => 20320000 | 4 => 304000 | 5 => 64000 | 6 => 64000 | 7 => 64000 | _ => 0

/-! ### The staged windows of a role (R545, Tables 7.10, 7.11) -/

/-- The fields of a stream definition. -/
structure StrmDef where
  en : Bool
  kind : Nat
  queue : Nat
  bundled : Bool
  bundle : Nat
  srcKind : Nat
  src : Nat
  sub : Nat
deriving DecidableEq, Repr

/-- A stream definition read from its two registers. -/
def strmDefOf (a b : Word) : StrmDef :=
  ⟨fieldOf a 31 31 = 1, fieldOf a 27 24, fieldOf a 19 16, fieldOf a 15 15 = 1, fieldOf a 13 8, fieldOf b 31 28, fieldOf b 22 16, fieldOf b 15 0⟩

/-- The definition in force of a stream. -/
def State.strmDef (s : State) (i : StrmId) : StrmDef :=
  strmDefOf (s.reg (keyOf (pgStream i) strmKind)) (s.reg (keyOf (pgStream i) strmSrcKind))

/-- A window register of a role: its staged value, else the value in force of the selected object. -/
def State.window (s : State) (role off inForce : Nat) : Word :=
  match s.staged? role (pgStrm * 0x400 + off) with
  | some w => merge (s.reg inForce) w (stageMask (pgStrm * 0x400 + off))
  | none => s.reg inForce

/-- Whether a role has staged something in the stream window. -/
def State.strmStaged (s : State) (role : Nat) : Bool :=
  (s.staged? role (pgStrm * 0x400 + 0x044)).isSome || (s.staged? role (pgStrm * 0x400 + 0x048)).isSome

/-- Whether a role has staged something in the bundle window. -/
def State.bundStaged (s : State) (role : Nat) : Bool := (s.staged? role (pgStrm * 0x400 + 0x064)).isSome

/-- The definition that a role's commit would give its selected stream. -/
def State.strmWanted (s : State) (role : Nat) : StrmDef :=
  let p := pgStream (s.selStream role)
  strmDefOf (s.window role 0x044 (keyOf p strmKind)) (s.window role 0x048 (keyOf p strmSrcKind))

/-- EN and HOLD that a role's commit would give its selected bundle. -/
def State.bundWanted (s : State) (role : Nat) : Bool × Nat :=
  let w := s.window role 0x064 (keyOf (pgBundle (s.selBundle role)) strmHold)
  (decide (fieldOf w 31 31 = 1), fieldOf w 11 0)

/-- Whether any stream that is held is assigned to a queue. -/
def State.queueUsed (s : State) (q : SQueue) : Bool :=
  (List.finRange 512).any (fun i => decide ((s.strms[i]).owner ≠ 0) && decide ((s.strmDef i).queue = q.val + 7))

/-! ### Commits (R221, R222, R224, R227, R228, R233) -/

/-- Whether a source lies in a holder's partition (R222); inputs and bins belong to none. -/
def State.sourceOwned (s : State) (role : Nat) (d : StrmDef) : Bool :=
  let slc (n : Nat) : Bool := match slcOf n with
    | some i => s.sliceOwner i = role
    | none => true
  let bed (n : Nat) : Bool := match bedOf n with
    | some k => s.bedOwner k = role
    | none => true
  match d.kind with
  | 1 => slc d.src
  | 2 => bed d.src
  | 4 => match d.srcKind with
    | 1 => slc d.src
    | 2 => match decOf d.src with
      | some x => s.decPartition x = role
      | none => true
    | 3 => match svcOf d.src with
      | some x => s.svcOwner x = role
      | none => true
    | _ => true
  | 5 => if d.srcKind = 1 then bed d.src else slc d.src
  | 6 | 7 => if d.srcKind = 1 then slc d.src else bed d.src
  | 8 => if h : d.src < 4 then
      let c := s.snaps[d.src]
      decide (c.state = .idle) || decide (c.owner = role)
    else true
  | 9 | 10 => decide (role = 0x10)
  | _ => true

/-- Whether the fields of a definition lie in their ranges and the source suits the kind (Table 7.10). -/
def strmInRange (d : StrmDef) : Bool :=
  decide (d.kind ≤ 10) && decide (7 ≤ d.queue) &&
  (match d.kind with
   | 1 => d.srcKind = 0 && decide (d.src < 96) && d.sub = 0
   | 2 => d.srcKind = 0 && decide (d.src < 12) && d.sub = 0
   | 3 => d.srcKind = 0 && decide (d.src < 4) && decide (d.sub < 128)
   | 4 => d.sub = 0 && ((d.srcKind = 1 && decide (d.src < 96)) || (d.srcKind = 2 && decide (d.src < 24)) || (d.srcKind = 3 && decide (d.src < 32)))
   | 5 => (d.srcKind = 1 && decide (d.src < 12) && decide (d.sub < 64)) || (d.srcKind = 2 && decide (d.src < 96) && decide (d.sub < 4))
   | 6 => d.sub = 0 && ((d.srcKind = 1 && decide (d.src < 96)) || (d.srcKind = 2 && decide (d.src < 12)))
   | 7 => decide (1 ≤ d.sub) && ((d.srcKind = 1 && decide (d.src < 96)) || (d.srcKind = 2 && decide (d.src < 12)))
   | 8 => d.srcKind = 0 && decide (d.src < 4) && d.sub = 0
   | 9 | 10 => d.srcKind = 0 && d.src = 0 && d.sub = 0
   | _ => false)

/-- Whether a role's commit claims a bundle (R227). -/
def State.bundClaimed (s : State) (role : Nat) (b : BundId) : Bool :=
  s.bundStaged role && (s.bundWanted role).1 && decide (s.selBundle role = b) && decide ((s.bunds[b]).owner = 0)

/-- Whether the queue and the bundle of a definition belong to a holder, the bundle perhaps by the same commit. -/
def State.placeOwned (s : State) (role : Nat) (d : StrmDef) : Bool :=
  (match queueOf d.queue with
   | some q => decide (s.queueOwner q = role)
   | none => true) &&
  (!d.bundled || decide ((s.bunds[bundOf d.bundle]).owner = role) || s.bundClaimed role (bundOf d.bundle))

/-- Whether the class that the commit leaves the queue suits the kind, and a bundled kind has a hold rate. -/
def State.placeSuits (s : State) (role : Nat) (d : StrmDef) : Bool :=
  (match queueOf d.queue with
   | some q => classSuits d.kind (s.stgGet role pgStrm (strmTc.nth q.val))
   | none => false) && (!d.bundled || decide (0 < holdRate d.kind))

/-- Whether the demodulator in force of a source slice suits the kind: audio comes from AM and FM, units from DRM and DRM_PLUS (R98, R157). DEDUCED (log 73): a slice with DEMOD NONE may still be given either. -/
def State.demodSuits (s : State) (d : StrmDef) : Bool :=
  match slcOf d.src with
  | some i =>
    let m := s.get (pgSlc i) slcDemod
    if d.kind = 4 ∧ d.srcKind = 1 then m ≠ 3 && m ≠ 4
    else if d.kind = 5 ∧ d.srcKind = 2 then m ≠ 1 && m ≠ 2
    else true
  | none => true

/-- Stream IDs that a holder may hold (R458). -/
def State.strmLimit (s : State) (role : Nat) : Nat :=
  if tenantOwned role then s.get pgSec (secStrmMax.nth (role - 0x21))
  else 512 - allTenants.foldl (fun n t => n + s.get pgSec (secStrmMax.nth t.val)) 0

/-- Stream IDs that a holder holds. -/
def State.strmCount (s : State) (role : Nat) : Nat := (s.strms.toList.filter (fun x => x.owner = role)).length

/-- The sum of the hold rates of a bundle's members, one stream left out (R228). -/
def State.memberRates (s : State) (b : BundId) (out : Option StrmId) : Nat :=
  (List.finRange 512).foldl (fun n i =>
    let d := s.strmDef i
    if (s.strms[i]).owner ≠ 0 ∧ d.bundled ∧ d.bundle = b.val ∧ out ≠ some i then n + holdRate d.kind else n) 0

/-- Members of a bundle. -/
def State.members (s : State) (b : BundId) : List StrmId :=
  (List.finRange 512).filter (fun i => decide ((s.strms[i]).owner ≠ 0) && (s.strmDef i).bundled && decide ((s.strmDef i).bundle = b.val))

/-- The status of a claim of `want` bytes of a holder's share where `have_` are released by the same commit: OK, RESOURCE_BUSY when the capture channels that hold part of the share would cover the shortfall, NO_SPACE otherwise (R20, R228). -/
def State.shareStatus (s : State) (role want have_ : Nat) : Status :=
  let used := s.alnRsv role - have_ + want
  let share := s.alnShareOf role
  if used + s.snapHeld role ≤ share then .ok
  else if used ≤ share then .resourceBusy
  else .noSpace

/-- The status of the stream part of a commit, but for the memory that it claims (R221, R222). -/
def State.strmStatus (s : State) (role : Nat) : Status :=
  if !s.strmStaged role then .ok
  else
    let i := s.selStream role
    let x := s.strms[i]
    let d := s.strmWanted role
    let cur := s.strmDef i
    if x.owner ≠ 0 ∧ x.owner ≠ role then .resourceBusy
    else if d.kind = 0 then (if x.en then .notReady else .ok)
    else if !s.sourceOwned role d ∨ !s.placeOwned role d then .accessDenied
    else if d.kind = 10 ∧ !s.fuse.variant.sounding then .absentUnit
    else if !strmInRange d ∨ !s.placeSuits role d ∨ !s.demodSuits d then .badArg
    else if x.en ∧ { d with en := cur.en } ≠ cur then .notReady
    else if x.owner = 0 ∧ s.strmLimit role ≤ s.strmCount role then .noSpace
    else .ok

/-- The status of the bundle part of a commit, but for the memory that it claims (R227, R233). -/
def State.bundStatus (s : State) (role : Nat) : Status :=
  if !s.bundStaged role then .ok
  else
    let b := s.selBundle role
    let x := s.bunds[b]
    let (en, hold) := s.bundWanted role
    if x.owner ≠ 0 ∧ x.owner ≠ role then .resourceBusy
    else if (en ∨ x.owner ≠ 0) ∧ 3000 < hold then .badArg
    else if !en ∧ x.owner ≠ 0 ∧ s.members b ≠ [] then .notReady
    else .ok

/-- What a commit of a role would have a bundle reserve (R228): its HOLD as the commit leaves it, by the rates of the members that it leaves. -/
def State.rsvAfter (s : State) (role : Nat) (b : BundId) : Nat :=
  let i := s.selStream role
  let d := s.strmWanted role
  let hold := if s.bundStaged role ∧ s.selBundle role = b then (if (s.bundWanted role).1 then (s.bundWanted role).2 else 0) else s.get (pgBundle b) strmHold
  let rates := if !s.strmStaged role then s.memberRates b none
    else s.memberRates b (some i) + (if d.kind ≠ 0 ∧ d.bundled ∧ bundOf d.bundle = b then holdRate d.kind else 0)
  hold * rates / 1000

/-- The bundles whose reservation a commit of a role changes: the one its bundle window names, the one its stream joins, and the one it leaves. -/
def State.bundsTouched (s : State) (role : Nat) : List BundId :=
  (List.finRange 64).filter (fun b =>
    (s.bundStaged role && decide (s.selBundle role = b)) ||
    (s.strmStaged role && (((s.strmWanted role).bundled && decide ((s.strmWanted role).kind ≠ 0) && decide (bundOf (s.strmWanted role).bundle = b)) ||
      (decide ((s.strms[s.selStream role]).owner ≠ 0) && (s.strmDef (s.selStream role)).bundled && decide (bundOf (s.strmDef (s.selStream role)).bundle = b)))))

/-- The status of the memory that a commit claims from its role's share, all its bundles together (R228). -/
def State.rsvStatus (s : State) (role : Nat) : Status :=
  let bs := s.bundsTouched role
  let want := (bs.map (s.rsvAfter role)).sum
  let have_ := (bs.map (fun b => (s.bunds[b]).rsv)).sum
  if want ≤ have_ then .ok else s.shareStatus role want have_

/-- The status of the queue part of a commit (R224, R233). -/
def State.queueStatus (s : State) (role : Nat) : Status :=
  (List.finRange 9).foldl (fun st q =>
    if st ≠ .ok then st
    else match s.staged? role (keyOf pgStrm (strmTc.nth q.val)) with
      | none => .ok
      | some _ =>
        let tc := s.stgGet role pgStrm (strmTc.nth q.val)
        let ports := s.stgGet role pgStrm (strmPorts.nth q.val)
        if tc = 0 ∨ ports = 0 then .badArg
        else if (tc ≠ s.get pgStrm (strmTc.nth q.val) ∨ ports ≠ s.get pgStrm (strmPorts.nth q.val)) ∧ s.queueUsed q then .notReady
        else .ok) .ok

/-- The first status that is not OK. -/
def firstBad (l : List Status) : Status := (l.find? (fun st => st ≠ .ok)).getD .ok

/-- The status of a commit of the STRM page by a role: the stream window, the bundle window and the queue registers together (R222, R224, R227, R233). -/
def State.strmCommitStatus (s : State) (role : Nat) : Status :=
  firstBad [s.strmStatus role, s.bundStatus role, s.queueStatus role, s.rsvStatus role]

/-- Whether a commit of the STRM page meets what something else holds: an object that another owner has claimed since it was staged (R221, R227), or memory that capture channels hold (R86, R228). -/
def State.strmConflict (s : State) (role : Nat) : Bool := decide (s.strmCommitStatus role = .resourceBusy)

/-- A stream freed: its registers at reset, its owner none (R221). -/
def State.freeStream (s : State) (i : StrmId) : State :=
  (s.updStrm i (fun _ => Strm.fresh)).clearRegs (pgStream i) 0x040 0x05C

/-- The reservation of a bundle computed again (R228). -/
def State.reserve (s : State) (b : BundId) : State :=
  s.updBund b (fun x => { x with rsv := s.get (pgBundle b) strmHold * s.memberRates b none / 1000 })

/-- The root time at which the first packet period of a stream enabled now starts (R223): the next multiple of its period, or the next slice block for side data. -/
def State.firstPeriod (s : State) (kind : Nat) : Nat :=
  if kind = 6 then s.time.nextMultiple 1280000 else if kindPeriod kind = 0 then s.time.mono else s.time.nextMultiple (kindPeriod kind)

/-- The stream part of a commit takes effect. -/
def State.applyStream (s : State) (role : Nat) : State :=
  if !s.strmStaged role then s
  else
    let i := s.selStream role
    let d := s.strmWanted role
    let w0 := s.window role 0x044 (keyOf (pgStream i) strmKind)
    let w1 := s.window role 0x048 (keyOf (pgStream i) strmSrcKind)
    let old := s.strmDef i
    if d.kind = 0 then
      let s1 := s.freeStream i
      if old.bundled ∧ (s.strms[i]).owner ≠ 0 then s1.reserve (bundOf old.bundle) else s1
    else
      let fresh := decide ((s.strms[i]).owner = 0)
      let s1 := (s.setReg (keyOf (pgStream i) strmKind) w0).setReg (keyOf (pgStream i) strmSrcKind) w1
      let s2 := s1.updStrm i (fun x =>
        let x1 := if fresh then { Strm.fresh with owner := role } else x
        if d.en && !x.en then { x1 with en := true, ending := none, nextPeriod := s.firstPeriod d.kind, late := 0, records := [], meas := [], timeStep := none }
        else if !d.en && x.en then { x1 with en := false, ending := some s.time.mono }
        else x1)
      let s3 := if d.bundled then s2.reserve (bundOf d.bundle) else s2
      if old.bundled ∧ !fresh ∧ old.bundle ≠ d.bundle then s3.reserve (bundOf old.bundle) else s3

/-- The bundle part of a commit takes effect. -/
def State.applyBundle (s : State) (role : Nat) : State :=
  if !s.bundStaged role then s
  else
    let b := s.selBundle role
    let (en, _) := s.bundWanted role
    let w := s.window role 0x064 (keyOf (pgBundle b) strmHold)
    if en then
      let s1 := s.setReg (keyOf (pgBundle b) strmHold) w
      (s1.updBund b (fun x => if x.owner = 0 then { Bund.fresh with owner := role, period := s.time.nextMultiple 1280000 - 1280000 } else x)).reserve b
    else (s.updBund b (fun _ => Bund.fresh)).clearRegs (pgBundle b) 0x060 0x074

/-- The packets of a queue discarded; each of their streams sets GAP on its next delivered packet (R224). -/
def State.resetQueue (s : State) (q : SQueue) : State :=
  let ids := (s.buffered q).packets.map (·.stream)
  let s1 := ids.foldl (fun s i => s.updStrm i (fun x => { x with gap := true })) s
  s1.updQueue q (fun x => { x with packets := [], gone := 0 })

/-- The queue part of a commit takes effect. -/
def State.applyQueues (s : State) (role : Nat) : State :=
  (List.finRange 9).foldl (fun t q =>
    match s.staged? role (keyOf pgStrm (strmTc.nth q.val)) with
    | none => t
    | some w =>
      let key := keyOf pgStrm (strmTc.nth q.val)
      let t1 := t.setReg key (merge (t.reg key) w (rsMask key))
      if fieldOf w 8 8 = 1 then t1.resetQueue q else t1) s

/-- A commit of the STRM page takes effect, the stream, bundle and queue parts together. -/
def State.applyStrmPage (s : State) (role : Nat) : State :=
  ((((s.applyBundle role).applyStream role).applyQueues role).unstage pgStrm role).bumpSeq pgStrm

/-! ### Packets (R214 to R220, R226, R469, R470) -/

/-- The key of a tenant's stream packet of a DEVTIME: a new K_S from its switch instant on, else the current one from its own switch instant on, else the previous one (R470). -/
def State.streamKey (s : State) (owner dev : Nat) : Option (BitVec 256) :=
  if h : 0x21 ≤ owner ∧ owner ≤ 0x24 then
    let k := s.skeys[owner - 0x21]'(by omega)
    if k.next.isSome ∧ k.switchAt ≤ dev then k.next else if k.from_ ≤ dev then k.current else k.previous
  else none

/-- H0 of Table 7.1. -/
def Packet.header (p : Packet) (path : Nat) : Quad :=
  quadPack [(127, 119, p.stream.val), (118, 118, bit p.bundled.isSome), (117, 112, idxOr p.bundled 0), (111, 108, p.kind), (107, 98, p.len),
    (97, 82, p.seq), (81, 81, bit p.mulch), (80, 80, bit p.unlocked), (79, 79, bit p.holdover), (78, 78, bit p.timeStep), (77, 77, bit p.halfRate),
    (76, 76, bit p.encrypted), (75, 75, bit p.gap), (74, 74, path), (73, 64, p.kflags), (63, 0, p.devtime)]

/-- A packet that was formed and not delivered: counted, and GAP due (R215, R226, R231). -/
def State.dropPacket (s : State) (i : StrmId) : State :=
  (s.count (pgStream i) strmDropCnt 1).updStrm i (fun x => { x with gap := true })

/-- Whether a queue has room for some words (R224). -/
def State.roomFor (s : State) (q : SQueue) (words : Nat) : Bool := decide ((s.buffered q).words + words ≤ 16384)

/-- A list made n long: its first words, and zero words where it is shorter. -/
def exactly (n : Nat) (l : List Quad) : List Quad := l.take n ++ List.replicate (n - l.length) 0

/-- A tenant's packet sealed: ciphertext and tag, with H0 as additional data (R232, R469); none while no key of its DEVTIME is held (R470). -/
def State.sealPacket (s : State) (p : Packet) : Option Packet :=
  if p.encrypted then
    (s.streamKey (s.strms[p.stream]).owner p.devtime).map (fun k =>
      { p with payload := exactly p.len (Config.streamSeal k p.stream.val p.seq p.devtime (p.header 0) p.payload) })
  else some p

/-- A packet placed in its queue: GAP as the stream owes it, sealed when a tenant owns the stream, its delivery counted; a tenant's for which no key is held any more is dropped (R470). -/
def State.deliver (s : State) (q : SQueue) (p : Packet) : State :=
  match s.sealPacket { p with gap := (s.strms[p.stream]).gap } with
  | some p1 => ((s.updQueue q (fun x => { x with packets := x.packets ++ [p1] })).updStrm p.stream (fun x => { x with gap := false })).count (pgStream p.stream) strmPktCnt 1
  | none => s.dropPacket p.stream

/-- A packet outside any bundle enters its queue, or is dropped with QUEUE_OVERFLOW at most once per slice block (R226). -/
def State.enqueue (s : State) (q : SQueue) (p : Packet) : State :=
  if s.roomFor q (p.len + 1) then s.deliver q p
  else
    let s1 := (s.dropPacket p.stream).count pgStrm (strmQDrop.nth q.val) 1
    if (s.squeues[q]).ovfRaised then s1
    else (s1.raiseTo pgStrm evStrmQueueOverflow (s.queueOwner q)).updQueue q (fun x => { x with ovfRaised := true })

/-- What a packet is formed from: the root times of its first sample, record or unit and of the end of its last, its payload words without the tag word, whether it is mulch, its conditions, the flags of its kind, its payload. -/
structure PacketSpec where
  at_ : Nat
  stop : Nat
  len : Nat
  mulch : Bool
  cond : Cond
  kflags : Nat
  payload : List Quad
deriving DecidableEq, Repr

/-- Whether a tenant has no stream key yet (R470). -/
def State.keyless (s : State) (owner : Nat) : Bool :=
  if h : 0x21 ≤ owner ∧ owner ≤ 0x24 then (s.skeys[owner - 0x21]'(by omega)).current.isNone else false

/-- A packet of an enabled stream formed (R215, R219, R232, R469): it takes the next SEQ and goes to its bundle or its queue, where one that a tenant owns is sealed. A mulch packet holds zero words. TIME_STEP is set on the first packet that reaches beyond a DEVTIME step (Table 7.4). A tenant's packet for which no key is held is not sent (R470): before the tenant's first key none is formed, and one older than every key held is dropped. -/
def State.formPacket (s : State) (i : StrmId) (x : PacketSpec) : State :=
  let st := s.strms[i]
  let d := s.strmDef i
  let enc := tenantOwned st.owner
  let dev := s.time.devAt x.at_
  let key := s.streamKey st.owner dev
  if s.keyless st.owner then s
  else
    let step := (st.timeStep.map (fun m => decide (m < x.stop))).getD false
    let s1 := s.updStrm i (fun y => { y with seq := (y.seq + 1) % 65536, timeStep := if step then none else y.timeStep })
    if enc ∧ key.isNone then s1.dropPacket i
    else
      let body := exactly x.len (if x.mulch then [] else x.payload)
      let p : Packet := ⟨i, if d.bundled then some (bundOf d.bundle) else none, d.kind, if enc then x.len + 1 else x.len, st.seq, x.mulch, x.cond.unlocked,
        x.cond.holdover, step, x.cond.half, enc, false, x.kflags, x.at_, dev, body⟩
      if d.bundled then s1.updBund (bundOf d.bundle) (fun b => { b with held := b.held ++ [p] })
      else match queueOf d.queue with
        | some q => s1.enqueue q p
        | none => s1

/-- Whether an input yields samples: its converter runs and it is not on REFIN. -/
def State.inputLive (s : State) (i : Inp) : Bool := decide ((s.inputs[i]).conv = .run) && !(s.inputs[i]).onRefin

/-- Whether a slice yields valid blocks: in use, settled, its input live, its bin not mulch at half rate (R65, R76). -/
def State.sliceLive (s : State) (i : Slc) : Bool :=
  let n := inpOf (s.get (pgSlc i) slcInput)
  decide ((s.slices[i]).use ≠ .idle) && decide ((s.slices[i]).settleLeft = 0) && !(s.slices[i]).down && s.inputLive n &&
    (!(s.inputs[n]).shownHalf || decide (s.get (pgSlc i) slcBin < 64))

/-- The length on the grid of a bin sample's prototype span: 2,048 converter samples (R66). DEDUCED (log 71): at half rate they are twice as far apart. -/
def Input.binSpan (x : Input) : Nat := if x.shownHalf then 4096 else 2048

/-- Whether a bin sample of an input that falls after the root time a and up to b carries the overrange tag: one of the converter samples in its span carried OVR (R66). -/
def State.overranged (s : State) (i : Inp) (a b : Nat) : Bool :=
  (s.inputs[i]).ovrs.any (fun g => decide (a + 128 < g.2 + (s.inputs[i]).binSpan) && decide (g.1 ≤ b))

/-- Whether a slice block that holds some of the root time from a up to b carries the overrange tag (R66): what side data from it carries as OVR. -/
def State.blocksTagged (s : State) (i : Inp) (a b : Nat) : Bool := s.overranged i (s.time.blockOf a) b

/-- Whether the two bins of a bed carry samples: the input yields, and at half rate both bins lie below 64 (R65, R83, R141). -/
def State.bedLive (s : State) (k : BedId) : Bool :=
  let i := inpOf (s.get (pgBed k) bedInput)
  s.inputLive i && (!(s.inputs[i]).shownHalf || decide (s.get (pgBed k) bedBin < 63))

/-- Whether the source of a sampled stream exists: a slice or bed that is enabled, a decoder in use, a slot that is on (R223). -/
def State.sourceThere (s : State) (d : StrmDef) : Bool :=
  let slc (n : Nat) : Bool := match slcOf n with
    | some i => decide ((s.slices[i]).use = .host)
    | none => false
  match d.kind with
  | 1 => slc d.src
  | 2 => match bedOf d.src with
    | some k => decide ((s.beds[k]).state ≠ .off)
    | none => false
  | 3 => decide ((s.inputs[inpOf d.src]).conv ≠ .off)
  | 4 => match d.srcKind with
    | 1 => slc d.src && (match slcOf d.src with
        | some i => let m := s.get (pgSlc i) slcDemod
                    m = 1 || m = 2
        | none => false)
    | 2 => match decOf d.src with
      | some x => decide ((s.decs[x]).state ≠ .idle) && decide ((s.decs[x]).state ≠ .sourceGone)
      | none => false
    | _ => match svcOf d.src with
      | some v => decide ((s.slots[v]).state ≠ .off)
      | none => false
  | _ => true

/-- The input that a stream's source draws on, where it has one. -/
def State.sourceInput (s : State) (d : StrmDef) : Option Inp :=
  let slc (n : Nat) : Option Inp := (slcOf n).map (fun i => inpOf (s.get (pgSlc i) slcInput))
  let bed (n : Nat) : Option Inp := (bedOf n).map (fun k => inpOf (s.get (pgBed k) bedInput))
  match d.kind with
  | 1 => slc d.src
  | 2 => bed d.src
  | 3 => some (inpOf d.src)
  | 4 => if d.srcKind = 1 then slc d.src else none
  | 5 => if d.srcKind = 1 then bed d.src else slc d.src
  | 6 | 7 => if d.srcKind = 1 then slc d.src else bed d.src
  | _ => none

/-- HOLDOVER as it stands: converted while the clock coasts (Table 7.4). -/
def State.condHoldover (s : State) : Bool := decide (s.clk.state = .holdover)

/-- Whether a stream forms packets for a period that starts at a root time: it is enabled, or that period holds, or comes before, the response to its disable (R223). -/
def Strm.formsAt (x : Strm) (m : Nat) : Bool :=
  x.en || (match x.ending with
    | some e => decide (m ≤ e)
    | none => false)

/-- The sampled members of a bundle. -/
def State.sampledMembers (s : State) (b : BundId) : List StrmId :=
  (s.members b).filter (fun i => (s.strms[i]).en && sampledKind (s.strmDef i).kind)

/-- Whether a sampled member has formed every packet of the period that a bundle releases next. -/
def State.memberReady (s : State) (b : BundId) (i : StrmId) : Bool := decide ((s.bunds[b]).period + 1280000 ≤ (s.strms[i]).nextPeriod)

/-- The packets of a bundle that its next release takes: those of the period, and the unsampled ones of earlier periods (R229, R230). -/
def State.releaseSet (s : State) (b : BundId) : List Packet :=
  (s.bunds[b]).held.filter (fun p => decide (p.at_ < (s.bunds[b]).period + 1280000))

/-- The words that a set of packets needs in a queue. -/
def wordsFor (q : SQueue) (ps : List Packet) (qOf : StrmId → Nat) : Nat :=
  ps.foldl (fun n p => if qOf p.stream = q.val + 7 then n + p.len + 1 else n) 0

/-- A period of a bundle released whole, or dropped whole when a queue lacks room (R231). -/
def State.releaseBundle (s : State) (b : BundId) : State :=
  let ps := s.releaseSet b
  let qOf := fun i => (s.strmDef i).queue
  let fits := (List.finRange 9).all (fun q => s.roomFor q (wordsFor q ps qOf))
  let s1 := s.updBund b (fun x => { x with held := x.held.filter (fun p => !decide (p.at_ < x.period + 1280000)), period := x.period + 1280000 })
  if fits then
    ps.foldl (fun s p => match queueOf (qOf p.stream) with
      | some q => s.deliver q p
      | none => s) s1
  else
    let s2 := ps.foldl (fun s p => s.dropPacket p.stream) s1
    let s3 := (s.sampledMembers b).foldl (fun s i => s.updStrm i (fun x => { x with gap := true })) s2
    (s3.count (pgBundle b) strmBDropCnt 1).raiseTo pgStrm evStrmBundleDrop (s.bunds[b]).owner

/-- BUNDLE_RELEASE (R229, R230, R231): when a period is over and every sampled member has formed its packets for it, it is released. -/
def execBundleRelease (b : BundId) (s : State) : Host.Outcome State Fault Refusal :=
  if (s.bunds[b]).owner ≠ 0 ∧ (s.bunds[b]).period + 1280000 ≤ s.time.mono ∧ (s.sampledMembers b).all (s.memberReady b) then .next (s.releaseBundle b) else .next s

/-- The packet that is due of a late sampled member replaced by mulch and counted; its real packet, when it comes, will be discarded (R215, R229). -/
def State.replaceOne (s : State) (b : BundId) (i : StrmId) : State :=
  let d := s.strmDef i
  let m := (s.strms[i]).nextPeriod
  let s1 := s.formPacket i ⟨m, m + kindPeriod d.kind, kindLen d.kind, true, s.condIn (s.sourceInput d) m (m + kindPeriod d.kind), 0, []⟩
  let s2 := s1.updStrm i (fun x => { x with nextPeriod := m + kindPeriod d.kind, late := x.late + 1 })
  (s2.count (pgBundle b) strmBLateCnt 1).count (pgStream i) strmLateCnt 1

/-- The packets of the period that a late sampled member lacks. -/
def State.lacking (s : State) (b : BundId) (i : StrmId) : Nat :=
  ((s.bunds[b]).period + 1280000 - (s.strms[i]).nextPeriod + kindPeriod (s.strmDef i).kind - 1) / max 1 (kindPeriod (s.strmDef i).kind)

/-- Every packet of the period that a late sampled member lacks replaced by mulch. -/
def State.replaceLate (s : State) (b : BundId) (i : StrmId) : State :=
  (List.range (s.lacking b i)).foldl (fun s _ => s.replaceOne b i) s

/-- The root time of a bundle's deadline: B_k+1 + HOLD of the period it releases next (R229). -/
def State.bundleDeadline (s : State) (b : BundId) : Nat := (s.bunds[b]).period + 1280000 + s.get (pgBundle b) strmHold * msTicks

/-- BUNDLE_DEADLINE (R229, R379): at B_k+1 + HOLD a member that lacks a packet gets mulch and the period is released. Where every packet has come by that instant they are released, and the race is counted; where the last one is visible only now (`seen`) the race is counted and its PACKET_PERIOD and the release follow (log 3). -/
def execBundleDeadline (b : BundId) (seen : Bool) (s : State) : Host.Outcome State Fault Refusal :=
  if (s.bunds[b]).owner = 0 ∨ !s.ranOut (s.bundleDeadline b) 0 then .next s
  else
    let late := (s.sampledMembers b).filter (fun i => !s.memberReady b i)
    if late = [] then .next ((s.race pgStrm).releaseBundle b)
    else if seen then .next (s.race pgStrm)
    else
      let s1 := late.foldl (fun s i => s.replaceLate b i) s
      let s2 := if (s.bunds[b]).lateRaised then s1
        else (s1.raiseTo pgStrm evStrmBundleLate (s.bunds[b]).owner).updBund b (fun x => { x with lateRaised := true })
      .next (s2.releaseBundle b)

/-- What holds at each slice-block boundary for queues, bundles and streams: their once-per-block events may be raised again; a stream that carries records or reports ends with the period in which it was disabled (R223). -/
def State.streamsBlock (s : State) : State :=
  { s with
    squeues := s.squeues.map (fun q => { q with ovfRaised := false })
    bunds := s.bunds.map (fun b => { b with lateRaised := false })
    strms := Vector.ofFn (fun i => let x := s.strms[i]
      if sampledKind (s.strmDef i).kind ∨ (s.strmDef i).kind = 7 then x else { x with ending := none }) }

/-- The streams of a kind and source that take what is ready now: enabled, or disabled within this period. -/
def State.streamsOf (s : State) (p : StrmDef → Bool) : List StrmId :=
  (List.finRange 512).filter (fun i => decide ((s.strms[i]).owner ≠ 0) && ((s.strms[i]).en || (s.strms[i]).ending.isSome) && p (s.strmDef i))

/-- STRM_SOURCE_GONE, once, for the enabled streams whose source is disabled, retuned or deleted (R223). -/
def State.strmsGone (s : State) (p : StrmDef → Bool) : State :=
  (s.streamsOf p).foldl (fun s i =>
    if (s.strms[i]).goneRaised then s
    else (s.raiseTo pgStrm evStrmSourceGone (s.strms[i]).owner).updStrm i (fun x => { x with goneRaised := true })) s

/-- Whether a stream draws on a slice, and on a bed. -/
def StrmDef.ofSlice (d : StrmDef) (i : Slc) : Bool :=
  decide (d.src = i.val) && (decide (d.kind = 1) || (decide (d.kind = 4) && decide (d.srcKind = 1)) || (decide (d.kind = 5) && decide (d.srcKind = 2)) ||
    ((decide (d.kind = 6) || decide (d.kind = 7)) && decide (d.srcKind = 1)))
/-- The same for a bed. -/
def StrmDef.ofBed (d : StrmDef) (k : BedId) : Bool :=
  decide (d.src = k.val) && (decide (d.kind = 2) || (decide (d.kind = 5) && decide (d.srcKind = 1)) || ((decide (d.kind = 6) || decide (d.kind = 7)) && decide (d.srcKind = 2)))
/-- The same for an input. -/
def StrmDef.ofInput (d : StrmDef) (i : Inp) : Bool := decide (d.kind = 3) && decide (d.src = i.val)
/-- The same for a decoder. -/
def StrmDef.ofDec (d : StrmDef) (x : DecId) : Bool := decide (d.kind = 4) && decide (d.srcKind = 2) && decide (d.src = x.val)
/-- The same for a slot. -/
def StrmDef.ofSlot (d : StrmDef) (v : SvcId) : Bool := decide (d.kind = 4) && decide (d.srcKind = 3) && decide (d.src = v.val)

/-- A report that is a packet of its own on every enabled stream of a kind and source, of the root time given (Table 7.2). -/
def State.emitReport (s : State) (p : StrmDef → Bool) (at_ : Nat) (cond : Cond) (kflags : Nat) (words : List Quad) : State :=
  (s.streamsOf p).foldl (fun s i => s.formPacket i ⟨at_, at_ + 1, words.length, false, cond, kflags, words⟩) s

/-- The descriptor of a compressed unit, by source kind and number (R216), then its bytes, as many as a packet takes. -/
def unitWords (srcKind src : Nat) (u : Unit_) : List Quad :=
  quadPack [(127, 112, u.bytes.length), (111, 110, srcKind), (109, 103, src), (102, 97, u.subch), (96, 93, u.type), (92, 80, if srcKind = 1 then u.cif else 0)] ::
    packBytes u.bytes

/-- The packet of a unit, stamped with its instant of R155 (R157, R216); at most 1,021 words of bytes, so that LEN is at most 1,023. -/
def State.unitSpec (s : State) (srcKind src : Nat) (i : Option Inp) (u : Unit_) : PacketSpec :=
  let from_ := s.time.mono - u.ago
  let w := unitWords srcKind src { u with bytes := u.bytes.take 16336 }
  ⟨from_, s.time.mono, w.length, false, s.condIn i from_ s.time.mono, bit u.err, w⟩

/-- A unit handed to the COMPRESSED streams that meet a condition, one packet each (R157). -/
def State.unitPackets (s : State) (p : StrmDef → Bool) (srcKind src : Nat) (i : Option Inp) (u : Unit_) : State :=
  (s.streamsOf (fun d => decide (d.kind = 5) && p d)).foldl (fun s n => s.formPacket n (s.unitSpec srcKind src i u)) s

/-- The side-data stream packet closed for one stream, with the conditions of the samples from its first record on (R216, R220, Table 7.2). -/
def State.closeSide (s : State) (i : StrmId) : State :=
  let x := s.strms[i]
  if x.records = [] then s
  else (s.formPacket i ⟨x.recTime, x.recEnd, x.records.length, false, s.condIn (s.sourceInput (s.strmDef i)) x.recTime x.recEnd, bit x.recOvr, x.records⟩).updStrm i
    (fun y => { y with records := [], recOvr := false, goneRaised := false })

/-- A side-data record of samples from `ago` ticks ago until now appended to the SIDE_DATA streams of a source whose first slice block has begun (R223); a packet is closed early when the next record would take it beyond 1,022 words (R216). -/
def State.sideRecord (s : State) (srcKind src : Nat) (words : List Quad) (ovr : Bool) (ago : Nat) : State :=
  ((s.streamsOf (fun d => decide (d.kind = 6) && decide (d.srcKind = srcKind) && decide (d.src = src))).filter
      (fun i => decide ((s.strms[i]).nextPeriod ≤ s.time.mono))).foldl (fun s i =>
    let s1 := if 1022 < (s.strms[i]).records.length + words.length + bit (tenantOwned (s.strms[i]).owner) then s.closeSide i else s
    s1.updStrm i (fun x => { x with records := x.records ++ words, recTime := if x.records = [] then s.time.mono - ago else x.recTime, recEnd := s.time.mono,
                                    recOvr := x.recOvr || ovr })) s

/-- The side-data packets closed at a slice-block boundary (R216). -/
def State.closeSides (s : State) : State :=
  (s.streamsOf (fun d => d.kind = 6)).foldl (fun s i => s.closeSide i) s

/-- STREAM_KEY_SWITCH (R470): from the first slice-block boundary after SESS_CONFIRM the new key applies; the key before it is kept. -/
def execStreamKeySwitch (n : TenId) (s : State) : Host.Outcome State Fault Refusal :=
  match (s.skeys[n]).next with
  | some k =>
    if (s.skeys[n]).switchAt ≤ s.time.devtime then
      .next { s with skeys := upd s.skeys n (fun x =>
        { x with current := some k, previous := x.current, next := none, from_ := x.switchAt, switchedMono := s.time.mono }) }
    else .next s
  | none => .next s

/-- OLD_STREAM_KEY_EXPIRY (R470): 90 s after a switch the previous key is dropped. -/
def execOldStreamKeyExpiry (n : TenId) (s : State) : Host.Outcome State Fault Refusal :=
  if s.ranOut (s.skeys[n]).switchedMono (90 * secTicks) then .next { s with skeys := upd s.skeys n (fun x => { x with previous := none }) }
  else .next s

end Sys2Proof.Machine
end

