-- ==== Sys2Proof/Machine/Audio.lean ====
section
/-! DEFINITION. The serial audio port (R236 to R251, R539): commits, stop-switch-restart, clock faults, the outputs. -/

namespace Sys2Proof.Machine

/-- Whether port frames run (R539): not while CLK_STATE reads stopped, nor in STANDBY and lower rungs. -/
def State.audFrames (s : State) : Bool := decide (s.aud.clk ≠ .stopped) && decide (s.pwr.rung ≤ 1)

/-- The fields of the port whose change is applied by stop-switch-restart (R248). -/
def State.audPort (s : State) : Nat × Nat × Nat × Nat :=
  (s.get pgAud audMode, s.get pgAud audFs, s.get pgAud audSlot, s.get pgAud audMclkSrc)

/-- One output of the port changed. -/
def State.updOut (s : State) (o : OutId) (f : AudOut → AudOut) : State := { s with aud := { s.aud with outs := upd s.aud.outs o f } }

/-- An output muted over some ticks: MUTED reads 1. -/
def State.mute (s : State) (o : OutId) (len : Nat) : State :=
  let s1 := if s.flag pgAud (audMuted.nth o.val) then s else s.updOut o (fun x => { x with fadeAt := s.time.mono, fadeLen := len, fadeIn := false })
  s1.put pgAud (audMuted.nth o.val) 1

/-- An output that ramps up over 10 ms (R247, R248). -/
def State.unmute (s : State) (o : OutId) : State :=
  (s.updOut o (fun x => { x with fadeAt := s.time.mono, fadeLen := 10 * msTicks, fadeIn := true })).put pgAud (audMuted.nth o.val) 0

/-- Whether an output is enabled. -/
def State.outEn (s : State) (o : OutId) : Bool := s.flag pgAud (audEn.nth o.val)

/-- An output silent at once, LOCK cleared, its slots zero. -/
def State.silence (s : State) (o : OutId) : State :=
  (((s.mute o 0).updOut o (fun x => { x with fadeAt := s.time.mono, fadeLen := 0, fadeIn := false, left := 0, right := 0 })).put pgAud (audLock.nth o.val) 0)

/-- Every output silent: the clock has stopped. -/
def State.audSilence (s : State) : State := (List.finRange 4).foldl (fun s o => s.silence o) s

/-! ### What an output plays (R98, R155, R179, R237, R244, R245) -/

/-- What a slot has played, as audio of 24 bits whose low 8 bits are 0 (R179). -/
def OutFrame.clip (x : OutFrame) : Clip := ⟨x.at_, [(x.left * 256, x.right * 256)], x.conceal, x.cond⟩

/-- The audio of a PCM source, by SRC_KIND and number: a slice, a decoder, a slot. -/
def State.audioOf (s : State) (kind src : Nat) : List Clip :=
  match kind with
  | 1 => match slcOf src with
    | some i => (s.demods[i]).audio
    | none => []
  | 2 => match decOf src with
    | some x => (s.decs[x]).audio
    | none => []
  | _ => match svcOf src with
    | some v => (s.slots[v]).out.map OutFrame.clip
    | none => []

/-- L of R244 for a source: the readiness lag limit of Table 7.6 less 0.05 ms. A decoder that no one uses has none yet. -/
def State.lagOf (s : State) (kind src : Nat) : Option Nat :=
  match kind with
  | 1 => some (10 * msTicks)
  | 2 => match decOf src with
    | some x =>
      if (s.decs[x]).state = .idle then none
      else if s.get pgDec (decSrcKind.nth x.val) = 1 then some (520 * msTicks)
      else match slcOf (s.get pgDec (decSrc.nth x.val)) with
        | some i => if s.get (pgSlc i) slcDemod = 4 then some (850 * msTicks) else some (2450 * msTicks)
        | none => none
    | none => none
  | _ => match svcOf src with
    | some v => some (s.get (pgSvc v) svcPresent * msTicks)
    | none => none

/-- The lag that an output keeps: a slot's is its PRESENT, which stands while it runs; any other is fixed when the output is sourced (R244). -/
def State.outLag (s : State) (o : OutId) : Option Nat :=
  let kind := s.get pgAud (audSrcKind.nth o.val)
  let now := s.lagOf kind (s.get pgAud (audSrc.nth o.val))
  if kind = 3 ∧ !(s.aud.outs[o]).leaving then now
  else match (s.aud.outs[o]).lag with
    | some l => some l
    | none => now

/-- The input buffer of an output moved on to now: what it holds and may still play, and what its source has delivered since; nothing new while it plays out a source that it has been moved from (R244, R248). -/
def State.outBuffer (s : State) (o : OutId) (lag : Nat) : List Clip :=
  let old := clipsSince (s.aud.outs[o]).buf (s.time.mono - lag - 22 * msTicks)
  if (s.aud.outs[o]).leaving then old else
  let from_ := match old.getLast? with
    | some c => c.stop
    | none => s.time.mono - lag - 22 * msTicks
  old ++ clipsWithin (s.audioOf (s.get pgAud (audSrcKind.nth o.val)) (s.get pgAud (audSrc.nth o.val))) from_ (s.time.mono - lag)

/-- The gain of an output at the present instant, in units of 2⁻⁶⁰. -/
def AudOut.gain (x : AudOut) (now : Nat) : Int :=
  let g := raisedCos (now - x.fadeAt) x.fadeLen
  if x.fadeIn then g else 2 ^ 60 - g

/-- The word of a slot of 16, 24 or 32 bits for a sample of 24 bits: rounded and saturated, as it is, or followed by eight zeros (R237). -/
def slotWord (slot : Nat) (v : Int) : Nat :=
  match slot with
  | 0 => twos 16 (to16 v)
  | 1 => twos 24 (clamp24 v)
  | _ => twos 24 (clamp24 v) * 256

/-- The frame of an enabled output at an AWS edge: the source sample stamped L + 21 ms earlier, through the resampler, under the output's gain; zeros where there is none, and in IDLE (R244, R245). -/
def State.outFrame (s : State) (o : OutId) : State :=
  match s.outLag o with
  | none => s.updOut o (fun x => { x with left := 0, right := 0 })
  | some lag =>
    let buf := s.outBuffer o lag
    let d := s.time.mono - lag - 21 * msTicks
    let near := clipsWithin buf (d - msTicks) (d + msTicks)
    let v := match near.head?, clipAt buf d with
      | some c, some _ => Config.resample (s.get pgAud (audRatio.nth o.val)) (clipFrames near) (d - c.at_)
      | _, _ => (0, 0)
    let g := if s.pwr.rung = 0 then (s.aud.outs[o]).gain s.time.mono else 0
    let slot := s.get pgAud audSlot
    s.updOut o (fun x => { x with buf := buf, lag := some lag, left := slotWord slot (fadeBy g v.1), right := slotWord slot (fadeBy g v.2) })

/-- The frames of every output at an AWS edge; a disabled one carries zeros. -/
def State.audPlay (s : State) : State :=
  (List.finRange 4).foldl (fun s o => if s.outEn o then s.outFrame o else s.updOut o (fun x => { x with buf := [], lag := none, leaving := false, left := 0, right := 0 })) s

/-- What an output does when a commit changes it (R248): a disabled one carries zeros, a re-sourced one ramps down over 10 ms and up again. -/
def State.audOutput (old s : State) (o : OutId) : State :=
  let en := s.outEn o
  let was := old.outEn o
  let src := fun (x : State) => (x.get pgAud (audSrcKind.nth o.val), x.get pgAud (audSrc.nth o.val))
  if !en then s.silence o
  else if was ∧ src s ≠ src old then
    let s1 := (s.mute o (10 * msTicks)).updOut o (fun x => { x with leaving := true })
    { s1 with aud := { s1.aud with unmuteAt := s1.aud.unmuteAt.filter (fun x => x.1 ≠ o) ++ [(o, s.time.mono + 10 * msTicks)] } }
  else s

/-- A stop-switch-restart begins (Table 8.2): on the old clock the enabled outputs ramp to mute; with the old clock stopped the ramp ends at once. MODE OFF with the clock stopped stays stopped. -/
def State.audSwitch (s : State) : State :=
  if s.audFrames then
    let s1 := (List.finRange 4).foldl (fun s o => s.mute o (10 * msTicks)) s
    { s1 with aud := { s1.aud with clk := .switching, fault := false, ramping := true, rampAt := s.time.mono, switchDue := true, glitches := 0 } }
  else
    let clk := if s.get pgAud audMode = 0 then AudClk.stopped else .switching
    { s with aud := { s.aud with clk := clk, fault := false, ramping := false, switchDue := decide (clk = .switching), glitches := 0 } }

/-- A commit of the AUD page takes effect (R248, R539). -/
def State.audApply (s : State) (ws : List (Nat × Word)) : State :=
  let s1 := (s.applyWords ws).bumpSeq pgAud
  let s2 := (List.finRange 4).foldl (fun t o => State.audOutput s t o) s1
  if s2.audPort ≠ s.audPort then s2.audSwitch else s2

/-- The captured commits of the AUD page take effect, in order of their responses. -/
def State.audCommits (s : State) : State :=
  let cs := s.captured.filter (fun c => c.page = pgAud)
  cs.foldl (fun s c => s.audApply c.words) { s with captured := s.captured.filter (fun c => c.page ≠ pgAud) }

/-- The status of a commit of the AUD page by a role (R249, Table 8.4): ranges, MCLK_SRC against MODE, sources in the owner's partition. -/
def State.audStatus (s : State) (role : Nat) : Status :=
  let mode := s.stgGet role pgAud audMode
  let outs := List.finRange 4
  let bad := outs.any (fun o =>
    let k := s.stgGet role pgAud (audSrcKind.nth o.val)
    let n := s.stgGet role pgAud (audSrc.nth o.val)
    s.stgGet role pgAud (audEn.nth o.val) = 1 &&
      !((k = 1 && decide (n < 96)) || (k = 2 && decide (n < 24)) || (k = 3 && decide (n < 32))))
  let foreign := outs.any (fun o =>
    s.stgGet role pgAud (audEn.nth o.val) = 1 && (s.staged? role (keyOf pgAud (audEn.nth o.val))).isSome &&
      !s.sourceOwned (s.outOwner o) ⟨true, 4, 0, false, 0, s.stgGet role pgAud (audSrcKind.nth o.val), s.stgGet role pgAud (audSrc.nth o.val), 0⟩)
  if !s.stagedInRange pgAud role ∨ bad then .badArg
  else if (mode = 2) ≠ (s.stgGet role pgAud audMclkSrc = 1) ∧ mode ≠ 0 then .badArg
  else if foreign then .accessDenied
  else .ok

/-- The port's clock stops under R246: PORT_CLK_LOST as a finding of its detector, ratios frozen, LOCK cleared, ASDn low. -/
def State.audStop (s : State) (src : Nat) : State :=
  let s1 := (s.finding pgAud 2 pgAud evAudPortClkLost 0x10 src 0).count pgAud audLostCnt 1
  let s2 := s1.audSilence
  { s2 with aud := { s2.aud with clk := .stopped, fault := true, ramping := false, glitches := 0 } }

/-- The clocks of MASTER_INT stop with the generator (R240). -/
def State.audGeneratorStops (s : State) : State :=
  if s.get pgAud audMode = 1 ∧ s.aud.clk ≠ .stopped then
    let s1 := s.audSilence
    { s1 with aud := { s1.aud with clk := .stopped, fault := false, ramping := false } }
  else s

/-- The generator runs again with the root (R240): a MASTER_INT port waits for its first edge. -/
def State.audGeneratorStarts (s : State) : State :=
  if s.get pgAud audMode = 1 ∧ s.aud.clk = .stopped ∧ !s.aud.fault then { s with aud := { s.aud with clk := .switching, ramping := false } } else s

/-- An output's source buffer is empty: it ramps to mute, and back up once 20 ms is buffered again (R245). -/
def State.audUnderrun (s : State) (o : OutId) (src : Nat) : State :=
  let s1 := s.finding pgAud 1 pgAud evAudUnderrun (s.outOwner o) src 0
  let s2 := s1.mute o msTicks
  { s2 with aud := { s2.aud with unmuteAt := s2.aud.unmuteAt.filter (fun x => x.1 ≠ o) ++ [(o, s.time.mono + 20 * msTicks)] } }

/-- The outputs whose time to ramp up has come. -/
def State.audUnmute (s : State) : State :=
  let due := s.aud.unmuteAt.filter (fun x => decide (x.2 ≤ s.time.mono) && s.flag pgAud (audLock.nth x.1.val))
  let s1 := due.foldl (fun s x => (s.unmute x.1).updOut x.1 (fun y => if y.leaving then { y with buf := [], lag := none, leaving := false } else y)) s
  { s1 with aud := { s1.aud with unmuteAt := s1.aud.unmuteAt.filter (fun x => !due.contains x) } }

/-- What an injection does at a port frame (Table 19.1): the underflow of an enabled output, or the stop of the clock. -/
def State.audInjected (s : State) : State :=
  if s.injected pgAud 1 then
    match (List.finRange 4).find? (fun o => s.outEn o) with
    | some o => (s.consumeInj pgAud).audUnderrun o 2
    | none => s
  else if s.injected pgAud 2 then (s.consumeInj pgAud).audStop 2
  else s

/-- PORT_FRAME (R236, R237, R244, R248, R539): an AWS period ends; commits of the AUD page take effect unless a switch is in progress; the outputs play their next frame. -/
def execPortFrame (s : State) : Host.Outcome State Fault Refusal :=
  if s.audFrames ∧ (s.aud.clk ≠ .switching ∨ s.aud.ramping) then
    let s1 := { s with aud := { s.aud with glitches := 0 } }
    let s2 := if s1.aud.clk = .switching then s1 else s1.audCommits
    .next s2.audUnmute.audInjected.audPlay
  else .next s

/-- AUD_MUTE_RAMP_END (Table 8.2): 10 ms after the switch began the stop gate closes; with MODE OFF the port stays stopped. -/
def execAudMuteRampEnd (s : State) : Host.Outcome State Fault Refusal :=
  if s.aud.clk = .switching ∧ s.aud.ramping ∧ s.ranOut s.aud.rampAt (10 * msTicks) then
    let s1 := s.audSilence
    if s.get pgAud audMode = 0 then
      .next ({ s1 with aud := { s1.aud with clk := .stopped, ramping := false, switchDue := false } }).audCommits
    else .next { s1 with aud := { s1.aud with ramping := false } }
  else .next s

/-- AUD_NEW_CLOCK_EDGE (R248, R539): the first AWS edge of the new clock: AUD_GAP written, qualification begins, and a commit that waited takes effect. After a stop under R246 the returning clock begins its qualification (R247). -/
def execAudNewClockEdge (gap : Nat) (s : State) : Host.Outcome State Fault Refusal :=
  if s.aud.clk = .switching ∧ !s.aud.ramping then
    let s1 := s.put pgAud audGap (min gap (2 ^ 32 - 1))
    .next ({ s1 with aud := { s1.aud with clk := .qualifying } }).audCommits
  else if s.aud.clk = .stopped ∧ s.aud.fault then .next { s with aud := { s.aud with clk := .qualifying } }
  else .next s

/-- AUD_CLOCK_QUALIFIED (R247): 64 good port frames qualify the clock; PORT_CLK_BACK. -/
def execAudClockQualified (s : State) : Host.Outcome State Fault Refusal :=
  if s.aud.clk = .qualifying ∨ (s.aud.clk = .stopped ∧ s.aud.fault) then
    let s1 := s.raise pgAud evAudPortClkBack
    .next { s1 with aud := { s1.aud with clk := .running, fault := false, glitches := 0 } }
  else .next s

/-- ASRC_LOCK (R242, Table 8.2): an enabled output's converter locks at a ratio and the output ramps up; after a switch SWITCH_DONE. -/
def execAsrcLock (o : OutId) (ratio : Nat) (s : State) : Host.Outcome State Fault Refusal :=
  if s.outEn o ∧ s.aud.clk = .running ∧ !s.flag pgAud (audLock.nth o.val) then
    let s1 := ((s.put pgAud (audLock.nth o.val) 1).unmute o).put pgAud (audRatio.nth o.val) ratio
    if s.aud.switchDue then
      let s2 := s1.raise pgAud evAudSwitchDone
      .next { s2 with aud := { s2.aud with switchDue := false } }
    else .next s1
  else .next s

/-- Whether the port watches an input clock now (R246): MASTER_EXT or SLAVE, and a clock to lose. -/
def State.audWatches (s : State) : Bool :=
  decide (2 ≤ s.get pgAud audMode) && (decide (s.aud.clk = .running) || decide (s.aud.clk = .qualifying))

/-- AUD_CLOCK_STOP (R246, R247, R379): no input edge for four frames; an edge visible at that instant wins, and the race is counted. -/
def execAudClockStop (seen : Bool) (s : State) : Host.Outcome State Fault Refusal :=
  if s.audWatches then (if seen then .next (s.race pgAud) else .next (s.audStop 1)) else .next s

/-- AUD_FRAME_GLITCH (R246): an AWS period of the wrong length is counted, FRAME_ERR at most once per 100 ms; the third in a row is a stop. -/
def execAudFrameGlitch (s : State) : Host.Outcome State Fault Refusal :=
  if s.audWatches then
    let s1 := s.count pgAud audFrameErr 1
    let due := match s.aud.frameErrAt with
      | some t => decide (t + 100 * msTicks ≤ s.time.mono)
      | none => true
    let s2 := if due then { s1.raise pgAud evAudFrameErr with aud := { s1.aud with frameErrAt := some s.time.mono } } else s1
    if 2 ≤ s.aud.glitches then .next (s2.audStop 1)
    else .next { s2 with aud := { s2.aud with glitches := s.aud.glitches + 1 } }
  else .next s

/-- AUD_RATE_WRONG (R246): CLK_WRONG, and the port acts as on a stop. -/
def execAudRateWrong (s : State) : Host.Outcome State Fault Refusal :=
  if s.audWatches then .next ((s.raise pgAud evAudClkWrong).audStop 1) else .next s

/-- AUD_UNDERRUN (R245): the input buffer of an enabled output empties while it plays. -/
def execAudUnderrun (o : OutId) (s : State) : Host.Outcome State Fault Refusal :=
  if s.outEn o ∧ s.flag pgAud (audLock.nth o.val) then .next (s.audUnderrun o 1) else .next s

end Sys2Proof.Machine
end

