-- ==== Sys2Proof/Machine/Calibration.lean ====
section
/-! DEFINITION. Calibration against the reference input (R252 to R270): runs, loads, the set of Table 9.4, the reference check, and the coefficient rebuild they start (R84). -/

namespace Sys2Proof.Machine

/-- A new sieve coefficient set begun for an input (R84). -/
def State.startRebuild (s : State) (i : Inp) : State := s.updInp i (fun x => { x with rebuild := some s.time.epochNo })

/-- A bank of the calibration set as its words. -/
def State.calBankWords (s : State) (bank n : Nat) : List Word := (List.range n).map (fun k => s.reg (calKey bank k))

/-- Writes words of a bank by index. -/
def State.setBank (s : State) (bank : Nat) (ws : List (Nat × Word)) : State :=
  ws.foldl (fun s x => s.setReg (calKey bank x.1) x.2) s

/-- The indices of the section of input n (Table 9.4). -/
def sectionIdx (n : Nat) : List Nat := (List.range 120).map (fun k => 8 + 120 * n + k)

/-- The indices of the PROBE section (Table 9.4). -/
def probeIdx : List Nat := (List.range 8).map (fun k => 488 + k)

/-- Words of one bank copied to another. -/
def State.copyBank (s : State) (src dst : Nat) (idx : List Nat) : State :=
  s.setBank dst (idx.map (fun k => (k, s.reg (calKey src k))))

/-- The CRC word of a bank written (Table 9.4, word 511). -/
def State.sealBank (s : State) (bank : Nat) : State :=
  s.setReg (calKey bank 511) (BitVec.ofNat 32 (crc32 ((s.calBankWords bank 511).flatMap wordBytes)))

/-- The header words of a bank: FORMAT and version, instant, serial number, frequency, VALID and PASS bits, temperature. -/
def State.headBank (s : State) (bank dev freq flags : Nat) (temp : Word) : State :=
  s.setBank bank [(0, 0xCA1B0100), (1, devLo dev), (2, devLo (dev / 2 ^ 32)), (3, s.fuse.serial.setWidth 32), (4, BitVec.ofNat 32 freq),
    (5, BitVec.ofNat 32 flags), (6, temp), (7, 0)]

/-- The input that a measurement point's source is on. -/
def State.pointInput (s : State) (p : Point) : Option Inp :=
  if p.srcKind = 1 then (slcOf p.src).map (fun x => inpOf (s.get (pgSlc x) slcInput))
  else (bedOf p.src).map (fun k => inpOf (s.get (pgBed k) bedInput))

/-- Record flags gathered in the open intervals of the points that meet a test (R311). -/
def State.flagPoints (s : State) (bits : Nat) (p : Point → Bool) : State :=
  { s with smc := { s.smc with points := s.smc.points.map (fun x => if x.state = .integrating ∧ p x then { x with flags := x.flags ||| bits } else x) } }

/-- CHAIN_ALTERED set for the inputs of a mask; an open interval on one of them carries it (R267, R311). -/
def State.alterChain (s : State) (mask : Nat) : State :=
  (s.put pgCal calChainAltered (s.get pgCal calChainAltered ||| mask)).flagPoints 2 (fun x => match s.pointInput x with
    | some i => bitAt mask i.val
    | none => false)

/-- CHAIN_ALTERED cleared for inputs (R267). -/
def State.clearChain (s : State) (mask : Nat) : State := s.put pgCal calChainAltered (s.get pgCal calChainAltered &&& (15 - mask % 16))

/-- A section that takes effect: its words in force, its source, CHAIN_ALTERED, a rebuild, and the tracking of R266 begun afresh. -/
def State.takeSection (s : State) (bank src : Nat) (n : Inp) : State :=
  let s1 := s.copyBank bank 0 (sectionIdx n.val)
  let s2 := s1.put pgCal calSrc (s.get pgCal calSrc - (s.get pgCal calSrc / 4 ^ n.val % 4) * 4 ^ n.val + src * 4 ^ n.val)
  let s3 := { s2 with cal := { s2.cal with trackRun := s2.cal.trackRun.set n 0, advised := s2.cal.advised.set n false } }
  (s3.alterChain (2 ^ n.val)).startRebuild n

/-- The PROBE section that takes effect sets CHAIN_ALTERED of every input (R267). -/
def State.takeProbe (s : State) (bank src : Nat) : State :=
  ((s.copyBank bank 0 probeIdx).put pgCal calSrcProbe src).alterChain 15

/-- The instant of the last effect, and the header of the set in force. -/
def State.sealForce (s : State) (freq : Nat) (temp : Word) : State :=
  let dev := s.time.devtime
  let valid := (List.finRange 4).foldl (fun m (n : Inp) => if s.get pgCal calSrc / 4 ^ n.val % 4 ≠ 0 then m + 2 ^ n.val else m) 0
  let flags := valid + bit (decide (s.get pgCal calSrcProbe ≠ 0)) * 16
  ((s.putPair pgCal calLastLo calLastHi dev).headBank 0 dev freq flags temp).sealBank 0

/-- Factory trims applied (R84, R265, R267). -/
def State.factoryTrims (s : State) : State :=
  let s1 := (((s.put pgCal calSrc 0).put pgCal calSrcProbe 0).alterChain 15)
  { s1 with regs := s1.regs.filter (fun x => !(decide (calKey 0 0 ≤ x.1) && decide (x.1 ≤ calKey 2 511)))
            cal := { s1.cal with run := none, load := false }
            inputs := s1.inputs.map (fun x => { x with rebuild := some s1.time.epochNo }) }

/-- An input put on REFIN or back on its ball. -/
def State.onRefin (s : State) (i : Inp) (on : Bool) : State := s.updInp i (fun x => { x with onRefin := on })

/-- The gain of an input on REFIN set at once, as the engine drives and restores it; decisions wait meanwhile (R257, R268). -/
def State.setGain (s : State) (i : Inp) (code : Nat) : State := s.updInp i (fun x => { x with step := decide (code ≠ x.gain), gain := code })

/-- The engine drives the gains of some inputs, to codes that the manual does not give: free values (R257, log 52). -/
def State.driveGains (s : State) (ins : List Inp) : State :=
  ins.foldl (fun s i => s.draw.2.setGain i ((Config.freeValue s.draw.1).toNat % 85)) s

/-- The hottest sensor that has been read, in 0.01 °C: the junction temperature of a calibration set (DESIGN CHOICE, log 52). -/
def State.junction (s : State) : Option Int :=
  let l := ((List.range 6).filter (fun k => s.flag pgTel (telValid.nth k))).map (fun k => signedOf 16 (s.get pgTel (telTemp.nth k)))
  match l with
  | [] => none
  | a :: l => some (l.foldl max a)

/-- The junction temperature as word 6 of a set carries it, in 0.1 °C; 0 where no sensor has been read. -/
def State.junctionWord (s : State) : Word := BitVec.ofNat 32 (twos 32 (roundDiv (s.junction.getD 0) 10))

/-- The inputs of a mask. -/
def inputsOf (mask : Nat) : List Inp := (List.finRange 4).filter (fun i => bitAt mask i.val)

/-- A frequency that Table 9.1 allows for a run, kHz. -/
def calFreqOk (f : Nat) : Bool :=
  decide (1000 ≤ f) && decide (f ≤ 240000) && decide (1000 ≤ f % 40000) && decide (f % 40000 ≤ 39000)

/-- The status of a commit of the CAL page (R58, R256, R264). -/
def State.calStatus (s : State) : Status :=
  let op := s.stgGet 0 pgCal calOp
  let mask := s.stgGet 0 pgCal calInputs
  if !s.stagedInRange pgCal 0 then .badArg
  else if op = 1 then
    if !calFreqOk (s.stgGet 0 pgCal calFreq) then .badArg
    else if s.stgGet 0 pgCal calProbe = 1 ∧ !s.fuse.variant.sounding then .absentUnit
    else if s.cal.run.isSome ∨ s.cal.load ∨ (inputsOf mask).any (fun i => decide ((s.inputs[i]).conv ≠ .run) || (s.inputs[i]).shownHalf) then .notReady
    else .ok
  else if op = 2 then
    let w0 := s.reg (calKey 1 0)
    if fieldOf w0 31 16 ≠ 0xCA1B ∨ fieldOf w0 15 8 ≠ 1 ∨ (s.reg (calKey 1 3)).toNat ≠ s.fuse.serial.toNat % 2 ^ 32 then .badArg
    else if (s.reg (calKey 1 511)).toNat ≠ crc32 ((s.calBankWords 1 511).flatMap wordBytes) then .badArg
    else .ok
  else .ok

/-- E0 of a run (R257, R259). -/
def State.calStart (s : State) : State :=
  let mask := s.get pgCal calInputs
  let probe := s.get pgCal calProbe = 1
  let onAir := decide (s.snd.state = .rampUp) || decide (s.snd.state = .tx) || decide (s.snd.state = .rampDown)
  let s1 := (inputsOf mask).foldl (fun s i => s.onRefin i true) s
  let r : CalRun := { e0 := s.time.mono, inputs := mask, live := mask, probe := probe, probeWait := probe && onAir, probeAt := s.time.mono + 4 * epochTicks, probeDone := false, probeLive := probe,
                      step := .settle, freq := s.get pgCal calFreq, gains := s.inputs.map (fun x => x.gain), returned := false }
  { (((s1.driveGains (inputsOf mask)).put pgCal calAborted 0).put pgCal calOp 0) with cal := { s1.cal with run := some r } }

/-- An input's part of a run ended at once: back to its ball with the gain before E0, ABORTED (R260). -/
def State.calInputAbort (s : State) (i : Inp) : State :=
  match s.cal.run with
  | some r =>
    if bitAt r.live i.val then
      let s1 := ((s.onRefin i false).setGain i r.gains[i]).put pgCal calAborted (s.get pgCal calAborted ||| 2 ^ i.val)
      { s1 with cal := { s1.cal with run := some { r with live := r.live - 2 ^ i.val } } }
    else s
  | none => s

/-- An input that leaves RUN during a reference check leaves the check: it has its gain again, and no tone to pass with (R268). -/
def State.checkLeave (s : State) (i : Inp) : State :=
  match s.cal.check with
  | some x => if bitAt x.mask i.val ∧ (s.inputs[i]).onRefin then (s.onRefin i false).setGain i x.gains[i] else s
  | none => s

/-- Every remaining step of a run ended (R260). -/
def State.calAbortAll (s : State) : State :=
  match s.cal.run with
  | some r =>
    let s1 := (inputsOf r.live).foldl (fun s i => s.calInputAbort i) s
    { s1.raise pgCal evCalAborted with cal := { s1.cal with run := none } }
  | none => s

/-- A load takes effect (R264): every section whose VALID bit is 1, whatever its PASS bit. -/
def State.calLoadNow (s : State) : State :=
  let flags := (s.reg (calKey 1 5)).toNat
  let s1 := (inputsOf (flags % 16)).foldl (fun s i => s.takeSection 1 2 i) s
  let s2 := if bitAt flags 4 then s1.takeProbe 1 2 else s1
  (s2.sealForce (s.reg (calKey 1 4)).toNat (s.reg (calKey 1 6))).raise pgCal evCalLoadDone

/-- A commit of the CAL page takes effect at its epoch boundary (R257, R260, R264); OP reads 0 once acted on. -/
def State.calApply (s : State) (ws : List (Nat × Word)) : State :=
  let s1 := (s.applyWords ws).bumpSeq pgCal
  let op := s1.get pgCal calOp
  let s2 := s1.put pgCal calOp 0
  match op with
  | 1 => s2.calStart
  | 2 => { s2.calLoadNow with cal := { s2.calLoadNow.cal with load := false } }
  | 3 => s2.calAbortAll
  | _ => s2

/-- The inputs of a run valid on their balls again: the switch back has ended (Table 9.2, epoch 492). -/
def State.calReturn (s : State) (r : CalRun) : State :=
  { (inputsOf r.live).foldl (fun s i => s.onRefin i false) s with cal := { s.cal with run := some { r with returned := true } } }

/-- The sieve epochs from E0 to the end of a step (Table 9.2). -/
def CalStep.ends : CalStep → Nat
  | .settle => 4 | .offsets => 68 | .skew => 260 | .gain => 472 | .align => 488 | .back => 492

/-- The root time at which the PROBE step of a run ends: 32 epochs after it began (Table 9.2). -/
def CalRun.probeEnd (r : CalRun) : Nat := r.probeAt + 32 * epochTicks

/-- The root time at which a run is done: the epoch boundary that follows the end of its last step (R257, R258, Table 9.2). -/
def CalRun.doneAt (r : CalRun) : Nat :=
  let steps := if r.inputs = 0 then 0 else CalStep.back.ends
  let probe := if r.probeLive then (r.probeEnd - r.e0) / epochTicks else 0
  r.e0 + (max steps probe + 1) * epochTicks

/-- CAL_STEP_COMPLETE (R257, Table 9.2): a step of the run has had its full length and the next begins. The engine drives the gains until alignment has ended; then the inputs have the gain before E0 and are switched back, their frames mulch until that has ended. The PROBE step runs beside the others, once no packet is on air. -/
def execCalStepComplete (probe : Bool) (s : State) : Host.Outcome State Fault Refusal :=
  match s.cal.run with
  | none => .next s
  | some r =>
    if probe then
      if r.probeLive ∧ !r.probeDone ∧ !r.probeWait ∧ r.probeEnd ≤ s.time.mono then .next { s with cal := { s.cal with run := some { r with probeDone := true } } }
      else .next s
    else
      let next : CalStep := match r.step with
        | .settle => .offsets | .offsets => .skew | .skew => .gain | .gain => .align | .align => .back | .back => .back
      if (r.inputs = 0 ∧ r.step ≠ .settle) ∨ !s.ranOut r.e0 (r.step.ends * epochTicks) then .next s
      else if r.step = .back then .next (s.calReturn r)
      else
        let s1 := if r.step = .align then (inputsOf r.live).foldl (fun s i => s.setGain i r.gains[i]) s else s.driveGains (inputsOf r.live)
        .next { s1 with cal := { s1.cal with run := some { r with step := next } } }

/-- Whether the section of an input passes: every step within the limits of Table 9.3 (R261). -/
def sectionPasses (x : SectionResult) : Bool :=
  !x.moved && decide (x.fit ≤ 100) && decide (x.offset ≤ 1000) && decide (x.threshold ≤ 20) && decide (x.join ≤ 100) && decide (15 ≤ x.align)

/-- Whether the PROBE section passes (R261, Table 9.3). -/
def probePasses (x : ProbeResult) : Bool := decide (x.level ≤ 500) && decide (x.ramp ≤ 100)

/-- The trims of a section among the words of a result: what Table 9.4 holds at 8 to 116 and 117 of it, the gain error of code 0 being 0. -/
def sectionTrims (n : Nat) (ws : List (Nat × Word)) : List (Nat × Word) :=
  ws.filter (fun x => decide (8 + 120 * n ≤ x.1) && decide (x.1 ≤ 117 + 120 * n) && decide (x.1 ≠ 32 + 120 * n))

/-- The residuals of the section of input n (Table 9.4): fs, 1/16 code, 0.001 dB, trials. PRESUMED (log 52): the offset's residual is in the unit of the offsets. -/
def residualWords (n : Nat) (x : SectionResult) : List (Nat × Word) :=
  [(118 + 120 * n, BitVec.ofNat 32 ((x.fit + 5) / 10)), (119 + 120 * n, BitVec.ofNat 32 ((x.offset + 500) / 1000)),
   (120 + 120 * n, BitVec.ofNat 32 ((x.join + 5) / 10)), (121 + 120 * n, BitVec.ofNat 32 x.align)]

/-- The words of the PROBE section: trim and ramp shape of the result, and its residual in the unit of the trim (PRESUMED, log 52). -/
def probeWords (x : ProbeResult) (words : List (Nat × Word)) : List (Nat × Word) :=
  words.filter (fun y => decide (488 ≤ y.1) && decide (y.1 ≤ 494)) ++ [(495, BitVec.ofNat 32 ((x.level + 50) / 100))]

/-- The results of the sections of a run written to bank 2, failed ones too (R262). -/
def State.storeResults (s : State) (r : CalRun) (inputs : Vector SectionResult 4) (probe : ProbeResult) (words : List (Nat × Word)) : State :=
  let s1 := (inputsOf r.live).foldl (fun s i => s.setBank 2 (sectionTrims i.val (inputs[i]).words ++ residualWords i.val inputs[i])) s
  if r.probeLive then s1.setBank 2 (probeWords probe words) else s1

/-- CAL_RUN_DONE (R257, R258, R261, R262): at the boundary after its last step the passing sections take effect, CAL_DONE, and CAL_FAIL when one failed. -/
def execCalRunDone (inputs : Vector SectionResult 4) (probe : ProbeResult) (words : List (Nat × Word)) (s : State) : Host.Outcome State Fault Refusal :=
  match s.cal.run with
  | none => .next s
  | some r =>
    let temp := s.junctionWord
    if (r.step = .back ∨ (r.inputs = 0 ∧ r.step ≠ .settle)) ∧ (!r.probeLive ∨ r.probeDone) ∧ r.doneAt ≤ s.time.mono then
      let live := inputsOf r.live
      let passed := live.filter (fun i => sectionPasses inputs[i])
      let pmask := passed.foldl (fun m i => m + 2 ^ i.val) 0
      let ppass := r.probeLive && probePasses probe
      let s1 := (s.calReturn r).storeResults r inputs probe words
      let flags := r.live + bit r.probeLive * 16 + pmask * 256 + bit ppass * 4096
      let s2 := (s1.headBank 2 s.time.devtime r.freq flags temp).sealBank 2
      let s3 := passed.foldl (fun s i => s.takeSection 2 1 i) s2
      let s4 := if ppass then s3.takeProbe 2 1 else s3
      let s5 := if passed ≠ [] ∨ ppass then s4.sealForce r.freq temp else s4
      let s6 := ((s5.put pgCal calPass pmask).put pgCal calProbePass (bit ppass)).raise pgCal evCalDone
      let failed := decide (pmask ≠ r.live) || (r.probeLive && !probePasses probe)
      let s7 := if failed then s6.raise pgCal evCalFail else s6
      .next { s7 with cal := { s7.cal with run := none } }
    else .next s

/-- The junction temperature against word 6 of the set in force, in 0.01 °C; 0 while no sensor has been read. -/
def State.tempDelta (s : State) : Int :=
  match s.junction with
  | some t => t - 10 * signedOf 32 (s.reg (calKey 0 6)).toNat
  | none => 0

/-- Gain tracking of one input at an epoch (R266, Table 9.6): the shown figures, TEMP_DELTA held to its width, and RECAL_ADVISED once a criterion has held for 1,024 epochs. -/
def State.gainTrack (s : State) (i : Inp) (m : EpochMeas) : State :=
  let f := fun (x : Fld) => x.nth i.val
  let shown := twos 8 (clampInt (roundDiv s.tempDelta 100) (-128) 127)
  let s1 := s.puts pgCal [(f calImage, m.image), (f calSpur, m.spur), (f calStepRes, m.stepRes), (f calTempDelta, shown)]
  let res := signedOf 8 (m.stepRes % 256)
  let met := decide (m.image < 160) || decide (m.spur < 170) || decide (5 < res) || decide (res < -5) || decide (3000 < s.tempDelta.natAbs)
  let run := if met then min (s.cal.trackRun[i] + 1) 1024 else 0
  let s2 := { s1 with cal := { s1.cal with trackRun := s1.cal.trackRun.set i run } }
  if run = 1024 ∧ !s.cal.advised[i] then
    { s2.raise pgCal evCalRecalAdvised with cal := { s2.cal with advised := s2.cal.advised.set i true } }
  else s2

/-- An input that stands still or is on REFIN meets no criterion of Table 9.6 in the epoch: its consecutive epochs begin anew (R266). -/
def State.gainTrackStops (s : State) (i : Inp) : State := { s with cal := { s.cal with trackRun := s.cal.trackRun.set i 0 } }

/-- Whether a tenant owns a measurement point on an input (R268). -/
def State.ownsPointOn (s : State) (owner : Nat) (i : Inp) : Bool :=
  s.smc.points.toList.any (fun p => decide (p.owner = owner) && decide (p.state ≠ .free) && decide (s.pointInput p = some i))

/-- REF_CHECK (R268): the named inputs go on REFIN at GAIN_CODE 40; the answer waits for the check's end. -/
def execRefCheck (q : CQueue) (mask : Nat) (s : State) : Host.Outcome State Fault Refusal :=
  if q.val = 2 then .next s
  else .next (s.serve q unassignedOps (fun c s =>
    let ins := inputsOf mask
    let allowed := match c.role with
      | .site => decide (q.val = 0)
      | .tenant n => decide (q.val = 1) && ins.all (fun i => s.ownsPointOn (0x21 + n.val) i)
      | _ => false
    if !s.fuse.variant.cloche then (s, some (.st .absentUnit))
    else if 16 ≤ mask ∨ mask = 0 then (s, some (.st .badArg))
    else if !allowed then (s, some (.st .accessDenied))
    else if s.cal.run.isSome ∨ s.cal.load ∨ s.cal.check.isSome then (s, some (.st .resourceBusy))
    else if ins.any (fun i => decide ((s.inputs[i]).conv ≠ .run) || (match s.cal.checkedAt[i] with
        | some t => decide (s.time.mono < t + 60 * secTicks)
        | none => false)) then (s, some (.st .notReady))
    else
      let s1 := ins.foldl (fun s i => (s.onRefin i true).setGain i 40) s
      ({ s1 with cal := { s1.cal with check := some ⟨mask, s.time.mono, c, s.inputs.map (fun x => x.gain)⟩, checkedAt := ins.foldl (fun v (i : Inp) => v.set i (some s.time.mono)) s1.cal.checkedAt } }, none)))

/-- A completed coefficient set swapped in: COEF_GEN counts, COEF_SWAP (R84). -/
def State.swapCoefs (s : State) (i : Inp) : State :=
  ((s.updInp i (fun x => { x with rebuild := none })).put pgSieve sieveCoefGen ((s.get pgSieve sieveCoefGen + 1) % 256)).raise pgSieve evSieveCoefSwap

/-- At an epoch boundary the sets whose building began two epochs ago are swapped in at the latest (R84). -/
def State.coefsDue (s : State) : State :=
  (List.finRange 4).foldl (fun s i => match (s.inputs[i]).rebuild with
    | some e => if e + 2 ≤ s.time.epochNo then s.swapCoefs i else s
    | none => s) s

/-- COEF_SWAP (R84): the set is complete, and the epoch boundary after its building began is the present instant: it comes into force. -/
def execCoefSwap (i : Inp) (s : State) : Host.Outcome State Fault Refusal :=
  match (s.inputs[i]).rebuild with
  | some e => if e < s.time.epochNo ∧ s.time.goneEpoch = some s.time.grid then .next (s.swapCoefs i) else .next s
  | none => .next s

end Sys2Proof.Machine
end

