-- ==== Sys2Proof/Machine/Sounding.lean ====
section
/-! DEFINITION. The sounding link (R271 to R297): requests and the regulatory profile, the transmitter of Table 10.3, the receiver. -/

namespace Sys2Proof.Machine

/-! ### Requests -/

/-- The spreading factor of an SF code (Table 10.1). -/
def sfOf (code : Nat) : Nat := 32 * 2 ^ code

/-- The symbols of a packet of LEN payload bytes (R281). -/
def symbols (len : Nat) : Nat := if len = 0 then 112 else 112 + 4 * (len + 4)

/-- The airtime of a packet in µs (R281). -/
def airtime (sf len : Nat) : Nat := symbols len * sfOf sf * 8 + 32

/-- Whether LEN suits TYPE (Table 10.2). -/
def lenSuits (type len : Nat) : Bool :=
  match type with
  | 0 => len = 0
  | 1 => len = 16
  | 2 => decide (1 ≤ len) && decide (len ≤ 64)
  | _ => false

/-- The request that the transmit fields describe now (R282: latched at acceptance). -/
def State.txFields (s : State) : TxReq :=
  let g := fun (f : Fld) => s.get pgSnd f
  let data := (List.range 16).flatMap (fun i => bytesBE 4 (g (sndTxData.nth i)))
  { freq := g sndTxFreq, halfbw := g sndHalfbw, level := g sndLevel, sf := g sndSf, type := g sndType, len := g sndLen, bcast := g sndBcast = 1,
    dst := g sndDst, prio := g sndPrio = 1, data := data.take (g sndLen), g := 0, upAt := 0, downAt := 0, outcome := none }

/-- The next 65,536-tick instant at or after a DEVTIME (R279). -/
def chipInstant (d : Nat) : Nat := multAtOrAfter 65536 d

/-- The planned first chip of a request accepted now (R288): the first 65,536-tick instant after CX_LEAD or the warm-up and the ramp. -/
def State.plannedChip (s : State) : Nat :=
  let warm := if s.snd.state = .off then 200 else 0
  chipInstant (s.time.devtime + (max (s.get pgSnd sndCxLead) warm + 16) * usTicks)

/-- Whether a request lies inside the regulatory profile: its span in one window, its level, its airtime with what the 60 s before the planned first chip have spent (R284). -/
def State.inProfile (s : State) (r : TxReq) : Bool :=
  let n := s.get pgSnd sndWindows
  (List.range n).any (fun w => decide (s.get pgSnd (sndLo.nth w) + r.halfbw ≤ r.freq) && decide (r.freq + r.halfbw ≤ s.get pgSnd (sndHi.nth w))) &&
  decide (r.level ≤ s.get pgSnd sndMaxLevel) &&
  decide (s.airSpentAt (s.time.mono + (s.plannedChip - s.time.devtime)) + airtime r.sf r.len ≤ s.get pgSnd sndMaxDuty * 60000)

/-- Whether a condition of R283 defers requests: the synthesiser not locked and qualified, holdover, a calibration run between E0 and CAL_DONE. -/
def State.txDeferred (s : State) : Bool :=
  decide (s.clk.state ≠ .locked) || s.cal.run.isSome

/-- The first status of R282 that refuses a request at once, if any. -/
def State.txRefused (s : State) (r : TxReq) : Option Status :=
  if 5 < r.sf ∨ r.freq < 1000 ∨ 240000 < r.freq ∨ r.halfbw = 0 ∨ 250 < r.halfbw ∨ 500 < r.level ∨ !lenSuits r.type r.len then some .badArg
  else if s.snd.deferred.isSome ∨ s.snd.req.isSome ∨ s.snd.state = .waitGrant ∨ s.snd.state = .rampUp ∨ s.snd.state = .tx ∨ s.snd.state = .rampDown then
    some .resourceBusy
  else if s.snd.maskLock ∨ s.get pgSnd sndReturn = 2 ∨ s.pwr.rung ≠ 0 ∨ s.ring.pos.isNone then some .txNotReady
  else if !s.inProfile r then some .rejectedLimit
  else none

/-- A request accepted (R287, R288): G planned, CX_REQ and CX_PRI asserted with CX_EN, the DAC powered from OFF. -/
def State.txAccept (s : State) (r : TxReq) : State :=
  let g := s.plannedChip
  let cx := s.flag pgSnd sndCxEn
  let back := if r.bcast then 0 else ((s.snd.lastRx.find? (fun x => x.1 = r.dst)).map (·.2)).getD 0
  let data := if r.type = 1 then bytesBE 8 g ++ bytesBE 8 back else r.data
  { s with snd := { s.snd with state := if s.snd.state = .off then .warm else s.snd.state, req := some { r with g := g, data := data }, deferred := none,
                               cxReq := cx, cxPri := cx && r.prio } }

/-- A request made by a commit with GO = 1 (R282, R283): refused, deferred with its answer withheld, or accepted. -/
def State.txRequest (s : State) (c : Caller) : State × Option Reply :=
  let r := s.txFields
  match s.txRefused r with
  | some st => (s, some (.st st))
  | none =>
    if s.txDeferred then ({ s with snd := { s.snd with deferred := some (r, c), waitAt := s.time.mono } }, none)
    else (s.txAccept r, some (.st .ok))

/-- The address whose write commits the SND page. -/
def sndCommitAddr : Nat := pgSnd * 0x400 + 0x02C

/-- TX_DEFER_CLEAR (R283): the condition has cleared in time and the request is accepted. DEDUCED (log 53): only in RUN, which R282 asks of a request. -/
def execTxDeferClear (s : State) : Host.Outcome State Fault Refusal :=
  match s.snd.deferred with
  | some (r, c) => if s.txDeferred ∨ s.pwr.rung ≠ 0 then .next s else .next ((s.txAccept r).answer c sndCommitAddr (.st .ok))
  | none => .next s

/-- TX_DEFER_TIMEOUT (R283, R379): TX_DEFER_MAX ms after the deferral it expires; a clearing visible at that instant wins and the race is counted. -/
def execTxDeferTimeout (seen : Bool) (s : State) : Host.Outcome State Fault Refusal :=
  match s.snd.deferred with
  | some (r, c) =>
    if !s.ranOut s.snd.waitAt (s.get pgSnd sndTxDeferMax * msTicks) then .next s
    else if (seen ∨ !s.txDeferred) ∧ s.pwr.rung = 0 then .next (((s.race pgSnd).txAccept r).answer c sndCommitAddr (.st .ok))
    else
      let s1 := { s with snd := { s.snd with deferred := none } }
      .next ((s1.setLast pgSnd 0 .txNotReady).answer c sndCommitAddr (.st .txNotReady))
  | none => .next s

/-! ### The regulatory profile (R286, Table 10.7) -/

/-- The profile that staged values give: windows, MAX_LEVEL, MAX_DUTY. -/
structure Profile where
  windows : List (Nat × Nat)
  maxLevel : Nat
  maxDuty : Nat
deriving DecidableEq, Repr

/-- The profile that a reading of the SND fields gives. -/
def profileOf (g : Fld → Nat) : Profile :=
  ⟨(List.range (min 16 (g sndWindows))).map (fun w => (g (sndLo.nth w), g (sndHi.nth w))), g sndMaxLevel, g sndMaxDuty⟩

/-- Whether a profile only tightens another: each window inside one window, no higher level or duty (R286). -/
def Profile.tightens (p old : Profile) : Bool :=
  p.windows.all (fun w => old.windows.any (fun o => decide (o.1 ≤ w.1) && decide (w.2 ≤ o.2))) && decide (p.maxLevel ≤ old.maxLevel) &&
  decide (p.maxDuty ≤ old.maxDuty)

/-- Whether a commit of the SND page would change the profile. -/
def State.profileStaged (s : State) : Bool :=
  (s.stagedOf pgSnd 0).any (fun x => decide (0x0C0 ≤ x.1 % 0x400) && decide (x.1 % 0x400 < 0x148))

/-- The first key of the profile registers, and the first key after them. -/
def profileLo : Nat := pgSnd * 0x400 + 0x0C0

/-- The bytes of the profile as it is kept in the Loam store (Table 18.3, TYPE 0x30): the registers 0x0C0 to 0x144 and zeros to 264 bytes. -/
def State.profileBytes (s : State) : List Byte :=
  ((List.range 34).flatMap (fun i => wordBytes (s.reg (profileLo + 4 * i)))) ++ List.replicate 128 0

/-! ### The sounding slice (R290) -/

/-- The status of a designation staged at a commit of the SND page (R290, R16): a slice of Site's share whose USE is 0. -/
def State.desigStatus (s : State) : Status :=
  let want := s.stgGet 0 pgSnd sndDesig = 1
  let slice := slcOf (s.stgGet 0 pgSnd sndSlice)
  if !want then .ok
  else match slice with
    | none => .badArg
    | some i =>
      if s.snd.desig = some i then .ok
      else if s.sliceOwner i ≠ 0x10 then .accessDenied
      else if (s.slices[i]).use ≠ .idle ∨ (s.slices[i]).move ≠ .none then .resourceBusy
      else .ok

/-- What a commit of the SND page that keeps the sounding slice does: a new input or RX_FREQ retunes it at the next slice-block boundary (R85, R290). -/
def State.desigRetune (old s : State) : State :=
  match s.snd.desig with
  | some i =>
    let plan := fun (x : State) => (x.get pgSnd sndInput, x.get pgSnd sndRxFreq)
    if plan old = plan s then s else s.updSlc i (fun x => { x with move := .claimSound })
  | none => s

/-- A designation, or its removal, takes effect: the claim or release of the slice waits for its slice-block boundary (R85, R290). -/
def State.desigApply (old s : State) : State :=
  let want := if s.get pgSnd sndDesig = 1 then slcOf (s.get pgSnd sndSlice) else none
  if want = s.snd.desig then State.desigRetune old s
  else
    let s1 := match s.snd.desig with
      | some i => s.updSlc i (fun x => { x with move := .release })
      | none => s
    let s2 := match want with
      | some i => s1.updSlc i (fun x => { x with move := .claimSound })
      | none => s1
    { s2 with snd := { s2.snd with desig := want, rx := .search, held := none } }

/-- Whether a commit of the SND page stages a request (GO). -/
def State.goStaged (s : State) : Bool := s.stgGet 0 pgSnd sndGo = 1

/-- The status of a commit of the SND page, the request apart (R286, R290, R297). -/
def State.sndStatus (s : State) : Status :=
  if !s.stagedInRange pgSnd 0 then .badArg
  else if s.profileStaged ∧ !(profileOf (fun f => s.stgGet 0 pgSnd f)).tightens (profileOf (fun f => s.get pgSnd f)) then .accessDenied
  else s.desigStatus

/-! ### The transmitter (R287 to R289, Table 10.3) -/

/-- The idle state that SND_RETURN names. -/
def State.txIdle (s : State) : TxState := if s.get pgSnd sndReturn = 1 then .warm else .off

/-- Whether the grant is held at a level of the CX_GNT ball: active high, inverted by CX_GNT_POL, and taken as held with CX_EN = 0 (R287). -/
def State.grant (s : State) (level : Bool) : Bool := !s.flag pgSnd sndCxEn || (level != s.flag pgSnd sndCxGntPol)

/-- A shaping set copied for the packet that starts (R273). -/
def airKey (idx : Nat) : Nat := 0x710400 + idx * 4

/-- The taps latched for the packet (R273). -/
def State.latchTaps (s : State) : State := (List.range 64).foldl (fun s i => s.setReg (airKey i) (s.reg (firKey i))) s

/-- The balls that show TX_ACTIVE follow the ramps (Table 21.4). -/
def State.txActive (s : State) (on : Bool) : State :=
  { s with mfp := s.mfp.map (fun m => if m.func = 2 then { m with high := on } else m) }

/-- The payload of a packet whose first chip is at G: in TIME the instant comes first (R280). -/
def TxReq.payload (r : TxReq) : List Byte := if r.type = 1 then bytesBE 8 r.g ++ r.data.drop 8 else r.data

/-- RAMP_UP begins for the packet of request r, 16 µs before G. -/
def State.rampUp (s : State) (r : TxReq) : State :=
  let s1 := (s.latchTaps).txActive true
  { s1 with snd := { s1.snd with state := .rampUp, req := some { r with data := r.payload, upAt := s.time.mono + (r.g - (s.time.devtime + 16 * usTicks)) } } }

/-- The level of CX_GNT as sampled. -/
def State.sampleGnt (s : State) (level : Bool) : State := { s with snd := { s.snd with gnt := level } }

/-- CX_GNT sampled with the grant held, or dropped (R287). -/
def State.sampleHeld (s : State) (held : Bool) : State := s.sampleGnt (held != s.flag pgSnd sndCxGntPol)

/-- TX_RAMP_UP_START (R288, R289): at G − 16 µs RAMP_UP starts, or WAIT_GRANT when the grant is not held. -/
def execTxRampUpStart (gnt : Bool) (s : State) : Host.Outcome State Fault Refusal :=
  match s.snd.req with
  | some r =>
    if s.snd.state = .warm ∧ r.g ≤ s.time.devtime + 16 * usTicks then
      let s1 := s.sampleGnt gnt
      if s.grant gnt then .next (s1.rampUp r) else .next { s1 with snd := { s1.snd with state := .waitGrant, waitAt := s.time.mono } }
    else .next s
  | none => .next s

/-- The first 65,536-tick instant whose ramp begins within the sieve frame that ends now or later. -/
def State.rampChip (s : State) : Nat := chipInstant (s.time.devtime + 16 * usTicks - 127)

/-- GRANT_HELD (R289): the grant is held at a 65,536-tick instant minus 16 µs, told to the frame; G becomes that instant. -/
def execGrantHeld (s : State) : Host.Outcome State Fault Refusal :=
  match s.snd.req with
  | some r =>
    if s.snd.state = .waitGrant ∧ s.rampChip ≤ s.time.devtime + 16 * usTicks then .next ((s.sampleHeld true).rampUp { r with g := s.rampChip }) else .next s
  | none => .next s

/-- The transmit report of a packet (Table 10.4). -/
def txReport (r : TxReq) (o : TxOutcome) (own air : Nat) : Quad :=
  let hdr := own * 2 ^ 25 + bit r.bcast * 2 ^ 24 + r.dst * 2 ^ 18 + r.type * 2 ^ 16 + r.len * 2 ^ 9 + r.level
  quadPack [(127, 120, 0x41), (119, 116, o.code), (115, 113, r.sf), (111, 81, hdr), (79, 64, min (air / 16) 65535),
    (63, 0, if o = .grantTimeout then 0 else r.g)]

/-- Whether a definition is a SOUNDING stream. -/
def soundingStream (d : StrmDef) : Bool := d.kind = 10

/-- A packet's end: state, outcome, CX_REQ and CX_PRI released, the report, TX_DONE (R287, R289, R295). -/
def State.txEnd (s : State) (r : TxReq) (o : TxOutcome) (st : TxState) (air : Nat) : State :=
  let s1 := { s with snd := { s.snd with state := st, req := none, outcome := o, cxReq := false, cxPri := false,
                                         spent := if air = 0 then s.snd.spent else s.snd.spent ++ [(r.upAt, air)] } }
  let s2 := if o = .sent then s1.count pgSnd sndTxCnt 1 else s1
  ((s2.txActive false).emitReport soundingStream s.time.mono Cond.none 0 [txReport r o (s.ring.pos.getD 1 - 1) air]).raise pgSnd evSndTxDone

/-- GRANT_WAIT_EXPIRY (R289, R379): after GRANT_WAIT ms the packet ends GRANT_TIMEOUT with no airtime; a grant visible at that instant wins and the race is counted. -/
def execGrantWaitExpiry (seen : Bool) (s : State) : Host.Outcome State Fault Refusal :=
  match s.snd.req with
  | some r =>
    if s.snd.state = .waitGrant ∧ s.ranOut s.snd.waitAt (s.get pgSnd sndGrantWait * msTicks) then
      if seen then .next (((s.race pgSnd).sampleHeld true).rampUp { r with g := chipInstant (s.time.devtime + 16 * usTicks) })
      else .next (s.txEnd r .grantTimeout s.txIdle 0)
    else .next s
  | none => .next s

/-- RAMP_UP_END (R279, R289): 16 µs of ramp are over: the first chip at G. -/
def execRampUpEnd (s : State) : Host.Outcome State Fault Refusal :=
  match s.snd.req with
  | some r => if s.snd.state = .rampUp ∧ s.ranOut r.upAt (16 * usTicks) then .next { s with snd := { s.snd with state := .tx } } else .next s
  | none => .next s

/-- RAMP_DOWN begins with an outcome. -/
def State.rampDown (s : State) (r : TxReq) (o : TxOutcome) : State :=
  { s with snd := { s.snd with state := .rampDown, req := some { r with outcome := some o, downAt := s.time.mono } } }

/-- TX_LAST_CHIP (R281, R289): the airtime but its last ramp is over: outcome SENT. -/
def execTxLastChip (s : State) : Host.Outcome State Fault Refusal :=
  match s.snd.req with
  | some r => if s.snd.state = .tx ∧ s.ranOut r.upAt ((airtime r.sf r.len - 16) * usTicks) then .next (s.rampDown r .sent) else .next s
  | none => .next s

/-- GRANT_DROP (R287, R289, R379): CX_GNT drops during RAMP_UP or TX: GRANT_LOST; at the last chip a last chip that is visible wins and the race is counted. -/
def execGrantDrop (seen : Bool) (s : State) : Host.Outcome State Fault Refusal :=
  match s.snd.req with
  | some r =>
    let s1 := s.sampleHeld false
    if s.flag pgSnd sndCxEn ∧ (s.snd.state = .rampUp ∨ s.snd.state = .tx) then
      if seen ∧ s.snd.state = .tx then .next ((s1.race pgSnd).rampDown r .sent) else .next (s1.rampDown r .grantLost)
    else .next s1
  | none => .next (s.sampleHeld false)

/-- The breakpoints of the mask in force, by offset in Hz and limit in 0.01 dBc (Table 10.7). -/
def State.maskPoints (s : State) : List (Nat × Int) :=
  ((List.range 16).filter (fun m => s.get pgSnd (sndUsed.nth m) = 1)).map (fun m => (1000 * s.get pgSnd (sndOfs.nth m), -50 * (s.get pgSnd (sndLimit.nth m) : Int)))

/-- Whether a level at an offset exceeds a mask: linear in dB between breakpoints, the last limit out to ±1 MHz. DESIGN CHOICE (log 53): inside the first breakpoint there is no limit. -/
def overMask : List (Nat × Int) → Nat → Int → Bool
  | [], _, _ => false
  | [(_, l)], f, v => decide (f ≤ 1000000) && decide (l < v)
  | (a, la) :: (b, lb) :: rest, f, v =>
    if f < a then false
    else if f < b then decide (la * ((b : Int) - a) + (lb - la) * ((f : Int) - a) < v * ((b : Int) - a))
    else overMask ((b, lb) :: rest) f v

/-- Whether a bin lies over the mask in two consecutive windows (R275). -/
def State.maskOver (s : State) (x : MaskBin) : Bool :=
  match s.maskPoints with
  | [] => false
  | (a, la) :: l => decide (a ≤ x.offset) && overMask ((a, la) :: l) x.offset x.first && overMask ((a, la) :: l) x.offset x.second

/-- MASK_VIOLATION (R274, R275, Table 19.1): a bin over the mask in two consecutive windows, or an injection at the next window: MASK_ABORT, MASK_LOCK, TX_MASK. -/
def execMaskViolation (s : State) (bins : List MaskBin := []) : Host.Outcome State Fault Refusal :=
  match s.snd.req with
  | some r =>
    if s.snd.state = .rampUp ∨ s.snd.state = .tx then
      let (src, s1) := s.evaluate pgSnd 1 (bins.any (fun x => s.maskOver x))
      if src = 0 then .next s1 else
      let s2 := s1.finding pgSnd 1 pgSnd evSndTxMask 0x10 src 0
      .next ({ s2 with snd := { s2.snd with maskLock := true } }.rampDown r .maskAbort)
    else .next s
  | none => .next s

/-- The PROBE step of a calibration run that waited for the packet may start (R259). -/
def State.probeMayStart (s : State) : State :=
  match s.cal.run with
  | some r => if r.probeWait then { s with cal := { s.cal with run := some { r with probeWait := false, probeAt := max s.time.mono (r.e0 + 4 * epochTicks) } } } else s
  | none => s

/-- The airtime of a packet from RAMP_UP to now, in whole µs (R285). -/
def State.airSince (s : State) (r : TxReq) : Nat := (s.time.mono - r.upAt) / usTicks

/-- RAMP_DOWN_END (R285, R287, R289): 16 µs of ramp are over and the packet ends; its airtime is that of R281 when it was sent whole, and what has passed from RAMP_UP to this instant otherwise. -/
def execRampDownEnd (_u : Unit) (s : State) : Host.Outcome State Fault Refusal :=
  match s.snd.req with
  | some r =>
    if s.snd.state = .rampDown ∧ s.ranOut r.downAt (16 * usTicks) then
      let o := r.outcome.getD .sent
      .next ((s.txEnd r o s.txIdle (if o = .sent then airtime r.sf r.len else s.airSince r)).probeMayStart)
    else .next s
  | none => .next s

/-- The transmitter ends without a ramp: lock lost, HOLD_MAX expiry, clockless safe, a rung below RUN, or DAC underflow (R289, Table 16.1): CLOCK_ABORT for a packet under way or waiting, the state OFF. -/
def State.txClockAbort (s : State) : State :=
  match s.snd.req with
  | some r =>
    if s.snd.state = .off then s
    else
      let on := decide (s.snd.state = .rampUp) || decide (s.snd.state = .tx) || decide (s.snd.state = .rampDown)
      (s.txEnd r .clockAbort .off (if on then s.airSince r else 0)).probeMayStart
  | none => { s with snd := { s.snd with state := .off, cxReq := false, cxPri := false } }

/-- DAC_FIFO_UNDERFLOW (R425, Table 19.1): the DAC FIFO runs empty during a transmission: PROBE to common mode, the packet ends CLOCK_ABORT. -/
def execDacFifoUnderflow (s : State) : Host.Outcome State Fault Refusal :=
  if s.snd.state = .tx then
    let (src, s1) := s.evaluate pgSnd 2 true
    .next (s1.txClockAbort.logFinding (eventWord pgSnd evSndTxDone false) pgSnd 2 src 0)
  else .next s

/-- SND_RETURN written: WARM powers the DAC, OFF and RX_ONLY power it down when no request is pending (Table 10.3). -/
def State.returnWritten (s : State) : State :=
  let ret := s.get pgSnd sndReturn
  if ret = 1 ∧ s.snd.state = .off ∧ s.pwr.rung = 0 then { s with snd := { s.snd with state := .warm } }
  else if ret ≠ 1 ∧ s.snd.state = .warm ∧ s.snd.req.isNone ∧ s.snd.deferred.isNone then { s with snd := { s.snd with state := .off } }
  else s

/-- MASK_CLEAR written (R275). -/
def State.clearMask (s : State) : State := { s with snd := { s.snd with maskLock := false } }

/-! ### The receiver (R291 to R295) -/

/-- The SF field of a searcher. -/
def searcherSf : Fin 4 → Fld
  | 0 => sndSf0 | 1 => sndSf1 | 2 => sndSf2 | 3 => sndSf3

/-- Whether the searchers run: RX_EN, and the sounding slice in use. -/
def State.rxRuns (s : State) : Bool :=
  s.flag pgSnd sndRxEn && (match s.snd.desig with
    | some i => decide ((s.slices[i]).use = .sounding)
    | none => false)

/-- Whether the sounding slice yields valid blocks for the searchers (R76, R293). -/
def State.rxHears (s : State) : Bool :=
  s.rxRuns && (match s.snd.desig with
    | some i => decide ((s.slices[i]).settleLeft = 0) && !(s.slices[i]).down && s.inputLive (inpOf (s.get (pgSlc i) slcInput))
    | none => false)

/-- The input of the sounding slice. -/
def State.rxInput (s : State) : Option Inp := s.snd.desig.map (fun i => inpOf (s.get (pgSlc i) slcInput))

/-- Whether a slice block that fed a packet from some ticks ago until now was tagged overrange (R293). -/
def State.rxTagged (s : State) (ago : Nat) : Bool :=
  match s.rxInput with
  | some n => s.blocksTagged n (s.time.mono - ago) s.time.mono
  | none => false

/-- A receive report on the SOUNDING streams, of the root time at which its packet began (R13, R220). -/
def State.rxEmit (s : State) (from_ : Nat) (words : List Quad) : State :=
  s.emitReport soundingStream from_ (s.condIn s.rxInput from_ s.time.mono) 0 words

/-- Word 0 and word 1 of a receive report (Table 10.4). -/
def rxReport (status : Nat) (h : RxHeld) (m : RxMeas) (gain : Int) (ovr : Bool) (arrival : Nat) : List Quad :=
  let hd := h.hdr.getD 0
  [quadPack [(127, 120, 0x40), (119, 116, status), (115, 113, h.sf), (112, 112, bit h.captured), (111, 81, hd / 2 ^ 17), (80, 80, bit ovr),
     (79, 72, m.lq), (71, 64, min m.evm 255), (63, 32, hd % 65536 * 65536), (31, 16, twos 16 m.rssi), (15, 0, if h.hdr.isSome then twos 16 gain else 0)],
   quadPack [(127, 64, arrival), (63, 48, twos 16 m.cfo)]]

/-- A report of a packet that ended early: nothing measured beyond its power. -/
def rxNothing (p : Int) : RxMeas := ⟨[], 0, 0, 0, p, 0, 0⟩

/-- The report of a held packet that ends early (Table 10.4), its ARRIVAL that of its detection. -/
def State.rxEarly (s : State) (status : Nat) (h : RxHeld) : State :=
  s.rxEmit h.from_ (rxReport status h (rxNothing h.power) 0 (s.rxTagged (s.time.mono - h.from_)) (s.time.devAt h.from_))

/-- PREAMBLE_DETECT (R290 to R293): the receiver takes a packet whose centre lies within 2 kHz of RX_FREQ, at the distance measured; one that comes while another is held captures the receiver when the held header has not passed, or when it is stronger by CAPT_MARGIN: the held packet is ABANDONED. -/
def execPreambleDetect (searcher : Fin 4) (m : Preamble) (s : State) : Host.Outcome State Fault Refusal :=
  if s.rxHears ∧ m.cfo.natAbs ≤ 2000 then
    let sf := s.get pgSnd (searcherSf searcher)
    match s.snd.held with
    | none => .next { s with snd := { s.snd with rx := .delimiter, held := some ⟨s.time.mono, sf, m.power, false, none⟩ } }
    | some h =>
      let margin := decide (h.power + (s.get pgSnd sndCaptMargin : Int) * 50 ≤ m.power)
      if h.hdr.isNone ∨ margin then
        let s1 := (s.count pgSnd sndRxAbandon 1).rxEarly 3 h
        let s2 := s1.raise pgSnd evSndRxAbandoned
        .next { s2 with snd := { s2.snd with rx := .delimiter, held := some ⟨s.time.mono, sf, m.power, true, none⟩ } }
      else .next s
  else .next s

/-- RX_HEADER (R277, R292): the header's CRC-16 is checked; a failure is counted, reported when REPORT_BAD asks for it, and returns the receiver to search at once. -/
def execRxHeader (hdr crc : Nat) (s : State) : Host.Outcome State Fault Refusal :=
  match s.snd.held with
  | some h =>
    if s.rxRuns ∧ s.snd.rx ≠ .search ∧ h.hdr.isNone then
      if crcBytes 16 0x1021 0xFFFF (bytesBE 6 hdr) = crc then
        let len := hdr / 2 ^ 26 % 128
        .next { s with snd := { s.snd with rx := if len = 0 then .header else .payload, held := some { h with hdr := some (hdr % 2 ^ 48) } } }
      else
        let s1 := s.count pgSnd sndRxBad 1
        let s2 := if s.flag pgSnd sndReportBad then s1.rxEarly 1 h else s1
        .next { s2 with snd := { s2.snd with rx := .search, held := none } }
    else .next s
  | none => .next s

/-- The correlator result of a PROBE packet at the cloche's tap kept (R294, R308). -/
def State.tapCorr (s : State) (hdr : Nat) (gain : Int) : State :=
  match s.snd.desig with
  | some i =>
    if hdr / 2 ^ 33 % 4 = 0 then
      let inp := inpOf (s.get (pgSlc i) slcInput)
      let pos := hdr / 2 ^ 42
      let c : Corr := ⟨inp, pos, gain, s.get pgSnd sndRxFreq, s.time.mono⟩
      { s with smc := { s.smc with corr := s.smc.corr.filter (fun x => !(x.input = inp && x.pos = pos)) ++ [c] } }
    else s
  | none => s

/-- RX_PACKET_END (R277, R278, R293 to R295): the report of a packet whose header passed, OK or PAYLOAD_BAD by its CRC-32. -/
def execRxPacketEnd (m : RxMeas) (s : State) : Host.Outcome State Fault Refusal :=
  match s.snd.held with
  | some h =>
    match h.hdr with
    | some hd =>
      if s.rxRuns then
        let len := hd / 2 ^ 26 % 128
        let ok := decide (len = 0) || decide (crc32 (m.payload.take len) = m.crc)
        let gain := m.rssi - (-9000 + 10 * (hd / 2 ^ 17 % 512 : Nat))
        let arrival := s.time.devAgo m.ago
        let words := rxReport (if ok then 0 else 2) h m gain (s.rxTagged m.ago) arrival ++ (if ok ∧ 0 < len then packBytes (m.payload.take len) else [])
        let s1 := s.rxEmit (s.time.mono - m.ago) words
        let s2 := if ok then (s1.count pgSnd sndRxOk 1).raise pgSnd evSndRxPacket else s1.count pgSnd sndRxBad 1
        let pos := hd / 2 ^ 42
        let s3 := if ok then ({ s2 with snd := { s2.snd with lastRx := s2.snd.lastRx.filter (fun (x : Nat × Nat) => x.1 ≠ pos) ++ [(pos, arrival)] } }).tapCorr hd gain
          else s2
        .next { s3 with snd := { s3.snd with rx := .search, held := none } }
      else .next s
    | none => .next s
  | none => .next s

/-- RX_INTERRUPTED (R293): mulch on the sounding slice ends the packet. -/
def execRxInterrupted (s : State) : Host.Outcome State Fault Refusal :=
  match s.snd.held with
  | some h =>
    let s1 := (s.count pgSnd sndRxAbandon 1).rxEarly 4 h
    .next { s1 with snd := { s1.snd with rx := .search, held := none } }
  | none => .next s

end Sys2Proof.Machine
end

