-- ==== Sys2Proof/Machine/Snapshot.lean ====
section
/-! DEFINITION. Snapshot capture (R86 to R90, Table 3.4): commits of the ALN page, triggers, the frames stored, the end of a capture, readout. -/

namespace Sys2Proof.Machine

/-- A channel back in IDLE: memory released, ARM reads 0. -/
def State.snapIdle (s : State) (c : SnapCh) (early : Bool) : State :=
  (s.updSnap c (fun x => { Snap.fresh with t0 := x.t0, late := x.late, eccErr := x.eccErr, endedEarly := x.endedEarly || early })).put pgAln (alnArm.nth c.val) 0

/-- A channel in HELD with the frames stored so far. -/
def State.snapHold (s : State) (c : SnapCh) (early : Bool) : State :=
  (s.updSnap c (fun x => { x with state := .held, toStore := 0, endedEarly := x.endedEarly || early })).put pgAln (alnArm.nth c.val) 0

/-- What the capture channels of an input do when it leaves RUN, with or without a change of rate (Table 3.4). -/
def State.snapInputLeaves (s : State) (i : Inp) (rate : Bool) : State :=
  (List.finRange 4).foldl (fun s (c : SnapCh) =>
    let x := s.snaps[c]
    if x.cfg.input ≠ i then s
    else match x.state with
      | .armed => if rate then (s.raiseTo pgAln evAlnSnapEndedEarly x.owner).snapIdle c true else s.updSnap c (fun y => { y with frames := [] })
      | .capturing => ((s.snapHold c true).raiseTo pgAln evAlnSnapEndedEarly x.owner).raiseTo pgAln evAlnSnapHeld x.owner
      | _ => s) s

/-- Entry to DOZE or a lower rung: every channel is IDLE, its contents lost (Table 3.4). -/
def State.snapsLost (s : State) : State := (List.finRange 4).foldl (fun s c => s.snapIdle c false) s

/-- A frame of converter words stored by a channel: in the ring of an armed one, which keeps the pre-trigger frames and the frame just ended; by a capture until its frames are stored (R39, R87, R88). -/
def Snap.store (x : Snap) (ws : List (BitVec 16)) : Snap :=
  match x.state with
  | .armed => { x with frames := (x.frames ++ [ws]).drop (x.frames.length - x.cfg.pre) }
  | .capturing => if 0 < x.toStore then { x with frames := x.frames ++ [ws], toStore := x.toStore - 1 } else x
  | .idle | .held | .reading => x

/-- What ring writing and capture store at a sieve-frame boundary: the frame that ended, of an input in RUN. -/
def State.snapFrame (s : State) : State :=
  (List.finRange 4).foldl (fun s (c : SnapCh) =>
    let x := s.inputs[(s.snaps[c]).cfg.input]
    if x.conv = .run then s.updSnap c (fun y => y.store x.words) else s) s

/-- The first register of a channel. -/
def snapBase (c : SnapCh) : Nat := pgAln * 0x400 + 0x060 + 0x20 * c.val

/-- Whether a role's commit would do something to a channel: its ARM, READ or DISCARD bit staged as 1. -/
def State.snapStages (s : State) (role : Nat) (c : SnapCh) (f : Fld) : Bool :=
  match s.staged? role (keyOf pgAln (f.nth c.val)) with
  | some w => decide (fieldOf w f.hi f.lo = 1)
  | none => false

/-- Whether a role has staged values for a channel that another role holds by now (R373, R545). -/
def State.snapForeign (s : State) (role : Nat) (c : SnapCh) : Bool :=
  decide ((s.snaps[c]).state ≠ .idle) && decide ((s.snaps[c]).owner ≠ role) &&
    (s.stagedOf pgAln role).any (fun x => decide (snapBase c ≤ x.1) && decide (x.1 < snapBase c + 0x20))

/-- The bytes that an arm claims (R86). -/
def snapBytes (frames : Nat) (half : Bool) : Nat := frames * (if half then 128 else 256)

/-- The bytes that the arms of a role's commit claim of one channel (R20, R86). -/
def State.snapWant (s : State) (role : Nat) (c : SnapCh) : Nat :=
  if s.snapStages role c alnArm then
    snapBytes (s.stgGet role pgAln (alnFrames.nth c.val)) (s.inputs[inpOf (s.stgGet role pgAln (alnInput.nth c.val))]).half
  else 0

/-- The status of what a role's commit asks of one channel that it may use, memory apart (Table 3.4, R89, Table 13.5). -/
def State.snapStatus (s : State) (role : Nat) (c : SnapCh) : Status :=
  let x := s.snaps[c]
  let inp := s.inputs[inpOf (s.stgGet role pgAln (alnInput.nth c.val))]
  let sid := strmOf (s.stgGet role pgAln (alnStreamId.nth c.val))
  if s.snapStages role c alnArm then (if inp.conv ≠ .run then .notReady else .ok)
  else if s.snapStages role c alnDiscard then
    (if x.state = .armed ∨ x.state = .held ∨ x.state = .reading then .ok else .notReady)
  else if s.snapStages role c alnRead then
    let d := s.strmDef sid
    if (s.strms[sid]).owner ≠ role ∨ d.kind ≠ 8 ∨ d.src ≠ c.val then .badArg
    else if x.state = .held then .ok else .notReady
  else .ok

/-- Whether a role's commit meets a channel that is not IDLE with an arm (R95). -/
def State.alnConflict (s : State) (role : Nat) : Bool :=
  (List.finRange 4).any (fun (c : SnapCh) => s.snapStages role c alnArm && decide ((s.snaps[c]).state ≠ .idle))

/-- The status of a role's commit of the ALN page: the range rule (R90), an arm of a channel that is not IDLE (R16, R95), a channel that another role holds (R373), what each channel is asked (Table 3.4), the memory that the arms need together (R20, R86). DESIGN CHOICE (log 71): the manual gives no order between an input that is not in RUN and memory that is short; NOT_READY comes first here. -/
def State.alnStatus (s : State) (role : Nat) : Status :=
  if !s.stagedInRange pgAln role ∨
      (List.finRange 4).any (fun (c : SnapCh) => s.snapStages role c alnArm && decide (s.stgGet role pgAln (alnFrames.nth c.val) = 0)) then .badArg
  else if s.alnConflict role then .resourceBusy
  else if (List.finRange 4).any (fun c => s.snapForeign role c) then .accessDenied
  else
    let st := firstBad ((List.finRange 4).map (fun c => s.snapStatus role c))
    if st ≠ .ok then st
    else
      let want := (List.finRange 4).foldl (fun n c => n + s.snapWant role c) 0
      if 0 < want ∧ s.alnShareOf role < s.alnRsv role + s.snapHeld role + want then .noSpace else .ok

/-- What an arm sets for a channel, from its registers. -/
def State.snapCfg (s : State) (c : SnapCh) : SnapCfg :=
  let frames := s.get pgAln (alnFrames.nth c.val)
  ⟨inpOf (s.get pgAln (alnInput.nth c.val)), frames, frames * s.get pgAln (alnPre.nth c.val) / 256, s.get pgAln (alnTrig.nth c.val),
    s.get pgAln (alnTrigLo.nth c.val) + 2 ^ 32 * s.get pgAln (alnTrigHi.nth c.val)⟩

/-- A channel armed: memory claimed, flags of the last capture cleared, LATE when an AT_TIME instant has passed (R86, R88). DESIGN CHOICE (log 71): an instant equal to DEVTIME at the arm has passed. -/
def State.snapArm (s : State) (role : Nat) (c : SnapCh) : State :=
  let cfg := s.snapCfg c
  let half := (s.inputs[cfg.input]).half
  let late := decide (cfg.trig = 1) && decide (cfg.at_ ≤ s.time.devtime)
  s.updSnap c (fun x => { Snap.fresh with state := .armed, owner := role, bytes := snapBytes cfg.frames half, cfg := cfg, halfAtArm := half,
                                          armAt := s.time.grid, late := late, t0 := x.t0, from_ := x.from_ })

/-- ARM of a channel as it reads: 1 in ARMED and CAPTURING (Table 3.19). -/
def State.snapShowArm (s : State) (c : SnapCh) : State :=
  s.put pgAln (alnArm.nth c.val) (bit (decide ((s.snaps[c]).state = .armed) || decide ((s.snaps[c]).state = .capturing)))

/-- A role's commit of the ALN page takes effect. -/
def State.alnApply (s : State) (role : Nat) : State :=
  let s1 := s.applyStaged pgAln role
  (List.finRange 4).foldl (fun t c =>
    let t1 := if s.snapStages role c alnArm then t.snapArm role c
      else if s.snapStages role c alnDiscard then t.snapIdle c false
      else if s.snapStages role c alnRead then t.updSnap c (fun x => { x with state := .reading, sent := 0 })
      else t
    t1.snapShowArm c) s1

/-- The grid time at which the sieve frame under way began. -/
def Time.frameGrid (t : Time) : Nat := t.grid - t.grid % 128

/-- The DEVTIME of the first sample of the sieve frame under way. -/
def State.frameStart (s : State) : Nat := s.time.devtime - s.time.grid % 128

/-- Whether the trigger of an armed channel has come, by TRIG (R88): 0 a frame that began after the arm; 1 one whose first sample has reached the instant, or the next frame where the arm found it passed; 2 the frame just ended carried an OVR sample and began after the arm. -/
def State.snapFires (s : State) (c : SnapCh) : Bool :=
  let x := s.snaps[c]
  match x.cfg.trig with
  | 0 => decide (x.armAt < s.time.frameGrid)
  | 1 => decide (x.armAt < s.time.frameGrid) && (x.late || decide (x.cfg.at_ ≤ s.frameStart))
  | _ => decide (x.armAt + 128 < s.time.frameGrid) && decide (((s.inputs[x.cfg.input]).ovrs.head?.map (·.2)) = some (s.time.mono - s.time.grid % 128))

/-- The last n elements of a list. -/
def lastN {α : Type} (n : Nat) (l : List α) : List α := l.drop (l.length - n)

/-- SNAP_TRIGGER (R88): the trigger of an armed channel: the pre-trigger frames written so far are kept, T0 is the first sample stored, SNAP_TRIGGERED. With ON_OVERRANGE the trigger frame is the one just ended, which is stored already. -/
def execSnapTrigger (c : SnapCh) (s : State) : Host.Outcome State Fault Refusal :=
  let x := s.snaps[c]
  if x.state = .armed ∧ (s.inputs[x.cfg.input]).conv = .run ∧ s.snapFires c then
    let ended := if x.cfg.trig = 2 then 1 else 0
    let kept := lastN (x.cfg.pre + ended) x.frames
    let s1 := s.updSnap c (fun y => { y with state := .capturing, frames := kept, toStore := x.cfg.frames - x.cfg.pre - ended,
                                             t0 := s.frameStart - 128 * kept.length,
                                             from_ := s.time.mono - s.time.grid % 128 - 128 * kept.length })
    .next (s1.raiseTo pgAln evAlnSnapTriggered x.owner)
  else .next s

/-- SNAP_CAPTURE_DONE (Table 3.4): every frame of the record is stored; SNAP_HELD. -/
def execSnapCaptureDone (c : SnapCh) (s : State) : Host.Outcome State Fault Refusal :=
  let x := s.snaps[c]
  if x.state = .capturing ∧ x.toStore = 0 then .next ((s.snapHold c false).raiseTo pgAln evAlnSnapHeld x.owner)
  else .next s

/-! ### Readout (R89) -/

/-- Eight converter words in a 128-bit word, the earliest in bits 127:112; the last word of a list is filled with zeros. -/
def packConv : List (BitVec 16) → List Quad
  | a :: b :: c :: d :: e :: f :: g :: h :: l =>
    quadPack [(127, 112, a.toNat), (111, 96, b.toNat), (95, 80, c.toNat), (79, 64, d.toNat), (63, 48, e.toNat), (47, 32, f.toNat), (31, 16, g.toNat), (15, 0, h.toNat)]
      :: packConv l
  | [] => []
  | l => [quadPack ((List.range 8).map (fun k => (127 - 16 * k, 112 - 16 * k, (l.getD k 0).toNat)))]

/-- The converter words of a capture, those that fail ECC sent as 0 (R89). -/
def Snap.conv (x : Snap) (bad : List Nat) : List (BitVec 16) := x.frames.flatten.mapIdx (fun k w => if bad.contains k then 0 else w)

/-- The 128-bit words of a capture. -/
def Snap.words (x : Snap) : Nat := (x.frames.flatten.length + 7) / 8

/-- The snapshot stream of a readout where it is still there: enabled, a snapshot stream of the armer. -/
def State.snapStream (s : State) (c : SnapCh) : Option StrmId :=
  let sid := strmOf (s.get pgAln (alnStreamId.nth c.val))
  if (s.strms[sid]).owner = (s.snaps[c]).owner ∧ (s.strms[sid]).en ∧ (s.strmDef sid).kind = 8 then some sid else none

/-- What a readout word that fails ECC does: ECC_ERR, SNAP_ECC and its entry in the log (R89). -/
def State.snapEcc (s : State) (c : SnapCh) : State :=
  let e := (s.updSnap c (fun y => { y with eccErr := true })).raiseTo pgAln evAlnSnapEcc (s.snaps[c]).owner
  e.finding pgFlt 2 pgFlt evFltSramDed 0x10 1 0

/-- The next packet of a readout, up to 1,024 converter words, placed in the stream's queue as soon as that has room (R87, R89, Table 7.2): LAST on the last, ECC where it holds a word that failed. `bad` names the converter words that fail. -/
def State.snapPacket (s : State) (c : SnapCh) (sid : StrmId) (bad : List Nat) : State :=
  let x := s.snaps[c]
  let n := min 128 (x.words - x.sent)
  match queueOf (s.strmDef sid).queue with
  | some q =>
    if n = 0 ∨ !s.roomFor q (n + 2) then s
    else
      let lo := 8 * x.sent
      let here := bad.filter (fun k => decide (lo ≤ k) && decide (k < lo + 8 * n))
      let s1 := if here = [] then s else s.snapEcc c
      let body := packConv (((x.conv here).drop lo).take (8 * n))
      let first := x.from_ + lo * (if x.halfAtArm then 2 else 1)
      let stop := x.from_ + (lo + 8 * n) * (if x.halfAtArm then 2 else 1)
      let flags := bit (decide (here ≠ [])) + 2 * bit (decide (x.sent + n = x.words))
      let spec : PacketSpec := ⟨first, stop, n, false, s.condIn (some x.cfg.input) first stop, flags, body⟩
      (s1.formPacket sid spec).updSnap c (fun y => { y with sent := y.sent + n })
  | none => s

/-- SNAP_READOUT_DONE (R87, R89): the last packet of the readout is placed and the memory is released. A readout whose stream is gone ends so too; one whose last word still waits goes on. -/
def execSnapReadoutDone (c : SnapCh) (bad : List Nat) (s : State) : Host.Outcome State Fault Refusal :=
  if (s.snaps[c]).state = .reading then
    match s.snapStream c with
    | some sid =>
      let s1 := s.snapPacket c sid bad
      .next (if (s1.snaps[c]).sent = (s1.snaps[c]).words then s1.snapIdle c false else s1)
    | none => .next (s.snapIdle c false)
  else .next s

end Sys2Proof.Machine
end

