-- ==== Sys2Proof/Machine/Inputs.lean ====
section
/-! DEFINITION. The RF inputs (R29 to R60): converter states of Table 2.4, gain decisions and the AGC, overrange, half rate (Table 2.5). -/

namespace Sys2Proof.Machine

/-! ### Gain (R45 to R50) -/

/-- AGC_MODE of an input: 0 AUTO, 1 MANUAL, 2 HOLD. -/
def State.agcMode (s : State) (i : Inp) : Nat := s.get (pgInp i) inpAgcMode

/-- A gain decision: it reaches the converter two frames later; decisions of one frame arrive as one (R46). -/
def Input.decide (x : Input) (code : Nat) : Input :=
  { x with pendingGain := code, flight := x.flight.filter (fun f => f.left ≠ 2) ++ [⟨2, code⟩] }

/-- A decision of AUTO for a wanted code, held within the limits; GAIN_AT_LIMIT at most once per epoch when clamped (Table 2.6). -/
def State.autoGain (s : State) (i : Inp) (want : Int) : State :=
  let lo := s.get (pgInp i) inpGainMin
  let hi := s.get (pgInp i) inpGainMax
  let code := (clampInt want lo hi).toNat
  let s1 := s.updInp i (fun x => if code = x.pendingGain then x else x.decide code)
  if decide (want < lo) || decide ((hi : Int) < want) then
    if (s.inputs[i]).limRaised then s1
    else (s1.raise (pgInp i) evInpGainAtLimit).updInp i (fun x => { x with limRaised := true })
  else s1

/-- The frame rule of R45: an attack. -/
def State.agcFrame (s : State) (i : Inp) (peak : Int) : State :=
  if s.agcMode i = 0 ∧ -25 * (s.get (pgInp i) inpAttackTh : Int) ≤ peak then
    let s1 := s.autoGain i (((s.inputs[i]).pendingGain : Int) - s.get (pgInp i) inpAttackStep)
    s1.updInp i (fun x => { x with hold := s.get (pgInp i) inpHoldAfterAttack, attacked := true })
  else s

/-- The epoch rule of R45; no decay in an epoch that has decided an attack (R48). Levels are in 0.01 dB. -/
def State.agcEpoch (s : State) (i : Inp) (m : EpochMeas) : State :=
  let p := pgInp i
  let x := s.inputs[i]
  let target := -25 * (s.get p inpTargetRms : Int)
  let attack := -25 * (s.get p inpAttackTh : Int)
  let hyst := 25 * (s.get p inpHyst : Int)
  let low := if m.rms < target - hyst then x.rmsLow + 1 else 0
  let s0 := s.updInp i (fun y => { y with rmsLow := low })
  let s1 :=
    if s.agcMode i ≠ 0 then s0
    else if 0 < x.acqLeft then s0.autoGain i ((x.pendingGain : Int) + (target - m.rms).fdiv 50)
    else if target + hyst < m.rms then s0.autoGain i ((x.pendingGain : Int) - ceilDiv (m.rms - target) 50)
    else if x.hold = 0 ∧ !x.attacked ∧ s.get p inpDecayWin ≤ low ∧ m.peak + 50 * (s.get p inpDecayStep : Int) < attack - hyst then
      (s0.autoGain i ((x.pendingGain : Int) + s.get p inpDecayStep)).updInp i (fun y => { y with rmsLow := 0 })
    else s0
  s1.updInp i (fun y => { y with hold := y.hold - 1, acqLeft := y.acqLeft - 1, limRaised := false, attacked := false })

/-- A commit of gain settings takes effect (R48 to R50): a change to AUTO runs its law without acquisition. -/
def State.gainSettings (old s : State) (i : Inp) : State :=
  let p := pgInp i
  let x := s.inputs[i]
  match s.agcMode i with
  | 0 =>
    let s1 := if old.agcMode i = 0 then s else s.updInp i (fun y => { y with acqLeft := 0 })
    if x.conv = .off ∨ (s.get p inpGainMin ≤ x.pendingGain ∧ x.pendingGain ≤ s.get p inpGainMax) then s1
    else s1.updInp i (fun y => y.decide (clampInt y.pendingGain (s.get p inpGainMin) (s.get p inpGainMax)).toNat)
  | 1 =>
    if x.conv = .off ∨ (old.agcMode i = 1 ∧ old.get p inpGainCode = s.get p inpGainCode) then s
    else s.updInp i (fun y => y.decide (s.get p inpGainCode))
  | _ => s

/-! ### Converter states (Table 2.4) -/

/-- Whether the part is in RUN as far as the converters are concerned: RUN and not leaving it, or the step into it. -/
def State.inRun (s : State) : Bool :=
  (decide (s.pwr.rung = 0) && !(s.pwr.busy && !s.pwr.rising)) ||
  (decide (s.pwr.rung = 1) && s.pwr.busy && s.pwr.rising)

/-- Whether a converter may start: rung, lock, a confirmed setpoint, a DEVTIME (R54, R352, R415, R433). -/
def State.convReady (s : State) : Bool := s.inRun && decide (s.clk.state = .locked) && s.pwr.confirmed && s.time.set && s.time.running

/-- The gain at a start: GAIN_MIN (R47, Table 2.4); in MANUAL the gain of GAIN_SET, in HOLD the gain held (log 18). -/
def State.startGain (s : State) (i : Inp) : Nat :=
  match s.agcMode i with
  | 0 => s.get (pgInp i) inpGainMin
  | 1 => s.get (pgInp i) inpGainCode
  | _ => (s.inputs[i]).pendingGain

/-- A waiting commit on the grid placed anew: its response keeps its distance from the present, and its boundary is the one that R75 or Table 13.4 names on the new grid. -/
def Captured.rebase (old new : Time) (c : Captured) : Captured :=
  let a := new.grid - (old.grid - c.at_)
  { c with at_ := a, due := commitDue { new with grid := a } (kindCode c.page) }

/-- The packet periods of streams and bundles that have still to start moved to the boundaries of a grid that has just been placed: each to the first at or after its own start (R61, R223). -/
def State.gridPeriods (s : State) : State :=
  let up := fun (p m : Nat) => m + (multAtOrAfter p (s.time.grid + m - s.time.mono) - (s.time.grid + m - s.time.mono))
  { s with
    strms := Vector.ofFn (fun i => let x := s.strms[i]
      if kindPeriod (s.strmDef i).kind = 0 then x else { x with nextPeriod := up (kindPeriod (s.strmDef i).kind) x.nextPeriod })
    bunds := s.bunds.map (fun b => { b with period := up 1280000 b.period }) }

/-- The boundary grid placed again when the converters start from OFF (R61, R62); commits that wait for a boundary wait for one of the new grid, packet periods fall on it. -/
def State.placeGrid (s : State) : State :=
  if s.inputs.toList.all (fun x => x.conv = .off) then
    let t := ({ s.time with placed := false }).place
    { s with time := t, captured := s.captured.map (Captured.rebase s.time t) }.gridPeriods
  else s

/-- A converter at the beginning of STARTING, with a gain, at a root time (Table 2.4). -/
def Input.begin (x : Input) (g now : Nat) : Input :=
  { x with conv := .starting, convAt := now, flight := [], gain := g, pendingGain := g, step := false, shownHalf := false, measured := false, acqLeft := 0, rmsLow := 0,
           hold := 0, attacked := false, words := [], comp := [] }

/-- A converter that may start does (Table 2.4). -/
def State.startConv (s : State) (i : Inp) : State :=
  let x := s.inputs[i]
  if s.flag (pgInp i) pgEn ∧ s.convReady ∧ (x.conv = .off ∨ x.conv = .stoppedUnlocked ∨ x.conv = .stoppedClock) then
    let g := s.startGain i
    (s.placeGrid.put (pgInp i) inpValid 0).updInp i (fun y => y.begin g s.time.mono)
  else s

/-- Every enabled converter that may start does. -/
def State.startConvs (s : State) : State := (List.finRange 4).foldl (fun s i => s.startConv i) s

/-- What follows from an input leaving RUN: captures, a calibration run and a reference check on it end. -/
def State.leaveRun (s : State) (i : Inp) (rate : Bool) : State :=
  if (s.inputs[i]).conv = .run then ((s.snapInputLeaves i rate).calInputAbort i).checkLeave i else s

/-- A converter powered down (Table 2.4, last row). -/
def State.convOff (s : State) (i : Inp) : State :=
  (s.leaveRun i false).updInp i (fun x => { x with conv := .off, flight := [], pendingGain := x.gain, step := false, shownHalf := false, measured := false,
                                                   acqLeft := 0, onRefin := false, words := [], comp := [] })

/-- A converter stopped without its clock: gain held, an unfinished start or rate change abandoned, CONV_STOPPED (Tables 2.4, 2.6). -/
def State.convStop (s : State) (i : Inp) (st : Conv) : State :=
  let x := s.inputs[i]
  if x.conv = .run ∨ x.conv = .starting ∨ x.conv = .rateChange then
    ((s.leaveRun i false).updInp i (fun y => { y with conv := st, flight := [], pendingGain := y.gain, step := false, shownHalf := false, measured := false, acqLeft := 0, words := [], comp := [] })).raise
      (pgInp i) evInpConvStopped
  else s

/-- Every converter stopped; the instant of the last sample is kept for CLK_CONV_GAP (R420). -/
def State.convStopAll (s : State) (st : Conv) : State :=
  let ran := s.inputs.toList.any (fun x => x.conv = .run)
  let s1 := (List.finRange 4).foldl (fun s i => s.convStop i st) s
  if ran then { s1 with clk := { s1.clk with convClosedAt := some s.time.mono } } else s1

/-- Every converter powered down. -/
def State.convOffAll (s : State) : State := (List.finRange 4).foldl (fun s i => s.convOff i) s

/-- The count of lost cycles written at the first valid sample after a restart (R420). -/
def State.closeConvGap (s : State) : State :=
  match s.clk.convClosedAt with
  | some t => { (s.put pgClk clkConvGap (min (s.time.mono - t) (2 ^ 32 - 1))) with clk := { s.clk with convClosedAt := none } }
  | none => s

/-- CONV_START_DONE (R47, R54): 40 frames, 8.0 µs, after the start the first valid frame; acquisition begins. -/
def execConvStartDone (i : Inp) (s : State) : Host.Outcome State Fault Refusal :=
  if (s.inputs[i]).conv = .starting ∧ s.ranOut (s.inputs[i]).convAt (8 * usTicks) then
    .next (s.closeConvGap.updInp i (fun x => { x with conv := .run, shownHalf := x.half, acqLeft := 4 }))
  else .next s

/-- ACQUISITION_END (R47). -/
def execAcquisitionEnd (i : Inp) (s : State) : Host.Outcome State Fault Refusal :=
  .next (s.updInp i (fun x => { x with acqLeft := 0 }))

/-- The first sample of the frame at which a gain arrives: the gain, STEP, INP_LAST_STEP, INP_STEP_CNT (R39, R46). -/
def State.arriveGain (s : State) (i : Inp) (code : Nat) (rest : List Flight) : State :=
  let changed := decide (code ≠ (s.inputs[i]).gain)
  let s1 := s.updInp i (fun x => { x with gain := code, flight := rest, step := changed })
  if changed then (s1.put (pgInp i) inpStepTime (s.frameStart % 2 ^ 32)).count (pgInp i) inpStepCnt 1 else s1

/-- GAIN_ARRIVAL (R42, R46): the oldest decision whose two frames have passed reaches the converter; none does in RATE_CHANGE or on REFIN, where the engine drives the gain. -/
def execGainArrival (i : Inp) (s : State) : Host.Outcome State Fault Refusal :=
  let x := s.inputs[i]
  match x.flight with
  | f :: rest => if f.left = 0 ∧ (x.conv = .run ∨ x.conv = .starting) ∧ !x.onRefin then .next (s.arriveGain i f.code rest) else .next s
  | [] => .next s

/-- RATE_CHANGE_DONE (R54, Table 2.5): after 2.0 µs the first frame at the new rate; FULL_RATE after half rate; a gain decided meanwhile arrives. -/
def execRateChangeDone (i : Inp) (s : State) : Host.Outcome State Fault Refusal :=
  let x := s.inputs[i]
  if x.conv = .rateChange ∧ s.ranOut x.convAt (2 * usTicks) then
    let s1 := s.updInp i (fun y => { y with conv := .run, shownHalf := y.half })
    let s2 := if x.half then s1 else s1.raise (pgInp i) evInpFullRate
    .next (if x.flight = [] then s2 else s2.arriveGain i x.pendingGain [])
  else .next s

/-! ### Half rate (R56, Table 2.5) -/

/-- The order in which inputs are halved: ascending HR_RANK, then ascending number (R56). -/
def State.halveOrder (s : State) : List Inp :=
  (List.range 4).flatMap (fun r => (List.finRange 4).filter (fun i => s.get (pgInp i) inpHrRank = r))

/-- The input that a halving takes: the first in RUN at full rate. -/
def State.nextHalve (s : State) : Option Inp := s.halveOrder.find? (fun i => decide ((s.inputs[i]).conv = .run) && !(s.inputs[i]).half)

/-- The input that a restore takes: the first in RUN that is halved, in reverse order. -/
def State.nextRestore (s : State) : Option Inp := s.halveOrder.reverse.find? (fun i => decide ((s.inputs[i]).conv = .run) && (s.inputs[i]).half)

/-- An input's rate changed at T0 of Table 2.5: RATE_CHANGE; a halving raises HALF_RATE and counts. -/
def State.changeRate (s : State) (i : Inp) (half : Bool) : State :=
  let s1 := (s.leaveRun i true).updInp i (fun x => { x with conv := .rateChange, convAt := s.time.mono, half := half })
  if half then (s1.raise (pgInp i) evInpHalfRate).count (pgInp i) inpHrCnt 1 else s1

/-! ### Commits and boundaries -/

/-- The status of a commit of an INP page (R58, Table 2.9). -/
def State.inpStatus (s : State) (i : Inp) : Status :=
  if !s.stagedInRange (pgInp i) 0 ∨ s.stgGet 0 (pgInp i) inpGainMax < s.stgGet 0 (pgInp i) inpGainMin then .badArg else .ok

/-- A commit of an INP page takes effect at its frame boundary. -/
def State.inpApply (s : State) (i : Inp) (ws : List (Nat × Word)) : State :=
  let s1 := (s.applyWords ws).bumpSeq (pgInp i)
  let s2 := State.gainSettings s s1 i
  if s2.flag (pgInp i) pgEn then s2.startConv i else s2.convOff i

/-! ### Converter words and the compensated scale (R39 to R42) -/

/-- Whether a sample is at full scale (R39). -/
def fullScale (x : BitVec 14) : Bool := decide (x.toInt = -8192) || decide (x.toInt = 8191)

/-- The converter words of a frame (R39): each sample in bits 15:2, OVR at full scale, STEP on the first word of a frame whose gain differs from that of the frame before it. -/
def convWords (step : Bool) (l : List (BitVec 14)) : List (BitVec 16) :=
  l.mapIdx (fun k x => BitVec.ofNat 16 (4 * x.toNat + 2 * bit (fullScale x) + bit (step && decide (k = 0))))

/-- |x| times 10^(−code / 40) in units of 2^−10 of a converter code, towards zero: the greatest n with n^40 × 10^code at most (1024 |x|)^40 (R36, R41). -/
def compMagnitude (code x : Nat) : Nat :=
  (List.range 24).foldl (fun n k =>
    let t := n + 2 ^ (23 - k)
    if t ^ 40 * 10 ^ code ≤ (1024 * x) ^ 40 then t else n) 0

/-- The compensated sample of a converter sample at a gain code: 24 bits (R41). DESIGN CHOICE (log 10): the manual gives the width and not the place of the binary point; ten bits lie below a converter code, and the product is taken towards zero. -/
def compSample (code : Nat) (x : BitVec 14) : BitVec 24 :=
  let m := compMagnitude code x.toInt.natAbs
  BitVec.ofInt 24 (if x.toInt < 0 then -(m : Int) else m)

/-- The frame that ends at an input: its converter words, and what the digital gain stage passes to the sieve, with the gain that cancels the front end's from the frame's first sample on (R39, R41, R42). -/
def Input.frame (x : Input) (l : List (BitVec 14)) : Input := { x with words := convWords x.step l, comp := l.map (compSample x.gain) }

/-- A frame with an overrange that ended at a root time noted: in the last run where it follows that run's last frame. What is older than 5 s is dropped. -/
def noteOvr (now : Nat) (l : List (Nat × Nat)) : List (Nat × Nat) :=
  match l with
  | g :: l => if now ≤ g.2 + 128 then (g.1, now) :: l else (now, now) :: (g :: l).filter (fun x => decide (now ≤ x.2 + 5 * secTicks))
  | [] => [(now, now)]

/-- The overrange detector of one input at a frame (R51, R53, Table 19.1): the frame is counted and carries the overrange tag; an injection tags the frame as well. -/
def State.ovrFrame (s : State) (i : Inp) (ovr : Bool) : State :=
  let (src, s1) := s.evaluate (pgInp i) 1 ovr
  if src = 0 then s1
  else
    let s2 := (s1.count (pgInp i) inpOvrCnt 1).updInp i (fun x => { x with ovrEpoch := true, ovrs := noteOvr s.time.mono x.ovrs })
    let s3 := if (s.inputs[i]).ovrRaised then s2
      else (s2.raise (pgInp i) evInpOverrange).updInp i (fun x => { x with ovrRaised := true })
    s3.logFinding (eventWord (pgInp i) evInpOverrange false) (pgInp i) 1 src 0

/-- The converter FIFO of one input at a frame (R425, R426, Table 19.1): peak fill, overflow, 75 %. -/
def State.fifoFrame (s : State) (i : Inp) (m : FrameMeas) : State :=
  let lo := 8 * i.val
  let f : Fld := ⟨pwrFifoPeak.off, 0, lo + 7, lo⟩
  let s1 := s.put pgPwr f (max (s.get pgPwr f) (min (m.fifo / 2) 255))
  let (src, s2) := if i = 0 then s1.evaluate pgPwr 2 m.fifoFull else (bit m.fifoFull, s1)
  let s3 := if src = 0 then s2 else (s2.count pgPwr pwrFifoOvf 1).finding pgPwr 2 pgPwr evPwrFifoOverflow 0x10 src 0
  if 384 ≤ m.fifo then { s3 with pwr := { s3.pwr with fifoHigh := true } } else s3

/-- The saturation count of one input's sieve. -/
def sieveOvf : Inp → Fld
  | 0 => sieveOvfCnt0 | 1 => sieveOvfCnt1 | 2 => sieveOvfCnt2 | 3 => sieveOvfCnt3

/-- The sieve outputs of one input that saturate in a frame before the stream scaling: counted, and a finding of the overflow detector (R68, Table 19.1); an injection counts one. -/
def State.sieveFrame (s : State) (i : Inp) (sat : Nat) : State :=
  let (src, s1) := if i = 0 then s.evaluate pgSieve 1 (decide (0 < sat)) else (bit (decide (0 < sat)), s)
  if src = 0 then s1
  else (s1.count pgSieve (sieveOvf i) (max 1 sat)).finding pgSieve 1 pgSieve evSieveOverflow 0x10 src 0

/-- The gain decisions of an input one frame nearer to its converter (R46); STEP marks one frame alone. -/
def State.frameMoves (s : State) (i : Inp) : State :=
  s.updInp i (fun y => { y with step := false, flight := y.flight.map (fun f => { f with left := f.left - 1 }) })

/-- One input at the end of a sieve frame. -/
def State.inputFrame (s : State) (i : Inp) (m : FrameMeas) : State :=
  let x := s.inputs[i]
  let s0 := (s.updInp i (fun y => if x.conv = .run then y.frame m.samples else { y with words := [], comp := [] })).frameMoves i
  let ovr := m.samples.any fullScale
  if x.conv = .run ∧ !x.onRefin then (((s0.agcFrame i m.peak).ovrFrame i ovr).sieveFrame i m.sieveSat).fifoFrame i m
  else if x.conv = .run then (s0.ovrFrame i ovr).sieveFrame i m.sieveSat
  else s0

/-- The captured commits of the pages of one boundary kind whose time has come, in order of their responses. -/
def State.dueCommits (s : State) (p : Nat → Bool) : List Captured := s.captured.filter (fun c => p c.page && decide (c.due ≤ s.time.grid))

/-- Those commits taken off the list of waiting commits. -/
def State.dropDue (s : State) (p : Nat → Bool) : State :=
  { s with captured := s.captured.filter (fun c => !(p c.page && decide (c.due ≤ s.time.grid))) }

/-- Whether a page is an INP page. -/
def isInp (page : Nat) : Bool := decide (kindOfPage page = some .inp)

/-- The commits of INP pages that take effect at a frame boundary. -/
def State.inpCommits (s : State) : State :=
  (s.dueCommits isInp).foldl (fun s c => s.inpApply (inpOf (c.page - 0x010)) c.words) (s.dropDue isInp)

/-- The frame boundary of an instant that has come within a longer boundary and has not been reported: decisions move on and commits of the INP pages take effect, with no frame measured (log 2). -/
def State.frameUnseen (s : State) : State :=
  if s.time.goneFrame = some s.time.grid then s
  else
    let s1 := { s with time := s.time.mark .frame }
    ((List.finRange 4).foldl (fun s i => s.frameMoves i) s1).inpCommits

/-- SIEVE_FRAME_BOUNDARY (R42, R45, R51, R61): the frame that ends is measured, decisions move on, commits of the INP pages take effect, capture channels store a frame. -/
def execSieveFrameBoundary (m : Vector FrameMeas 4) (s : State) : Host.Outcome State Fault Refusal :=
  let s1 := s.advance .frame
  let s2 := (List.finRange 4).foldl (fun s i => s.inputFrame i m[i]) s1
  .next s2.snapFrame.inpCommits

/-- A level in 0.01 dBFS as EPOCH_PEAK and EPOCH_RMS show it, in −0.25 dB units (Table 2.15). DESIGN CHOICE (log 71): to the nearest unit, halves away from zero; a level above 0 dBFS reads 0. -/
def levelCode (v : Int) : Nat := (clampInt (roundDiv (-v) 25) 0 255).toNat

/-- Overload of one input at the end of an epoch (R52): an epoch in which the input stood still has no overrange frame. DESIGN CHOICE (log 71): the gain is at GAIN_MIN when it is so at the end of the epoch. -/
def State.overloadEpoch (s : State) (i : Inp) : State :=
  let p := pgInp i
  let x := s.inputs[i]
  let bad := x.ovrEpoch && (decide (s.agcMode i ≠ 0) || decide (x.gain = s.get p inpGainMin))
  let run := if bad then x.ovrRun + 1 else 0
  let s2 := if s.get p inpOvrPersist ≤ run ∧ !x.overloaded then (s.raise p evInpOverload).updInp i (fun y => { y with overloaded := true }) else s
  let s3 := if x.overloaded ∧ !x.ovrEpoch then (s2.raise p evInpOverloadEnd).updInp i (fun y => { y with overloaded := false }) else s2
  s3.updInp i (fun y => { y with ovrRun := run, ovrEpoch := false, ovrRaised := false })

/-- Levels, overload and gain of one input at the end of an epoch (R45, R51, R52, Table 2.15). -/
def State.inputEpoch (s : State) (i : Inp) (m : EpochMeas) : State :=
  let x := s.inputs[i]
  let s1 := s.overloadEpoch i
  if x.conv = .run ∧ !x.onRefin then
    let s2 := if x.measured then s1.puts (pgInp i) [(inpValid, 1), (inpEpochPeak, levelCode m.peak), (inpEpochRms, levelCode m.rms)] else s1
    ((s2.updInp i (fun y => { y with measured := true })).agcEpoch i m).gainTrack i m
  else (s1.updInp i (fun y => { y with limRaised := false, attacked := false, hold := y.hold - 1 })).gainTrackStops i

/-- A commit of the SIEVE page takes effect: one that carries EQ_EN starts a new coefficient set for every input (R84). -/
def State.sieveApply (s : State) (ws : List (Nat × Word)) : State :=
  let s1 := (s.applyWords ws).bumpSeq pgSieve
  if ws.any (fun x => isSieveCfg x.1) then (List.finRange 4).foldl (fun t i => t.startRebuild i) s1 else s1

/-- The commits of the CAL and SIEVE pages that take effect at an epoch boundary. -/
def State.epochCommits (s : State) : State :=
  let p := fun page => decide (page = pgCal) || decide (page = pgSieve)
  (s.dueCommits p).foldl (fun s c => if c.page = pgCal then s.calApply c.words else s.sieveApply c.words) (s.dropDue p)

end Sys2Proof.Machine
end

