-- ==== Sys2Proof/Machine/Decoders.lean ====
section
/-! DEFINITION. The decode pool (R152 to R157, Table 5.3): claims, the states of a decoder, loss of its source. -/

namespace Sys2Proof.Machine

/-- The source that a decoder's registers name: kind (0 none, 1 bed, 2 DRM slice), number, SubChId or stream, forced codec. -/
structure DecSrc where
  kind : Nat
  src : Nat
  sub : Nat
  codec : Nat
deriving DecidableEq, Repr

/-- The source in force of a decoder. -/
def State.decSource (s : State) (d : DecId) : DecSrc :=
  ⟨s.get pgDec (decSrcKind.nth d.val), s.get pgDec (decSrc.nth d.val), s.get pgDec (decSubch.nth d.val), s.get pgDec (decCodec.nth d.val)⟩

/-- The codec code of a DAB audio type: ASCTy 0 is Layer II, 63 is DAB+ (R154). -/
def codecOfType (t : Nat) : Nat := if t = 0 then 1 else if t = 63 then 2 else 0

/-- The codec code of an SDC coding field: 0 AAC, 3 xHE-AAC (R154). -/
def codecOfCoding (c : Nat) : Nat := if c = 0 then 3 else if c = 3 then 4 else 0

/-- The types of a service's stream audio components in a SubChId, the primary first. -/
def SvcDef.audioTypes (v : SvcDef) (sub : Nat) : List Nat :=
  ((v.primary :: v.parts).filter (fun (c : SvcPart) => decide (c.subch.val = sub) && decide (c.tmid = 0))).map (·.type)

/-- What a synchronised source defines for a SubChId or stream now: its codec and whether it is scrambled (R153). -/
def State.decFound (s : State) (x : DecSrc) : Option (Nat × Bool) :=
  if x.kind = 1 then
    match bedOf x.src with
    | some k =>
      let b := s.beds[k]
      if 2 ≤ b.state.code ∧ b.curSubch.any (fun c => c.id.val = x.sub) then
        b.curSvcs.findSome? (fun v => (SvcDef.audioTypes v x.sub).head?.map (fun t => (codecOfType t, v.ca)))
      else none
    | none => none
  else if x.kind = 2 then
    match slcOf x.src with
    | some i =>
      let p := pgDrm i
      if (s.demods[i]).drm.synced ∧ x.sub < 4 ∧ s.flag p (drmValid_0e0.nth x.sub) then
        let ca := (List.range 4).any (fun k => s.flag p (drmValid_0d0.nth k) && decide (s.get p (drmStream.nth k) = x.sub) && s.flag p (drmCa.nth k))
        some (codecOfCoding (s.get p (drmCoding.nth x.sub)), ca)
      else none
    | none => none
  else none

/-- A decoder claimed for an owner, or by a slot of service following for its owner. -/
def State.decClaim (s : State) (d : DecId) (owner : Nat) (slot : Option SvcId) : State :=
  s.updDec d (fun _ => { Dec.fresh with state := .wait, owner := owner, slot := slot })

/-- A decoder released at once; its streams lose their source (R152, R223). DESIGN CHOICE (log 74): SRATE, CHMODE, SBR and BITRATE keep what the last frame showed. -/
def State.decRelease (s : State) (d : DecId) : State := (s.updDec d (fun _ => Dec.fresh)).strmsGone (fun x => x.ofDec d)

/-- Whether a decoder may lose its source: WAIT, SYNC, RUN, CONCEAL. -/
def DecState.fed : DecState → Bool
  | .wait => true | .sync => true | .run => true | .conceal => true | .idle => false | .sourceGone => false

/-! ### Audio (R155, R156, Table 5.3) -/

/-- The input that a decoder's source draws on. -/
def State.decInput (s : State) (d : DecId) : Option Inp :=
  let x := s.decSource d
  if x.kind = 1 then (bedOf x.src).map (fun k => inpOf (s.get (pgBed k) bedInput))
  else if x.kind = 2 then (slcOf x.src).map (fun i => inpOf (s.get (pgSlc i) slcInput))
  else none

/-- The two channels of a frame: mono on both; dual channel by DUAL_SEL; else as decoded (R155). -/
def placeChannels (chmode dual : Nat) (f : Int × Int) : Int × Int :=
  if chmode = 0 then (f.1, f.1)
  else if chmode = 3 then (if dual = 0 then (f.1, f.1) else if dual = 1 then (f.2, f.2) else f)
  else f

/-- The amplitude of the n-th repeat of a frame: 6 dB down for each (R156). -/
def repeatGain (n : Nat) : Nat := dbFactor (-6000 * (n : Int))

/-- Samples multiplied by a factor in units of 2⁻¹²⁰. -/
def scaleFrames (f : Nat) (l : List (Int × Int)) : List (Int × Int) := l.map (fun x => (scaleBy f x.1, scaleBy f x.2))

/-- Samples faded over n of them, in or out (log 72): all beyond are left as they are, or silent. -/
def fadeFrames (up : Bool) (n : Nat) (l : List (Int × Int)) : List (Int × Int) :=
  l.mapIdx (fun k x =>
    let g := if up then raisedCos k n else 2 ^ 60 - raisedCos k n
    (fadeBy g x.1, fadeBy g x.2))

/-- Audio appended to what a decoder has delivered; audio older than 4 s is dropped. -/
def Dec.play (x : Dec) (now : Nat) (c : Clip) : Dec := { x with audio := clipsSince x.audio (now - 4 * secTicks) ++ [c] }

/-- The repeat of a decoder's last good frame, n samples of it, 6 dB further down than the last; the spectrum that repeats is that of the frame (log 72). -/
def Dec.repeated (x : Dec) (n : Nat) : List (Int × Int) :=
  scaleFrames (repeatGain (x.repeats + 1)) ((List.replicate (n / max 1 x.lastGood.length + 1) x.lastGood).flatten.take n)

/-- A decoder that plays ramps to mute over 10 ms, from the end of what it has delivered (Table 5.3). -/
def State.decMuted (s : State) (d : DecId) : State :=
  let x := s.decs[d]
  match x.audio.getLast? with
  | some c => s.updDec d (fun y => (y.play s.time.mono ⟨c.stop, fadeFrames false 480 (y.repeated 480), true, c.cond⟩))
  | none => s

/-- A decoder whose source is gone: SOURCE_GONE, a 10 ms ramp to mute, DEC_SOURCE_GONE; the owner keeps it. -/
def State.decGone (s : State) (d : DecId) : State :=
  let x := s.decs[d]
  if x.state.fed then
    let s1 := if x.state = .run ∨ x.state = .conceal then s.decMuted d else s
    (s1.updDec d (fun y => { y with state := .sourceGone })).raiseTo pgDec evDecSourceGone x.owner
  else s

/-- Every decoder whose source meets a condition loses it. -/
def State.decsGone (s : State) (p : DecSrc → Bool) : State :=
  (List.finRange 24).foldl (fun s d => if p (s.decSource d) then s.decGone d else s) s

/-- The decoders of a bed lose their source (Table 5.3). -/
def State.bedDecsGone (s : State) (k : BedId) : State := s.decsGone (fun x => x.kind = 1 && x.src = k.val)

/-- The decoders of a DRM slice lose their source. -/
def State.slcDecsGone (s : State) (i : Slc) : State := s.decsGone (fun x => x.kind = 2 && x.src = i.val)

/-- DEC_SOURCE_READY (Table 5.3): the source of a waiting decoder defines its SUBCH: SYNC when the type matches and it is not scrambled, else MISMATCH or CA with DEC_MISMATCH once; a SUBCH defined again after SOURCE_GONE. -/
def execDecSourceReady (d : DecId) (s : State) : Host.Outcome State Fault Refusal :=
  let x := s.decs[d]
  let src := s.decSource d
  if x.state = .wait ∨ x.state = .sourceGone then
    match s.decFound src with
    | some (codec, ca) =>
      if codec ≠ 0 ∧ (src.codec = 0 ∨ src.codec = codec) ∧ !ca then
        .next (s.updDec d (fun y => { y with state := .sync, found := codec, mismatch := false, ca := false }))
      else if x.state = .wait then
        let s1 := s.updDec d (fun y => { y with mismatch := y.mismatch || !ca, ca := ca, raised := true, found := codec })
        .next (if x.raised then s1 else s1.raiseTo pgDec evDecMismatch x.owner)
      else .next s
    | none => .next s
  else .next s

/-- The counters and shown figures of a decoder for one frame (Table 5.19). -/
def State.decCount (s : State) (d : DecId) (f : AudioFrame) : State :=
  let n := d.val
  let s1 := (s.count pgDec ((if f.bad then decBad else decGood).nth n) 1).count pgDec (decRsCorr.nth n) f.rsCorr
  let s2 := s1.count pgDec (decRsFail.nth n) f.rsFail
  if f.bad then s2
  else s2.puts pgDec [(decSrate.nth n, f.srate), (decChmode.nth n, f.chmode), (decSbr.nth n, bit f.sbr), (decBitrate.nth n, f.bitrate)]

/-- Whether the subchannel of a decoder began its de-interleaving anew less than 15 CIFs ago: its frames cannot be decoded (R154). -/
def State.decStarved (s : State) (d : DecId) : Bool :=
  let x := s.decSource d
  decide (x.kind = 1) && (match bedOf x.src with
    | some k => (s.beds[k]).renewed.any (fun r => decide (r.1 = x.sub) && decide (r.2 ≤ 15))
    | none => false)

/-- CONCEAL_MAX of a decoder, in ms. -/
def State.concealMax (s : State) (d : DecId) : Nat := s.get pgDec (decConcealMax.nth d.val)

/-- A frame noted for the share of erroneous ones of the last second (R191). -/
def Dec.note (x : Dec) (now : Nat) (bad : Bool) : Dec := { x with recent := ((now, bad) :: x.recent).filter (fun y => decide (now < y.1 + secTicks)) }

/-- A good frame delivered: its samples from the aerial instant of R155 on, at full level, ramped up over 10 ms after concealment. -/
def State.decPlay (s : State) (d : DecId) (f : AudioFrame) : State :=
  let from_ := s.time.mono - f.ago
  let l := (f.pcm.map (placeChannels f.chmode (s.get pgDec (decDualSel.nth d.val)))).map (fun x => (clamp24 x.1, clamp24 x.2))
  s.updDec d (fun y => { y.play s.time.mono ⟨from_, if y.rampUp then fadeFrames true 480 l else l, false, s.condIn (s.decInput d) from_ s.time.mono⟩ with
    lastGood := l, repeats := 0, rampUp := false, concealMs := 0 })

/-- An erroneous frame concealed, as far as CONCEAL_MAX allows (R156). -/
def State.decConceal (s : State) (d : DecId) (f : AudioFrame) : State :=
  let from_ := s.time.mono - f.ago
  let ms := min f.ms (s.concealMax d - (s.decs[d]).concealMs)
  s.updDec d (fun y => { y.play s.time.mono ⟨from_, y.repeated (48 * ms), true, s.condIn (s.decInput d) from_ s.time.mono⟩ with
    repeats := y.repeats + 1, rampUp := true, concealMs := y.concealMs + f.ms })

/-- A decoder mutes: 10 ms ramp, SYNC, DEC_MUTE (Table 5.3). -/
def State.decMutes (s : State) (d : DecId) : State :=
  let s1 := (s.decMuted d).updDec d (fun y => { y with state := .sync, concealMs := 0, repeats := 0, rampUp := false })
  (s1.count pgDec (decMute.nth d.val) 1).raiseTo pgDec evDecMute (s.decs[d]).owner

/-- A decoder enters CONCEAL (Table 5.3). -/
def State.decConceals (s : State) (d : DecId) : State :=
  (s.updDec d (fun y => { y with state := .conceal, concealMs := 0, repeats := 0 })).raiseTo pgDec evDecConceal (s.decs[d]).owner

/-- A decoder enters RUN with its first frame (Table 5.3). -/
def State.decRuns (s : State) (d : DecId) : State := (s.updDec d (fun y => { y with state := .run })).raiseTo pgDec evDecRun (s.decs[d]).owner

/-- DEC_FRAME (Table 5.3, R154 to R156): an audio frame of the decoder's source, good or erroneous; a good one that comes after CONCEAL_MAX finds the decoder muted. -/
def execDecFrame (d : DecId) (f : AudioFrame) (s : State) : Host.Outcome State Fault Refusal :=
  let x := s.decs[d]
  let bad := f.bad || s.decStarved d
  let s1 := (s.decCount d { f with bad := bad }).updDec d (fun y => y.note s.time.mono bad)
  match x.state with
  | .sync => .next (if bad then s1 else (s1.decPlay d f).decRuns d)
  | .run => .next (if bad then (s1.decConceals d).decConceal d f else s1.decPlay d f)
  | .conceal =>
    .next (if bad then s1.decConceal d f
      else if x.concealMs ≤ s.concealMax d then (s1.decPlay d f).updDec d (fun y => { y with state := .run })
      else ((s1.decMutes d).decPlay d f).decRuns d)
  | _ => .next s

/-- DEC_CONCEAL_TIMEOUT (Table 5.3, R379): CONCEAL_MAX is exceeded: SYNC, DEC_MUTE; a good frame visible at that instant wins and the race is counted. -/
def execDecConcealTimeout (d : DecId) (seen : Bool) (s : State) : Host.Outcome State Fault Refusal :=
  let x := s.decs[d]
  if x.state = .conceal ∧ s.concealMax d ≤ x.concealMs then
    if seen then .next ((s.race pgDec).updDec d (fun y => { y with state := .run, concealMs := 0 }))
    else .next (s.decMutes d)
  else .next s

/-! ### Commits of the DEC page (R152, R164) -/

/-- Whether a role has staged anything for a decoder. -/
def State.decStaged (s : State) (role : Nat) (d : DecId) : Bool :=
  (s.staged? role (keyOf pgDec (decEn.nth d.val))).isSome || (s.staged? role (keyOf pgDec (decConcealMax.nth d.val))).isSome

/-- The source that a role's commit would give a decoder. -/
def State.decWanted (s : State) (role : Nat) (d : DecId) : Bool × DecSrc :=
  (s.stgGet role pgDec (decEn.nth d.val) = 1,
   ⟨s.stgGet role pgDec (decSrcKind.nth d.val), s.stgGet role pgDec (decSrc.nth d.val), s.stgGet role pgDec (decSubch.nth d.val), s.stgGet role pgDec (decCodec.nth d.val)⟩)

/-- Whether the source fields of a decoder lie in their ranges. -/
def decSrcOk (x : DecSrc) : Bool :=
  match x.kind with
  | 0 => true
  | 1 => decide (x.src < 12)
  | 2 => decide (x.src < 96) && decide (x.sub < 4)
  | _ => false

/-- Whether the source lies in a role's partition. -/
def State.decSrcOwned (s : State) (role : Nat) (x : DecSrc) : Bool :=
  match x.kind with
  | 1 => match bedOf x.src with
    | some k => s.bedOwner k = role
    | none => true
  | 2 => match slcOf x.src with
    | some i => s.sliceOwner i = role
    | none => true
  | _ => true

/-- Whether a decoder is held by another owner, or by service following. -/
def State.decHeld (s : State) (role : Nat) (d : DecId) : Bool :=
  let x := s.decs[d]
  decide (x.state ≠ .idle) && (decide (x.owner ≠ role) || x.slot.isSome)

/-- The status of what a role's commit asks of one decoder. -/
def State.decStatus1 (s : State) (role : Nat) (d : DecId) : Status :=
  if !s.decStaged role d then .ok
  else
    let (en, src) := s.decWanted role d
    if !decSrcOk src then .badArg
    else if s.decPartition d ≠ role ∨ (en ∧ !s.decSrcOwned role src) then .accessDenied
    else if s.decHeld role d then .resourceBusy
    else .ok

/-- The status of a role's commit of the DEC page. -/
def State.decStatus (s : State) (role : Nat) : Status :=
  if !s.stagedInRange pgDec role then .badArg else firstBad ((List.finRange 24).map (fun d => s.decStatus1 role d))

/-- Whether a role's commit meets a decoder held by someone else (RES_CONFLICT). -/
def State.decConflict (s : State) (role : Nat) : Bool := (List.finRange 24).any (fun d => s.decStaged role d && s.decHeld role d)

/-- What a commit does to one decoder: a claim, a release, or EN = 0 followed by EN = 1 when the owner changes its source (R153). -/
def State.decChange (old s : State) (role : Nat) (d : DecId) : State :=
  let en := s.flag pgDec (decEn.nth d.val)
  let idle := decide ((s.decs[d]).state = .idle)
  if en && idle then s.decClaim d role none
  else if en && decide (s.decSource d ≠ old.decSource d) then (s.decClaim d role none).strmsGone (fun x => x.ofDec d)
  else if !en && !idle then s.decRelease d
  else s

/-- A role's commit of the DEC page takes effect. -/
def State.decApply (s : State) (role : Nat) : State :=
  let s1 := s.applyStaged pgDec role
  (List.finRange 24).foldl (fun t d => if s.decStaged role d then State.decChange s t role d else t) s1

end Sys2Proof.Machine
end

