-- ==== Sys2Proof/Machine/Demod.lean ====
section
/-! DEFINITION. AM and FM reception with RDS and AMSS (R97 to R131): restarts, the measures of a block, stereo, RDS synchronisation and the acceptance of Table 4.3, AMSS. -/

namespace Sys2Proof.Machine

/-- DEMOD in force of a slice: 0 NONE, 1 AM, 2 FM, 3 DRM, 4 DRM_PLUS. -/
def State.demodOf (s : State) (i : Slc) : Nat := s.get (pgSlc i) slcDemod

/-- Whether a slice demodulates: in use by the host or as a watch slice. -/
def State.demodRuns (s : State) (i : Slc) : Bool := decide ((s.slices[i]).use = .host) || decide ((s.slices[i]).use = .watch)

/-- The demodulator restarted (R101, R148): every decoded value and VALID bit cleared, every lock and synchronisation lost; counters stand. -/
def State.restartDemod (s : State) (i : Slc) : State :=
  let s1 := (s.clearRegs (pgAm i) 0x0C0 0x0D3).clearRegs (pgFm i) 0x0C0 0x0EF
  let s2 := (s1.clearRegs (pgFm i) 0x0F8 0x13F).clearRegs (pgDrm i) 0x0C0 0x0EF
  s2.updDemod i (fun _ => { Demod.fresh with since := s.time.mono })

/-- Whether bits that began some ticks ago come from before the last restart of a slice's demodulator (R101). -/
def State.straddles (s : State) (i : Slc) (ago : Nat) : Bool := decide (s.time.mono < (s.demods[i]).since + ago)

/-- The input of a slice. -/
def State.slcInp (s : State) (i : Slc) : Inp := inpOf (s.get (pgSlc i) slcInput)

/-- Whether side data of a slice whose bits began some ticks ago comes from a block tagged overrange (R66, R127). -/
def State.slcTagged (s : State) (i : Slc) (ago : Nat) : Bool := s.blocksTagged (s.slcInp i) (s.time.mono - ago) s.time.mono

/-! ### Carrier and pilot (R103, R107, R128) -/

/-- The page of the carrier status of a slice with AM or FM in force. -/
def State.carrierPage (s : State) (i : Slc) : Nat := if s.demodOf i = 1 then pgAm i else pgFm i

/-- The synchronous AM detector loses its lock and falls back to envelope output (R103). -/
def State.amDrop (s : State) (i : Slc) : State :=
  if s.flag (pgAm i) amCarrierLock then
    ((s.put (pgAm i) amCarrierLock 0).updDemod i (fun d => { d with fellBack := true })).raise (pgSlc i) evSlcCarrierLost
  else s

/-- AM_CARRIER_LOCK (R103): the loop of a synchronous detector has locked. -/
def execAmCarrierLock (i : Slc) (s : State) : Host.Outcome State Fault Refusal :=
  if s.demodRuns i ∧ s.demodOf i = 1 ∧ s.get (pgAm i) amDet ≠ 0 ∧ !s.flag (pgAm i) amCarrierLock then
    .next (((s.put (pgAm i) amCarrierLock 1).updDemod i (fun d => { d with fellBack := false })).raise (pgSlc i) evSlcCarrierLock)
  else .next s

/-- AM_CARRIER_DROP (R103). -/
def execAmCarrierDrop (i : Slc) (s : State) : Host.Outcome State Fault Refusal :=
  if s.demodRuns i ∧ s.demodOf i = 1 then .next (s.amDrop i) else .next s

/-- PILOT_LOCK (R107). -/
def execPilotLock (i : Slc) (s : State) : Host.Outcome State Fault Refusal :=
  if s.demodRuns i ∧ s.demodOf i = 2 ∧ !s.flag (pgFm i) fmPilotLock then
    .next ((s.put (pgFm i) fmPilotLock 1).raise (pgSlc i) evSlcPilotLock)
  else .next s

/-- PILOT_LOST (R107). -/
def execPilotLost (i : Slc) (s : State) : Host.Outcome State Fault Refusal :=
  if s.demodRuns i ∧ s.demodOf i = 2 ∧ s.flag (pgFm i) fmPilotLock then
    .next ((s.put (pgFm i) fmPilotLock 0).raise (pgSlc i) evSlcPilotLost)
  else .next s

/-- The carrier rule of R128 at a block, CNR in 0.25 dB: lost below 6 dB, back at 8 dB. DESIGN CHOICE (log 74): after a restart the carrier counts as lost until a block at 8 dB or more. -/
def State.carrierRule (s : State) (i : Slc) (cnr : Int) : State :=
  let had := (s.demods[i]).carrier
  if had ∧ cnr < 24 then (s.updDemod i (fun d => { d with carrier := false })).raise (pgSlc i) evSlcCarrierLost
  else if !had ∧ 32 ≤ cnr then (s.updDemod i (fun d => { d with carrier := true })).raise (pgSlc i) evSlcCarrierLock
  else s

/-- The attenuation of R106 for a CNR, in 0.25 dB: 1 dB for each dB below the threshold, up to the depth (in 0.5 dB). -/
def softMuteFor (en : Bool) (cnr th depth : Int) : Nat := if en then (clampInt (th - cnr) 0 (2 * depth)).toNat else 0

/-- The attenuation after a block on its way to a target, 0.25 dB: the whole depth within 20 ms up, within 200 ms down, in a straight line (R106; log 72). -/
def softMuteStep (now target depth : Rat) : Rat := if now ≤ target then min target (now + depth / 10) else max target (now - depth / 100)

/-- How far the high-cut has moved for a CNR, in 0.25 dB of its 12 dB travel (R111). -/
def hicutFor (en : Bool) (cnr th : Int) : Nat := if en then (clampInt (th - cnr) 0 48).toNat else 0

/-- The new stereo share of R108 in AUTO. -/
def blendStep (share : Rat) (pilot : Bool) (mp blendMp : Nat) (cnr lo hi : Int) : Rat :=
  let target : Rat := if !pilot ∨ blendMp < mp then 0 else max 0 (min 1 ((cnr - lo : Rat) / (hi - lo)))
  share + max (-1 / 5) (min (1 / 50) (target - share))

/-- The stereo share after a block (R108). -/
def State.shareAfter (s : State) (i : Slc) (mp : Nat) (cnr : Int) : Rat :=
  let p := pgFm i
  let pilot := s.flag p fmPilotLock
  match s.get p fmStereo with
  | 0 => blendStep (s.demods[i]).share pilot mp (s.get p fmBlendMp) cnr (s.get p fmBlendLo) (s.get p fmBlendHi)
  | 1 => 0
  | _ => if pilot then 1 else 0

/-! ### Audio (R98, R99, R102, R104, R106 to R111, R126) -/

/-- Exactly n samples of a list, a missing one as given. -/
def exactlyN {α : Type} (n : Nat) (z : α) (l : List α) : List α := l.take n ++ List.replicate (n - l.length) z

/-- The output of the AM detector, in parts per million of the carrier: the magnitude less its block mean; or against the carrier reference, from which the AMSS modulation is removed when AMSS_EN = 1, the in-phase component, the lower sideband or the upper (R102, R104). -/
def amDetect (det : Nat) (amss : Bool) (l : List AmSample) : List Int :=
  let mean := (l.map (·.mag)).sum / l.length
  l.map (fun x =>
    let inPhase := if amss then (x.i * x.c + x.q * x.s) / 1000000 else x.i
    let quad := if amss then (x.hq * x.c - x.hi * x.s) / 1000000 else x.hq
    match det with
    | 0 => x.mag - mean
    | 1 => inPhase
    | 2 => inPhase + quad
    | _ => inPhase - quad)

/-- The detector that an AM slice uses now: envelope while a synchronous one has no lock (R103). -/
def State.amDetNow (s : State) (i : Slc) : Nat := if s.flag (pgAm i) amCarrierLock then s.get (pgAm i) amDet else 0

/-- Audio appended to what a demodulator has delivered; audio older than 4 s is dropped. -/
def Demod.play (x : Demod) (now : Nat) (c : Clip) : Demod := { x with audio := clipsSince x.audio (now - 4 * secTicks) ++ [c] }

/-- The 96 samples of the block that ends now delivered, from its first instant on (R98). -/
def State.slcPlay (s : State) (i : Slc) (conceal : Bool) (l : List (Int × Int)) : State :=
  let from_ := s.time.mono - 1280000
  s.updDemod i (fun d => d.play s.time.mono ⟨from_, l.map (fun x => (clamp24 x.1, clamp24 x.2)), conceal, s.condIn (some (s.slcInp i)) from_ s.time.mono⟩)

/-- The audio of an AM block: 100 % modulation at 1 kHz is −6 dBFS, whatever the carrier; high-pass, low-pass at the passband edge, soft mute; the same on both channels (R98, R99, R106). -/
def State.amAudio (s : State) (i : Slc) (l : List AmSample) : State :=
  let d := s.demods[i]
  let x := (amDetect (s.amDetNow i) (s.flag (pgAm i) amAmssEn) (exactlyN 96 ⟨1000000, 1000000, 0, 0, 0, 1000000, 0⟩ l)).map (fun v => v * 4204263 / 1000000)
  let (band, y) := Config.amBand (passEdge (s.get (pgSlc i) slcFilter)) d.band x
  let g := dbFactor (-(d.softMute * 250).floor)
  ((exactlyN 96 0 y).map (scaleBy g)).foldr (fun v l => (v, v) :: l) [] |> (s.updDemod i (fun d => { d with band := band })).slcPlay i false

/-- The time constant of DEEMPH in µs (R110). -/
def deemphTau : Nat → Nat
  | 1 => 50 | 2 => 75 | _ => 0

/-- One channel of an FM block through de-emphasis, high-cut and soft mute (R110, R111). -/
def fmChannel (tau hicut : Nat) (gain : Nat) (de hc : FiltMem) (l : List Int) : (FiltMem × FiltMem) × List Int :=
  let a := deEmphasis tau de l
  let b := highCut hicut hc a.2
  ((a.1, b.1), b.2.map (scaleBy gain))

/-- The audio of an FM block: 75 kHz deviation is −6 dBFS; left (L+R) + s(L−R), right (L+R) − s(L−R), each de-emphasised, cut and muted (R99, R108, R110, R111). -/
def State.fmAudio (s : State) (i : Slc) (l : List FmSample) : State :=
  let d := s.demods[i]
  let scale := fun (v : Int) => v * 4204263 / 75000000
  let side := fun (x : FmSample) => d.share.num * scale x.diff / d.share.den
  let xs := exactlyN 96 ⟨0, 0⟩ l
  let tau := deemphTau (s.get (pgFm i) fmDeemph)
  let g := dbFactor (-(d.softMute * 250).floor)
  let a := fmChannel tau d.hicut g d.deemph[0] d.hicutMem[0] (xs.map (fun x => scale x.sum + side x))
  let b := fmChannel tau d.hicut g d.deemph[1] d.hicutMem[1] (xs.map (fun x => scale x.sum - side x))
  (s.updDemod i (fun d => { d with deemph := #v[a.1.1, b.1.1], hicutMem := #v[a.1.2, b.1.2] })).slcPlay i false (a.2.zip b.2)

/-- The audio of a slice in a gap: concealed for 50 ms, then ramped to mute over 10 ms, then none; none where none has been heard since the restart (R14, R126). DEDUCED (log 72): PCM carries the concealed audio, not mulch. -/
def State.slcConceal (s : State) (i : Slc) (gone : Nat) : State :=
  let heard := clipFrames (s.demods[i]).audio
  let l := Config.concealed heard [] 96
  if heard = [] ∨ 60 * msTicks ≤ gone then s
  else if gone < 50 * msTicks then s.slcPlay i true (exactlyN 96 (0, 0) l)
  else s.slcPlay i true ((fadeFrames false 480 (List.replicate ((gone - 50 * msTicks) * 48 / msTicks) (0, 0) ++ exactlyN 96 (0, 0) l)).drop ((gone - 50 * msTicks) * 48 / msTicks))

/-- A valid block of an AM slice (R105, R106, Table 4.11). -/
def State.amBlock (s : State) (i : Slc) (m : BlockMeas) : State :=
  let p := pgAm i
  let s1 := s.puts p [(amValid, 1), (amCarrier, bit (decide (24 ≤ m.cnr))), (amModDepth, min m.depth 255), (amCnr, (clampInt m.cnr 0 255).toNat),
    (amOffset, twos 32 m.offset)]
  let depth := s.get p amSoftmuteDepth
  let s2 := s1.updDemod i (fun d => { d with softMute := softMuteStep d.softMute (softMuteFor (s.flag p amSoftmuteEn) m.cnr (s.get p amSoftmuteTh) depth) (2 * depth) })
  let s3 := if s.get p amDet = 0 then s2.carrierRule i m.cnr
    else if m.cnr < 24 then s2.amDrop i
    else s2
  s3.amAudio i m.am

/-- A valid block of an FM slice (R108, R111, R112, R128, Table 4.12). -/
def State.fmBlock (s : State) (i : Slc) (m : BlockMeas) : State :=
  let p := pgFm i
  let mp := min m.mp 255
  let share := s.shareAfter i mp m.cnr
  let s1 := (s.puts p [(fmValid, 1), (fmMp, mp), (fmDevPeak, min m.devPeak 4095), (fmCnr, (clampInt m.cnr 0 255).toNat), (fmOffset, twos 32 m.offset),
    (fmPilotDev, min m.pilotDev 4095), (fmStereoShare, ((share * 255 + 1 / 2).floor).toNat)]).carrierRule i m.cnr
  let s2 := s1.put p fmCarrier (bit (s1.demods[i]).carrier)
  let depth := s.get p fmSoftmuteDepth
  let s3 := s2.updDemod i (fun d => { d with
    share := share
    softMute := softMuteStep d.softMute (if d.carrier then softMuteFor (s.flag p fmSoftmuteEn) m.cnr (s.get p fmSoftmuteTh) depth else 2 * depth) (2 * depth)
    hicut := hicutFor (s.flag p fmHicutEn) m.cnr (s.get p fmHicutTh) })
  s3.fmAudio i m.fm

/-! ### RDS (R113 to R121) -/

/-- The code of a sync record (Table 4.5). -/
def syncRecord (gained amss : Bool) (time : Nat) : List Quad :=
  [quadPack [(127, 120, 3), (119, 119, bit gained), (118, 118, bit amss), (95, 64, time)]]

/-- Whether one offset follows another (R114). -/
def follows : RdsOffset → RdsOffset → Bool
  | .a, .b => true | .b, .c => true | .b, .cPrime => true | .c, .d => true | .cPrime, .d => true | .d, .a => true
  | _, _ => false

/-- The position after a block of an offset. -/
def posAfter : RdsOffset → Nat
  | .a => 1 | .b => 2 | .c => 3 | .cPrime => 3 | .d => 0 | .e => 0

/-- Whether an offset is the one expected at a position; C′ is accepted in the third. -/
def offsetAt (pos : Nat) : RdsOffset → Bool
  | .a => pos = 0 | .b => pos = 1 | .c => pos = 2 | .cPrime => pos = 2 | .d => pos = 3 | .e => false

/-- Whether a block is correctable at its position (R115, R118): valid as received, or corrected within CORR_MAX bits in a burst of at most 5; in RBDS a valid offset E. -/
def blockGood (b : RdsBlk) (pos corrMax : Nat) (rbds : Bool) : Bool :=
  (match b.valid with
   | some o => offsetAt pos o || (rbds && decide (o = .e))
   | none => false) ||
  (match b.corrected with
   | some o => offsetAt pos o && decide (b.bits ≤ corrMax) && decide (b.burst ≤ 5)
   | none => false)

/-- Uncorrectable blocks among the last n. -/
def badAmong (l : List Bool) (n : Nat) : Nat := ((l.take n).filter id).length

/-- Whether RDS decoding runs on a slice (R114). -/
def State.rdsRuns (s : State) (i : Slc) : Bool := s.demodRuns i && decide (s.demodOf i = 2) && s.flag (pgFm i) fmRdsEn

/-- RDS synchronisation lost: event and record, dated by the last correctable block (R114, Table 4.5). -/
def State.rdsLost (s : State) (i : Slc) : State :=
  let ago := s.time.mono - (s.demods[i]).rds.lastGood
  let t := s.time.devAgo ago
  let s1 := (s.put (pgFm i) fmRdsSync 0).updDemod i (fun d => { d with rds := { d.rds with sync := false, last := none, pos := 0, bad := [], badRun := 0, first := false } })
  (s1.raise (pgSlc i) evSlcRdsSyncLost).sideRecord 1 i.val (syncRecord false false (t % 2 ^ 32)) false ago

/-- One block position counted (R114, Table 4.12): BLER over the last 100, loss after more than 45 of 50 or 30 in a row; `from_` is the root time of its first bit. DESIGN CHOICE (log 74): BLER is taken over the blocks so far while they are fewer than 100, and they are forgotten at each gain and loss of synchronisation. -/
def State.rdsCount (s : State) (i : Slc) (good : Bool) (from_ : Nat) : State :=
  let r := (s.demods[i]).rds
  let bad := ((!good) :: r.bad).take 100
  let run := if good then 0 else r.badRun + 1
  let s1 := if good then s else s.count (pgFm i) fmRdsBadCnt 1
  let s2 := (s1.put (pgFm i) fmBler (badAmong bad 100 * 1000 / bad.length)).updDemod i (fun d => { d with rds :=
    { d.rds with bad := bad, badRun := run, pos := (d.rds.pos + 1) % 4, lastGood := if good then from_ else d.rds.lastGood, blockAt := from_ } })
  if 45 < badAmong bad 50 ∨ 30 ≤ run then s2.rdsLost i else s2

/-- RDS_BLOCK (R101, R114, R115): a block of 26 bits, whose first bit came `ago` ticks ago. -/
def execRdsBlock (i : Slc) (b : RdsBlk) (ago : Nat) (s : State) : Host.Outcome State Fault Refusal :=
  let r := (s.demods[i]).rds
  let from_ := s.time.mono - ago
  let t := s.time.devAgo ago
  if !s.rdsRuns i ∨ s.straddles i ago then .next s
  else if r.sync then .next (s.rdsCount i (blockGood b r.pos (s.get (pgFm i) fmCorrMax) (s.flag (pgFm i) fmRdsStd)) from_)
  else
    match b.valid, r.last with
    | some o, some o' =>
      if b.spaced ∧ follows o' o then
        let s1 := (s.put (pgFm i) fmRdsSync 1).updDemod i (fun d => { d with rds :=
          { d.rds with sync := true, last := none, pos := posAfter o, bad := [], badRun := 0, first := true, lastGood := from_, blockAt := from_ } })
        .next ((s1.raise (pgSlc i) evSlcRdsSync).sideRecord 1 i.val (syncRecord true false (t % 2 ^ 32)) (s.slcTagged i ago) ago)
      else .next (s.updDemod i (fun d => { d with rds := { d.rds with last := some o } }))
    | o, _ => .next (s.updDemod i (fun d => { d with rds := { d.rds with last := o } }))

/-- What a block of a group brings: corrected bits, 7 where it is uncorrectable, and its information bits, as received where it is uncorrectable; whether its bits may enter a value (R115, R118, Table 4.4). -/
structure GrpVal where
  err : Nat
  info : BitVec 16
  use : Bool
deriving DecidableEq, Repr

/-- A block of a group under CORR_MAX; a block with offset E is one of RBDS alone, and enters no value. -/
def GrpBlk.read (b : GrpBlk) (corrMax : Nat) (rbds : Bool) : GrpVal :=
  if b.offE && !rbds || decide (min corrMax 5 < b.need) then ⟨7, b.raw, false⟩ else ⟨b.need, b.info, !b.offE⟩

/-- Whether a block has at most n corrected bits and may enter a value. -/
def GrpVal.within (b : GrpVal) (n : Nat) : Bool := b.use && decide (b.err ≤ n)

/-- The radio text cleared: registers and receptions. -/
def State.rtClear (s : State) (i : Slc) : State :=
  (((s.put (pgFm i) fmRtComplete 0).put (pgFm i) fmRtLen 0).clearRegs (pgFm i) 0x100 0x13F).updDemod i (fun d => { d with rds :=
    { d.rds with rt := Vector.replicate 16 ⟨none, none⟩, rtEnd := none } })

/-- PI accepted (Table 4.3): another PI than the one shown raises PI_CHANGE and clears PS, RT, AF and CT. -/
def State.acceptPi (s : State) (i : Slc) (pi : Nat) : State :=
  let p := pgFm i
  let had := s.flag p fmPiValid
  let changed := had && decide (s.get p fmPi ≠ pi)
  let s1 := if changed then
      let c := ((s.clearRegs p 0x0D4 0x0EF).clearRegs p 0x0FC 0x13F).updDemod i (fun d => { d with rds :=
        { d.rds with ps := Vector.replicate 4 ⟨none, none⟩, rt := Vector.replicate 16 ⟨none, none⟩, rtEnd := none, rtStarted := false, afNeed := 0, afCodes := [], afList := [] } })
      c.raise (pgSlc i) evSlcPiChange
    else s
  s1.puts p [(fmPiValid, 1), (fmPi, pi)]

/-- A reception of PI in a block A or C′: accepted when the one before was the same; an uncorrectable block breaks the succession. -/
def State.receivePi (s : State) (i : Slc) (b : GrpVal) : State :=
  let cand := (s.demods[i]).rds.piCand
  let v := if b.use then some b.info.toNat else none
  let s1 := s.updDemod i (fun d => { d with rds := { d.rds with piCand := v } })
  match v with
  | some n => if cand = some n then s1.acceptPi i n else s1
  | none => s1

/-- PTY and TP from a block B with at most one corrected bit, twice identical. DESIGN CHOICE (log 74): a block B with more corrected bits between the two does not break the succession; nor for TA, MS and PS a group or segment missed. -/
def State.receivePty (s : State) (i : Slc) (b : GrpVal) : State :=
  if b.within 1 then
    let v := b.info.toNat / 32 % 64
    let s1 := s.updDemod i (fun d => { d with rds := { d.rds with bCand := some v } })
    if (s.demods[i]).rds.bCand = some v then s1.puts (pgFm i) [(fmTp, v / 32), (fmPty, v % 32)] else s1
  else s

/-- TA and MS from a block B of a 0A or 0B group with at most one corrected bit, twice identical. -/
def State.receiveTa (s : State) (i : Slc) (b : GrpVal) : State :=
  if b.within 1 then
    let v := b.info.toNat / 8 % 4
    let s1 := s.updDemod i (fun d => { d with rds := { d.rds with taCand := some v } })
    if (s.demods[i]).rds.taCand = some v then s1.puts (pgFm i) [(fmTa, v / 2), (fmMs, v % 2)] else s1
  else s

/-- A reception of a text segment: the segment, and whether it is now accepted with this value. -/
def Seg.receive (x : Seg) (v : Nat) : Seg := if x.cand = some v then ⟨some v, some v⟩ else ⟨some v, x.acc⟩

/-- A PS segment received (Table 4.3). -/
def State.receivePs (s : State) (i : Slc) (seg : Fin 4) (chars : Nat) : State :=
  let p := pgFm i
  let x := ((s.demods[i]).rds.ps[seg]).receive chars
  let s1 := s.updDemod i (fun d => { d with rds := { d.rds with ps := d.rds.ps.set seg x } })
  if x.acc = some chars then
    let off := 0x0D4 + 4 * (seg.val / 2)
    let f : Fld := if seg.val % 2 = 0 then ⟨off, 0, 31, 16⟩ else ⟨off, 0, 15, 0⟩
    let s2 := (s1.put p f chars).put p fmPsSeg (s.get p fmPsSeg ||| 2 ^ seg.val)
    if s2.get p fmPsSeg = 15 ∧ !s2.flag p fmPsComplete then (s2.put p fmPsComplete 1).raise (pgSlc i) evSlcPsComplete else s2
  else s1

/-- The characters of a text segment of n bytes. -/
def segBytes (n v : Nat) : List Byte := bytesBE n v

/-- The first segment that holds the end mark 0x0D. -/
def rtEndOf (l : List Seg) (n : Nat) : Option Nat :=
  (List.range l.length).find? (fun k => match (l[k]?).bind Seg.acc with
    | some v => (segBytes n v).contains 0x0D
    | none => false)

/-- Whether the segments up to the end mark, or all of them, are accepted. -/
def rtDone (l : List Seg) (stop : Option Nat) : Bool :=
  (l.take (match stop with
    | some k => k + 1
    | none => l.length)).all (fun x => x.acc.isSome)

/-- The characters accepted, up to the end mark. -/
def rtLength (l : List Seg) (n : Nat) (stop : Option Nat) : Nat :=
  (List.range l.length).foldl (fun m k => match (l[k]?).bind Seg.acc with
    | some v =>
      if stop = some k then m + ((segBytes n v).takeWhile (fun b => b ≠ 0x0D)).length
      else if (match stop with
        | some e => decide (e < k)
        | none => false) then m else m + n
    | none => m) 0

/-- A text whose A/B flag has toggled, or the first, cleared (Table 4.3). -/
def State.rtToggle (s : State) (i : Slc) (ab : Bool) : State :=
  if !(s.demods[i]).rds.rtStarted ∨ s.flag (pgFm i) fmRtAb ≠ ab then
    ((s.rtClear i).put (pgFm i) fmRtAb (bit ab)).updDemod i (fun d => { d with rds := { d.rds with rtStarted := true } })
  else s

/-- A segment as one of n characters: what is accepted of the other length counts for nothing. -/
def Seg.ofLength (n : Nat) (x : Seg) : Seg := { x with acc := x.acc.bind (fun v => if v / 2 ^ 32 = n then some v else none) }

/-- An RT segment received (Table 4.3): `n` characters (4 in 2A, 2 in 2B). -/
def State.receiveRt (s : State) (i : Slc) (seg : Fin 16) (n chars : Nat) : State :=
  let p := pgFm i
  let v := n * 2 ^ 32 + chars
  let x := ((s.demods[i]).rds.rt[seg]).receive v
  let s1 := s.updDemod i (fun d => { d with rds := { d.rds with rt := d.rds.rt.set seg x } })
  if x.acc = some v then
    let f : Fld := if n = 4 then ⟨0x100 + 4 * seg.val, 0, 31, 0⟩
      else if seg.val % 2 = 0 then ⟨0x100 + 4 * (seg.val / 2), 0, 31, 16⟩ else ⟨0x100 + 4 * (seg.val / 2), 0, 15, 0⟩
    let l := (s1.demods[i]).rds.rt.toList.map (Seg.ofLength n)
    let stop := rtEndOf l n
    let s2 := ((s1.put p f chars).put p fmRtLen (rtLength l n stop)).updDemod i (fun d => { d with rds := { d.rds with rtEnd := stop } })
    if rtDone l stop ∧ !s2.flag p fmRtComplete then (s2.put p fmRtComplete 1).raise (pgSlc i) evSlcRtComplete else s2
  else s1

/-- Clock time from a 4A group whose blocks B, C and D have no corrected bit (Table 4.3, R117). -/
def State.receiveCt (s : State) (i : Slc) (b c d : GrpVal) (time : Nat) : State :=
  if b.within 0 ∧ c.within 0 ∧ d.within 0 then
    let x := d.info.toNat
    let s1 := s.puts (pgFm i) [(fmCtValid, 1), (fmMjd, b.info.toNat % 4 * 2 ^ 15 + c.info.toNat / 2), (fmHour, c.info.toNat % 2 * 16 + x / 2 ^ 12),
      (fmMinute, x / 64 % 64), (fmLocalOfs, x % 64), (fmCtTime, time % 2 ^ 32)]
    s1.raise (pgSlc i) evSlcCtReceived
  else s

/-- A list of alternative frequencies handed to service following, and what the registers show of it. -/
def State.receiveAf (s : State) (i : Slc) (methodB : Bool) (fs : List Freq) : State :=
  (s.puts (pgFm i) [(fmAfValid, 1), (fmAfMethod, bit methodB), (fmAfCount, min fs.length 25)]).updDemod i (fun d => { d with rds := { d.rds with afList := fs.take 25 } })

/-- The frequency of an AF code in the FM table of IEC 62106. PRESUMED (log 75). -/
def afFm (c : Nat) : Option Freq := if 1 ≤ c ∧ c ≤ 204 then some (.fm, 87500 + 100 * c) else none

/-- The frequency of an AF code in the LF/MF table of IEC 62106. PRESUMED (log 75). -/
def afLm (c : Nat) : Option Freq :=
  if 1 ≤ c ∧ c ≤ 15 then some (.am, 144 + 9 * c) else if 16 ≤ c ∧ c ≤ 135 then some (.am, 387 + 9 * c) else none

/-- An AF code as kept: one of the LF/MF table 1,000 up. -/
def afOf (c : Nat) : Option Freq := if 1000 ≤ c then afLm (c - 1000) else afFm c

/-- The two codes of a block taken into an AF list under reception: codes still to come, and codes so far. The first pair gives the number of codes and the first of them; 250 says that an LF/MF code follows; 205 is filler. PRESUMED (log 75). -/
def afTake (need : Nat) (codes : List Nat) (c1 c2 : Nat) : Nat × List Nat :=
  let add := fun (l : List Nat) => (need - l.length, codes ++ l)
  if 225 ≤ c1 ∧ c1 ≤ 249 then (c1 - 225, [c2])
  else if need = 0 then (0, [])
  else if c1 = 250 then add [1000 + c2]
  else add ([c1, c2].filter (fun c => decide (c ≠ 205)))

/-- The frequencies of a complete AF list that pair with its first, when each pair holds that one: method B (IEC 62106). PRESUMED (log 75). -/
def afPairs (t : Nat) : List Nat → Option (List Nat)
  | a :: b :: l => if a = t then (afPairs t l).map (b :: ·) else if b = t then (afPairs t l).map (a :: ·) else none
  | [] => some []
  | [_] => none

/-- A complete AF list: method B or not, and its frequencies. -/
def afDone : List Nat → Bool × List Freq
  | t :: l =>
    match l, afPairs t l with
    | _ :: _, some o => (true, o.filterMap afOf)
    | _, _ => (false, (t :: l).filterMap afOf)
  | [] => (false, [])

/-- Block C of a 0A group (Table 4.3). -/
def State.receiveAfBlock (s : State) (i : Slc) (c : GrpVal) : State :=
  let r := (s.demods[i]).rds
  let x := afTake r.afNeed r.afCodes (c.info.toNat / 256) (c.info.toNat % 256)
  let s1 := s.updDemod i (fun d => { d with rds := { d.rds with afNeed := x.1, afCodes := x.2 } })
  if x.1 = 0 ∧ x.2 ≠ [] then
    let f := afDone x.2
    (s1.receiveAf i f.1 f.2).updDemod i (fun d => { d with rds := { d.rds with afCodes := [] } })
  else s1

/-- Frequencies of another programme handed to service following, keyed by its PI: a list in place of the one before, or added to it. -/
def State.receiveEon (s : State) (i : Slc) (pi : Nat) (add : Bool) (fs : List Freq) : State :=
  s.updDemod i (fun d =>
    let had := ((d.rds.eon.find? (fun x => x.1 = pi)).map (·.2)).getD []
    { d with rds := { d.rds with eon := (pi, if add then had ++ fs.filter (fun f => !had.contains f) else fs) :: d.rds.eon.filter (fun x => x.1 ≠ pi) } })

/-- A 14A group (IEC 62106): variant 4 carries an AF list of PI(ON), 5 to 8 a frequency mapped to its second code, 9 one of the LF/MF table. PRESUMED (log 75). -/
def State.receiveEonBlock (s : State) (i : Slc) (variant : Nat) (c d : GrpVal) : State :=
  let pi := d.info.toNat
  let c1 := c.info.toNat / 256
  let c2 := c.info.toNat % 256
  if variant = 4 then
    let had := (((s.demods[i]).rds.eonNeed.find? (fun x => x.1 = pi)).map (·.2)).getD (0, [])
    let x := afTake had.1 had.2 c1 c2
    let done := decide (x.1 = 0) && decide (x.2 ≠ [])
    let s1 := s.updDemod i (fun d => { d with rds := { d.rds with
      eonNeed := (pi, x.1, if done then [] else x.2) :: d.rds.eonNeed.filter (fun y => decide (y.1 ≠ pi)) } })
    if done then s1.receiveEon i pi false (x.2.filterMap afOf) else s1
  else if 5 ≤ variant ∧ variant ≤ 8 then s.receiveEon i pi true (afFm c2).toList
  else if variant = 9 then s.receiveEon i pi true (afLm c2).toList
  else s

/-- The group record of Table 4.4. -/
def groupRecord (a b c d : GrpVal) (cPrime eBlock first ovr : Bool) (time : Nat) : List Quad :=
  [quadPack [(127, 120, 1), (119, 117, a.err), (116, 114, b.err), (113, 111, c.err), (110, 108, d.err), (107, 107, bit cPrime), (106, 106, bit eBlock),
    (105, 105, bit first), (104, 104, bit ovr), (95, 64, time), (63, 48, a.info.toNat), (47, 32, b.info.toNat), (31, 16, c.info.toNat), (15, 0, d.info.toNat)]]

/-- The values that a group carries by its type (Table 4.3); `t` is 2n for group nA, 2n + 1 for nB. -/
def State.groupValues (s : State) (i : Slc) (t : Nat) (b c d : GrpVal) (time : Nat) : State :=
  let x := b.info.toNat
  if t = 0 ∨ t = 1 then
    let s1 := s.receiveTa i b
    let s2 := if d.use then s1.receivePs i ⟨x % 4, by omega⟩ d.info.toNat else s1
    if t = 0 ∧ c.within 1 then s2.receiveAfBlock i c else s2
  else if t = 4 ∨ t = 5 then
    let s1 := s.rtToggle i (bitAt x 4)
    if !d.use then s1
    else if t = 5 then s1.receiveRt i ⟨x % 16, by omega⟩ 2 d.info.toNat
    else if c.use then s1.receiveRt i ⟨x % 16, by omega⟩ 4 (c.info.toNat * 65536 + d.info.toNat)
    else s1
  else if t = 6 then
    if d.use then s.updDemod i (fun y => { y with rds := { y.rds with oda := (x % 32, d.info.toNat) :: y.rds.oda.filter (fun o => decide (o.1 ≠ x % 32)) } }) else s
  else if t = 8 then s.receiveCt i b c d time
  else if t = 28 then (if b.within 1 ∧ c.within 1 ∧ d.use then s.receiveEonBlock i (x % 16) c d else s)
  else s

/-- A group position while synchronised: its record, and its values under Table 4.3 (R113, R115, R116, R118, R120, R121). -/
def State.receiveGroup (s : State) (i : Slc) (a b c d : GrpBlk) (cPrime : Bool) (ago : Nat) : State :=
    let r := (s.demods[i]).rds
    let p := pgFm i
    let rbds := s.flag p fmRdsStd
    let rd := fun (x : GrpBlk) => GrpBlk.read x (s.get p fmCorrMax) rbds
    let time := s.time.devAgo ago
    let ovr := s.slcTagged i ago
    let t := (rd b).info.toNat / 2 ^ 11
    let wanted := if (rd b).err = 7 then s.flag p fmRdsUnknown else bitAt (s.get p fmRdsMask) t
    let e := rbds && (a.offE || b.offE || c.offE || d.offE)
    let s1 := (s.count p fmRdsGrpCnt 1).updDemod i (fun x => { x with rds := { x.rds with first := false } })
    let s2 := if wanted then s1.sideRecord 1 i.val (groupRecord (rd a) (rd b) (rd c) (rd d) cPrime e r.first ovr (time % 2 ^ 32)) ovr ago else s1
    let s3 := s2.receivePi i (rd a)
    let s4 := if cPrime then s3.receivePi i (rd c) else s3
    if (rd b).use then (s4.receivePty i (rd b)).groupValues i t (rd b) (rd c) (rd d) time else s4

/-- RDS_GROUP (R101, R115, R121): the four blocks of a group position as received, whether block C carries C', and by block whether it carries offset E, the bits that correction needs, and the information as corrected. -/
def execRdsGroup (i : Slc) (a b c d : BitVec 16) (cPrime : Bool) (offE : Vector Bool 4) (need : Vector Nat 4) (info : Vector (BitVec 16) 4) (ago : Nat) (s : State) :
    Host.Outcome State Fault Refusal :=
  if !s.rdsRuns i ∨ !(s.demods[i]).rds.sync ∨ s.straddles i ago then .next s
  else
    let blk := fun (raw : BitVec 16) (k : Fin 4) => (⟨raw, info[k], need[k], offE[k]⟩ : GrpBlk)
    .next (s.receiveGroup i (blk a 0) (blk b 1) (blk c 2) (blk d 3) cPrime ago)

/-! ### AMSS (R119) -/

/-- The AMSS block record (Table 4.5). -/
def amssRecord (block : Nat) (ok ovr : Bool) (time data : Nat) : List Quad :=
  [quadPack [(127, 120, 2), (119, 118, block), (117, 117, bit (!ok)), (116, 116, bit ovr), (95, 64, time), (35, 0, data)]]

/-- AMSS synchronisation lost, dated by the last block that passed (Table 4.5). -/
def State.amssLost (s : State) (i : Slc) : State :=
  let ago := s.time.mono - (s.demods[i]).amss.lastGood
  let s1 := (s.put (pgAm i) amAmssSync 0).updDemod i (fun d => { d with amss := { d.amss with sync := false, goodRun := 0, badRun := 0 } })
  (s1.raise (pgSlc i) evSlcAmssSyncLost).sideRecord 1 i.val (syncRecord false true (s.time.devAgo ago % 2 ^ 32)) false ago

/-- One AMSS block counted, passed or failed, its first bit at a root time (R119). -/
def State.amssCount (s : State) (i : Slc) (ok spaced : Bool) (from_ : Nat) : State :=
  (s.count (pgAm i) (if ok then amAmssGood else amAmssBad) 1).updDemod i (fun d => { d with amss := { d.amss with
    goodRun := if !ok then 0 else if spaced then d.amss.goodRun + 1 else 1, badRun := if ok then 0 else d.amss.badRun + 1,
    lastGood := if ok then from_ else d.amss.lastGood, blockAt := from_ } })

/-- Synchronisation lost after four blocks that fail in a row (R119). -/
def State.amssJudge (s : State) (i : Slc) : State :=
  if (s.demods[i]).amss.sync ∧ 4 ≤ (s.demods[i]).amss.badRun then s.amssLost i else s

/-- The service identifier of block 1: accepted when two in succession carry it. DESIGN CHOICE (log 74): a block 1 that fails between the two does not break the succession. -/
def State.receiveSid (s : State) (i : Slc) (sid : Nat) : State :=
  let s1 := s.updDemod i (fun d => { d with amss := { d.amss with sidCand := some sid } })
  if (s.demods[i]).amss.sidCand = some sid then s1.puts (pgAm i) [(amSidValid, 1), (amSid, sid)] else s1

/-- AMSS_BLOCK (R101, R119): a block of 47 bits that passed or failed its check, at the expected spacing from the last or not. -/
def execAmssBlock (i : Slc) (block : Nat) (ok spaced : Bool) (ago : Nat) (data : Nat) (sid : Option Nat) (afs : List Freq) (s : State) : Host.Outcome State Fault Refusal :=
  if !s.demodRuns i ∨ s.demodOf i ≠ 1 ∨ !s.flag (pgAm i) amAmssEn ∨ s.straddles i ago then .next s
  else
    let time := s.time.devAgo ago
    let ovr := s.slcTagged i ago
    let s1 := s.amssCount i ok spaced (s.time.mono - ago)
    let s2 := if !(s1.demods[i]).amss.sync ∧ 2 ≤ (s1.demods[i]).amss.goodRun then
        let g := (s1.put (pgAm i) amAmssSync 1).updDemod i (fun d => { d with amss := { d.amss with sync := true } })
        (g.raise (pgSlc i) evSlcAmssSync).sideRecord 1 i.val (syncRecord true true (time % 2 ^ 32)) ovr ago
      else s1
    if !(s2.demods[i]).amss.sync then .next s2
    else
      let s3 := s2.sideRecord 1 i.val (amssRecord block ok ovr (time % 2 ^ 32) data) ovr ago
      let s4 := if ok ∧ block = 1 then (match sid with
          | some v => s3.receiveSid i v
          | none => s3)
        else if ok then s3.updDemod i (fun d => { d with amss := { d.amss with afs := if afs = [] then d.amss.afs else afs } })
        else s3
      .next (s4.amssJudge i)

/-! ### Gaps (R126) -/

/-- RDS blocks, 26 bits at 1,187.5 bit/s, that have fallen due by a root time since one that began at another. -/
def rdsDue (from_ now : Nat) : Nat := (now - from_) * 11875 / 166400000000 - 1

/-- AMSS blocks, 47 bits at 46.875 bit/s, that have fallen due. -/
def amssDue (from_ now : Nat) : Nat := (now - from_) * 46875 / 30080000000000 - 1

/-- The RDS blocks of a slice that fell due in the mulch block that ends now, each uncorrectable. DESIGN CHOICE (log 74): they count in SLC_RDS_BAD_CNT and BLER too. -/
def State.gapRds (s : State) (i : Slc) : State :=
  let from_ := (s.demods[i]).rds.blockAt
  let now := s.time.mono
  if s.rdsRuns i ∧ (s.demods[i]).rds.sync then
    let t := (List.range (rdsDue from_ now - rdsDue from_ (now - 1280000))).foldl (fun s _ => if (s.demods[i]).rds.sync then s.rdsCount i false from_ else s) s
    t
  else s

/-- The same for AMSS (R119). -/
def State.gapAmss (s : State) (i : Slc) : State :=
  let from_ := (s.demods[i]).amss.blockAt
  let now := s.time.mono
  if s.demodRuns i ∧ s.demodOf i = 1 ∧ s.flag (pgAm i) amAmssEn ∧ (s.demods[i]).amss.sync then
    (List.range (amssDue from_ now - amssDue from_ (now - 1280000))).foldl (fun s _ => (s.amssCount i false true from_).amssJudge i) s
  else s

/-- One mulch block for the demodulator: it holds, its audio is concealed; blocks that fall due count as uncorrectable; a gap beyond 50 ms makes a restart due when valid blocks return. -/
def State.gapBlock (s : State) (i : Slc) : State :=
  let old := (s.slices[i]).gapTicks
  let new := old + 1280000
  let s1 := (s.updSlc i (fun x => { x with gapTicks := new, restartDue := x.restartDue || decide (50 * msTicks < new) })).slcConceal i old
  if new ≤ 50 * msTicks then (s1.gapRds i).gapAmss i else s1

/-- A valid block after a gap: a gap beyond 50 ms restarts the demodulator (R101, R126). -/
def State.gapEnd (s : State) (i : Slc) : State :=
  let s1 := s.updSlc i (fun x => { x with gapTicks := 0, restartDue := false })
  if (s.slices[i]).restartDue then s1.restartDemod i else s1

/-- DEMOD_GAP_RESTART (R126): valid blocks return after a gap of more than 50 ms. -/
def execDemodGapRestart (i : Slc) (s : State) : Host.Outcome State Fault Refusal :=
  if s.demodRuns i ∧ (s.slices[i]).restartDue ∧ s.sliceLive i then .next (s.gapEnd i) else .next s

end Sys2Proof.Machine
end

