-- ==== Sys2Proof/Machine/Drm.lean ====
section
/-! DEFINITION. DRM in a slice (R147 to R151, R161): FAC and SDC, reconfiguration, loss of synchronisation. -/

namespace Sys2Proof.Machine

/-- Whether a slice receives DRM. -/
def State.drmRuns (s : State) (i : Slc) : Bool := s.demodRuns i && (decide (s.demodOf i = 3) || decide (s.demodOf i = 4))

/-- Whether the slice searches a robustness mode: mode E under DRM_PLUS, the forced one, else A to D (R149). -/
def State.drmModeOk (s : State) (i : Slc) (mode : Nat) : Bool :=
  if s.demodOf i = 4 then mode = 5
  else
    let f := s.get (pgDrm i) drmModeForce
    decide (1 ≤ mode) && decide (mode ≤ 4) && (f = 0 || decide (f = mode))

/-- A record of more than one word (R158). -/
def longRecord (rtype src : Nat) (err ovr : Bool) (time : Nat) (fields : List (Nat × Nat × Nat)) (data : List Quad) : List Quad :=
  quadPack ([(127, 120, rtype), (119, 112, data.length + 1), (111, 111, bit ovr), (110, 110, bit err), (109, 104, src), (95, 64, time)] ++ fields) :: data

/-- The entries of the services of a DRM signal (Table 5.21). -/
def State.putServices (s : State) (i : Slc) (l : List DrmService) : State :=
  let p := pgDrm i
  (List.range 4).foldl (fun s k =>
    match l.find? (fun v => v.slot.val = k) with
    | some v => s.puts p [(drmValid_0d0.nth k, 1), (drmAudio.nth k, bit v.audio), (drmCa.nth k, bit v.ca), (drmStream.nth k, v.stream), (drmSid.nth k, v.sid)]
    | none => s.puts p [(drmValid_0d0.nth k, 0), (drmAudio.nth k, 0), (drmCa.nth k, 0), (drmStream.nth k, 0), (drmSid.nth k, 0)]) s

/-- The entries of the streams of a DRM signal (Table 5.21). -/
def State.putStreams (s : State) (i : Slc) (l : List DrmStream) : State :=
  let p := pgDrm i
  (List.range 4).foldl (fun s k =>
    match l.find? (fun v => v.slot.val = k) with
    | some v => s.puts p [(drmValid_0e0.nth k, 1), (drmCoding.nth k, v.coding), (drmBitrate.nth k, v.bitrate)]
    | none => s.puts p [(drmValid_0e0.nth k, 0), (drmCoding.nth k, 0), (drmBitrate.nth k, 0)]) s

/-- The decoders of a DRM slice whose stream is no longer defined lose their source. -/
def State.drmDecsCheck (s : State) (i : Slc) : State :=
  s.decsGone (fun x => x.kind = 2 && x.src = i.val && !s.flag (pgDrm i) (drmValid_0e0.nth x.sub))

/-- DRM synchronisation lost: locks, FAC, SDC and the tables cleared, DRM_SYNC_LOST, decoders without a source (R151, Table 5.3). VALID and the last measures stand, since only a restart clears them (Table 5.21). -/
def State.drmLost (s : State) (i : Slc) : State :=
  let p := pgDrm i
  if (s.demods[i]).drm.synced then
    let s1 := s.puts p [(drmSdcOk, 0), (drmFacOk, 0), (drmFrameSync, 0), (drmFreqSync, 0), (drmTimeSync, 0), (drmRobMode, 0), (drmOcc, 0), (drmInterleave, 0),
      (drmMscQam, 0), (drmSdcQam, 0)]
    let s2 := (s1.clearRegs p 0x0D0 0x0EF).updDemod i (fun d => { d with drm := Demod.fresh.drm })
    (s2.raise (pgSlc i) evSlcDrmSyncLost).slcDecsGone i
  else s

/-- What a transmission frame shows, whatever becomes of its FAC (R161, Table 5.21): each lock as it is, and the measures of a frame that was demodulated. -/
def State.drmMeasure (s : State) (i : Slc) (m : DrmMeas) : State :=
  let p := pgDrm i
  let s1 := s.puts p [(drmFrameSync, bit m.frame), (drmFreqSync, bit m.freq), (drmTimeSync, bit m.timing)]
  if m.frame then
    s1.puts p [(drmValid_0c0, 1), (drmMer, min m.mer 1023), (drmMerFac, min m.merFac 1023), (drmOffset, twos 32 m.offset), (drmDoppler, min m.doppler 65535),
      (drmDelay, min m.delay 65535)]
  else s1

/-- A FAC block that failed its CRC: counted; 8 in a row in modes A to D, 20 in mode E, end synchronisation (R151). -/
def State.facBad (s : State) (i : Slc) : State :=
  let p := pgDrm i
  let run := (s.demods[i]).drm.facBadRun + 1
  let s1 := ((s.count p drmFacBad 1).put p drmFacOk 0).updDemod i (fun d => { d with drm := { d.drm with facBadRun := run } })
  if (if s.get p drmRobMode = 5 then 20 else 8) ≤ run then s1.drmLost i else s1

/-- A FAC block accepted (R150): its parameters; a new reconfiguration index announces a change, which is held for its superframe. -/
def State.facGood (s : State) (i : Slc) (f : Fac) (ago : Nat) : State :=
  let p := pgDrm i
  let d := (s.demods[i]).drm
  let s1 := (s.count p drmFacGood 1).puts p [(drmFacOk, 1), (drmRobMode, f.robMode), (drmOcc, f.occ), (drmInterleave, bit f.interleave), (drmMscQam, f.mscQam),
    (drmSdcQam, f.sdcQam)]
  let announce := d.synced && (match d.reconf with
    | some r => decide (r ≠ f.reconf)
    | none => false)
  let s2 := s1.updDemod i (fun x => { x with drm := { x.drm with
      synced := true, facBadRun := 0, reconf := some f.reconf
      sdcSince := x.drm.synced && x.drm.sdcSince, pending := x.drm.pending || announce, nextServices := f.services,
      nextStreams := if announce then [] else x.drm.nextStreams } })
  let s3 := if announce then s2.raise (pgSlc i) evSlcDrmReconfig else s2
  let s4 := if (s3.demods[i]).drm.pending then s3 else s3.putServices i f.services
  let s5 := if d.synced then s4 else s4.raise (pgSlc i) evSlcDrmSync
  let ovr := s.slcTagged i ago
  if s.flag p drmFacRec then s5.sideRecord 1 i.val (longRecord 0x20 0 false ovr (s.time.devAgo ago % 2 ^ 32) [(103, 96, f.robMode)] [f.bits]) ovr ago else s5

/-- The text messages of a transmission frame as records, with TEXT_REC (Table 5.4). -/
def State.textRecords (s : State) (i : Slc) (texts : List TextMsg) (ago : Nat) : State :=
  let ovr := s.slcTagged i ago
  if s.flag (pgDrm i) drmTextRec then
    texts.foldl (fun s m => s.sideRecord 1 i.val
      (longRecord 0x22 m.stream false ovr (s.time.devAgo ago % 2 ^ 32) [(63, 56, m.bytes.length), (55, 55, bit m.toggle)] (packBytes m.bytes)) ovr ago) s
  else s

/-- DRM_FAC (R101, R150, R151, R161): a transmission frame with its FAC block, its first bit `ago` ticks ago; none where the CRC failed. -/
def execDrmFac (i : Slc) (f : Option Fac) (m : DrmMeas) (texts : List TextMsg) (ago : Nat) (s : State) : Host.Outcome State Fault Refusal :=
  if !s.drmRuns i ∨ s.straddles i ago then .next s
  else match f with
    | none => .next (((s.drmMeasure i m).facBad i).textRecords i texts ago)
    | some x =>
      if s.drmModeOk i x.robMode then .next (((s.drmMeasure i { m with timing := true, freq := true, frame := true }).facGood i x ago).textRecords i texts ago) else .next s

/-- An SDC accepted (R132, R150, Table 5.4): streams, those of the next configuration held for the superframe of its change; labels, applications, languages; SDC_OK, alternative frequencies, its record. -/
def State.sdcGood (s : State) (i : Slc) (x : Sdc) (ago : Nat) : State :=
  let p := pgDrm i
  let d := (s.demods[i]).drm
  let s1 := ((s.count p drmSdcGood 1).put p drmSdcOk 1).putStreams i x.streams
  let fresh := decide (x.afs ≠ []) && decide (x.afs ≠ d.afs)
  let keep := fun (new old : List (Nat × List Byte)) => new ++ old.filter (fun o => !new.any (fun n => decide (n.1 = o.1)))
  let s2 := s1.updDemod i (fun y => { y with drm := { y.drm with
      sdcSince := true, afs := if fresh then x.afs else y.drm.afs, sdc := x.bytes, nextStreams := if x.next = [] then y.drm.nextStreams else x.next
      labels := keep x.labels y.drm.labels, apps := keep x.apps y.drm.apps, langs := keep x.langs y.drm.langs } })
  let s3 := if d.sdcSince then s2 else s2.raise (pgSlc i) evSlcSdcOk
  let s4 := if fresh then s3.raise (pgSlc i) evSlcAfsUpdate else s3
  let rec_ := s.get p drmSdcRec
  let ovr := s.slcTagged i ago
  let s5 := if rec_ = 2 ∨ (rec_ = 1 ∧ d.sdc ≠ x.bytes) then
      s4.sideRecord 1 i.val (longRecord 0x21 0 false ovr (s.time.devAgo ago % 2 ^ 32) [(63, 48, x.bytes.length), (47, 44, x.afsIndex)] ((packBytes x.bytes).take 254)) ovr ago
    else s4
  s5.drmDecsCheck i

/-- DRM_SDC (R101, R150): the SDC of a superframe, and whether its CRC passed. -/
def execDrmSdc (i : Slc) (ok : Bool) (x : Sdc) (ago : Nat) (s : State) : Host.Outcome State Fault Refusal :=
  if !s.drmRuns i ∨ !(s.demods[i]).drm.synced ∨ s.straddles i ago then .next s
  else if ok then .next (s.sdcGood i x ago)
  else .next ((s.count (pgDrm i) drmSdcBad 1).put (pgDrm i) drmSdcOk 0)

/-- DRM_RECONFIG_APPLY (R150): the superframe that FAC announced: the new services and streams take effect. -/
def execDrmReconfigApply (i : Slc) (s : State) : Host.Outcome State Fault Refusal :=
  let d := (s.demods[i]).drm
  if s.drmRuns i ∧ d.pending then
    let s1 := s.putServices i d.nextServices
    let s2 := if d.nextStreams = [] then s1 else s1.putStreams i d.nextStreams
    .next ((s2.updDemod i (fun x => { x with drm := { x.drm with pending := false, nextStreams := [] } })).drmDecsCheck i)
  else .next s

/-- DRM_SYNC_LOST (R151): a gap of 50 ms or more, or FAC failing for too long. -/
def execDrmSyncLost (i : Slc) (gap : Bool) (s : State) : Host.Outcome State Fault Refusal :=
  if s.drmRuns i ∧ (!gap || decide (50 * msTicks ≤ (s.slices[i]).gapTicks)) then
    let s1 := s.drmLost i
    .next (if gap then s1.updSlc i (fun x => { x with restartDue := true }) else s1)
  else .next s

end Sys2Proof.Machine
end

