-- ==== Sys2Proof/Machine/Beds.lean ====
section
/-! DEFINITION. Beds (R19, R80 to R83, R132 to R146): commits of a BED page, the states of Table 5.2, the FIC and the multiplex configuration. -/

namespace Sys2Proof.Machine

/-- The eight slices of a bed. -/
def bedSlices (k : BedId) : List Slc := (List.finRange 8).map (fun j => bedSlice k j)

/-- The EDGE class of a bed from its NCO word (R137): |word| × 10 MHz / 2^32 against 2.132 MHz and 3.832 MHz. -/
def bedEdgeOf (tune : Nat) : Nat :=
  let m := (signedOf 32 tune).natAbs * 10000000
  if m ≤ 2132000 * 2 ^ 32 then 0 else if m ≤ 3832000 * 2 ^ 32 then 1 else 2

/-! ### Commits (R19, R133 to R137, R164) -/

/-- Whether a commit of a BED page enables a bed that is not enabled. -/
def State.bedEnables (s : State) (k : BedId) : Bool := decide (s.stgGet 0 (pgBed k) pgEn = 1) && !s.flag (pgBed k) pgEn

/-- Whether a slice is owned or about to be (R18, R19). -/
def SliceSt.owned (x : SliceSt) : Bool := decide (x.use ≠ .idle) || decide (x.move ≠ .none)

/-- Whether an enable meets a slice that is owned. -/
def State.bedConflict (s : State) (k : BedId) : Bool := s.bedEnables k && (bedSlices k).any (fun i => (s.slices[i]).owned)

/-- The status of a commit of a BED page (R19, R164). -/
def State.bedStatus (s : State) (k : BedId) : Status :=
  if !s.stagedInRange (pgBed k) 0 then .badArg
  else if s.bedConflict k then .resourceBusy
  else .ok

/-- What an accepted commit of a BED page claims at its response (R134). -/
def State.bedClaim (s : State) (k : BedId) : State :=
  if s.bedEnables k then
    (bedSlices k).foldl (fun s i => s.updSlc i (fun x => { x with move := .claimBed })) (s.updBed k (fun b => { b with claim := true }))
  else s

/-- Every decoded value of a bed cleared, and the tables with them; `whole` clears the measures of frames as well. -/
def State.bedClear (s : State) (k : BedId) (whole : Bool) : State :=
  let p := pgBed k
  let s1 := (s.clearRegs p 0x06C 0x06C).clearRegs p 0x080 0x090
  let s2 := s1.put p bedSvcOvf 0
  if whole then s2.clearRegs p 0x058 0x068 else s2

/-- A bed enters SEARCH from OFF or from a retune (Table 5.2, R138): its memory and decoded values cleared. -/
def State.bedSearch (s : State) (k : BedId) : State :=
  (s.bedClear k true).updBed k (fun b => { Bed.fresh with state := .search, searchAt := some s.time.mono, iqUpTo := b.iqUpTo, edge := b.edge })

/-- A bed retuned (Table 5.2): its decoders and streams lose their source (Table 5.3, R223), an entry to SEARCH from SYNC or later is counted (Table 5.15), and it searches. -/
def State.bedRetune (s : State) (k : BedId) : State :=
  let s1 := (s.bedDecsGone k).strmsGone (fun d => d.ofBed k)
  (if 2 ≤ (s.beds[k]).state.code then s1.count (pgBed k) bedSyncLoss 1 else s1).bedSearch k

/-- A synchronised bed falls to SEARCH (Table 5.2): MCI and decoded values cleared, BED_SYNC_LOST, sources lost. -/
def State.bedFall (s : State) (k : BedId) : State :=
  let s1 := (s.bedDecsGone k).bedClear k false
  let s2 := s1.updBed k (fun b => { Bed.fresh with state := .search, searchAt := b.searchAt, iqUpTo := b.iqUpTo, edge := b.edge })
  (s2.count (pgBed k) bedSyncLoss 1).raise (pgBed k) evBedSyncLost

/-- A bed off: its slices idle, its sources lost (R135). -/
def State.bedOff (s : State) (k : BedId) : State :=
  let s1 := ((s.bedDecsGone k).strmsGone (fun d => d.ofBed k)).updBed k (fun b => { Bed.fresh with edge := b.edge })
  (bedSlices k).foldl (fun s i => s.updSlc i (fun _ => SliceSt.fresh)) s1

/-- A commit of a BED page takes effect at its boundary (R134 to R137, Table 5.2). -/
def State.bedApply (s : State) (k : BedId) (ws : List (Nat × Word)) : State :=
  let p := pgBed k
  let was := s.flag p pgEn
  let src := (s.get p bedInput, s.get p bedBin, s.get p bedTune)
  let s1 := (s.applyWords ws).bumpSeq p
  let en := s1.flag p pgEn
  let edge := bedEdgeOf (s1.get p bedTune)
  let s2 := s1.updBed k (fun b => { b with edge := edge, claim := false })
  let s3 := if edge = 0 then s2 else s2.raise p evBedEdge
  let s4 := if en && !was then
      (bedSlices k).foldl (fun s i => s.updSlc i (fun _ => { SliceSt.fresh with use := .bed })) s3
    else s3
  if en then
    if !was then s4.bedSearch k
    else if src = (s4.get p bedInput, s4.get p bedBin, s4.get p bedTune) then s4
    else s4.bedRetune k
  else if was then s4.bedOff k
  else s4

/-- The commits of BED pages whose boundary has come take effect (R133, R85). -/
def State.bedCommits (s : State) : State :=
  let mine := fun (c : Captured) => decide (kindCode c.page = 4) && decide (c.due ≤ s.time.grid)
  let due := s.captured.filter mine
  if due = [] then s
  else
    let s1 := { s with captured := s.captured.filter (fun c => !mine c), planGen := s.planGen + 1 }
    due.foldl (fun s c => match bedOf (c.page - 0x020) with
      | some k => s.bedApply k c.words
      | none => s) s1

/-- Entry to DOZE or a lower rung: the state of every bed is powered off; its page keeps its configuration (R541). -/
def State.bedsDown (s : State) : State :=
  (List.finRange 12).foldl (fun s k => if (s.beds[k]).state = .off then s else (s.bedDecsGone k).updBed k (fun b => { Bed.fresh with edge := b.edge })) s

/-- In RUN again, every enabled bed enters SEARCH as from OFF (R541). -/
def State.bedsWake (s : State) : State :=
  (List.finRange 12).foldl (fun s k => if s.flag (pgBed k) pgEn ∧ (s.beds[k]).state = .off ∧ s.pwr.rung = 0 then s.bedSearch k else s) s

/-! ### The states of Table 5.2 -/

/-- Whether a bed is synchronised: SYNC, FIC or MCI. -/
def BedState.synced : BedState → Bool
  | .sync => true | .fic => true | .mci => true | .off => false | .search => false | .hold => false

/-- A 64-bit instant written to BED_FRAME. -/
def State.bedFrameAt (s : State) (k : BedId) (dev : Nat) : State := s.putPair (pgBed k) bedFrameLo bedFrameHi dev

/-- BED_NULL_SYNC (Table 5.2): two null symbols one frame apart and a PRS correlation: SYNC; the last null symbol began `nullAgo` ticks ago. -/
def execBedNullSync (k : BedId) (nullAgo : Nat) (s : State) : Host.Outcome State Fault Refusal :=
  if (s.beds[k]).state = .search then
    let s1 := s.updBed k (fun b => { b with state := .sync, goodFibs := 0 })
    .next ((s1.bedFrameAt k (s.time.devAgo nullAgo)).raise (pgBed k) evBedSync)
  else .next s

/-- An entry of a list replaced by one with the same key, or appended. -/
def replaceBy {α : Type} (same : α → α → Bool) (a : α) (l : List α) : List α :=
  if l.any (fun b => same a b) then l.map (fun b => if same a b then a else b) else l ++ [a]

/-- Two definitions of one SubChId. -/
def sameSubch (a b : SubchDef) : Bool := decide (a.id = b.id)
/-- Two definitions of one service. -/
def sameSvc (a b : SvcDef) : Bool := decide (a.sid = b.sid)

/-- A service entered in a table of 32 in order of first appearance; SVC_OVF when it has no room (Tables 5.13, 5.17). -/
def addSvc (l : List SvcDef) (v : SvcDef) : List SvcDef × Bool :=
  if l.length < 32 ∨ l.any (fun x => sameSvc v x) then (replaceBy sameSvc v l, false) else (l, true)

/-- The MCI and the labels of a bed cleared (R142). -/
def Bed.clearMci (b : Bed) : Bed :=
  { b with reconf := none, subch := [], svcs := [], nextSubch := [], nextSvcs := [], curSubch := [], curSvcs := [], packets := [], subLangs := [],
           comps := [], apps := [], ptys := [], links := [], freqs := [], others := [], ecc := none, label := none, svcLabels := [], svcLabelCand := [], quietFrames := 0, newEntry := false }

/-- The decoders of a bed whose SubChId a configuration had and the present one lacks lose their source (Table 5.3). -/
def State.subchGone (s : State) (k : BedId) (old : List SubchDef) : State :=
  let cur := (s.beds[k]).curSubch
  s.decsGone (fun x => x.kind = 1 && x.src = k.val && old.any (fun d => d.id.val = x.sub) && !cur.any (fun d => d.id.val = x.sub))

/-- FIG 0/0 (R142, R144): the EId; one that differs clears the MCI and the labels and returns the bed to FIC; a change announced for a CIF count. -/
def State.figEnsemble (s : State) (k : BedId) (eid : Nat) (change : Option Nat) : State :=
  let p := pgBed k
  let differs := s.flag p bedEidValid && decide (s.get p bedEid ≠ eid % 2 ^ 16)
  let s1 := if differs then
      ((((s.clearRegs p 0x080 0x090).put p bedSvcOvf 0).updBed k (fun b => { b.clearMci with state := .fic })).subchGone k (s.beds[k]).curSubch).raise p evBedEidChange
    else s
  let s2 := s1.puts p [(bedEidValid, 1), (bedEid, eid)]
  match change with
  | some n => s2.updBed k (fun b => if b.reconf.isSome then b else { b with reconf := some n, nextSubch := [], nextSvcs := [] })
  | none => s2

/-- FIG 0/1 (R142, R144): collected for the next configuration; accepted at once while the MCI is being built; else, when it differs or is new, held for the end of its frame. -/
def State.figSubch (s : State) (k : BedId) (next : Bool) (d : SubchDef) : State :=
  s.updBed k (fun b =>
    if next then (if b.reconf.isSome then { b with nextSubch := replaceBy sameSubch d b.nextSubch } else b)
    else if b.curSubch.contains d then b
    else if b.state = .mci then (if b.reconf.isSome then b else { b with subch := replaceBy sameSubch d b.subch })
    else { b with curSubch := replaceBy sameSubch d b.curSubch, newEntry := true })

/-- FIG 0/2, in the same way; a 33rd service sets SVC_OVF. -/
def State.figService (s : State) (k : BedId) (next : Bool) (v : SvcDef) : State :=
  let b := s.beds[k]
  if next then s.updBed k (fun b => if b.reconf.isSome then { b with nextSvcs := replaceBy sameSvc v b.nextSvcs } else b)
  else if b.curSvcs.contains v then s
  else if b.state = .mci then s.updBed k (fun b => if b.reconf.isSome then b else { b with svcs := replaceBy sameSvc v b.svcs })
  else
    let r := addSvc b.curSvcs v
    let s1 := s.updBed k (fun b => { b with curSvcs := r.1, newEntry := b.newEntry || !r.2 })
    if r.2 then s1.put (pgBed k) bedSvcOvf 1 else s1

/-- FIG 1/0 (R142): the ensemble label, accepted after two identical receptions in succession. -/
def State.figLabel (s : State) (k : BedId) (chars : List Byte) (charset : Nat) : State :=
  let again := decide ((s.beds[k]).label = some (chars, charset))
  let s1 := s.updBed k (fun b => { b with label := some (chars, charset) })
  if again then
    (List.range 4).foldl (fun s n => s.put (pgBed k) (bedLabel.nth n) (natOfBE ((chars.drop (4 * n)).take 4)))
      (s1.puts (pgBed k) [(bedLabelValid, 1), (bedCharset, charset)])
  else s1

/-- FIG 1/1, 1/4 and 1/5 (R142): a service label, in the same way. -/
def Bed.svcLabel (b : Bed) (sid : Nat) (chars : List Byte) : Bed :=
  let again := b.svcLabelCand.contains (sid, chars)
  let cand := b.svcLabelCand.filter (fun x => x.1 ≠ sid) ++ [(sid, chars)]
  if again then { b with svcLabelCand := cand, svcLabels := b.svcLabels.filter (fun x => x.1 ≠ sid) ++ [(sid, chars)] } else { b with svcLabelCand := cand }

/-- One FIG of a FIB that passed its CRC (R142 to R144). -/
def State.parseFig (s : State) (k : BedId) : Fig → State
  | .ensemble eid _ change => s.figEnsemble k eid change
  | .subch next d => s.figSubch k next d
  | .service next v => s.figService k next v
  | .packet c => s.updBed k (fun b => { b with packets := replaceBy (fun x y => x.scid = y.scid) c b.packets })
  | .lang id lang => s.updBed k (fun b => { b with subLangs := replaceBy (fun x y => x.1 = y.1) (id, lang) b.subLangs })
  | .comp c => s.updBed k (fun b => { b with comps := replaceBy (fun x y => x.sid = y.sid && x.scids = y.scids) c b.comps })
  | .app sid scids types => s.updBed k (fun b => { b with apps := replaceBy (fun x y => x.1 = y.1 && x.2.1 = y.2.1) (sid, scids, types) b.apps })
  | .pty sid code => s.updBed k (fun b => { b with ptys := replaceBy (fun x y => x.1 = y.1) (sid, code) b.ptys })
  | .ecc e => s.updBed k (fun b => { b with ecc := some e })
  | .link l => s.updBed k (fun b => { b with links := replaceBy (fun x y => x.sid = y.sid) l b.links })
  | .freq f => s.updBed k (fun b => { b with freqs := replaceBy (fun x y => x.id = y.id && x.kind = y.kind) f b.freqs })
  | .other o => s.updBed k (fun b => { b with others := replaceBy (fun x y => x.sid = y.sid) o b.others })
  | .ensLabel chars charset => s.figLabel k chars charset
  | .svcLabel sid chars => s.updBed k (fun b => b.svcLabel sid chars)
  | .passed => s

/-- The FIC of a frame ends with its last FIB: a frame without a new entry of FIG 0/1 or 0/2 is counted (Table 5.2). -/
def Bed.ficEnd (b : Bed) : Bed :=
  { b with quietFrames := if b.newEntry then 0 else b.quietFrames + 1, newEntry := false }

/-- The input of a bed. -/
def State.bedInp (s : State) (k : BedId) : Inp := inpOf (s.get (pgBed k) bedInput)

/-- The ticks from the start of a frame to the symbol that holds the first bit of a FIB (R136): the null symbol, the PRS, and the FIC symbols before it; three FIBs have 2,304 of the 3,072 bits of a symbol. -/
def fibLead (index : Nat) : Nat := (5208 + 2552 * (2304 * (index / 3) / 3072)) * 625 / 2

/-- The FIB record of Table 5.4, as FIB_REC sets; OVR when its frame holds a tagged sample so far (R141). -/
def State.fibRecord (s : State) (k : BedId) (f : Fib) : State :=
  let rec_ := s.get (pgBed k) bedFibRec
  let ovr := s.overranged (s.bedInp k) (s.time.mono - f.ago - fibLead f.index) s.time.mono
  if rec_ = 2 ∨ (rec_ = 1 ∧ f.crcOk) then
    s.sideRecord 2 k.val (longRecord 0x10 0 (!f.crcOk) ovr (s.time.devAgo f.ago % 2 ^ 32) [(103, 96, f.index), (63, 51, f.cif)] [f.w0, f.w1]) ovr f.ago
  else s

/-- BED_FIB (R142, Table 5.2): a FIB counted and recorded; the third good FIB in succession takes SYNC to FIC; FIGs are parsed in FIC and MCI. A FIB lost in a gap counts as failed. -/
def execBedFib (k : BedId) (f : Fib) (s : State) : Host.Outcome State Fault Refusal :=
  let st := (s.beds[k]).state
  if st.synced then
    let s1 := (s.count (pgBed k) (if f.crcOk then bedFibOk else bedFibBad) 1).fibRecord k f
    let s2 := if st = .sync then
        s1.updBed k (fun b =>
          let run := if f.crcOk then b.goodFibs + 1 else 0
          if 3 ≤ run then { b with state := .fic, goodFibs := 0, quietFrames := 0, newEntry := false } else { b with goodFibs := run })
      else s1
    let s3 := if f.crcOk ∧ (s2.beds[k]).state ≠ .sync then f.figs.foldl (fun s g => s.parseFig k g) s2 else s2
    .next (if f.index = 11 then s3.updBed k Bed.ficEnd else s3)
  else if st = .hold ∧ !f.crcOk then .next ((s.count (pgBed k) bedFibBad 1).fibRecord k f)
  else .next s

/-- Whether the MCI is complete: every SubChId that FIG 0/2 names for a component of a service is defined, and five frames brought no new entry (Table 5.2). -/
def Bed.mciDone (b : Bed) : Bool :=
  b.curSvcs.all (fun v => (v.primary :: v.parts).all (fun c => decide (c.tmid = 3) || b.curSubch.any (fun d => d.id = c.subch))) && decide (5 ≤ b.quietFrames)

/-- BED_MCI_COMPLETE (Table 5.2). -/
def execBedMciComplete (k : BedId) (s : State) : Host.Outcome State Fault Refusal :=
  let b := s.beds[k]
  if b.state = .fic ∧ b.mciDone then .next ((s.updBed k (fun b => { b with state := .mci, subch := [], svcs := [] })).raise (pgBed k) evBedMciComplete)
  else .next s

/-- Whether two definitions of a SubChId need different de-interleaving: another form, size or protection (R154). A move without such a change loses no audio. -/
def SubchDef.renews (old new : SubchDef) : Bool := decide (old.eep ≠ new.eep) || decide (old.size ≠ new.size) || decide (old.prot ≠ new.prot)

/-- A configuration applied over an old one: MCI_GEN, RECONFIG; decoders whose SubChId it removes lose their source; a SubChId of another size or protection begins its de-interleaving anew (R144, R154, Table 5.3). -/
def State.bedConfigured (s : State) (k : BedId) (old : List SubchDef) : State :=
  let p := pgBed k
  let s1 := s.put p bedMciGen ((s.get p bedMciGen + 1) % 256)
  let changed := (s.beds[k]).curSubch.filter (fun d => old.any (fun o => decide (o.id = d.id) && SubchDef.renews o d))
  let s2 := s1.updBed k (fun b => { b with renewed := changed.map (fun d => (d.id.val, 0)) ++ b.renewed.filter (fun r => !changed.any (fun d => d.id.val = r.1)) })
  (s2.raise p evBedReconfig).subchGone k old

/-- The current entries of a frame applied at its end (R144). -/
def State.bedFrameEnd (s : State) (k : BedId) : State :=
  let b := s.beds[k]
  if b.state = .mci ∧ b.reconf = none ∧ (b.subch ≠ [] ∨ b.svcs ≠ []) then
    let subs := b.subch.foldl (fun l d => replaceBy sameSubch d l) b.curSubch
    let r := b.svcs.foldl (fun (r : List SvcDef × Bool) v => let a := addSvc r.1 v; (a.1, r.2 || a.2)) (b.curSvcs, false)
    let s1 := s.updBed k (fun x => { x with curSubch := subs, curSvcs := r.1, subch := [], svcs := [] })
    (if r.2 then s1.put (pgBed k) bedSvcOvf 1 else s1).bedConfigured k b.curSubch
  else s

/-- BED_RECONFIG (R144): at the announced CIF count the next configuration is in force; what it lacks is removed. Services keep the order of their first appearance. -/
def execBedReconfig (k : BedId) (s : State) : Host.Outcome State Fault Refusal :=
  let b := s.beds[k]
  if (b.state = .fic ∨ b.state = .mci) ∧ b.reconf.isSome then
    let kept := b.curSvcs.filterMap (fun v => b.nextSvcs.find? (fun w => sameSvc v w))
    let new := b.nextSvcs.filter (fun w => !(b.curSvcs.any (fun v => sameSvc v w)))
    let svcs := kept ++ new
    let s1 := s.updBed k (fun x => { x with reconf := none, curSubch := b.nextSubch, curSvcs := svcs.take 32, nextSubch := [], nextSvcs := [], subch := [], svcs := [] })
    .next ((s1.put (pgBed k) bedSvcOvf (bit (decide (32 < svcs.length)))).bedConfigured k b.curSubch)
  else .next s

/-- The measures of one frame (R141, R161, Table 5.14); a frame that holds a sample tagged overrange is counted. -/
def State.bedMeasure (s : State) (k : BedId) (m : BedFrame) : State :=
  let p := pgBed k
  let b := s.beds[k]
  let s1 := s.puts p [(bedLvlValid, 1), (bedLevel, min m.level 4095)]
  let from_ := s.time.mono - m.nullAgo
  let s2 := if s.overranged (s.bedInp k) from_ (min s.time.mono (from_ + 61440000)) then s1.count p bedOvrCnt 1 else s1
  if b.state.synced then
    (s2.puts p [(bedValid_058, 1), (bedMer, min m.mer 1023), (bedFicBer, min m.ficBer 65535), (bedOffset, twos 32 m.offset)]).bedFrameAt k (s.time.devAgo m.nullAgo)
  else s2

/-- A unit handed to the COMPRESSED streams that name its bed and SubChId (R157); erroneous while its de-interleaving is not full (R154). -/
def State.bedUnit (s : State) (k : BedId) (u : Unit_) : State :=
  let err := u.err || (s.beds[k]).renewed.any (fun r => decide (r.1 = u.subch) && decide (r.2 ≤ 15))
  s.unitPackets (fun d => decide (d.srcKind = 1) && decide (d.src = k.val) && decide (d.sub = u.subch)) 1 k.val (some (s.bedInp k)) { u with err := err }

/-- The PAD records of a subchannel that BED_PAD_MASK selects (Table 5.4). -/
def State.bedPad (s : State) (k : BedId) (m : PadData) : State :=
  let p := pgBed k
  let sel := if m.subch.val < 32 then bitAt (s.get p bedPadMaskLo) m.subch.val else bitAt (s.get p bedPadMaskHi) (m.subch.val - 32)
  let ovr := s.overranged (s.bedInp k) (s.time.mono - m.ago) s.time.mono
  if sel then
    let fs := if m.dls then [(103, 96, m.kind), (63, 56, m.bytes.length), (55, 55, bit m.toggle)] else [(103, 96, m.kind), (63, 48, m.bytes.length)]
    s.sideRecord 2 k.val (longRecord (if m.dls then 0x12 else 0x11) m.subch.val false ovr (s.time.devAgo m.ago % 2 ^ 32) fs (packBytes m.bytes)) ovr m.ago
  else s

/-- A CIF enters the de-interleaver (R145): its 864 × 64 soft values join those of the 15 before it; the SubChIds that began anew are one CIF further on (R154). -/
def Bed.deinterleave (b : Bed) (soft : List (BitVec 4)) : Bed :=
  { b with mem := (soft.take 55296 :: b.mem).take 16, renewed := (b.renewed.map (fun r => (r.1, r.2 + 1))).filter (fun r => decide (r.2 ≤ 16)) }

/-- BED_CIF (R141, R144 to R146, R157, R161): a CIF with its count, its soft values, its units and its complete PAD; with the measures of the frame when it ends one. A bed that searches is measured too. -/
def execBedCif (k : BedId) (cif : Nat) (frame : Option BedFrame) (soft : List (BitVec 4)) (x : CifContent) (s : State) :
    Host.Outcome State Fault Refusal :=
  let st := (s.beds[k]).state
  if st = .off ∨ st = .hold then .next s
  else
    let s1 := if st.synced then
        let a := (s.put (pgBed k) bedCifCnt (cif % 5000)).updBed k (fun b => b.deinterleave soft)
        let defined := fun (n : Nat) => (s.beds[k]).curSubch.any (fun d => d.id.val = n)
        let b := (x.units.filter (fun u => defined u.subch)).foldl (fun s u => s.bedUnit k u) a
        (x.pads.filter (fun m => defined m.subch.val)).foldl (fun s m => s.bedPad k m) b
      else s
    match frame with
    | some m => .next ((s1.bedMeasure k m).bedFrameEnd k)
    | none => .next s1

/-- What a slice-block boundary does to the beds: IQ_SATURATED may be raised again (R138). -/
def State.bedsBlock (s : State) : State := { s with beds := s.beds.map (fun b => { b with satRaised := false }) }

/-- BED_SYNC_LOSS (Table 5.2): null symbol or PRS missing in four frames. -/
def execBedSyncLoss (k : BedId) (s : State) : Host.Outcome State Fault Refusal :=
  if (s.beds[k]).state.synced then .next (s.bedFall k) else .next s

/-- BED_HOLD_ENTRY (R141, Table 5.2): mulch from the bins: everything held. -/
def execBedHoldEntry (k : BedId) (s : State) : Host.Outcome State Fault Refusal :=
  if (s.beds[k]).state.synced then .next (s.updBed k (fun b => { b with state := .hold, held := b.state, gapStart := s.time.mono })) else .next s

/-- A bed resumes the state it held. -/
def State.bedResume (s : State) (k : BedId) : State := s.updBed k (fun b => { b with state := b.held, held := .off })

/-- BED_HOLD_RESUME (Table 5.2): valid samples within 50 ms of the gap's start. -/
def execBedHoldResume (k : BedId) (s : State) : Host.Outcome State Fault Refusal :=
  if (s.beds[k]).state = .hold then .next (s.bedResume k) else .next s

/-- BED_HOLD_TIMEOUT (Table 5.2, R379): the gap reaches 50 ms: as for loss of sync; samples visible at that instant win and the race is counted. -/
def execBedHoldTimeout (k : BedId) (seen : Bool) (s : State) : Host.Outcome State Fault Refusal :=
  if (s.beds[k]).state = .hold ∧ s.ranOut (s.beds[k]).gapStart (50 * msTicks) then
    if seen then .next ((s.race (pgBed k)).bedResume k) else .next (s.bedFall k)
  else .next s

end Sys2Proof.Machine
end

