-- ==== Sys2Proof/Machine/Slices.lean ====
section
/-! DEFINITION. Channel slices (R69 to R79, R85, R101, R126, R541): commits of an SLC page, what a block measures, settling. -/

namespace Sys2Proof.Machine

/-- |Δf| of a slice NCO word in units of 2^−32 Hz: |word| × 5 MHz (R70). -/
def sliceShift (tune : Nat) : Nat := (signedOf 32 tune).natAbs * 5000000

/-- The EDGE class of a slice (R72): reach against 1.65 MHz and 2.5 MHz. -/
def sliceEdge (tune filter : Nat) : Nat :=
  let reach := sliceShift tune + passEdge filter * 2 ^ 32
  if reach ≤ 1650000 * 2 ^ 32 then 0 else if reach ≤ 2500000 * 2 ^ 32 then 1 else 2

/-- MIRROR of a slice (R72). -/
def sliceMirror (bin tune filter : Nat) : Bool := decide (bin = 0) && decide (sliceShift tune < stopEdge filter * 2 ^ 32)

/-- The bin and the NCO word of a centre in kHz: the nearest bin of 2.5 MHz, and what is left of it in units of 5 MHz / 2³² (R70, R187, R290). -/
def tuneOf (khz : Nat) : Nat × Nat :=
  let bin := (2 * khz + 2500) / 5000
  (bin, twos 32 (roundDiv (((khz : Int) - 2500 * bin) * 2 ^ 32) 5000))

/-! ### Commits (R75 to R79, R90, R97, R147) -/

/-- Whether the staged fields of an SLC page lie in their ranges: each its own, FILTER under DEMOD, and BLEND_HI above BLEND_LO. -/
def State.slcInRange (s : State) (i : Slc) : Bool :=
  s.stagedInRange (pgSlc i) 0 && filterOk (s.stgGet 0 (pgSlc i) slcDemod) (s.stgGet 0 (pgSlc i) slcFilter) &&
  decide (s.stgGet 0 (pgFm i) fmBlendLo < s.stgGet 0 (pgFm i) fmBlendHi)

/-- Whether a commit of an SLC page meets a slice that something else uses, or that is claimed or being released (R18, R78). -/
def State.slcConflict (s : State) (i : Slc) : Bool :=
  let x := s.slices[i]
  decide (2 ≤ x.use.code) || (decide (x.move ≠ .none) && decide (s.stgGet 0 (pgSlc i) pgEn = 1) && decide (x.use = .idle))

/-- The status of a commit of an SLC page (R78 before R90). -/
def State.slcStatus (s : State) (i : Slc) : Status :=
  if s.slcConflict i then .resourceBusy
  else if !s.slcInRange i then .badArg
  else .ok

/-- What an accepted commit of an SLC page claims or gives up at its response (R16, R18, R79). -/
def State.slcClaim (s : State) (i : Slc) : State :=
  let en := decide (s.stgGet 0 (pgSlc i) pgEn = 1)
  let x := s.slices[i]
  if en && decide (x.use = .idle) then s.updSlc i (fun y => { y with move := .claimHost })
  else if !en && decide (x.use = .host) then s.updSlc i (fun y => { y with move := .release })
  else s

/-- A slice restarts as on a change of R76: histories cleared, settle blocks, SLC_LEVEL invalid. -/
def State.slcSettle (s : State) (i : Slc) : State :=
  (s.put (pgSlc i) slcValid 0).updSlc i (fun x => { x with settleLeft := settleBlocks (s.get (pgSlc i) slcFilter) + 1 })

/-- The values of an SLC page whose change restarts the slice, and those whose change restarts only its demodulator (R76, R101). -/
def State.slcPlan (s : State) (i : Slc) : (Nat × Nat × Nat × Nat) × (Nat × Nat × Nat) :=
  ((s.get (pgSlc i) slcInput, s.get (pgSlc i) slcBin, s.get (pgSlc i) slcFilter, s.get (pgSlc i) slcDemod),
   (s.get (pgSlc i) slcTune, s.get (pgAm i) amDet, s.get (pgFm i) fmRdsStd))

/-- A slice given up or retuned: its decoders and streams lose their source (Table 5.3, R223). -/
def State.slcGone (s : State) (i : Slc) : State := (s.slcDecsGone i).strmsGone (fun d => d.ofSlice i)

/-- A slice given up: idle, its decoders and streams without a source. -/
def State.slcIdle (s : State) (i : Slc) : State :=
  ((s.slcGone i).restartDemod i).updSlc i (fun x => { SliceSt.fresh with edge := x.edge, mirror := x.mirror })

/-- EDGE and MIRROR computed at a commit (R72). -/
def State.slcEdges (s : State) (i : Slc) : State :=
  let p := pgSlc i
  let e := sliceEdge (s.get p slcTune) (s.get p slcFilter)
  let m := sliceMirror (s.get p slcBin) (s.get p slcTune) (s.get p slcFilter)
  let s1 := s.updSlc i (fun x => { x with edge := e, mirror := m })
  if e ≠ 0 ∨ m then s1.raise p evSlcEdge else s1

/-- A commit of an SLC page takes effect at its slice-block boundary (R72, R76, R79, R101). -/
def State.slcApply (s : State) (i : Slc) (ws : List (Nat × Word)) : State :=
  let p := pgSlc i
  let old := s.slcPlan i
  let s1 := ((s.applyWords ws).bumpSeq p).slcEdges i
  let en := s1.flag p pgEn
  let fresh := decide ((s.slices[i]).use = .idle)
  if en then
    let s2 := if fresh then s1.updSlc i (fun x => { SliceSt.fresh with use := .host, edge := x.edge, mirror := x.mirror })
      else s1.updSlc i (fun x => { x with move := .none })
    let new := s2.slcPlan i
    let big := fresh || decide (new.1 ≠ old.1)
    let s3 := if big then s2.slcSettle i else s2
    let s4 := if big || decide (new.2 ≠ old.2) then s3.restartDemod i else s3
    if !fresh && (big || decide (new.2.1 ≠ old.2.1)) then s4.slcGone i else s4
  else if (s.slices[i]).use = .host then s1.slcIdle i
  else s1

/-- The page of a slice. -/
def isSlc (page : Nat) : Bool := decide (kindOfPage page = some .slc)

/-- The sounding slice set for RX_FREQ on its input: FILTER 0, no DEMOD (R290); it settles as after a change of R76. -/
def State.soundTune (s : State) (i : Slc) : State :=
  let t := tuneOf (s.get pgSnd sndRxFreq)
  let s1 := s.puts (pgSlc i) [(slcInput, s.get pgSnd sndInput), (slcBin, t.1), (slcTune, t.2), (slcFilter, 0), (slcDemod, 0)]
  ((s1.slcEdges i).slcSettle i).restartDemod i

/-- The claim, a new tuning or the release of a sounding slice at its boundary (R85, R290); a claim that was given up before its boundary leaves the slice idle (R18). -/
def State.slcMove (s : State) (i : Slc) : State :=
  match (s.slices[i]).move with
  | .claimSound => (s.updSlc i (fun _ => { SliceSt.fresh with use := .sounding })).soundTune i
  | .release => if (s.slices[i]).use = .sounding ∨ (s.slices[i]).use = .idle then s.slcIdle i else s
  | _ => s

/-- Whether a boundary moves a slice by a designation. -/
def SliceSt.moves (x : SliceSt) : Bool := decide (x.move = .claimSound) || (decide (x.move = .release) && (decide (x.use = .sounding) || decide (x.use = .idle)))

/-- The slice plan swapped at a slice-block boundary (R85): commits and claims that are due take effect, and PLAN_GEN counts. -/
def State.slcCommits (s : State) : State :=
  let due := s.dueCommits isSlc
  let s1 := s.dropDue isSlc
  let s2 := due.foldl (fun s c => match slcOf (c.page - 0x040) with
    | some i => s.slcApply i c.words
    | none => s) s1
  let moved : List Slc := (List.finRange 96).filter (fun (i : Slc) => (s2.slices[i]).moves)
  let s3 := moved.foldl (fun s i => s.slcMove i) s2
  if due = [] ∧ moved = [] then s3 else { s3 with planGen := s3.planGen + 1 }

/-! ### Blocks -/

/-- What a valid block of a slice shows (Table 3.16), and what its demodulator makes of it. -/
def State.slcMeasure (s : State) (i : Slc) (m : BlockMeas) : State :=
  let s1 := s.puts (pgSlc i) [(slcValid, 1), (slcLevel, min m.level 4095)]
  if s1.demodRuns i then
    let s2 := s1.gapEnd i
    if s2.demodOf i = 1 then s2.amBlock i m else if s2.demodOf i = 2 then s2.fmBlock i m else s2
  else s1

/-- Whether the block of a slice that ends now is valid: in use, settled, its input yielding samples throughout, its bin not mulch at half rate (R55, R65, R76). -/
def State.blockValid (s : State) (i : Slc) : Bool :=
  let x := s.slices[i]
  let n := s.slcInp i
  let from_ := s.time.mono - 1280000
  decide (x.use ≠ .idle) && decide (x.settleLeft = 0) && !x.down && s.liveIn n from_ s.time.mono &&
    (decide (s.get (pgSlc i) slcBin < 64) || !(s.condIn (some n) from_ s.time.mono).half)

/-- A completed block of a slice whose decimator runs: its instant (Table 3.16); a valid one is remembered for its streams; the overrange tag of the bin samples that fed it, counted (R66); IQ_SATURATED may be raised again (R73). -/
def State.slcComplete (s : State) (i : Slc) (valid : Bool) : State :=
  let p := pgSlc i
  let from_ := s.time.mono - 1280000
  let s1 := (s.putPair p slcBlockLo slcBlockHi (s.time.devAt from_)).updSlc i (fun y =>
    { y with valid := if valid then (from_ :: y.valid).take 2048 else y.valid, satRaised := false })
  if valid && s.overranged (s.slcInp i) from_ s.time.mono then s1.count p slcOvrCnt 1 else s1

/-- One slice at the end of a block: measured when the block was valid, a gap for its demodulator otherwise; settle blocks count down. The slices of a bed do not run (R82). -/
def State.slcBlock (s : State) (ms : List BlockMeas) (i : Slc) : State :=
  let x := s.slices[i]
  if x.use = .idle ∨ x.use = .bed then s
  else
    let live := s.blockValid i
    let s0 := s.slcComplete i live
    if live then
      match ms.find? (fun m => m.slice = i) with
      | some m => s0.slcMeasure i m
      | none => if s0.demodRuns i then s0.gapEnd i else s0
    else
      let s1 := if s0.demodRuns i then s0.gapBlock i else s0
      s1.updSlc i (fun y => { y with settleLeft := if 1 < y.settleLeft then y.settleLeft - 1 else y.settleLeft })

/-- Slices whose state DOZE powered off restart once their input is in RUN (R541); the survey leaves a slice at the boundary at which its claim takes effect (R26). -/
def State.slcWake (s : State) (i : Slc) : State :=
  let x := s.slices[i]
  let s1 := if x.survey ∧ x.use ≠ .idle then s.updSlc i (fun y => { y with survey := false }) else s
  if x.down ∧ s.inRun ∧ (s.inputs[inpOf (s.get (pgSlc i) slcInput)]).conv = .run then
    ((s1.updSlc i (fun y => { y with down := false })).slcSettle i).restartDemod i
  else s1

/-- Every slice at a slice-block boundary: the block that ended, then the new plan. -/
def State.slicesBlock (s : State) (ms : List BlockMeas) : State :=
  let s1 := (List.finRange 96).foldl (fun s i => s.slcBlock ms i) s
  let s2 := s1.slcCommits
  (List.finRange 96).foldl (fun s i => s.slcWake i) s2

/-- Entry to DOZE or a lower rung powers off the state of every slice in use (R541). -/
def State.slicesDown (s : State) : State :=
  (List.finRange 96).foldl (fun s i =>
    let x := s.slices[i]
    let s1 := if x.survey then s.updSlc i (fun y => { y with survey := false }) else s
    if x.use = .host ∨ x.use = .watch ∨ x.use = .sounding then ((s1.slcDecsGone i).restartDemod i).updSlc i (fun y => { y with down := true, settleLeft := 0 }) else s1) s

/-- SLICE_SETTLE_END (R76): the settle blocks have passed; the first valid block begins. -/
def execSliceSettleEnd (i : Slc) (s : State) : Host.Outcome State Fault Refusal :=
  if (s.slices[i]).settleLeft = 1 then .next (s.updSlc i (fun x => { x with settleLeft := 0 })) else .next s

end Sys2Proof.Machine
end

