-- ==== Sys2Proof/Machine/Loam.lean ====
section
/-! DEFINITION. The Loam store (R478 to R489): journal records, the value in force, fill, the reserve, raking. -/

namespace Sys2Proof.Machine

/-- Granules of a record of some data bytes: head, data, commit (R479). -/
def granulesOf (len : Nat) : Nat := 2 + (len + 31) / 32

/-- Segments between the append point and the tail (R489). -/
def Loam.freeSegs (l : Loam) : Nat := 46 - l.segUsed

/-- The append point for a record: in its segment, or at the start of the next one with the next generation (R478, R479). -/
def Loam.room (l : Loam) (gran : Nat) : Loam :=
  if l.off + gran ≤ 512 then l else { l with seg := (l.seg + 1) % 46, gen := (l.gen + 1) % 2 ^ 32, off := 0 }

/-- Whether a record has a place: the segment that appending would enter is not the tail. -/
def Loam.fits (l : Loam) (gran : Nat) : Bool := decide (l.off + gran ≤ 512) || decide (0 < l.freeSegs)

/-- A record appended with the next SEQ (R480, R481). -/
def Loam.append (l : Loam) (type key : Nat) (delete : Bool) (owner : Nat) (data : List Byte) : Loam :=
  let gran := granulesOf data.length
  let r := l.room gran
  { r with recs := r.recs ++ [⟨type, key, delete, owner, r.seq, r.seg, r.gen, r.off, gran, false, data⟩], off := r.off + gran, seq := (r.seq + 1) % 2 ^ 32 }

/-- Whether a record type is accepted in the reserve: 0x40 to 0x60 (R489). -/
def reserveType (type : Nat) : Bool := decide (0x40 ≤ type) && decide (type ≤ 0x60)

/-- What follows an append: raking starts at 75 % of fill, the reserve begins with two free segments (R487, R489). -/
def State.loamLevels (s : State) : State :=
  let l := s.loam
  let s1 := if !l.raking ∧ journalGranules * 3 ≤ l.fill * 4 then
      { s.raise pgLoam evLoamRakeStart with loam := { l with raking := true } }
    else s
  let low := decide (s1.loam.freeSegs ≤ 2)
  let s2 := if low ∧ !s1.loam.reserve then s1.raise pgLoam evLoamReserve else s1
  { s2 with loam := { s2.loam with reserve := low } }

/-- A foreground write of the journal: the record committed, or refused with its count (R480, R489). -/
def State.journal (s : State) (type key : Nat) (delete : Bool) (owner : Nat) (data : List Byte) : State × Bool :=
  if (s.loam.reserve && !reserveType type) || !s.loam.fits (granulesOf data.length) then (s.count pgLoam loamNospaceCnt 1, false)
  else ({ s with loam := s.loam.append type key delete owner data }.loamLevels, true)

/-- Whether a record could be written now. -/
def State.journalOk (s : State) (type len : Nat) : Bool := !(s.loam.reserve && !reserveType type) && s.loam.fits (granulesOf len)

/-- The data in force of a type and key. -/
def State.stored (s : State) (type key : Nat) : Option (List Byte) := (s.loam.lookup type key).map (·.data)

/-- Whether raking has done its work: fill at or below 70 %, or a tail of live records only (R487). -/
def Loam.raked (l : Loam) : Bool :=
  decide (l.fill * 10 ≤ journalGranules * 7) || (l.recs.filter (fun r => decide (r.seg = l.tail))).all (fun r => l.isLive r) || decide (l.tail = l.seg)

/-- The tail segment retired: its live records copied oldest first, one anchor that names the next segment (R487, R488). -/
def Loam.retire (l : Loam) : Loam :=
  let mine := l.recs.filter (fun r => decide (r.seg = l.tail))
  let l1 := mine.foldl (fun m r => if m.isLive r then m.append r.type r.key r.delete r.owner r.data else m) l
  { l1 with recs := l1.recs.filter (fun r => !(decide (r.seg = l.tail) && mine.contains r)), tail := (l.tail + 1) % 46, anchorGen := (l.anchorGen + 1) % 2 ^ 32 }

/-- RAKE_SEGMENT (R487, R488): one tail segment retired while raking; RAKE_DONE when it has done its work. -/
def execRakeSegment (s : State) : Host.Outcome State Fault Refusal :=
  if s.loam.raking then
    let s1 := if s.loam.raked then s
      else { s with loam := s.loam.retire }.count pgLoam loamRakeCnt 1
    let low := decide (s1.loam.freeSegs ≤ 2)
    let s2 := { s1 with loam := { s1.loam with reserve := low } }
    if s2.loam.raked then .next { s2.raise pgLoam evLoamRakeDone with loam := { s2.loam with raking := false } } else .next s2
  else .next s

/-! ### The AF database on MRAM (R482, R483) -/

/-- The standard code, frequency, Q and time of a stored frequency, in 5 bytes. -/
def afFreqBytes (base : Nat) (f : AfFreq) : List Byte :=
  bytesBE 5 (Std.code f.std * 2 ^ 37 + f.khz % 2 ^ 18 * 2 ^ 19 + min f.q 255 * 2 ^ 11 + min (f.seen / 3600 - base) 2047)

/-- An identity as it is stored: 96 bytes. -/
def afBytes (x : AfIdentity) : List Byte :=
  let base := x.freqs.foldl (fun m f => min m (f.seen / 3600)) (((x.freqs.head?).map (fun f => f.seen / 3600)).getD 0)
  bytesBE 1 x.kind ++ bytesBE 7 x.id ++ bytesBE 1 x.owner ++ bytesBE 1 x.freqs.length ++ bytesBE 4 base ++ bytesBE 2 0
    ++ ((x.freqs.take 16).flatMap (afFreqBytes base)) ++ List.replicate (5 * (16 - x.freqs.length)) 0

/-- Whether an identity has changed enough for a store write: a new frequency, a Q change of 16 or more, a last-seen time more than an hour newer (R210). -/
def AfIdentity.due (x : AfIdentity) : Bool :=
  x.freqs.any (fun f => match x.saved.find? (fun g => g.std = f.std && g.khz = f.khz) with
    | some g => decide (g.q + 16 ≤ f.q) || decide (f.q + 16 ≤ g.q) || decide (g.seen + 3600 < f.seen)
    | none => true)

/-- The identities of a bucket. -/
def State.afBucket (s : State) (b : Nat) : List AfIdentity := (s.afdb.drop (16 * b)).take 16

/-- One bucket written at a following tick, when an identity of it is due and its last record is 60 s old (R210, R483); deferred in the reserve (R489). -/
def State.afStore (s : State) (b : Nat) : State :=
  let ids := s.afBucket b
  let now := s.time.mono
  let late := ids.all (fun x => match x.stored with
    | some t => decide (t + 60 * secTicks ≤ now)
    | none => true)
  if ids.any AfIdentity.due ∧ late ∧ s.journalOk 0x20 1536 then
    let data := ids.flatMap afBytes ++ List.replicate (96 * (16 - ids.length)) 0
    let s1 := (s.journal 0x20 b false 0x10 data).1
    { s1 with afdb := s1.afdb.mapIdx (fun i x => if i / 16 = b then { x with saved := x.freqs, stored := some now } else x) }
  else s

/-- The buckets written at a following tick. -/
def State.afStoreAll (s : State) : State := (List.range ((s.afdb.length + 15) / 16)).foldl (fun s b => s.afStore b) s

end Sys2Proof.Machine
end

