-- ==== Sys2Proof/Machine/Playing.lean ====
section
/-! DEFINITION. What a slot plays (R14, R175 to R179, R202, R206 to R208, R220): delay lines, sources with their gains and blends, the output and its stamps. -/

namespace Sys2Proof.Machine

/-! ### Delay lines (R175 to R177) -/

/-- The slice of a receiver. -/
def Rx.slice : Rx → Option Slc
  | .watch i => some i | .shared i => some i | .none => Option.none | .bed _ => Option.none

/-- Whether a standard needs a decoder (R188). -/
def stdDigital : Std → Bool
  | .fm => false | .am => false | .dab => true | .drm => true | .drmPlus => true

/-- The audio that a candidate's receiver has delivered: its decoder's, or its slice's. -/
def State.candAudio (s : State) (c : Cand) : List Clip :=
  if stdDigital c.std then
    match c.dec with
    | some d => (s.decs[d]).audio
    | none => []
  else match c.rx.slice with
    | some i => (s.demods[i]).audio
    | none => []

/-- The input that a candidate's receiver draws on. -/
def State.candInput (s : State) (c : Cand) : Option Inp :=
  match c.rx with
  | .bed k => some (inpOf (s.get (pgBed k) bedInput))
  | .watch i | .shared i => some (s.slcInp i)
  | .none => none

/-- Audio as a delay line holds it: 16 bits (R177). -/
def Clip.in16 (c : Clip) : Clip := { c with frames := c.frames.map (fun f => (to16 f.1, to16 f.2)) }

/-- A delay line that has taken what its source has delivered since; audio already played for a second is dropped. -/
def Cand.take (c : Cand) (src : List Clip) (now pres : Nat) : Cand :=
  let new := (clipsWithin src c.lineUpTo (now + secTicks)).map Clip.in16
  { c with
    line := clipsSince c.line (now - sampleTicks pres - secTicks) ++ new
    lineUpTo := match new.getLast? with
      | some k => k.stop
      | none => c.lineUpTo }

/-- Whether a candidate records into a delay line: the active, the standby, and one that fills to replace it. -/
def Cand.records (c : Cand) : Bool := decide (c.state = .active) || decide (c.state = .standby)

/-- The delay lines of a slot at the end of a slice block. -/
def State.fillLines (s : State) (v : SvcId) : State :=
  s.updSlot v (fun x => { x with cands := x.cands.map (fun c =>
    if c.records then c.take (s.candAudio c) s.time.mono (if c.state = .active then x.presNow else (c.pc x.presNow).toNat) else c) })

/-- The root time of the first sample of a candidate's audio that is affected by what befalls its receiver now: in a gap the gap's start; a digital one's audio from where concealment began, or where it ends; else the block that ended. -/
def State.affectedAt (s : State) (c : Cand) : Nat :=
  if stdDigital c.std then
    match (c.line.reverse.takeWhile (·.conceal)).getLast? with
    | some k => k.at_
    | none => c.lineUpTo
  else match c.rx.slice with
    | some i => s.time.mono - max 1280000 (s.slices[i]).gapTicks
    | none => c.lineUpTo

/-! ### Sources and their output -/

/-- A sample of 16 bits, its conditions, and whether concealment made it. -/
structure LineSample where
  left : Int
  right : Int
  conceal : Bool
  cond : Cond
deriving DecidableEq, Repr

/-- A sample held to 16 bits. -/
def clamp16 (v : Int) : Int := clampInt v (-32768) 32767

/-- The sample of a delay line at an aerial instant: as held; where it is missing, concealed for 50 ms after what is held (R14, R208, log 72); none beyond. -/
def State.lineSample (s : State) (i : Option Inp) (line : List Clip) (t : Nat) : Option LineSample :=
  match clipAt line t with
  | some (c, f) => some ⟨f.1, f.2, c.conceal, c.cond⟩
  | none =>
    let before := line.filter (fun c => decide (c.stop ≤ t + 6666))
    match before.getLast? with
    | some c =>
      let n := (t + 6666 - c.stop) * 6 / 80000
      if n < 2400 then
        let f := (Config.concealed (clipFrames before) [] (n + 1)).getD n (0, 0)
        some ⟨clamp16 f.1, clamp16 f.2, true, s.condIn i t (t + 1)⟩
      else none
    | none => none

/-- The delay line that a source of a slot plays from. -/
def Slot.lineOf (x : Slot) (y : Voice) : List Clip :=
  match y.cand with
  | some n => (x.cands[n]).line
  | none => y.line

/-- A source of a slot begins at the first of some output instants for which its delay line holds audio, not before the one set (R178, R207). -/
def Slot.voiceStart (x : Slot) (ts : List Nat) (y : Voice) : Voice :=
  match y.from_ with
  | some _ => y
  | none => { y with from_ := ts.find? (fun t => decide (y.after ≤ t) && (clipAt (x.lineOf y) (t - sampleTicks y.pres)).isSome) }

/-- The gain of a source at an output instant by its ramps, in units of 2⁻⁶⁰; none while it does not play (R202). -/
def Voice.ramp (y : Voice) (t : Nat) : Option Int :=
  match y.from_ with
  | none => none
  | some a =>
    if t < a then none
    else
      let up := raisedCos (t - a) y.rise
      match y.fall with
      | none => some up
      | some (b, e) => if e ≤ t then none else if b ≤ t then some (up * (2 ^ 60 - raisedCos (t - b) (e - b)) / 2 ^ 60) else some up

/-- Whether a splice or blend of a source touches an output instant (Table 7.3). -/
def Voice.blends (y : Voice) (t : Nat) : Bool :=
  y.blend && (match y.from_ with
    | some a => decide (a ≤ t) && decide (t < a + max y.rise 13333)
    | none => false)

/-- What a source gives at an output instant: its sample at its gain. -/
def State.voiceSample (s : State) (x : Slot) (y : Voice) (t : Nat) : Option LineSample :=
  match y.ramp t with
  | none => none
  | some g => (s.lineSample y.input (x.lineOf y) (t - sampleTicks y.pres)).map (fun k =>
      let f := dbFactor y.gain
      { k with left := fadeBy g (scaleBy f k.left), right := fadeBy g (scaleBy f k.right) })

/-- The frame that a slot plays at an output instant: the sum of its sources; none where no source gives a sample, which the stream shows as mulch (R178, R179, R202). -/
def State.slotFrame (s : State) (v : SvcId) (x : Slot) (t : Nat) : Option OutFrame :=
  match x.voices.filterMap (fun y => s.voiceSample x y t) with
  | [] => none
  | l => some ⟨t - s.get (pgSvc v) svcPresent * msTicks, clamp16 (l.map (·.left)).sum, clamp16 (l.map (·.right)).sum, l.any (·.conceal),
      x.voices.any (fun y => y.blends t), l.foldl (fun c k => c.join k.cond) Cond.none⟩

/-- The output of a slot for the slice block that ends: its sources at 96 instants (R177, R179); sources that have ended are dropped, and output older than 4 s. -/
def State.slotPlay (s : State) (v : SvcId) : State :=
  let x := s.slots[v]
  let from_ := s.time.mono - 1280000
  let ts := (List.range 96).map (fun k => from_ + sampleTicks k)
  let voices := (x.voices.filter (fun y => match y.fall with
    | some (_, e) => decide (from_ < e)
    | none => true)).map (fun y => x.voiceStart ts y)
  let x1 := { x with voices := voices }
  let old := x.out.filter (fun f => decide (s.time.mono < f.at_ + 4 * secTicks + s.get (pgSvc v) svcPresent * msTicks))
  s.updSlot v (fun _ => { x1 with out := old ++ ts.filterMap (fun t => s.slotFrame v x1 t) })

/-! ### Sources that begin and end -/

/-- The end of a list of clips. -/
def clipsEnd (l : List Clip) : Nat := match l.getLast? with
  | some c => c.stop
  | none => 0

/-- A source that leaves its candidate's delay line with what is still to be played: all before the first affected sample, or what is already due (R206). -/
def Slot.detach (x : Slot) (n : CandId) (affected now : Nat) : Slot :=
  { x with voices := x.voices.map (fun y =>
      if y.cand = some n then
        { y with cand := none, line := clipsWithin (x.cands[n]).line 0 (max affected (now + 10 * msTicks - sampleTicks y.pres)) }
      else y) }

/-- The output instant at which the audio that a detached source holds ends. -/
def Voice.ends (y : Voice) : Nat := clipsEnd y.line + sampleTicks y.pres

/-- Every source that is not already ending ramps to mute over 10 ms that end with its last sample, some ticks of concealment included (R207, R208). -/
def Slot.muteVoices (x : Slot) (now conceal : Nat) : Slot :=
  { x with voices := x.voices.map (fun y =>
      if y.fall.isSome then y
      else
        let e := max (now + 10 * msTicks) (y.ends + conceal)
        { y with fall := some (e - 10 * msTicks, e) }) }

/-- The output instant from which a slot without ramps under way may play a new source. -/
def Slot.muted (x : Slot) (now : Nat) : Nat := x.voices.foldl (fun t y => match y.fall with
  | some (_, e) => max t e
  | none => t) now

/-- A new source of a slot that ramps in over 10 ms once its delay line holds audio (R178, R207). -/
def State.playFrom (s : State) (v : SvcId) (n : CandId) (pres : Nat) : State :=
  s.updSlot v (fun x => { x with voices := x.voices ++
    [⟨some n, [], s.candInput (x.cands[n]), pres, 0, x.muted s.time.mono, none, 10 * msTicks, false, none⟩] })

/-- A splice: from an output instant on, over the length of the blend, every source gives way to a new one (R202, R206). -/
def State.spliceTo (s : State) (v : SvcId) (n : CandId) (pres at_ len : Nat) (gain : Int) : State :=
  s.updSlot v (fun x => { x with voices :=
    (x.voices.map (fun y => if y.fall.isSome then y else { y with fall := some (at_, at_ + len) })) ++
    [⟨some n, [], s.candInput (x.cands[n]), pres, gain, at_, some at_, len, true, none⟩] })

/-- A splice whose target is gone: what it had begun to play ends within 10 ms, and the active plays on (log 72). -/
def Slot.unsplice (x : Slot) (n : CandId) (now : Nat) : Slot :=
  let x1 := x.detach n now now
  { x1 with voices := x1.voices.map (fun y =>
      if x.active.isSome ∧ y.cand = x.active then { y with fall := none }
      else if y.fall.isNone then { y with fall := some (now, now + 10 * msTicks) }
      else y) }

end Sys2Proof.Machine
end

