-- ==== Sys2Proof/Machine/Following.lean ====
section
/-! DEFINITION. Service following, the parts of a decision (R171 to R211): receivers and decoders, identity, quality, what a candidate drops when it moves, loss of the active. -/

namespace Sys2Proof.Machine

/-! ### Standards and frequencies -/

/-- DEMOD of a standard (Table 6.2). -/
def stdDemod : Std → Nat
  | .fm => 2 | .am => 1 | .drm => 3 | .drmPlus => 4 | .dab => 0

/-- FILTER of a standard (Table 6.2). -/
def stdFilter : Std → Nat
  | .fm => 2 | .am => 8 | .drm => 6 | .drmPlus => 5 | .dab => 0

/-- The standard of a DEMOD value. -/
def demodStd : Nat → Option Std
  | 1 => some .am | 2 => some .fm | 3 => some .drm | 4 => some .drmPlus | _ => none

/-- The tuned frequency of a slice in Hz (R70). -/
def State.sliceHz (s : State) (i : Slc) : Int :=
  (s.get (pgSlc i) slcBin : Int) * 2500000 + roundDiv (signedOf 32 (s.get (pgSlc i) slcTune) * 5000000) (2 ^ 32)

/-- The ensemble centre of a bed in Hz (R80, R81). -/
def State.bedHz (s : State) (k : BedId) : Int :=
  (2 * (s.get (pgBed k) bedBin : Int) + 1) * 1250000 + roundDiv (signedOf 32 (s.get (pgBed k) bedTune) * 10000000) (2 ^ 32)

/-- Whether a frequency lies within ±1 kHz of a candidate's (R185). -/
def nearKhz (hz : Int) (khz : Nat) : Bool := decide ((hz - khz * 1000).natAbs ≤ 1000)

/-- A frequency in kHz. -/
def khzOf (hz : Int) : Nat := (roundDiv hz 1000).toNat

/-- The input of a candidate's frequency (R187). -/
def State.mapInput (s : State) (v : SvcId) (khz : Nat) : Inp :=
  inpOf (s.get (pgSvc v) (if khz < 30000 then svcInputLf else if khz ≤ 150000 then svcInputB2 else svcInputB3))

/-- Whether a frequency can be reached (R187): its input enabled, and not above 150 MHz on a halved input. -/
def State.reachable (s : State) (v : SvcId) (khz : Nat) : Bool :=
  let i := s.mapInput v khz
  s.flag (pgInp i) pgEn && !(decide (150000 < khz) && (s.inputs[i]).half)

/-! ### Identity (R189, R190, Table 6.3) -/

/-- A slot's PI that a received PI meets: none, or whether only the learned one does. -/
def State.piMatch (s : State) (v : SvcId) (pi : Nat) : Option Bool :=
  let p := pgSvc v
  let mask := s.get p svcPiMask
  if bitAt (s.get p svcEn) 0 then (if (pi ^^^ s.get p svcPi) &&& mask = 0 then some false else none)
  else if bitAt (s.slots[v]).learned 0 ∧ (pi ^^^ (s.slots[v]).learnedPi) &&& mask = 0 then some true
  else none

/-- The same for a DRM or AMSS service identifier. -/
def State.drmMatch (s : State) (v : SvcId) (sid : Nat) : Option Bool :=
  let p := pgSvc v
  if bitAt (s.get p svcEn) 2 then (if sid = s.get p svcSid_050 then some false else none)
  else if bitAt (s.slots[v]).learned 2 ∧ sid = (s.slots[v]).learnedDrm then some true
  else none

/-- The SId that a slot follows in DAB, if it does. -/
def State.sidWanted (s : State) (v : SvcId) : Option Nat :=
  if bitAt (s.get (pgSvc v) svcEn) 1 then some (s.get (pgSvc v) svcSid_04c) else none

/-- What a receiver says of a candidate's identity: nothing accepted; the wanted one, with its SubChId or stream and whether only a learned identity matches; another; the wanted one, scrambled. -/
inductive Ident where
  | none
  | good (kind id sub : Nat) (learned : Bool)
  | bad (kind id : Nat)
  | scrambled (kind id : Nat)
deriving DecidableEq, Repr

/-- The identity received on an FM slice. -/
def State.identFm (s : State) (v : SvcId) (i : Slc) : Ident :=
  if s.flag (pgFm i) fmPiValid then
    let pi := s.get (pgFm i) fmPi
    match s.piMatch v pi with
    | some l => .good 1 pi 0 l
    | Option.none => .bad 1 pi
  else .none

/-- The identity received on an AM slice. -/
def State.identAm (s : State) (v : SvcId) (i : Slc) : Ident :=
  if s.flag (pgAm i) amSidValid then
    let id := s.get (pgAm i) amSid
    match s.drmMatch v id with
    | some l => .good 3 id 0 l
    | Option.none => .bad 3 id
  else .none

/-- The services that FAC names on a DRM slice. -/
def State.drmServices (s : State) (i : Slc) : List Nat := (List.range 4).filter (fun k => s.flag (pgDrm i) (drmValid_0d0.nth k))

/-- The identity received on a DRM slice. -/
def State.identDrm (s : State) (v : SvcId) (i : Slc) : Ident :=
  let p := pgDrm i
  if !(s.demods[i]).drm.synced then .none
  else
    let mine := (s.drmServices i).filter (fun k => s.flag p (drmAudio.nth k) && (s.drmMatch v (s.get p (drmSid.nth k))).isSome)
    match mine.find? (fun k => !s.flag p (drmCa.nth k)) with
    | some k => .good 3 (s.get p (drmSid.nth k)) (s.get p (drmStream.nth k)) ((s.drmMatch v (s.get p (drmSid.nth k))).getD false)
    | Option.none => match mine with
      | k :: _ => .scrambled 3 (s.get p (drmSid.nth k))
      | [] => .bad 3 (s.get p (drmSid.nth ((s.drmServices i).headD 0)))

/-- The identity received in a bed. -/
def State.identDab (s : State) (v : SvcId) (k : BedId) : Ident :=
  let b := s.beds[k]
  let ecc := s.get (pgSvc v) svcEcc
  match s.sidWanted v with
  | Option.none => .none
  | some sid =>
    match b.curSvcs.find? (fun d => d.sid = sid) with
    | some d =>
      if ecc = 0 ∨ b.ecc = some ecc then (if d.ca then .scrambled 2 sid else .good 2 sid (b.subchOf d.primary) false)
      else if b.ecc.isNone then .none
      else .bad 2 sid
    | Option.none => if b.state = .mci then .bad 2 0 else .none

/-- What the receiver of a candidate says of its identity. -/
def State.identify (s : State) (v : SvcId) (n : CandId) : Ident :=
  let c := (s.slots[v]).cands[n]
  match c.rx with
  | .none => .none
  | .bed k => s.identDab v k
  | .watch i | .shared i => match c.std with
    | .fm => s.identFm v i
    | .am => s.identAm v i
    | .drm | .drmPlus => s.identDrm v i
    | .dab => .none

/-! ### Receivers (R185 to R187) -/

/-- The owner code of a slot. -/
def State.slotOwner (s : State) (v : SvcId) : Nat := (s.slots[v]).owner

/-- Whether a candidate's receiver still serves it. A bed in HOLD still does. -/
def State.rxOk (s : State) (v : SvcId) (n : CandId) : Bool :=
  let c := (s.slots[v]).cands[n]
  match c.rx with
  | .none => false
  | .watch i => decide ((s.slices[i]).use = .watch) && (s.slices[i]).watchSlots.contains v
  | .shared i => decide (s.sliceOwner i = s.slotOwner v) && (decide ((s.slices[i]).use = .host) || (s.slices[i]).watchSlots.contains v)
      && decide (s.demodOf i = stdDemod c.std) && nearKhz (s.sliceHz i) c.khz
  | .bed k => decide (s.bedOwner k = s.slotOwner v) && nearKhz (s.bedHz k) c.khz &&
      (decide ((s.beds[k]).state = .mci) || decide ((s.beds[k]).state = .fic) || decide ((s.beds[k]).state = .hold))

/-- The source of a digital candidate: kind, number, SubChId or stream. -/
def Cand.decSrc (c : Cand) : Option (Nat × Nat × Nat) :=
  match c.rx with
  | .bed k => some (1, k.val, c.subch)
  | .watch i | .shared i => if stdDigital c.std then some (2, i.val, c.subch) else none
  | .none => none

/-- Whether the decoder of a candidate still serves it (R188): one of its own still its slot's; a shared one still its owner's, on the same source. An active digital candidate needs one. -/
def State.decOk (s : State) (v : SvcId) (n : CandId) : Bool :=
  let c := (s.slots[v]).cands[n]
  match c.dec with
  | some d =>
    let x := s.decs[d]
    let y := s.decSource d
    decide (x.state ≠ .idle) && (if c.ownDec then decide (x.slot = some v)
      else x.slot.isNone && decide (x.owner = (s.slots[v]).owner) && decide (c.decSrc = some (y.kind, y.src, y.sub)))
  | none => !(stdDigital c.std && decide (c.state = .active))

/-- Whether a candidate's receiver yields samples now. -/
def State.rxLive (s : State) (v : SvcId) (n : CandId) : Bool :=
  match ((s.slots[v]).cands[n]).rx with
  | .none => false
  | .watch i | .shared i => s.sliceLive i
  | .bed k => decide ((s.beds[k]).state ≠ .hold) && s.bedLive k

/-- Whether a candidate's receiver has yielded mulch for 50 ms (Table 6.4); a bed falls to SEARCH by then. -/
def State.rxDead (s : State) (v : SvcId) (n : CandId) : Bool :=
  match (((s.slots[v]).cands[n]).rx).slice with
  | some i => decide (50 * msTicks ≤ (s.slices[i]).gapTicks)
  | none => false

/-- A slice given back by a slot: a watch slice that serves no slot any more is idle. -/
def State.watchLeave (s : State) (v : SvcId) (i : Slc) : State :=
  let x := s.slices[i]
  if x.use = .watch ∧ x.watchSlots.contains v then
    let rest := x.watchSlots.filter (fun w => w ≠ v)
    if rest = [] then { s.slcIdle i with planGen := s.planGen + 1 } else s.updSlc i (fun y => { y with watchSlots := rest })
  else s

/-- A candidate without its receiver. -/
def State.dropRx (s : State) (v : SvcId) (n : CandId) : State :=
  let s1 := match (((s.slots[v]).cands[n]).rx).slice with
    | some i => s.watchLeave v i
    | none => s
  s1.updCand v n (fun c => { c with rx := .none, since := none })

/-- A candidate without its decoder; one that the slot claimed is released (R188). -/
def State.dropDec (s : State) (v : SvcId) (n : CandId) : State :=
  let c := (s.slots[v]).cands[n]
  let s1 := match c.dec with
    | some d => if c.ownDec then (s.setReg (keyOf pgDec (decEn.nth d.val)) 0).decRelease d else s
    | none => s
  let s2 := s1.updCand v n (fun c => { c with dec := none, ownDec := false, audioAt := none })
  s2.updSlot v (fun x => { x with trial := if x.trial = some n then none else x.trial })

/-- The registers of a slice set for a watch: the tuning of R187 and the settings of Table 6.2. -/
def State.watchTune (s : State) (v : SvcId) (i : Slc) (std : Std) (khz : Nat) : State :=
  let (bin, word) := tuneOf khz
  let p := pgSlc i
  let s0 := ((s.clearRegs (pgAm i) 0x080 0x0BF).clearRegs (pgFm i) 0x080 0x0BF).clearRegs (pgDrm i) 0x080 0x0BF
  let s1 := s0.puts p [(slcInput, (s.mapInput v khz).val), (slcBin, bin), (slcTune, word), (slcIqShift, 0), (slcDemod, stdDemod std), (slcFilter, stdFilter std)]
  match std with
  | .fm => s1.puts (pgFm i) [(fmStereo, 0), (fmDeemph, if s.flag (pgSvc v) svcDeemph75 then 2 else 1), (fmRdsEn, 1), (fmRdsStd, s.get (pgSvc v) svcRbds)]
  | .am => s1.puts (pgAm i) [(amDet, 1), (amAmssEn, 1)]
  | .drm => s1.put (pgDrm i) drmModeForce 0
  | _ => s1

/-- An idle slice taken as a watch slice. -/
def State.watchTake (s : State) (v : SvcId) (i : Slc) (std : Std) (khz : Nat) : State :=
  let s1 := s.updSlc i (fun _ => { SliceSt.fresh with use := .watch, watchSlots := [v] })
  let s2 := ((s1.watchTune v i std khz).slcEdges i).slcSettle i
  { s2.restartDemod i with planGen := s.planGen + 1 }

/-- A shared receiver for a candidate (R185): an owner's slice or another slot's watch slice; for DAB an owner's bed. -/
def State.sharedRx (s : State) (v : SvcId) (std : Std) (khz : Nat) : Rx :=
  let o := s.slotOwner v
  if std = .dab then
    match (List.finRange 12).find? (fun (k : BedId) => decide (s.bedOwner k = o) && (decide ((s.beds[k]).state = .mci) || decide ((s.beds[k]).state = .fic))
        && nearKhz (s.bedHz k) khz && (match s.sidWanted v with
          | some sid => (s.beds[k]).curSvcs.any (fun d => d.sid = sid)
          | none => false)) with
    | some k => .bed k
    | none => .none
  else
    match (List.finRange 96).find? (fun (i : Slc) => decide (s.sliceOwner i = o) && (decide ((s.slices[i]).use = .host) || decide ((s.slices[i]).use = .watch))
        && decide (s.demodOf i = stdDemod std) && nearKhz (s.sliceHz i) khz) with
    | some i => .shared i
    | none => .none

/-- The lowest-numbered idle slice of a slot's owner (R21, R85, R185). -/
def State.idleSlice (s : State) (v : SvcId) : Option Slc :=
  (List.finRange 96).find? (fun (i : Slc) => decide (s.sliceOwner i = s.slotOwner v) && !(s.slices[i]).owned)

/-- A candidate that has its receiver: WATCHED. -/
def State.watched (s : State) (v : SvcId) (n : CandId) (rx : Rx) : State :=
  s.updCand v n (fun c => { c with state := .watched, rx := rx, wait := .none, waitRaised := false, since := none, audioAt := none })

/-- A candidate that waits for a receiver. -/
def State.waiting (s : State) (v : SvcId) (n : CandId) (w : Wait) : State :=
  let c := (s.slots[v]).cands[n]
  let raise := decide (w = .noSlice) && !c.waitRaised
  let s1 := s.updCand v n (fun c => { c with wait := w, waitRaised := c.waitRaised || decide (w = .noSlice) })
  if raise then s1.raise (pgSvc v) evSvcNoWatchSlice else s1

/-- A receiver sought for an UNWATCHED candidate at a tick (R185 to R187). -/
def State.seekRx (s : State) (v : SvcId) (n : CandId) : State :=
  let c := (s.slots[v]).cands[n]
  if c.state ≠ .unwatched then s
  else match s.sharedRx v c.std c.khz with
    | .shared i =>
      let s1 := if (s.slices[i]).use = .watch then s.updSlc i (fun x => { x with watchSlots := if x.watchSlots.contains v then x.watchSlots else x.watchSlots ++ [v] }) else s
      s1.watched v n (.shared i)
    | .bed k => s.watched v n (.bed k)
    | _ =>
      if c.std = .dab then s.waiting v n .noBed
      else if !s.reachable v c.khz then s.waiting v n .unreachable
      else match s.idleSlice v with
        | some i => (s.watchTake v i c.std c.khz).watched v n (.watch i)
        | none => s.waiting v n .noSlice

/-! ### What a move of a candidate drops (Table 6.4) -/

/-- A candidate without alignment, loudness or buffered audio. -/
def Cand.unaligned (c : Cand) : Cand :=
  { c with align := .none, lowChecks := 0, goodChecks := 0, ofs := 0, corr := 0, filled := false, loudValid := false, loudDiff := 0, loudNow := 0, clamped := false, line := [] }

/-- A slot without a source: NO_SOURCE, counted, SVC_NO_SOURCE; its output ramps to mute, after some ticks of concealment (R207, R208). -/
def State.enterNoSource (s : State) (v : SvcId) (conceal : Nat) : State :=
  let s1 := s.updSlot v (fun x => { x.muteVoices s.time.mono conceal with
    state := .noSource, active := none, concealFrom := none, gapDec := false, dwellBad := none, dwellBetter := none, outrank := [], splice := none, env := [] })
  (s1.count (pgSvc v) svcNosrcCnt 1).raise (pgSvc v) evSvcNoSource

/-- Whether a splice or blend of a slot goes to a candidate. -/
def Slot.splicesTo (x : Slot) (n : CandId) : Bool := match x.splice with
  | some z => decide (z.target = n)
  | none => false

/-- A candidate that is no longer the standby or the one that fills; where a splice was on its way to it and the slot has no active, nothing is left to play (R207). -/
def State.unStandby (s : State) (v : SvcId) (n : CandId) : State :=
  let hit := (s.slots[v]).splicesTo n
  let s1 := s.updSlot v (fun x =>
    let x1 := if hit then { x.unsplice n s.time.mono with splice := none } else x
    { x1 with
      standby := if x.standby = some n then none else x.standby
      filling := if x.filling = some n then none else x.filling
      dwellBetter := if x.standby = some n then none else x.dwellBetter
      outrank := if x.standby = some n then [] else x.outrank.filter (fun o => decide (o.1 ≠ n)) })
  if hit ∧ (s.slots[v]).active.isNone then s1.enterNoSource v 0 else s1

/-- A candidate moved to a state without receiver: UNWATCHED, FAILED or EMPTY. -/
def State.candDown (s : State) (v : SvcId) (n : CandId) (st : CandState) : State :=
  let s1 := ((s.dropDec v n).dropRx v n).unStandby v n
  s1.updCand v n (fun c => { c.unaligned with state := st, idKind := 0, id := 0, byAudio := false, byLearned := false, since := none, decRaised := false,
                                              wait := .none, waitRaised := false, env := [] })

/-- A candidate emptied. -/
def State.candEmpty (s : State) (v : SvcId) (n : CandId) : State := (s.candDown v n .empty).updCand v n (fun _ => Cand.fresh)

/-- A candidate failed: CAND_FAILED (Table 6.4). -/
def State.candFail (s : State) (v : SvcId) (n : CandId) (r : FailReason) : State :=
  ((s.candDown v n .failed).updCand v n (fun c => { c with reason := r, failedAt := s.time.mono })).raise (pgSvc v) evSvcCandFailed

/-- A candidate back in WATCHED: its delay line and offset dropped, its give-up time starting again (R189). -/
def State.candWatch (s : State) (v : SvcId) (n : CandId) : State :=
  ((s.dropDec v n).unStandby v n).updCand v n (fun c => { c.unaligned with
    state := .watched, audioAt := none, byAudio := false, byLearned := false, env := []
    since := match c.rx with
      | .bed k => if (s.beds[k]).state = .mci then some s.time.mono else none
      | _ => none })

/-- A candidate back in VERIFIED, its delay line dropped; alignment restarts. -/
def State.candVerify (s : State) (v : SvcId) (n : CandId) : State :=
  (s.unStandby v n).updCand v n (fun c => { c.unaligned with state := .verified, nextSearch := 0 })

/-! ### Quality and rank (R191 to R193) -/

/-- The whole per cent of erroneous frames of a decoder in the last second (R191). -/
def Dec.errPct (x : Dec) (now : Nat) : Nat :=
  let l := x.recent.filter (fun y => decide (now < y.1 + secTicks))
  100 * (l.filter (·.2)).length / max 1 l.length

/-- Q of a candidate at a tick: 0 while its receiver emits mulch or the carrier is absent. -/
def State.quality (s : State) (v : SvcId) (n : CandId) : Nat :=
  let c := (s.slots[v]).cands[n]
  let g := fun (f : Fld) => (s.get (pgSvc v) f : Int)
  let err : Int := match c.dec with
    | some d => 16 * (s.decs[d]).errPct s.time.mono
    | none => 0
  if !s.rxLive v n then 0
  else match c.rx with
    | .none => 0
    | .bed k => if (s.beds[k]).state.synced then (clampInt (128 + 4 * (s.get (pgBed k) bedMer : Int) / 10 - g svcThDab - err) 0 255).toNat else 0
    | .watch i | .shared i => match c.std with
      | .fm => if (s.demods[i]).carrier then (clampInt (128 + s.get (pgFm i) fmCnr - g svcThFm - s.get (pgFm i) fmMp / 8) 0 255).toNat else 0
      | .am => if s.flag (pgAm i) amCarrier then (clampInt (128 + s.get (pgAm i) amCnr - g svcThAm) 0 255).toNat else 0
      | .drm | .drmPlus => if (s.demods[i]).drm.synced then (clampInt (128 + 4 * (s.get (pgDrm i) drmMer : Int) / 10 - g svcThDrm - err) 0 255).toNat else 0
      | .dab => 0

/-- Q of the tick under way. -/
def Cand.score (c : Cand) : Nat := c.qHist.headD 0

/-- The bonus of a standard. -/
def State.bonus (s : State) (v : SvcId) : Std → Nat
  | .fm => s.get (pgSvc v) svcBonusFm | .am => s.get (pgSvc v) svcBonusAm | .dab => s.get (pgSvc v) svcBonusDab
  | .drm => s.get (pgSvc v) svcBonusDrm | .drmPlus => s.get (pgSvc v) svcBonusDrm

/-- The rank of a candidate (R193). -/
def State.rank (s : State) (v : SvcId) (n : CandId) : Nat := ((s.slots[v]).cands[n]).score + s.bonus v ((s.slots[v]).cands[n]).std

/-- The entries of a slot. -/
def allCands : List CandId := List.finRange 12

/-- The highest-ranked of some entries; ties go to the lower number. -/
def State.best (s : State) (v : SvcId) (l : List CandId) : Option CandId :=
  l.foldl (fun o n => match o with
    | some m => if s.rank v m < s.rank v n then some n else some m
    | none => some n) none

/-! ### Loss of the active (R205 to R208) -/

/-- How the active stands: well; affected by mulch alone; lost otherwise, with the state that its condition gives. -/
inductive Loss where
  | no | mulch | hard (st : CandState)
deriving DecidableEq, Repr

/-- Whether a candidate's decoder has left RUN. -/
def State.decLeft (s : State) (c : Cand) : Bool :=
  match c.dec with
  | some d => decide ((s.decs[d]).state ≠ .run) && decide ((s.decs[d]).state ≠ .wait)
  | none => false

/-- Whether the carrier of an AM or FM candidate is absent (R128). -/
def State.carrierGone (s : State) (c : Cand) : Bool :=
  match c.rx.slice with
  | some i => match c.std with
    | .fm => !(s.demods[i]).carrier
    | .am => !s.flag (pgAm i) amCarrier
    | _ => false
  | none => false

/-- Whether a gap of the receiver of what a slot plays is why its decoder stands in CONCEAL or SYNC (R206). -/
def State.decExcused (s : State) (v : SvcId) (n : CandId) : Bool :=
  let x := s.slots[v]
  x.gapDec && (decide (x.active = some n) || x.splicesTo n) && (match (x.cands[n]).dec with
    | some d => decide ((s.decs[d]).state = .conceal) || decide ((s.decs[d]).state = .sync)
    | none => false)

/-- The conditions of R206 on a candidate. -/
def State.lossOf (s : State) (v : SvcId) (n : CandId) : Loss :=
  let c := (s.slots[v]).cands[n]
  if !s.rxOk v n || !s.decOk v n then .hard .unwatched
  else if !s.rxLive v n then .mulch
  else
    let changed := match s.identify v n with
      | .good .. => false
      | .none => !c.byAudio
      | .bad .. => true
      | .scrambled .. => true
    if changed then .hard .watched
    else if s.carrierGone c || (s.decLeft c && !s.decExcused v n) then .hard .verified
    else .no

/-- Whether the slot's standby can take over: FILLED and not itself affected. -/
def State.standbyReady (s : State) (v : SvcId) : Option CandId :=
  match (s.slots[v]).standby with
  | some m => if ((s.slots[v]).cands[m]).filled ∧ s.lossOf v m = .no then some m else none
  | none => none

/-- The old active of a loss moved to the state that its condition gives. -/
def State.candLose (s : State) (v : SvcId) (n : CandId) : CandState → State
  | .unwatched => s.candDown v n .unwatched
  | .watched => s.candWatch v n
  | .empty => s.candEmpty v n
  | _ => s.candVerify v n

/-- What a slot has to play of a candidate leaves the candidate's delay line, up to the first affected sample. -/
def State.detach (s : State) (v : SvcId) (n : CandId) : State :=
  s.updSlot v (fun x => x.detach n (s.affectedAt (x.cands[n])) s.time.mono)

/-- The slot enters NO_SOURCE (R207): the output ramps to mute by the first affected sample, or while a gap is concealed 50 ms after it (R208); offsets already measured stay relative to the output timeline. -/
def State.noSource (s : State) (v : SvcId) (n : CandId) (st : CandState) : State :=
  let conceal := if (s.slots[v]).concealFrom.isSome then 50 * msTicks else 0
  ((s.detach v n).enterNoSource v conceal).candLose v n st

/-- The splice of R206 to a standby that is ready: a 10 ms blend that ends at the first affected sample of the active, or begins at once where that is due already; a splice that has begun goes on. -/
def State.lossSplice (s : State) (v : SvcId) (n m : CandId) (st : CandState) : State :=
  let x := s.slots[v]
  let first := s.affectedAt (x.cands[n]) + sampleTicks x.presNow
  let z : Splice := match x.splice with
    | some y => if y.started then y else ⟨m, max s.time.mono (first - 10 * msTicks), 10 * msTicks, false⟩
    | none => ⟨m, max s.time.mono (first - 10 * msTicks), 10 * msTicks, false⟩
  ((s.detach v n).candLose v n st).updSlot v (fun y => { y with
    active := none, concealFrom := none, gapDec := false, dwellBad := none, dwellBetter := none, outrank := [], splice := some z })

/-- The active lost, with the state its condition gives. -/
def State.activeLost (s : State) (v : SvcId) (n : CandId) (st : CandState) : State :=
  match s.standbyReady v with
  | some m => s.lossSplice v n m st
  | none => s.noSource v n st

/-- The candidate that a slot plays: its active, or once that is lost the target of the splice under way. -/
def Slot.playing (x : Slot) : Option CandId :=
  match x.active with
  | some n => some n
  | none => x.splice.map (·.target)

/-- One slot at a slice block (R205, R206, R208). -/
def State.followSlot (s : State) (v : SvcId) : State :=
  match (s.slots[v]).playing with
  | none => s
  | some n =>
    match s.lossOf v n with
    | .no => s.updSlot v (fun x => { x with concealFrom := none, gapDec := x.gapDec && s.decLeft (x.cands[n]) })
    | .hard st => if (s.slots[v]).active = some n then s.activeLost v n st else s.noSource v n st
    | .mulch =>
      match s.standbyReady v with
      | some m => if (s.slots[v]).active = some n then s.lossSplice v n m .verified else s
      | none => s.updSlot v (fun x => { x with concealFrom := if x.concealFrom.isSome then x.concealFrom else some s.time.mono, gapDec := true })

/-- The start of a candidate's give-up time (R189): the first valid block of its slice, or the bed in MCI. -/
def State.candClock (s : State) (v : SvcId) (n : CandId) : State :=
  let c := (s.slots[v]).cands[n]
  let runs : Bool := match c.rx with
    | .bed k => decide ((s.beds[k]).state = .mci)
    | .none => false
    | _ => s.rxLive v n
  if c.state = .watched ∧ c.since.isNone ∧ runs then s.updCand v n (fun c => { c with since := some s.time.mono }) else s

/-- Every slot at a slice block: its delay lines take what has come, it plays the block that ends, and then judges its active (R205). -/
def State.followBlock (s : State) : State :=
  (List.finRange 32).foldl (fun s v =>
    if (s.slots[v]).state = .off then s else allCands.foldl (fun s n => s.candClock v n) (((s.fillLines v).slotPlay v).followSlot v)) s

/-! ### DOZE (R543) -/

/-- A candidate entry at an entry to DOZE. -/
def State.candRest (s : State) (v : SvcId) (n : CandId) : State :=
  match ((s.slots[v]).cands[n]).state with
  | .empty | .failed => s
  | _ => (s.candDown v n .unwatched).updCand v n (fun c => { c with qHist := [] })

/-- Every enabled slot at an entry to DOZE or a lower rung: delay lines empty, every entry back to UNWATCHED. -/
def State.slotsDown (s : State) : State :=
  (List.finRange 32).foldl (fun s v =>
    if (s.slots[v]).state = .off then s
    else
      let s1 := s.updSlot v (fun x => { x with splice := none, voices := [], out := [], env := [] })
      (allCands.foldl (fun s n => s.candRest v n) s1).updSlot v (fun x => { x with
        state := .acquiring, active := none, standby := none, filling := none, concealFrom := none, gapDec := false, dwellBad := none, dwellBetter := none
        outrank := [], trial := none, presNow := 0, gain := 0 })) s

end Sys2Proof.Machine
end

