-- ==== Sys2Proof/Machine/FollowTick.lean ====
section
/-! DEFINITION. Service following, the decisions (R172 to R211): commits of an SVC page, generations of the candidate table, the following tick, switches, the AF database and the survey. -/

namespace Sys2Proof.Machine

/-! ### Commits of an SVC page (R173, R174, R184) -/

/-- The key of a candidate entry's register. -/
def candKey (v : SvcId) (n : CandId) : Nat := keyOf (pgSvc v) (svcValid.nth n.val)

/-- The staged word of a candidate entry, if the host has written it. -/
def State.candStaged (s : State) (v : SvcId) (n : CandId) : Option Word := s.staged? 0 (candKey v n)

/-- VALID of a staged entry. -/
def entryValid (w : Word) : Bool := decide (fieldOf w 31 31 = 1)

/-- The standard that an STD field names. -/
def stdOf : Nat → Option Std
  | 0 => some .fm | 1 => some .am | 2 => some .dab | 3 => some .drm | 4 => some .drmPlus | _ => none

/-- Whether STD and FREQ of a staged entry lie in their ranges (R174). -/
def entryInRange (w : Word) : Bool :=
  !entryValid w || (decide (fieldOf w 28 26 ≤ 4) && decide (100 ≤ fieldOf w 17 0) && decide (fieldOf w 17 0 ≤ 250000))

/-- Whether an entry is taken: not EMPTY, or about to be written. DESIGN CHOICE (log 74): an entry for which a host write still waits for its tick is taken, though it is still EMPTY in force. -/
def State.entryTaken (s : State) (v : SvcId) (n : CandId) : Bool :=
  decide (((s.slots[v]).cands[n]).state ≠ .empty) || (s.slots[v]).offers.any (fun o => match o with
    | .write m _ _ _ => decide (m = n)
    | _ => false)

/-- Whether a commit would change what R174 fixes while the slot is enabled. -/
def State.svcFixedChange (s : State) (v : SvcId) : Bool :=
  let p := pgSvc v
  [svcMaxDelay, svcPresent, svcPiMask, svcPi, svcEcc, svcSid_04c, svcSid_050, svcEn].any (fun f => decide (s.stgGet 0 p f ≠ s.get p f))

/-- Whether a commit of an SVC page enables a slot that is off. -/
def State.svcEnables (s : State) (v : SvcId) : Bool := decide (s.stgGet 0 (pgSvc v) pgEn = 1) && decide ((s.slots[v]).state = .off)

/-- The status of a commit of an SVC page (R173, R174, R184). DESIGN CHOICE (log 74): where two apply, BAD_ARG for a range comes before NOT_READY, that before RESOURCE_BUSY of an entry, and the conditions of an enable last. -/
def State.svcStatus (s : State) (v : SvcId) : Status :=
  let p := pgSvc v
  if !s.stagedInRange p 0 ∨ 10 * s.stgGet 0 p svcMaxDelay < s.stgGet 0 p svcPresent ∨
      allCands.any (fun n => match s.candStaged v n with
        | some w => !entryInRange w
        | none => false) then .badArg
  else if (s.slots[v]).state ≠ .off ∧ s.svcFixedChange v then .notReady
  else if allCands.any (fun n => match s.candStaged v n with
      | some w => entryValid w && s.entryTaken v n
      | none => false) then .resourceBusy
  else if s.svcEnables v then
    if s.stgGet 0 p svcEn = 0 then .badArg else s.shareStatus (s.svcOwner v) (slotBytes (s.stgGet 0 p svcMaxDelay)) 0
  else .ok

/-- Whether an enable meets memory that capture channels hold: RES_CONFLICT (R173, Table 6.6); a busy entry of R184 raises none. -/
def State.svcConflict (s : State) (v : SvcId) : Bool :=
  decide (s.svcStatus v = .resourceBusy) && !allCands.any (fun n => match s.candStaged v n with
    | some w => entryValid w && s.entryTaken v n
    | none => false)

/-- A slot off: everything it holds released, every entry EMPTY, its streams without a source (R173, R223). -/
def State.slotOff (s : State) (v : SvcId) : State :=
  let s1 := s.updSlot v (fun x => { x with splice := none, voices := [] })
  ((allCands.foldl (fun s n => s.candEmpty v n) s1).updSlot v (fun _ => Slot.fresh)).strmsGone (fun d => d.ofSlot v)

/-- The host's entries of a commit, as changes of the next generation. -/
def State.hostOffers (s : State) (v : SvcId) : List Offer :=
  allCands.filterMap (fun n => match s.candStaged v n with
    | some w => if entryValid w then (stdOf (fieldOf w 28 26)).map (fun d => .write n d (fieldOf w 17 0) (decide (fieldOf w 29 29 = 1)))
                else some (.remove n)
    | none => none)

/-- A commit of an SVC page takes effect at its response (R171 to R173, R182). -/
def State.svcApply (s : State) (v : SvcId) : State :=
  let offers := s.hostOffers v
  let enables := s.svcEnables v
  let s1 := (s.applyStaged (pgSvc v) 0).updSlot v (fun x => { x with offers := x.offers ++ offers })
  if enables then s1.updSlot v (fun x => { Slot.fresh with state := .acquiring, owner := s.svcOwner v, offers := x.offers })
  else if !s1.flag (pgSvc v) pgEn ∧ (s1.slots[v]).state ≠ .off then s1.slotOff v
  else s1

/-! ### The AF database (R209, R210) -/

/-- The identities that a slot names: kind and value. -/
def State.slotIds (s : State) (v : SvcId) : List (Nat × Nat) :=
  let p := pgSvc v
  let x := s.slots[v]
  let en := s.get p svcEn
  (if bitAt en 0 then [(1, s.get p svcPi)] else if bitAt x.learned 0 then [(1, x.learnedPi)] else []) ++
  (if bitAt en 1 then [(2, s.get p svcEcc * 2 ^ 16 + s.get p svcSid_04c)] else []) ++
  (if bitAt en 2 then [(3, s.get p svcSid_050)] else if bitAt x.learned 2 then [(3, x.learnedDrm)] else [])

/-- Whether an identity of the database is one that a slot names: a DAB identity's extended country code is any where the slot gives none (Table 6.7). -/
def idMeets (want : Nat × Nat) (kind id : Nat) : Bool :=
  decide (want.1 = kind) && (decide (want.2 = id) || (decide (kind = 2) && decide (want.2 / 2 ^ 16 = 0) && decide (want.2 % 2 ^ 16 = id % 2 ^ 16)))

/-- Whether an enabled slot of an owner names an identity. -/
def State.idNamed (s : State) (owner kind id : Nat) : Bool :=
  (List.finRange 32).any (fun v => decide ((s.slots[v]).state ≠ .off) && decide ((s.slots[v]).owner = owner) && (s.slotIds v).any (fun w => idMeets w kind id))

/-- Ring time in seconds. -/
def State.ringSec (s : State) : Nat := s.ringNow / 2 ^ 30

/-- The frequency that a full identity gives up: the lowest last-seen Q, then the oldest. -/
def worstFreq (l : List AfFreq) : Option AfFreq :=
  l.foldl (fun o f => match o with
    | some g => if f.q < g.q ∨ (f.q = g.q ∧ f.seen < g.seen) then some f else some g
    | none => some f) none

/-- A frequency seen for an identity. -/
def AfIdentity.see (x : AfIdentity) (f : AfFreq) : AfIdentity :=
  let same := fun (g : AfFreq) => decide (g.std = f.std) && decide (g.khz = f.khz)
  if x.freqs.any same then { x with freqs := x.freqs.map (fun g => if same g then f else g) }
  else if x.freqs.length < 16 then { x with freqs := x.freqs ++ [f] }
  else match worstFreq x.freqs with
    | some g => { x with freqs := x.freqs.map (fun h => if h = g then f else h) }
    | none => x

/-- The last-seen time of an identity. -/
def AfIdentity.seenAt (x : AfIdentity) : Nat := x.freqs.foldl (fun m f => max m f.seen) 0

/-- Identities that an owner may hold: its quota; Site what the quotas leave. -/
def State.afQuota (s : State) (owner : Nat) : Nat :=
  if tenantOwned owner then s.get pgSec (secAfQuota.nth (owner - 0x21))
  else 4096 - allTenants.foldl (fun n t => n + s.get pgSec (secAfQuota.nth t.val)) 0

/-- The identity that an owner at its quota gives up: the oldest that no enabled slot names. -/
def State.afVictim (s : State) (owner : Nat) : Option AfIdentity :=
  (s.afdb.filter (fun x => decide (x.owner = owner) && !s.idNamed owner x.kind x.id)).foldl (fun o x => match o with
    | some y => if x.seenAt < y.seenAt then some x else some y
    | none => some x) none

/-- A frequency written to an identity of an owner. -/
def State.afWrite (s : State) (owner kind id : Nat) (f : AfFreq) : State :=
  let same := fun (x : AfIdentity) => decide (x.owner = owner) && decide (x.kind = kind) && decide (x.id = id)
  let new : AfIdentity := ⟨owner, kind, id, [f], [], none⟩
  if s.afdb.any same then { s with afdb := s.afdb.map (fun x => if same x then x.see f else x) }
  else if (s.afdb.filter (fun x => x.owner = owner)).length < s.afQuota owner ∧ s.afdb.length < 4096 then { s with afdb := s.afdb ++ [new] }
  else match s.afVictim owner with
    | some y => { s with afdb := updFirst (fun x => decide (x = y)) (fun _ => new) s.afdb }
    | none => s

/-- A frequency heard refreshes the last-seen time of an owner's entries. -/
def State.afHeard (s : State) (owner : Nat) (std : Std) (khz sec : Nat) : State :=
  let same := fun (f : AfFreq) => decide (f.std = std) && decide (f.khz = khz)
  { s with afdb := s.afdb.map (fun x => if x.owner = owner then { x with freqs := x.freqs.map (fun f => if same f then { f with seen := sec } else f) } else x) }

/-- The generations of the database swapped at a following tick (R210): what has been written since is in force. -/
def State.afSwap (s : State) : State :=
  s.afNext.foldl (fun s n => match n with
    | .write owner kind id f => s.afWrite owner kind id f
    | .heard owner std khz sec => s.afHeard owner std khz sec) { s with afNext := [] }

/-- The extended country code that a DAB candidate's ensemble gives, else the slot's own. -/
def State.eccOf (s : State) (v : SvcId) (n : CandId) : Nat :=
  match ((s.slots[v]).cands[n]).rx with
  | .bed k => ((s.beds[k]).ecc).getD (s.get (pgSvc v) svcEcc)
  | _ => s.get (pgSvc v) svcEcc

/-- A candidate that has reached VERIFIED writes its frequency, for the next generation, under the identity its receiver accepted (R210). -/
def State.afLearn (s : State) (v : SvcId) (n : CandId) : State :=
  let c := (s.slots[v]).cands[n]
  if s.flag (pgSvc v) svcLearnDb ∧ c.idKind ≠ 0 then
    let id := if c.idKind = 2 then s.eccOf v n * 2 ^ 16 + c.id else c.id
    { s with afNext := s.afNext ++ [.write (s.slotOwner v) c.idKind id ⟨c.std, c.khz, c.score, s.ringSec⟩] }
  else s

/-! ### Offers (R181, Table 6.1) -/

/-- An automatic offer: standard, kHz, origin bits. -/
abbrev Auto := Std × Nat × Nat

/-- Whether a candidate is verified by an identity: its side data may be used. -/
def Cand.trusted (c : Cand) : Bool :=
  (decide (c.state = .verified) || decide (c.state = .aligned) || decide (c.state = .standby) || decide (c.state = .active)) && !c.byAudio

/-- The slices of a slot's trusted candidates of one standard. -/
def State.trustedSlices (s : State) (v : SvcId) (std : Std → Bool) : List Slc :=
  allCands.filterMap (fun n => let c := (s.slots[v]).cands[n]; if c.trusted ∧ std c.std then c.rx.slice else none)

/-- The owner's slices in USE = 1 and beds that run. -/
def State.ownSlices (s : State) (v : SvcId) : List Slc :=
  (List.finRange 96).filter (fun (i : Slc) => decide ((s.slices[i]).use = .host) && decide (s.sliceOwner i = s.slotOwner v))
/-- The owner's beds in FIC or MCI. -/
def State.ownBeds (s : State) (v : SvcId) : List BedId :=
  (List.finRange 12).filter (fun (k : BedId) => (decide ((s.beds[k]).state = .mci) || decide ((s.beds[k]).state = .fic)) && decide (s.bedOwner k = s.slotOwner v))

/-- Frequencies as offers of one origin. -/
def asOffers (bits : Nat) (l : List Freq) : List Auto := l.map (fun f => (f.1, f.2, bits))

/-- The offers of a bed's FIG 0/21 and 0/24 (bits 3 and 4). -/
def State.bedOffers (s : State) (v : SvcId) (k : BedId) : List Auto :=
  let b : Bed := s.beds[k]
  let eids : List _ := match s.sidWanted v with
    | some sid => (b.others.filter (fun (o : OtherEns) => decide (o.sid = sid))).flatMap (fun (o : OtherEns) => o.eids)
    | none => []
  b.freqs.flatMap (fun f =>
    if f.kind = 2 ∧ eids.contains f.id then f.freqs.map (fun g => (g.1, g.2, if g.1 = .dab then 8 + 16 else 8))
    else if (f.kind = 1 ∧ (s.piMatch v f.id).isSome) ∨ (f.kind = 3 ∧ (s.drmMatch v f.id).isSome) then asOffers 8 f.freqs
    else [])

/-- The owner's own receivers of the programme (bit 8). -/
def State.localOffers (s : State) (v : SvcId) : List Auto :=
  (s.ownSlices v).filterMap (fun i =>
    let got := match s.demodOf i with
      | 1 => s.identAm v i
      | 2 => s.identFm v i
      | 3 | 4 => s.identDrm v i
      | _ => Ident.none
    match got, demodStd (s.demodOf i) with
    | .good .., some d => some (d, khzOf (s.sliceHz i), 256)
    | _, _ => none) ++
  (s.ownBeds v).filterMap (fun k => match s.sidWanted v with
    | some sid => if (s.beds[k]).curSvcs.any (fun d => d.sid = sid) then some (Std.dab, khzOf (s.bedHz k), 256) else none
    | none => none)

/-- The frequencies stored for a slot's identities, best last-seen quality first (bit 7). -/
def State.dbOffers (s : State) (v : SvcId) : List Auto :=
  let ids := s.slotIds v
  let fs := (s.afdb.filter (fun x => decide (x.owner = s.slotOwner v) && ids.any (fun w => idMeets w x.kind x.id))).flatMap (·.freqs)
  (fs.mergeSort (fun a b => decide (b.q ≤ a.q))).map (fun f => (f.std, f.khz, 128))

/-- Every automatic offer that a slot's sources make now, in the order of their origin bits. -/
def State.autoOffers (s : State) (v : SvcId) : List Auto :=
  if s.flag (pgSvc v) svcAutoCand then
    let fm := s.trustedSlices v (fun d => d = .fm)
    let eonOf := fun (i : Slc) => ((s.demods[i]).rds.eon.filter (fun e => (s.piMatch v e.1).isSome)).flatMap (·.2)
    asOffers 2 (fm.flatMap (fun i => (s.demods[i]).rds.afList)) ++
    asOffers 4 ((fm ++ (s.ownSlices v).filter (fun i => s.demodOf i = 2)).flatMap eonOf) ++
    (s.ownBeds v).flatMap (fun k => s.bedOffers v k) ++
    asOffers 32 ((s.trustedSlices v (fun d => d = .drm || d = .drmPlus)).flatMap (fun i => (s.demods[i]).drm.afs)) ++
    asOffers 64 ((s.trustedSlices v (fun d => d = .am)).flatMap (fun i => (s.demods[i]).amss.afs)) ++
    (if s.flag (pgSvc v) svcUseDb then s.dbOffers v else []) ++
    s.localOffers v
  else []

/-! ### The candidate table (R180, R182 to R184) -/

/-- The entry that holds a standard and frequency. -/
def State.entryOf (s : State) (v : SvcId) (std : Std) (khz : Nat) : Option CandId :=
  allCands.find? (fun n => let c := (s.slots[v]).cands[n]; decide (c.state ≠ .empty) && decide (c.std = std) && decide (c.khz = khz))

/-- A new entry: UNWATCHED, or FAILED with BLOCKED. -/
def newCand (std : Std) (khz origin tick : Nat) (pin block : Bool) : Cand :=
  { Cand.fresh with state := if block then .failed else .unwatched, std := std, khz := khz, origin := origin, pin := pin, block := block, entered := tick,
                    reason := if block then .blocked else .none }

/-- The automatic entry that an offer displaces (R183): UNWATCHED or FAILED without BLOCK, with the oldest entry time. -/
def State.displaced (s : State) (v : SvcId) : Option CandId :=
  allCands.foldl (fun o n =>
    let c := (s.slots[v]).cands[n]
    if (c.state = .unwatched ∨ c.state = .failed) ∧ !c.pin ∧ !c.block then
      (match o with
       | some m => if c.entered < ((s.slots[v]).cands[m]).entered then some n else some m
       | none => some n)
    else o) none

/-- An automatic offer placed (R180, R182, R183). -/
def State.placeAuto (s : State) (v : SvcId) (a : Auto) : State :=
  let tick := (s.slots[v]).ticks
  match s.entryOf v a.1 a.2.1 with
  | some n => s.updCand v n (fun c => { c with origin := c.origin ||| a.2.2 })
  | none =>
    match allCands.find? (fun n => ((s.slots[v]).cands[n]).state = .empty) with
    | some n => (s.updCand v n (fun _ => newCand a.1 a.2.1 a.2.2 tick false false)).raise (pgSvc v) evSvcCandAdded
    | none =>
      match s.displaced v with
      | some n => ((s.candEmpty v n).updCand v n (fun _ => newCand a.1 a.2.1 a.2.2 tick false false)).raise (pgSvc v) evSvcCandAdded
      | none =>
        let s1 := s.count (pgSvc v) svcCandDrop 1
        if (s.slots[v]).dropRaised then s1 else (s1.raise (pgSvc v) evSvcCandDropped).updSlot v (fun x => { x with dropRaised := true })

/-- An entry removed; the removal of the ACTIVE entry is a loss (R184, R206). -/
def State.removeCand (s : State) (v : SvcId) (n : CandId) : State :=
  if (s.slots[v]).active = some n then s.activeLost v n .empty else s.candEmpty v n

/-- One change of the next generation. -/
def State.placeOffer (s : State) (v : SvcId) : Offer → State
  | .write n std khz block =>
    match s.entryOf v std khz with
    | some m =>
      let s1 := s.updCand v m (fun c => { c with origin := c.origin ||| 1, pin := true, block := block })
      if block then
        (if (s.slots[v]).active = some m then s1.activeLost v m .unwatched else s1.candDown v m .unwatched).updCand v m (fun c =>
          { c with state := .failed, reason := .blocked })
      else s1
    | none =>
      if ((s.slots[v]).cands[n]).state = .empty then (s.updCand v n (fun _ => newCand std khz 1 (s.slots[v]).ticks true block)).raise (pgSvc v) evSvcCandAdded
      else s
  | .remove n => if ((s.slots[v]).cands[n]).state = .empty then s else s.removeCand v n
  | .auto std khz origin _ => s.placeAuto v (std, khz, origin)

/-- What a generation of the table is: entry, origin, pin and block of every candidate. -/
def Slot.table (x : Slot) : List (Bool × Std × Nat × Nat × Bool × Bool) :=
  x.cands.toList.map (fun c => (decide (c.state ≠ .empty), c.std, c.khz, c.origin, c.pin, c.block))

/-- The swap of generations at a tick (R182): host writes first, then automatic offers. -/
def State.swapTable (s : State) (v : SvcId) : State :=
  let x := s.slots[v]
  let host := x.offers.filter (fun o => match o with
    | .auto .. => false
    | _ => true)
  let found := if s.flag (pgSvc v) svcAutoCand && s.flag (pgSvc v) svcUseDb then x.offers.filter (fun o => match o with
    | .auto .. => true
    | _ => false) else []
  let auto := s.autoOffers v
  let s1 := s.updSlot v (fun y => { y with offers := [], dropRaised := false })
  let s2 := (host ++ found).foldl (fun s o => s.placeOffer v o) s1
  let s3 := auto.foldl (fun s a => s.placeAuto v a) s2
  if (s3.slots[v]).table = x.table then s3 else s3.updSlot v (fun y => { y with candGen := (y.candGen + 1) % 256 })

/-! ### Decoders (R188) -/

/-- The owner's own decoder on the source of a candidate. -/
def State.sharedDec (s : State) (v : SvcId) (n : CandId) : Option DecId :=
  match ((s.slots[v]).cands[n]).decSrc with
  | some (k, src, sub) => (List.finRange 24).find? (fun (d : DecId) =>
      let x := s.decs[d]
      let y := s.decSource d
      decide (x.state ≠ .idle) && x.slot.isNone && decide (x.owner = s.slotOwner v) && decide (y.kind = k) && decide (y.src = src) && decide (y.sub = sub))
  | none => none

/-- Whether a candidate is past verification. -/
def Cand.past (c : Cand) : Bool := decide (3 ≤ c.state.code) && decide (c.state.code ≤ 6)

/-- A shared decoder found for a digital candidate that has none; its loss is a loss of the receiver (`decOk`). -/
def State.shareDec (s : State) (v : SvcId) (n : CandId) : State :=
  let c := (s.slots[v]).cands[n]
  if c.past ∧ stdDigital c.std ∧ c.dec.isNone then s.updCand v n (fun c => { c with dec := s.sharedDec v n }) else s

/-- A decoder set to a candidate's source for its slot. -/
def State.giveDec (s : State) (v : SvcId) (n : CandId) (d : DecId) : State :=
  match ((s.slots[v]).cands[n]).decSrc with
  | some (k, src, sub) =>
    let s1 := (s.setReg (keyOf pgDec (decEn.nth d.val)) 0).puts pgDec
      [(decEn.nth d.val, 1), (decSrcKind.nth d.val, k), (decSrc.nth d.val, src), (decSubch.nth d.val, sub)]
    let s2 := (s1.decClaim d (s.slotOwner v) (some v)).updCand v n (fun c => { c with dec := some d, ownDec := true, wait := .none, decRaised := false })
    s2.updSlot v (fun x => { x with trial := some n, trialSince := x.ticks })
  | none => s

/-- The candidates that the trial decoder may serve, by descending rank: VERIFIED digital candidates that no shared decoder serves. -/
def State.trialList (s : State) (v : SvcId) : List CandId :=
  (allCands.filter (fun n => let c := (s.slots[v]).cands[n]
    decide (c.state = .verified) && stdDigital c.std && (c.dec.isNone || c.ownDec))).mergeSort (fun a b => decide (s.rank v b < s.rank v a) || (decide (s.rank v b = s.rank v a) && decide (a ≤ b)))

/-- Whether a candidate other than the active holds a decoder that its slot has claimed: the trial decoder (R188). -/
def Slot.trialHeld (x : Slot) : Bool := allCands.any (fun n => decide (x.active ≠ some n) && (x.cands[n]).ownDec)

/-- The trial decoder claimed for the highest-ranked candidate that needs one, or NO_DECODER once. -/
def State.trialClaim (s : State) (v : SvcId) : State :=
  if (s.slots[v]).trialHeld then s
  else match (s.trialList v).find? (fun n => ((s.slots[v]).cands[n]).dec.isNone) with
    | none => s
    | some n =>
      match (List.finRange 24).find? (fun (d : DecId) => decide ((s.decs[d]).state = .idle) && decide (s.decPartition d = s.slotOwner v)) with
      | some d => s.giveDec v n d
      | none =>
        let raised := ((s.slots[v]).cands[n]).decRaised
        let s1 := s.updCand v n (fun c => { c with wait := .noDecoder, decRaised := true })
        if raised then s1 else s1.raise (pgSvc v) evSvcNoDecoder

/-- TRIAL_DECODER_MOVE (R188): after 30 s the trial decoder moves to the next-ranked candidate, from the lowest back to the highest. -/
def execTrialDecoderMove (v : SvcId) (s : State) : Host.Outcome State Fault Refusal :=
  match (s.slots[v]).trial with
  | none => .next s
  | some n =>
    if (s.slots[v]).ticks < (s.slots[v]).trialSince + 300 then .next s
    else
    let l := s.trialList v
    let next := ((l.dropWhile (fun m => m ≠ n)).drop 1 ++ l).head?
    match next, ((s.slots[v]).cands[n]).dec with
    | some m, some d => if ((s.slots[v]).cands[n]).state = .verified ∧ m ≠ n then .next ((s.dropDec v n).giveDec v m d) else .next s
    | _, _ => .next s

/-! ### One tick of a slot -/

/-- What the tick measures of a candidate, if anything. -/
def measOf (ms : List CandMeas) (v : SvcId) (n : CandId) : Option CandMeas := ms.find? (fun m => decide (m.slot = v) && decide (m.cand = n))

/-- A receiver lost, or mulch for 50 ms (Table 6.4). -/
def State.checkRx (s : State) (v : SvcId) (n : CandId) : State :=
  match ((s.slots[v]).cands[n]).state with
  | .watched => if s.rxOk v n then s else s.candDown v n .unwatched
  | .verified | .aligned | .standby => if s.rxOk v n && s.decOk v n && !s.rxDead v n then s else s.candDown v n .unwatched
  | _ => s

/-- The identity of a candidate judged (R189, Table 6.3); once one is accepted, correlation under R198 ends. -/
def State.judge (s : State) (v : SvcId) (n : CandId) : State :=
  let c := (s.slots[v]).cands[n]
  let saw := fun (s : State) (kind id : Nat) => s.updCand v n (fun c => { c with idKind := kind, id := id % 2 ^ 24, byAudio := false })
  match s.identify v n with
  | .none =>
    if (c.state = .verified ∨ c.state = .aligned ∨ c.state = .standby) ∧ !c.byAudio then s.candWatch v n else s
  | .good kind id sub learned =>
    let s1 := (saw s kind id).updCand v n (fun c => { c with subch := sub, byLearned := learned })
    if c.state = .watched then s1.updCand v n (fun c => { c.unaligned with state := .verified, since := none, nextSearch := 0 }) else s1
  | .bad kind id =>
    if c.state = .watched then (saw s kind id).candFail v n .mismatch
    else if c.state = .verified ∨ c.state = .aligned ∨ c.state = .standby then (saw s kind id).candWatch v n
    else s
  | .scrambled kind id =>
    if c.state = .watched then (saw s kind id).candFail v n .ca
    else if c.state = .verified ∨ c.state = .aligned ∨ c.state = .standby then (saw s kind id).candWatch v n
    else s

/-- Whether a candidate's receiver delivers audio (R178): for a digital one its decoder is in RUN, for another its slice has delivered audio of the last two slice blocks that is not concealed. -/
def State.hasAudio (s : State) (v : SvcId) (n : CandId) : Bool :=
  let c := (s.slots[v]).cands[n]
  decide (c.rx ≠ .none) && (if stdDigital c.std then (match c.dec with
      | some d => decide ((s.decs[d]).state = .run)
      | none => false)
    else match (s.candAudio c).getLast? with
      | some k => !k.conceal && decide (s.time.mono ≤ k.stop + 2560000)
      | none => false)

/-- Whether a slot keeps the content envelope of a candidate (R194, R198): a verified one, or one admitted to correlation. -/
def State.keepsEnv (s : State) (v : SvcId) (n : CandId) : Bool :=
  let c := (s.slots[v]).cands[n]
  decide (c.state = .verified) || decide (c.state = .aligned) || decide (c.state = .standby) ||
    (decide (c.state = .watched) && s.flag (pgSvc v) svcIdByAudio && (s.slots[v]).active.isSome && decide (s.identify v n = .none))

/-- The loudness of a candidate measured against the active's, while LOUD_EN = 1 (R203): the last valid value stands beside what is measured now. -/
def Cand.hearLoud (c : Cand) (m : CandMeas) : Cand :=
  if c.state = .aligned ∨ c.state = .standby then { c with loudNow := m.loud, loudDiff := if c.loudValid then m.loud else c.loudDiff } else c

/-- Q, decoding delay, loudness and content envelope of a candidate measured (R175, R191, R194, R203). -/
def State.measure (s : State) (ms : List CandMeas) (v : SvcId) (n : CandId) : State :=
  let c := (s.slots[v]).cands[n]
  if c.rx = .none then s
  else
    let s1 := s.updCand v n (fun c => { c with qHist := (s.quality v n :: c.qHist).take 10 })
    match measOf ms v n with
    | some m =>
      if s.hasAudio v n then
        let s2 := s1.updCand v n (fun c =>
          let c1 := if s.flag (pgSvc v) svcLoudEn then c.hearLoud m else c
          { c1 with d := m.d, audioAt := if c.audioAt.isSome then c.audioAt else some s.time.mono, env := if s.keepsEnv v n then (m.env ++ c.env).take 600 else [] })
        if (s.slots[v]).active = some n then s2.updSlot v (fun x => { x with env := (m.env ++ x.env).take (600 + s.get (pgSvc v) svcMaxDelay) }) else s2
      else s1
    | none => s1

/-- Whether the coarse search of a candidate has an offset range: both 6 s windows lie in the histories held (R194, R195). -/
def Slot.rangeFor (x : Slot) (c : Cand) : Bool := decide (600 ≤ c.env.length) && decide (600 ≤ x.env.length)

/-- Whether an offset lies in the range that MAX_DELAY bounds (R197), in samples. -/
def State.ofsInRange (s : State) (v : SvcId) (ofs : Int) : Bool := decide (ofs.natAbs ≤ s.get (pgSvc v) svcMaxDelay * 480)

/-- Alignment of a candidate at a tick (R194 to R198): the coarse search over the histories, the fine search at ±15 ms around what it finds, checks at ±2 ms around OFS. -/
def State.align (s : State) (ms : List CandMeas) (v : SvcId) (n : CandId) : State :=
  let x := s.slots[v]
  let c := x.cands[n]
  let cm := s.get (pgSvc v) svcCorrMin
  match measOf ms v n with
  | none => s
  | some m =>
    if x.active.isNone ∨ x.active = some n ∨ !s.hasAudio v n then s
    else
      let search : Cand → Cand := fun c =>
        if x.rangeFor c ∧ c.nextSearch ≤ x.ticks then
          (if cm ≤ m.coarseCorr ∧ s.ofsInRange v m.coarseOfs then { c with align := .coarse, ofs := m.coarseOfs } else { c with nextSearch := x.ticks + 10 })
        else c
      let fine : Int := clampInt m.fineOfs (c.ofs - 720) (c.ofs + 720)
      let near : Int := clampInt m.fineOfs (c.ofs - 96) (c.ofs + 96)
      let hit := decide (cm ≤ m.fineCorr) && s.ofsInRange v fine
      let missed : Cand → Cand := fun c => { c with align := .none, ofs := 0, nextSearch := x.ticks + 9 }
      let found : Cand → Cand := fun c => { c with align := .fine, ofs := fine, corr := min m.fineCorr 255, nextCheck := x.ticks + 10, lowChecks := 0, goodChecks := 0 }
      match c.state, c.align with
      | .verified, .none => s.updCand v n search
      | .verified, .coarse => s.updCand v n (fun c => if hit then { found c with state := .aligned, alignedAt := s.time.mono } else missed c)
      | .verified, .fine => s.updCand v n (fun c => { c with state := .aligned, alignedAt := s.time.mono, lowChecks := 0, nextCheck := x.ticks + 10 })
      | .watched, a =>
        if s.flag (pgSvc v) svcIdByAudio ∧ s.identify v n = .none then
          (match a with
           | .none => s.updCand v n search
           | .coarse => s.updCand v n (fun c => if hit then found c else missed c)
           | .fine =>
             if x.ticks < c.nextCheck then s
             else s.updCand v n (fun c =>
               let c1 := { c with nextCheck := x.ticks + 10 }
               if !m.usable then c1
               else if m.fineCorr < cm then { c1 with goodChecks := 0 }
               else if 2 ≤ c.goodChecks then { c1 with goodChecks := 0, ofs := near, corr := min m.fineCorr 255, state := .verified, byAudio := true, since := none }
               else { c1 with goodChecks := c.goodChecks + 1, ofs := near, corr := min m.fineCorr 255 }))
        else s
      | .aligned, _ | .standby, _ =>
        if x.ticks < c.nextCheck then s
        else if !m.usable then s.updCand v n (fun c => { c with nextCheck := x.ticks + 10 })
        else if cm ≤ m.fineCorr then s.updCand v n (fun c => { c with nextCheck := x.ticks + 10, ofs := near, corr := min m.fineCorr 255, lowChecks := 0 })
        else if 4 ≤ c.lowChecks then (s.candVerify v n).raise (pgSvc v) evSvcAlignLost
        else s.updCand v n (fun c => { c with nextCheck := x.ticks + 10, lowChecks := c.lowChecks + 1, corr := min m.fineCorr 255 })
      | _, _ => s

/-- The others realigned when a slot takes a new active after NO_SOURCE (R207). -/
def State.realign (s : State) (v : SvcId) (n : CandId) : State :=
  allCands.foldl (fun s m =>
    let c := (s.slots[v]).cands[m]
    if m = n then s
    else if c.state = .aligned ∨ c.state = .standby ∨ c.state = .verified then s.candVerify v m
    else s) s

/-- A candidate made active where the slot has none (R178, R207, Table 6.4): its delay line records from now on, one that it already fills stands; it plays once the line holds audio. -/
def State.activate (s : State) (v : SvcId) (n : CandId) : State :=
  let x := s.slots[v]
  let c := x.cands[n]
  let least : Int := c.d + 960
  let want : Int := if x.state = .noSource ∧ c.align = .fine then c.pc x.presNow else s.get (pgSvc v) svcPresent * 48
  let back := decide (x.state = .noSource)
  let pa := (max want least).toNat
  let kept := decide (c.state = .standby)
  let s1 := (s.unStandby v n).updCand v n (fun d => { d.unaligned with
    state := .active, line := if kept then c.line else [], lineUpTo := if kept then c.lineUpTo else s.time.mono, env := [] })
  let s2 := (s1.updSlot v (fun y => { y with
    state := .following, active := some n, presNow := pa, gain := 0, concealFrom := none, gapDec := false, dwellBad := none, dwellBetter := none, env := []
    trial := if y.trial = some n then none else y.trial })).playFrom v n pa
  if back then (s2.realign v n).raise (pgSvc v) evSvcSourceBack else s2

/-- The first active, or the next one after NO_SOURCE, chosen at a tick. -/
def State.chooseActive (s : State) (ms : List CandMeas) (v : SvcId) : State :=
  let x := s.slots[v]
  if x.active.isSome ∨ x.splice.isSome then s
  else
    let ok := allCands.filter (fun n =>
      let c := x.cands[n]
      (decide (c.state = .verified) || decide (c.state = .aligned) || decide (c.state = .standby)) && decide (s.get (pgSvc v) svcQLow ≤ c.score) &&
      (measOf ms v n).isSome && s.hasAudio v n)
    match s.best v ok with
    | some n => s.activate v n
    | none => s

/-- A standby released: ALIGNED again, its delay line dropped. -/
def State.freeStandby (s : State) (v : SvcId) (n : CandId) : State :=
  let s1 := s.updSlot v (fun x => { x with standby := if x.standby = some n then none else x.standby, filling := if x.filling = some n then none else x.filling })
  s1.updCand v n (fun c => if c.state = .standby then { c with state := .aligned, filled := false, line := [] } else c)

/-- The candidates that may be standby at a tick (R177, R200). -/
def State.standbyList (s : State) (v : SvcId) : List CandId :=
  allCands.filter (fun n => let c := (s.slots[v]).cands[n]
    (decide (c.state = .aligned) || decide (c.state = .standby)) && decide ((s.slots[v]).active ≠ some n) && decide (s.get (pgSvc v) svcQLow ≤ c.score) && !s.tooLate v n)

/-- A candidate begins to fill as standby: its delay line takes the audio that arrives from now on, which was at the aerial d ago. -/
def Cand.fill (now : Nat) (c : Cand) : Cand := { c with state := .standby, fillAt := now, filled := false, line := [], lineUpTo := now - sampleTicks c.d }

/-- The standby of a slot chosen at a tick (R200). -/
def State.chooseStandby (s : State) (v : SvcId) : State :=
  let x := s.slots[v]
  if x.active.isNone ∨ x.splice.isSome then s
  else
    let l := s.standbyList v
    let s0 := match x.filling with
      | some f => if l.contains f then s else s.freeStandby v f
      | none => s
    match x.standby with
    | some m =>
      if l.contains m then
        let above := l.filter (fun n => n ≠ m && decide (s0.rank v m + s.get (pgSvc v) svcSwMargin ≤ s0.rank v n))
        let counts := above.map (fun n => (n, ((x.outrank.find? (fun o => decide (o.1 = n))).map (fun o => o.2 + 1)).getD 0))
        let s1 := s0.updSlot v (fun y => { y with outrank := counts })
        match (s1.slots[v]).filling, s1.best v ((counts.filter (fun o => decide (s.get (pgSvc v) svcDwellBetter ≤ o.2))).map (·.1)) with
        | none, some b => (s1.updSlot v (fun y => { y with filling := some b, outrank := [] })).updCand v b (Cand.fill s.time.mono)
        | _, _ => s1
      else
        let s1 := (s0.freeStandby v m).updSlot v (fun y => { y with outrank := [], dwellBetter := none })
        match (s1.slots[v]).filling with
        | some f => s1.updSlot v (fun y => { y with standby := some f, filling := none })
        | none => match s1.best v l with
          | some b => (s1.updSlot v (fun y => { y with standby := some b })).updCand v b (Cand.fill s.time.mono)
          | none => s1
    | none => match s0.best v l with
      | some b => (s0.updSlot v (fun y => { y with standby := some b, filling := none, dwellBetter := none })).updCand v b (Cand.fill s.time.mono)
      | none => s0

/-- A dwell count: 0 at the first tick of its condition, one more at each later one. -/
def dwell (o : Option Nat) (holds : Bool) : Option Nat := if holds then some ((o.map (· + 1)).getD 0) else none

/-- Whether a dwell of n ticks is met. -/
def dwellMet (o : Option Nat) (n : Nat) : Bool := match o with
  | some k => decide (n ≤ k)
  | none => false

/-- The switch of a slot decided at a tick (R201, R202): it begins 20 ms later, which is a sample of the output. As Table 6.5 shows, the preference dwell counts from the standby's loudness being valid. -/
def State.chooseSwitch (s : State) (v : SvcId) : State :=
  let x := s.slots[v]
  let p := pgSvc v
  match x.active with
  | none => s
  | some a =>
    if x.splice.isSome then s
    else
      let low := decide ((x.cands[a]).score < s.get p svcQLow)
      let bad := dwell x.dwellBad low
      let better := match x.standby with
        | some b => dwell x.dwellBetter (decide (s.rank v a + s.get p svcBetterMargin ≤ s.rank v b) && (!s.flag p svcLoudEn || (x.cands[b]).loudValid))
        | none => none
      let s1 := s.updSlot v (fun y => { y with dwellBad := bad, dwellBetter := better })
      match x.standby with
      | none => s1
      | some b =>
        let c := x.cands[b]
        let rescue := dwellMet bad (s.get p svcDwellBad) && decide (s.get p svcQLow + s.get p svcSwMargin ≤ c.score)
        let held := match x.lastSwitch with
          | some t => decide (t + s.get p svcHoldoff ≤ x.ticks)
          | none => true
        let prefer := dwellMet better (s.get p svcDwellBetter) && held
        if c.filled ∧ (rescue ∨ prefer) then
          s1.updSlot v (fun y => { y with splice := some ⟨b, s.time.mono + 20 * msTicks, s.get p svcBlendMs * msTicks, false⟩ })
        else s1

/-- Whether a linkage contradicts an identity that an EN bit sets: it names identifiers of that kind, and none is the slot's (R190). -/
def State.linkContradicts (s : State) (v : SvcId) (l : Link) : Bool :=
  let en := s.get (pgSvc v) svcEn
  (bitAt en 0 && decide (l.pis ≠ []) && l.pis.all (fun p => (s.piMatch v p).isNone)) ||
  (bitAt en 2 && decide (l.drms ≠ []) && l.drms.all (fun d => (s.drmMatch v d).isNone))

/-- The linkage of R190 that a slot finds on its verified DAB candidates. -/
def State.linkFound (s : State) (v : SvcId) : Option Link :=
  match s.sidWanted v with
  | none => none
  | some sid => (allCands.filterMap (fun n =>
      let c := (s.slots[v]).cands[n]
      match c.rx with
      | .bed k => if c.trusted then (s.beds[k]).links.find? (fun l => decide (l.sid = sid) && l.active && (l.hard || s.flag (pgSvc v) svcSoftLinkOk) && !s.linkContradicts v l) else none
      | _ => none)).head?

/-- Identities learned at a tick (R190). -/
def State.learn (s : State) (v : SvcId) : State :=
  let en := s.get (pgSvc v) svcEn
  match s.linkFound v with
  | some l =>
    s.updSlot v (fun x =>
      let pi := if bitAt en 0 then none else l.pis.head?
      let drm := if bitAt en 2 then none else l.drms.head?
      { x with learned := bit pi.isSome + 4 * bit drm.isSome, learnedPi := pi.getD 0, learnedDrm := drm.getD 0, linkLost := none })
  | none => s.updSlot v (fun x => { x with linkLost := if x.learned = 0 then none else if x.linkLost.isSome then x.linkLost else some s.time.mono })

/-- The gain of the active moving toward 0 dB at LOUD_REL, a tenth of a second at a time (R204). -/
def State.relaxGain (s : State) (v : SvcId) : State :=
  let r : Int := s.get (pgSvc v) svcLoudRel
  let x := s.slots[v]
  let gain := if 0 < x.gain then max 0 (x.gain - r) else min 0 (x.gain + r)
  if x.active.isNone ∨ (x.splice.map (·.started)).getD false then s
  else s.updSlot v (fun x => { x with gain := gain, voices := x.voices.map (fun y => if y.cand = x.active then { y with gain := gain } else y) })

/-- UNWATCHED candidates in the order in which receivers are granted (R186): those that have been measured by descending rank, then the others by the lowest origin bit; ties by entry. -/
def State.grantOrder (s : State) (v : SvcId) : List CandId :=
  let l := allCands.filter (fun n => decide (((s.slots[v]).cands[n]).state = .unwatched))
  let known := fun (n : CandId) => decide (((s.slots[v]).cands[n]).qHist ≠ [])
  ((l.filter known).mergeSort (fun a b => decide (s.rank v b ≤ s.rank v a))) ++
  (List.range 9).flatMap (fun b => (l.filter (fun n => !known n)).filter (fun n =>
    let o := ((s.slots[v]).cands[n]).origin
    bitAt o b && decide (o % 2 ^ b = 0)))

/-- One slot at a following tick. -/
def State.tickSlot (s : State) (ms : List CandMeas) (v : SvcId) : State :=
  if (s.slots[v]).state = .off then s
  else
    let before := (s.slots[v]).cands
    let s1 := s.updSlot v (fun x => { x with ticks := x.ticks + 1 })
    let s2 := s1.swapTable v
    let s3 := allCands.foldl (fun s n => s.checkRx v n) s2
    let s4 := (s3.grantOrder v).foldl (fun s n => s.seekRx v n) s3
    let s5 := allCands.foldl (fun s n => s.judge v n) s4
    let s6 := (allCands.foldl (fun s n => s.shareDec v n) s5)
    let s7 := allCands.foldl (fun s n => s.measure ms v n) s6
    let s8 := (allCands.foldl (fun s n => s.align ms v n) s7).trialClaim v
    let s9 := s8.chooseActive ms v
    let s10 := (s9.chooseStandby v).chooseSwitch v
    let s11 := (s10.learn v).relaxGain v
    allCands.foldl (fun s n => if ((s.slots[v]).cands[n]).past ∧ !(before[n]).past then s.afLearn v n else s) s11

/-- The slots in the order of their decisions: by descending PRIO, then ascending number (R186). -/
def State.slotOrder (s : State) : List SvcId :=
  (List.range 8).reverse.flatMap (fun q => (List.finRange 32).filter (fun v => s.get (pgSvc v) svcPrio = q))

/-! ### The background survey (R25, R26, R211) -/

/-- The bins that an owner's enabled slots map: band II, below 30 MHz, band III. -/
def State.surveyBins (s : State) (owner : Nat) : List (Inp × Nat) :=
  ((List.finRange 32).filter (fun v => decide ((s.slots[v]).state ≠ .off) && decide ((s.slots[v]).owner = owner))).flatMap (fun v =>
    (List.range 13).map (fun b => (inpOf (s.get (pgSvc v) svcInputLf), b)) ++
    (List.range 9).map (fun b => (inpOf (s.get (pgSvc v) svcInputB2), 35 + b)) ++
    (List.range 27).map (fun b => (inpOf (s.get (pgSvc v) svcInputB3), 70 + b)))

/-- The visit record of a bin. -/
def State.visitOf (s : State) (owner : Nat) (b : Inp × Nat) : Option SurveyVisit :=
  s.survey.find? (fun x => decide (x.owner = owner) && decide (x.input = b.1) && decide (x.bin = b.2))

/-- The next bin of an owner: the least recently visited that no slice visits now. -/
def State.surveyPick (s : State) (owner : Nat) : Option (Inp × Nat) :=
  let age := fun b => match s.visitOf owner b with
    | some x => x.last
    | none => 0
  ((s.surveyBins owner).filter (fun b => match s.visitOf owner b with
    | some x => x.slice.isNone
    | none => true)).foldl (fun o b => match o with
      | some c => if age b < age c then some b else some c
      | none => some b) none

/-- A slice starts its next visit. -/
def State.surveyStart (s : State) (i : Slc) : State :=
  let owner := s.sliceOwner i
  match s.surveyPick owner with
  | none => s.updSlc i (fun x => { x with survey := false })
  | some b =>
    let rest := s.survey.filter (fun x => !(decide (x.owner = owner) && decide (x.input = b.1) && decide (x.bin = b.2)))
    { s.updSlc i (fun x => { x with survey := true }) with survey := rest ++ [⟨owner, b.1, b.2, s.time.mono, some i, 0⟩] }

/-- The slices that the survey has left let go of their bins; idle slices start visits in RUN. -/
def State.surveyTick (s : State) : State :=
  let s1 := { s with survey := s.survey.map (fun x => match x.slice with
    | some i => if (s.slices[i]).survey then x else { x with slice := none, left := 0 }
    | none => x) }
  if s.inRun then
    (List.finRange 96).foldl (fun s i => if (s.slices[i]).owned ∨ (s.slices[i]).survey then s else s.surveyStart i) s1
  else s1

/-- A frequency heard refreshes, in the next generation, its entries of the owner's database; whether any matched. -/
def State.surveyHear (s : State) (owner : Nat) (std : Std) (khz : Nat) : State × Bool :=
  let hit := s.afdb.any (fun x => decide (x.owner = owner) && x.freqs.any (fun f => decide (f.std = std) && decide (f.khz = khz)))
  (if hit then { s with afNext := s.afNext ++ [.heard owner std khz s.ringSec] } else s, hit)

/-- The DAB channel centres of band III in kHz (R211). PRESUMED (log 75): those of EN 50248, 5A to 13F. -/
def dabCentres : List Nat :=
  [174928, 176640, 178352, 180064, 181936, 183648, 185360, 187072, 188928, 190640, 192352, 194064, 195936, 197648, 199360, 201072, 202928, 204640, 206352, 208064,
   209936, 211648, 213360, 215072, 216928, 218640, 220352, 222064, 223936, 225648, 227360, 229072, 230784, 232496, 234208, 235776, 237488, 239200]

/-- The raster positions that a visit measures (R211): 100 kHz in band II, 9 and 10 kHz below 30 MHz, the DAB channel centres in band III. -/
def onRaster (std : Std) (khz : Nat) : Bool :=
  match std with
  | .fm => decide (87500 ≤ khz) && decide (khz ≤ 108000) && decide (khz % 100 = 0)
  | .dab => dabCentres.contains khz
  | .am | .drm => decide (khz < 30000) && (decide (khz % 9 = 0) || decide (khz % 10 = 0))
  | .drmPlus => false

/-- Whether a visit of a bin hears a position: on the raster, within the bin, more than 10 dB above the bin's noise floor (R211). -/
def SurveyVisit.hears (x : SurveyVisit) (floor : Nat) (h : SurveyPos) : Bool :=
  onRaster h.std h.khz && decide (2 * h.khz ≤ 5000 * x.bin + 2500) && decide (5000 * x.bin ≤ 2 * h.khz + 2500) && decide (h.level + 200 < floor)

/-- A PI heard offered to the owner's slots that it matches, with origin DB. -/
def State.surveyOffer (s : State) (owner khz pi : Nat) : State :=
  (List.finRange 32).foldl (fun s v =>
    if (s.slots[v]).state ≠ .off ∧ (s.slots[v]).owner = owner ∧ (s.piMatch v pi).isSome then
      s.updSlot v (fun x => { x with offers := x.offers ++ [.auto .fm khz 128 0] })
    else s) s

/-- SURVEY_VISIT (R211): a visit of a slice ends, with the noise floor of its bin and the levels of its positions. A bin with an unmatched FM position is held for five more visits. -/
def execSurveyVisit (i : Slc) (m : SurveyMeas) (s : State) : Host.Outcome State Fault Refusal :=
  match s.survey.find? (fun x => x.slice = some i) with
  | some x =>
    if (s.slices[i]).survey then
      let r := (m.heard.filter (fun h => x.hears m.floor h)).foldl (fun (a : State × Bool) h =>
        let o := a.1.surveyHear x.owner h.std h.khz
        let s2 := if h.std = .fm ∧ !o.2 ∧ h.pi ≠ 0 ∧ 0 < x.left then o.1.surveyOffer x.owner h.khz h.pi else o.1
        (s2, a.2 || (decide (h.std = .fm) && !o.2))) (s, false)
      let hold := if x.left = 0 then (if r.2 then 5 else 0) else x.left - 1
      let s1 := { r.1 with survey := r.1.survey.map (fun y => if y = x then { y with left := hold, last := s.time.mono, slice := if hold = 0 then none else some i } else y) }
      .next (if hold = 0 then s1.surveyStart i else s1)
    else .next s
  | none => .next s

/-! ### The commands -/

/-- FOLLOWING_TICK (R172, R182 to R211): the AF database swaps generations and is stored; every slot decides, in RUN and in IDLE; the survey moves on. -/
def execFollowingTick (ms : List CandMeas) (s : State) : Host.Outcome State Fault Refusal :=
  let s1 := (s.advance .tick).afSwap.afStoreAll
  let s2 := if s1.pwr.rung ≤ 1 then s1.slotOrder.foldl (fun s v => s.tickSlot ms v) s1 else s1
  .next s2.surveyTick

/-- The give-up time of a standard in seconds (Table 6.3). -/
def giveUpSecs : Std → Nat
  | .fm | .dab => 2
  | .drm | .drmPlus => 6
  | .am => 16

/-- Whether a candidate is admitted to correlation, so that the ID_BY_AUDIO row of Table 6.3 gives its time (R198). -/
def State.byAudio (s : State) (v : SvcId) (n : CandId) : Bool :=
  s.flag (pgSvc v) svcIdByAudio && (((s.slots[v]).cands[n]).audioAt).isSome && decide (s.identify v n = .none)

/-- The root time at which a candidate is given up (Table 6.3, R198); none while that time has not begun. -/
def State.giveUpAt (s : State) (v : SvcId) (n : CandId) : Option Nat :=
  let c := (s.slots[v]).cands[n]
  if s.byAudio v n then c.audioAt.map (· + 30 * secTicks) else c.since.map (· + giveUpSecs c.std * secTicks)

/-- Whether the instant of an option has come. -/
def State.come (s : State) : Option Nat → Bool
  | some t => s.ranOut t 0
  | none => false

/-- CAND_GIVE_UP (R189, R198, R379): the give-up time of a WATCHED candidate expires; an identity met at that instant wins and the race is counted. -/
def execCandGiveUp (v : SvcId) (n : CandId) (seen : Bool) (s : State) : Host.Outcome State Fault Refusal :=
  if (s.slots[v]).state ≠ .off ∧ ((s.slots[v]).cands[n]).state = .watched ∧ s.come (s.giveUpAt v n) then
    if seen then .next (((s.race (pgSvc v)).updCand v n (fun c => { c.unaligned with state := .verified, since := none, nextSearch := 0 })).afLearn v n)
    else .next (s.candFail v n (if s.byAudio v n then .noAudioMatch else .noSignal))
  else .next s

/-- CAND_FAIL_RETRY (Table 6.4): FAIL_RETRY seconds after a failure, an entry without BLOCK is received again. -/
def execCandFailRetry (v : SvcId) (n : CandId) (s : State) : Host.Outcome State Fault Refusal :=
  let c := (s.slots[v]).cands[n]
  if c.state = .failed ∧ !c.block ∧ s.ranOut c.failedAt (s.get (pgSvc v) svcFailRetry * secTicks) then .next (s.updCand v n (fun c => { c with state := .unwatched, reason := .none })) else .next s

/-- LOUDNESS_VALID (R203): 3 s after ALIGNED. -/
def execLoudnessValid (v : SvcId) (n : CandId) (s : State) : Host.Outcome State Fault Refusal :=
  let c := (s.slots[v]).cands[n]
  if s.flag (pgSvc v) svcLoudEn ∧ (c.state = .aligned ∨ c.state = .standby) ∧ s.ranOut c.alignedAt (3 * secTicks) then .next (s.updCand v n (fun c => { c with loudValid := true, loudDiff := c.loudNow })) else .next s

/-- Whether a candidate's delay line has filled for its wait w_c (R200). -/
def State.lineFull (s : State) (v : SvcId) (n : CandId) : Bool :=
  let c := (s.slots[v]).cands[n]
  s.ranOut c.fillAt (sampleTicks (c.waitOf (s.slots[v]).presNow).toNat)

/-- STANDBY_FILLED (R200): w_c after it began to fill the delay line is full: FILLED; a replacement takes the place of the standby before it. -/
def execStandbyFilled (v : SvcId) (s : State) : Host.Outcome State Fault Refusal :=
  match (s.slots[v]).filling with
  | some f =>
    if !s.lineFull v f then .next s
    else
    let s1 := match (s.slots[v]).standby with
      | some m => s.freeStandby v m
      | none => s
    .next ((s1.updSlot v (fun x => { x with standby := some f, filling := none, dwellBetter := none })).updCand v f (fun c => { c with filled := true }))
  | none => match (s.slots[v]).standby with
    | some m => if s.lineFull v m then .next (s.updCand v m (fun c => { c with filled := true })) else .next s
    | none => .next s

/-- Whether an instant of the output lies before the end of the slice block in progress, whose samples are played at its end. -/
def State.blockHolds (s : State) (t : Nat) : Bool := decide (t ≤ s.time.mono + 1280000)

/-- SWITCH_SPLICE (R202 to R204, R206): the splice instant: the new source plays with gain LOUD_DIFF, held within ±12 dB, or 0 dB where it was never valid; the old one gives way over the blend. -/
def execSwitchSplice (v : SvcId) (s : State) : Host.Outcome State Fault Refusal :=
  match (s.slots[v]).splice with
  | some z =>
    let c := (s.slots[v]).cands[z.target]
    let want : Int := if s.flag (pgSvc v) svcLoudEn then c.loudDiff else 0
    let gain := clampInt want (-120) 120
    if z.started ∨ !s.blockHolds z.at_ then .next s
    else
      let s1 := (s.spliceTo v z.target (c.pc (s.slots[v]).presNow).toNat z.at_ z.blend (100 * gain)).updSlot v (fun x =>
        { x with splice := some { z with started := true }, gain := 100 * gain })
      .next (s1.updCand v z.target (fun c => { c with clamped := decide (gain ≠ want) }))
  | none => .next s

/-- The others of a slot measured against its new active: their content position stands. -/
def Cand.rebase (c : Cand) (ofs loud : Int) : Cand := if c.align = .fine then { c with ofs := c.ofs - ofs, loudDiff := c.loudDiff - loud, loudNow := c.loudNow - loud } else c

/-- P_c of the target of a switch as it has played since S. -/
def Slot.splicePres (x : Slot) (b : CandId) : Nat :=
  match x.voices.find? (fun y => decide (y.cand = some b)) with
  | some y => y.pres
  | none => ((x.cands[b]).pc x.presNow).toNat

/-- The target of a switch becomes active: P_a := P_c (Table 6.4); the old active, if there is one, its FILLED standby; a candidate that was filling is ALIGNED again. `at_` is the root time of S. -/
def State.completeSwitch (s : State) (v : SvcId) (b : CandId) (at_ : Nat) : State :=
  let s0 : State := match (s.slots[v]).filling with
    | some f => s.freeStandby v f
    | none => s
  let x : Slot := s0.slots[v]
  let c : Cand := x.cands[b]
  let pa := x.splicePres b
  let old : Option CandId := x.active
  let s1 := allCands.foldl (fun (s : State) (n : CandId) => if n = b ∨ old = some n then s else s.updCand v n (fun d => d.rebase c.ofs c.loudDiff)) s0
  let s2 := match old with
    | some a => s1.updCand v a (fun d => { d with
        state := .standby, filled := true, align := .fine, ofs := -c.ofs, corr := c.corr, loudValid := s.flag (pgSvc v) svcLoudEn, loudDiff := -c.loudDiff, loudNow := -c.loudDiff
        nextCheck := x.ticks + 10, lowChecks := 0, clamped := false })
    | none => s1
  let s3 := s2.updCand v b (fun d => { d with state := .active, align := .none, ofs := 0, filled := false, loudValid := false, loudDiff := 0, loudNow := 0, lowChecks := 0 })
  let s4 := s3.updSlot v (fun y => { y with
    state := .following, active := some b, standby := old, filling := none, presNow := pa, splice := none, dwellBad := none, dwellBetter := none, outrank := []
    lastSwitch := some y.ticks, concealFrom := none, gapDec := false
    trial := match old with
      | some a => if (y.cands[a]).ownDec then some a else if y.trial = some b then none else y.trial
      | none => if y.trial = some b then none else y.trial })
  ((s4.count (pgSvc v) svcSwitchCnt 1).putPair (pgSvc v) svcLastSwLo svcLastSwHi (s.time.devAt at_)).raise (pgSvc v) evSvcSwitch

/-- BLEND_END (R202, R206): the blend is over. -/
def execBlendEnd (v : SvcId) (s : State) : Host.Outcome State Fault Refusal :=
  match (s.slots[v]).splice with
  | some z => if z.started ∧ s.blockHolds (z.at_ + z.blend) then .next (s.completeSwitch v z.target z.at_) else .next s
  | none => .next s

/-- MULCH_CONCEAL_EXPIRY (R207, R208, R379): the gap of the active, which was noticed at the end of the slice block that it began in, exceeds 50 ms; valid samples at that instant win and the race is counted. -/
def execMulchConcealExpiry (v : SvcId) (seen : Bool) (s : State) : Host.Outcome State Fault Refusal :=
  match (s.slots[v]).concealFrom, (s.slots[v]).playing with
  | some t, some n =>
    if !s.ranOut t (48 * msTicks) then .next s
    else if seen then .next ((s.race (pgSvc v)).updSlot v (fun x => { x with concealFrom := none }))
    else .next (s.noSource v n .unwatched)
  | _, _ => .next s

/-- LEARNED_ID_DROP (R190): the linkage has been gone for 5 s: the learned identities are dropped, and what only they verified is WATCHED again. -/
def execLearnedIdDrop (v : SvcId) (s : State) : Host.Outcome State Fault Refusal :=
  if s.come ((s.slots[v]).linkLost.map (· + 5 * secTicks)) then
    let s1 := s.updSlot v (fun x => { x with learned := 0, learnedPi := 0, learnedDrm := 0, linkLost := none })
    .next (allCands.foldl (fun (s : State) (n : CandId) =>
      let c : Cand := (s.slots[v]).cands[n]
      if c.byLearned ∧ c.past then (if c.state = .active then s.activeLost v n .watched else s.candWatch v n) else s) s1)
  else .next s

end Sys2Proof.Machine
end

