-- ==== Sys2Proof/Machine/Records.lean ====
section
/-! DEFINITION. The records of the cloche (R305 to R316): quantities, flags, uncertainty, the log and its thresholds, events, and what the conditions of Table 11.6 do. -/

namespace Sys2Proof.Machine

/-- The state with the cloche changed. -/
def State.updSmc (s : State) (f : Smc → Smc) : State := { s with smc := f s.smc }

/-- The state with one measurement point changed. -/
def State.updPoint (s : State) (p : PtId) (f : Point → Point) : State := s.updSmc (fun x => { x with points := upd x.points p f })

/-! ### Ring time and flags -/

/-- Whether no time word has come for TW_MAX_AGE (R311). -/
def State.timeStale (s : State) : Bool :=
  match s.ring.lastTw with
  | some t => decide (t + s.get (pgSmc 2) smc2TwMaxAge * secTicks < s.time.mono)
  | none => true

/-- The flags that hold now for a point: UNSEALED, CHAIN_ALTERED of its input, TIME_DISCONTINUITY by stale time words (Table 11.3). -/
def State.flagsNow (s : State) (x : Point) : Nat :=
  let chain := match s.pointInput x with
    | some i => bitAt (s.get pgCal calChainAltered) i.val
    | none => false
  bit (decide (s.smc.sealSt ≠ .sealed)) + 2 * bit chain + 8 * bit s.timeStale

/-- The same for an event record, which has no input. -/
def State.eventFlags (s : State) : Nat := bit (decide (s.smc.sealSt ≠ .sealed)) + 8 * bit s.timeStale

/-! ### Quantities (R306 to R309, Table 11.1) -/

/-- QUANTITY of a detector definition. -/
def State.detQuantity (s : State) (d : Nat) : Nat := fieldOf (s.reg (detKey d 0)) 31 24

/-- INT of a detector definition, s. -/
def State.detInt (s : State) (d : Nat) : Nat := fieldOf (s.reg (detKey d 0)) 11 0

/-- The used points of a table, by frequency in kHz and value in 0.01 dB; an unused point reads 0. -/
def State.tablePoints (s : State) (key : Nat → Nat → Nat) (n : Nat) : List (Nat × Int) :=
  ((List.range n).map (fun p => ((s.reg (key p 0)).toNat, signedOf 32 (s.reg (key p 1)).toNat))).filter (fun x => x.1 ≠ 0)

/-- The point of a list that is nearest below or at a frequency, and the nearest above or at it. -/
def bracket (l : List (Nat × Int)) (f : Nat) : Option (Nat × Int) × Option (Nat × Int) :=
  (l.foldl (fun b x => if x.1 ≤ f then (match b with
      | some y => if y.1 < x.1 then some x else b
      | none => some x) else b) none,
   l.foldl (fun b x => if f ≤ x.1 then (match b with
      | some y => if x.1 < y.1 then some x else b
      | none => some x) else b) none)

/-- Linear interpolation in dB between the points of a table; flat beyond its ends where `flat`, else none (R308, R309). -/
def interpolate (l : List (Nat × Int)) (flat : Bool) (f : Nat) : Option Rat :=
  match bracket l f with
  | (some a, some b) => if a.1 = b.1 then some (a.2 : Rat) else some ((a.2 : Rat) + ((b.2 - a.2 : Int) : Rat) * ((f - a.1 : Nat) : Rat) / ((b.1 - a.1 : Nat) : Rat))
  | (some a, none) => if flat then some (a.2 : Rat) else none
  | (none, some b) => if flat then some (b.2 : Rat) else none
  | (none, none) => none

/-- The sounded gain of an input that R308 accepts: not too old, from the named position, within its bounds; with the sounding centre. -/
def State.soundedGain (s : State) (i : Inp) : Option (Int × Nat) :=
  let w0 := s.reg (distKey i.val 0)
  let w1 := s.reg (distKey i.val 1)
  let w2 := s.reg (distKey i.val 2)
  match s.smc.corr.find? (fun c => decide (c.input = i) && decide (c.pos = fieldOf w0 24 19) && decide (s.time.mono ≤ c.at_ + fieldOf w0 18 0 * secTicks)) with
  | some c =>
    let g := c.gain + fieldOf w1 15 0
    if signedOf 16 (fieldOf w2 15 0) ≤ g ∧ g ≤ signedOf 16 (fieldOf w2 31 16) then some (g, c.khz) else none
  | none => none

/-- Whether R308 falls back to the nominal table on a SOUNDED input. -/
def State.gainFallback (s : State) (i : Inp) : Bool := decide (fieldOf (s.reg (distKey i.val 0)) 31 31 = 1) && (s.soundedGain i).isNone

/-- g_dist of an input at a frequency, in 0.01 dB (R308); none where the table has no point. -/
def State.gDist (s : State) (i : Inp) (f : Nat) : Option Rat :=
  let gnom := fun f => interpolate (s.tablePoints (gnomKey i.val) 16) true f
  if fieldOf (s.reg (distKey i.val 0)) 31 31 = 1 then
    match s.soundedGain i with
    | some (g, fs) => match gnom f, gnom fs with
      | some a, some b => some (a + ((g : Rat) - b))
      | _, _ => none
    | none => gnom f
  else gnom f

/-- A number rounded to the nearest whole one. -/
def roundRat (x : Rat) : Int := (x + 1 / 2).floor

/-- The VALUE of quantities 1 and 2 from the tap power in 0.01 dBFS_c (R308, R309); none where the sealed tables give no value. -/
def State.levelValue (s : State) (i : Inp) (quantity f : Nat) (tap : Int) : Option Int :=
  match s.gDist i f with
  | some g =>
    let level := ((tap + 200 : Int) : Rat) - g - (signedOf 16 (fieldOf (s.reg (distKey i.val 1)) 31 16) : Rat) + 10875
    if quantity = 2 then (interpolate (s.tablePoints (afKey i.val) 64) false f).map (fun a => roundRat (level + a))
    else some (roundRat level)
  | none => none

/-- LVL_TH of a detector definition, in 0.01 dBµV. -/
def State.detLevel (s : State) (d : Nat) : Int := signedOf 16 (fieldOf (s.reg (detKey d 1)) 15 0)

/-- MER_TH of a detector definition, in 0.01 dB. -/
def State.detMer (s : State) (d : Nat) : Nat := fieldOf (s.reg (detKey d 2)) 31 16

/-- OUT_MIN of a detector definition, ms. -/
def State.detOutMin (s : State) (d : Nat) : Nat := fieldOf (s.reg (detKey d 2)) 15 0

/-- SNR_MIN of a detector definition, in 0.01 dB. -/
def State.detSnrMin (s : State) (d : Nat) : Nat := fieldOf (s.reg (detKey d 3)) 31 16

/-- FRACTION of a detector definition, in 0.001 %. -/
def State.detFraction (s : State) (d : Nat) : Nat := fieldOf (s.reg (detKey d 3)) 15 0

/-- The deviation that more than a number of samples exceed or meet, and at most that number exceed: deviations greatest first. -/
def exceededBy (limit : Nat) : Nat → List (Nat × Nat) → Nat
  | _, [] => 0
  | n, (d, c) :: l => if limit < n + c then d else exceededBy limit (n + c) l

/-- The samples that a histogram counts. -/
def histCount (l : List (Nat × Nat)) : Nat := (l.map (·.2)).sum

/-- What the accumulators of a point give for its quantity (Table 11.1); none where no covered sample gives one, or the sealed tables give no level. MER and offset are means over what is covered: DEDUCED (log 54). -/
def State.accValue (s : State) (x : Point) (a : PtAcc) : Option Int :=
  let q := s.detQuantity x.det
  if q = 8 then some a.outages
  else if a.blocks = 0 then none
  else match q with
    | 3 => some (roundDiv a.offset a.blocks)
    | 4 => if a.hist = [] then none else some (exceededBy (s.detFraction x.det * histCount a.hist / 100000) 0 a.hist)
    | 5 => a.mpxBest.map centiLevel
    | 6 => some a.excursion
    | 7 => if a.ms = 0 then none else some (roundDiv a.mer a.ms)
    | _ => if a.ms = 0 then none else (s.pointInput x).bind (fun i => s.levelValue i q x.khz (centiLevel (a.power / a.ms)))

/-- The VALUE of an interval of a point; one that its accumulators do not give is a free value (log 9). -/
def State.pointValue (s : State) (x : Point) (a : PtAcc) : Int × State :=
  match s.accValue x a with
  | some v => (v, s)
  | none => (signedOf 32 ((Config.freeValue s.draw.1).toNat % 2 ^ 32), s.draw.2)

/-- Whether the SNR of the covered samples, their mean in dB, lies below SNR_MIN (R312). -/
def State.lowSnr (s : State) (x : Point) (a : PtAcc) : Bool := decide (0 < a.blocks) && decide (a.snr < s.detSnrMin x.det * a.blocks)

/-- COVERAGE: 255 times the covered share of an interval of some ticks, rounded down (Table 11.2). -/
def coverage (len blocks : Nat) : Nat := if len = 0 then 0 else min 255 (255 * (1280000 * blocks) / len)

/-- UNCERT of a record (R312). -/
def uncertOf (quantity flags cov : Nat) (lowSnr : Bool) : Nat :=
  if bitAt flags 0 ∨ cov < 128 then 3
  else if bitAt flags 1 ∨ bitAt flags 5 ∨ (quantity = 3 ∧ bitAt flags 2) then 2
  else if lowSnr then 1
  else 0

/-! ### The record and the log (R310, R313 to R316, Table 11.2) -/

/-- The fields of a record that differ between records. -/
structure RecFields where
  type : Nat
  flags : Nat
  point : Nat
  quantity : Nat
  uncert : Nat
  value : Nat
  start : Nat
  end_ : Nat
  freq : Nat
  det : Nat
  cov : Nat
deriving DecidableEq, Repr

/-- Bytes 0 to 63 of a record (Table 11.2). -/
def State.recHead (s : State) (owner seq : Nat) (r : RecFields) : List Byte :=
  bytesBE 1 0xC1 ++ bytesBE 1 r.type ++ bytesBE 2 (r.flags % 64) ++ bytesBE 4 seq ++ bytesBE 8 s.fuse.serial.toNat ++ bytesBE 1 owner ++ bytesBE 1 r.point
    ++ bytesBE 1 r.quantity ++ bytesBE 1 r.uncert ++ bytesBE 4 r.value ++ bytesBE 8 r.start ++ bytesBE 8 r.end_
    ++ bytesBE 8 (ringTime (s.ring.epoch.getD 0) r.start) ++ bytesBE 4 r.freq ++ bytesBE 4 s.smc.auditCnt ++ bytesBE 4 s.smc.fwCrc.toNat
    ++ bytesBE 1 r.det ++ bytesBE 1 r.cov ++ bytesBE 2 s.smc.sealGen

/-- The 128 bytes of a record: head and signature (R310). -/
def State.recBytes (s : State) (owner seq : Nat) (r : RecFields) : List Byte :=
  let head := s.recHead owner seq r
  head ++ bytesBE 64 (Config.clocheSign (Config.sha256 head)).toNat

/-- The session under which records of an owner (1 to 4 tenants, 5 the Verifier) are placed on Q6 (R314). -/
def State.recSession (s : State) (owner : Nat) : Option KeySlot :=
  if h : 1 ≤ owner ∧ owner ≤ 4 then (if (s.sec.csess[owner]'(by omega)).isSome then some ⟨owner, by omega⟩ else none)
  else ([5, 6, 7] : List KeySlot).find? (fun k => (s.sec.csess[k]).isSome)

/-- A record placed on Q6 under its owner's session. -/
def State.placeRec (s : State) (r : Rec) : State :=
  match s.recSession r.owner with
  | some k => match s.sec.csess[k] with
    | some x =>
      let s1 := s.setSession true k (some { x with ctrOut := x.ctrOut + 1 })
      { s1 with q := { s1.q with q6 := s1.q.q6 ++ [.record r.owner r.seq r.bytes ⟨x.id, x.ctrOut + 1, x.keys⟩] },
                smc := { s1.smc with log := updFirst (fun y => y.owner = r.owner && y.seq = r.seq) (fun y => { y with sent := true }) s1.smc.log } }
    | none => s
  | none => s

/-- The records of an owner that have not yet been placed on Q6, placed: what waited for a session (R314, R468). -/
def State.placeRecords (s : State) (owner : Nat) : State :=
  (s.smc.log.filter (fun r => decide (r.owner = owner) && !r.sent)).foldl (fun s r => s.placeRec r) s

/-- A record made, logged and placed; none by a cloche that has failed (R313) or whose log is full. -/
def State.addRec (s : State) (owner : Nat) (r : RecFields) : State :=
  if s.smc.failed ∨ 1536 ≤ s.smc.log.length then s
  else
    let i : Fin 5 := ⟨(owner - 1) % 5, by omega⟩
    let seq := s.smc.nextSeq[i]
    let x : Rec := ⟨owner, seq, s.recBytes owner seq r, false⟩
    (s.updSmc (fun c => { c with log := c.log ++ [x], nextSeq := c.nextSeq.set i (seq + 1) })).placeRec x

/-- The owners to whom an event record goes: the Verifier and every owner that holds a point (Table 11.5). -/
def State.eventOwners (s : State) : List Nat :=
  5 :: ([1, 2, 3, 4] : List Nat).filter (fun o => s.smc.points.toList.any (fun p => decide (p.state ≠ .free) && decide (recOwner p.owner + 1 = o)))

/-- An event record for one owner (Tables 11.2, 11.5). The fields that the tables do not give for an event are free values (log 9). -/
def State.addEvent (s : State) (code value owner : Nat) : State :=
  let (n, s1) := s.draw
  let v := (Config.freeValue n).toNat
  let cov := v % 256
  let flags := s1.eventFlags
  s1.addRec owner ⟨2, flags, 0xFF, code, uncertOf 0 flags cov false, value % 2 ^ 32, s1.time.devtime, s1.time.devtime, v / 2 ^ 8 % 2 ^ 32,
    v / 2 ^ 40 % 256, cov⟩

/-- An event of Table 11.5: recorded to the Verifier and every point owner; while suspended once to the Verifier, then counted (R316). -/
def State.smcEvent (s : State) (code value : Nat) : State :=
  if s.smc.suspended then
    if s.smc.counted.any (fun c => c.1 = code) then
      s.updSmc (fun x => { x with counted := updFirst (fun c => c.1 = code) (fun c => (c.1, c.2 + 1)) x.counted })
    else (s.addEvent code value 5).updSmc (fun x => { x with counted := x.counted ++ [(code, 0)] })
  else s.eventOwners.foldl (fun s o => s.addEvent code value o) s

/-- The standard and frequency of a point as bytes 48 to 51 carry them. -/
def Point.freqWord (x : Point) : Nat := x.std * 2 ^ 29 + x.khz

/-- An open interval of a point closed with the record of some accumulators (R305, R311, R312); `end_` is END, `endAt` its root time. -/
def State.closeInterval (s : State) (p : PtId) (a : PtAcc) (end_ endAt : Nat) : State :=
  let x := s.smc.points[p]
  if x.state = .integrating then
    let q := s.detQuantity x.det
    let back := match s.pointInput x with
      | some i => (decide (q = 1) || decide (q = 2)) && s.gainFallback i
      | none => false
    let flags := x.flags ||| s.flagsNow x ||| (32 * bit back)
    let (v, s1) := s.pointValue x a
    let cov := coverage (endAt - x.startAt) a.blocks
    let s2 := s1.addRec (recOwner x.owner + 1) ⟨1, flags, p.val, q, uncertOf q flags cov (s.lowSnr x a), twos 32 v, x.start, end_, x.freqWord, x.det, cov⟩
    s2.updPoint p (fun y => { y with state := .waiting, flags := 0, ckpt := none, startGrid := s.time.grid, lastValue := BitVec.ofNat 32 (twos 32 v),
                                     lastFlags := flags % 64, lastCov := cov })
  else s

/-- The open interval of a point closed now. -/
def State.closeNow (s : State) (p : PtId) : State := s.closeInterval p (s.smc.points[p]).acc s.time.devtime s.time.mono

/-- Every open interval closed at once. -/
def State.closeAll (s : State) : State := (List.finRange 16).foldl (fun s p => s.closeNow p) s

/-- The fill thresholds of R316 after records have been made. -/
def State.logLevels (s : State) : State :=
  let s1 := if 1383 ≤ s.smc.log.length ∧ !s.smc.highRaised then (s.raise (pgSmc 0) evSmcLogHigh).updSmc (fun x => { x with highRaised := true }) else s
  if 1488 ≤ s1.smc.log.length ∧ !s1.smc.suspended then
    let s2 := s1.closeAll
    let s3 := s2.smcEvent 0x88 s2.smc.log.length
    (s3.raise (pgSmc 0) evSmcLogSuspended).updSmc (fun x => { x with suspended := true, counted := [] })
  else s1

/-- An event of Table 11.5, with the thresholds that its records may meet. -/
def State.smcNote (s : State) (code value : Nat) : State := (s.smcEvent code value).logLevels

/-- Whether the cloche is at work: present, powered, not failed. -/
def State.smcWorks (s : State) : Bool := s.fuse.variant.cloche && s.smcUp && !s.smc.failed

/-- An audit entry (R322, R544): the counter counts on and never decreases, the trail keeps the last 64. -/
def State.audit (s : State) (slot kind param crc : Nat) : State :=
  s.updSmc (fun x =>
    let n := min (x.auditCnt + 1) (2 ^ 32 - 1)
    let a : Audit := ⟨n, s.time.devtime, slot, kind, param, crc⟩
    { x with auditCnt := n, audit := (x.audit ++ [a]).drop (x.audit.length + 1 - 64) })

/-- The seal moves to a state; open intervals carry UNSEALED once it is not SEALED (R311, R318). -/
def State.setSeal (s : State) (x : Seal) : State :=
  let s1 := s.updSmc (fun c => { c with sealSt := x })
  if x = .sealed then s1 else s1.flagPoints 1 (fun _ => true)

/-! ### Conditions of the part (R324, Table 11.6) -/

/-- Points that may not start: a paused point waits for the next boundary again. -/
def State.pointsPause (s : State) : State :=
  s.updSmc (fun x => { x with points := x.points.map (fun p => if p.state = .free then p else { p with state := .paused }) })

/-- Paused points wait for their next boundary. -/
def State.pointsWait (s : State) : State :=
  s.updSmc (fun x => { x with points := x.points.map (fun p => if p.state = .paused then { p with state := .waiting, startGrid := s.time.grid } else p) })

/-- A PAUSE event of a reason. -/
def State.smcPause (s : State) (reason : Nat) : State :=
  (s.updSmc (fun x => { x with paused := true, pauseReason := reason })).smcNote 0x86 reason

/-- A RESUME event of a reason. -/
def State.smcResume (s : State) (reason : Nat) : State :=
  (s.updSmc (fun x => { x with paused := false, pauseReason := 0 })).smcNote 0x87 reason

/-- Entry to IDLE: open intervals closed, none started, PAUSE of reason 1. -/
def State.smcIdle (s : State) : State :=
  if s.smcWorks then s.closeAll.pointsPause.smcPause 1 else s

/-- Return to RUN: RESUME of reason 1, new intervals at the next boundary. -/
def State.smcRun (s : State) : State :=
  if s.smcWorks then s.pointsWait.smcResume 1 else s

/-- Entry to SLEEP: PAUSE before the cloche is powered down. -/
def State.smcSleep (s : State) : State :=
  if s.smcWorks then s.closeAll.pointsPause.smcPause 1 else s

/-- A tamper that was latched while the cloche was powered down is recorded: audit entry, TAMPER, VALUE 1 (R320). -/
def State.smcLate (s : State) : State :=
  if s.smc.lateTamper then
    (((s.updSmc (fun x => { x with lateTamper := false })).audit 0 3 0 0).raise (pgSmc 0) evSmcTamper).smcNote 0x82 1
  else s

/-- Power-up of the cloche from SLEEP or DORMANT, its self-tests passed: RESUME, and a tamper latched meanwhile. The points stay paused until RUN. -/
def State.smcWake (s : State) : State :=
  if s.smcWorks then (s.smcResume 1).smcLate else s

/-- A discontinuity of DEVTIME or of EPOCH on every open interval (R311, R353, Table 11.6). -/
def State.smcTimeBreak (s : State) : State := s.flagPoints 8 (fun _ => true)

end Sys2Proof.Machine
end

