-- ==== Sys2Proof/Machine/Cloche.lean ====
section
/-! DEFINITION. The commands of the cloche mailbox (R326, Table 11.7) and its own events: intervals, checkpoints, self-tests, tamper, the return of its supply. -/

namespace Sys2Proof.Machine

/-- The owner code of a role that may hold measurement points and records: a tenant or the Verifier (R303). -/
def holderOf (r : Role) : Option Nat :=
  match r with
  | .tenant _ => some (roleCode r)
  | .verifier _ => some 0x30
  | _ => none

/-- The Verifier slot of a role, 1 to 3. -/
def verifierSlot (r : Role) : Option Nat :=
  match r with
  | .verifier k => some (k.val + 1)
  | _ => none

/-- A mailbox command of one opcode served on Q2. -/
def State.mailbox (s : State) (op : Nat) (act : Caller → State → State × Option Reply) : State := s.serve 2 [op] act

/-- A mailbox command that only the Verifier may give; any other role completes ACCESS_DENIED (R326). -/
def State.verifierOnly (s : State) (op : Nat) (act : Nat → State → State × Reply) : State :=
  s.mailbox op (fun c s => match verifierSlot c.role with
    | some v => ((act v s).1, some (act v s).2)
    | none => (s, some (.st .accessDenied)))

/-! ### Measurement points (R303 to R305, R309) -/

/-- The partition that holds the source of a point. -/
def State.sourcePartition (s : State) (srcKind src : Nat) : Nat :=
  if srcKind = 1 then (match slcOf src with
    | some i => s.sliceOwner i
    | none => 0)
  else match bedOf src with
    | some k => s.bedOwner k
    | none => 0

/-- Whether a detector's quantity suits a source standard (Table 11.1), the source is of the standard's kind, and the detector admits the standard. -/
def State.detSuits (s : State) (srcKind det std : Nat) : Bool :=
  let q := s.detQuantity det
  let int := s.detInt det
  bitAt (fieldOf (s.reg (detKey det 0)) 23 19) std && decide (1 ≤ int) && decide (int ≤ 3600) && decide (1 ≤ q) && decide (q ≤ 8) &&
    (decide (srcKind = 2) == decide (std = 2)) &&
    (if q = 4 ∨ q = 5 then decide (std = 0) else if q = 6 then decide (std = 1) else if q = 7 then decide (2 ≤ std) else true)

/-- Whether the antenna factor table of a point's input covers a frequency, where the quantity needs it (R309). -/
def State.afCovers (s : State) (x : Point) : Bool :=
  if s.detQuantity x.det = 2 then
    match s.pointInput x with
    | some i => (interpolate (s.tablePoints (afKey i.val) 64) false x.khz).isSome
    | none => false
  else true

/-- PT_SET (R303, R304, R305, R309): binds a point; an interval of the caller's own point that is open is closed first with its record. -/
def execPtSet (p : PtId) (srcKind src det std khz : Nat) (s : State) : Host.Outcome State Fault Refusal :=
  .next (s.mailbox 0x01 (fun c s =>
    match holderOf c.role with
    | none => (s, some (.st .accessDenied))
    | some code =>
      let x := s.smc.points[p]
      let there := if srcKind = 1 then (slcOf src).isSome else if srcKind = 2 then (bedOf src).isSome else false
      let part := if code = 0x30 then 0x10 else code
      let new : Point := { Point.fresh with owner := code, state := if s.inRun then .waiting else .paused, srcKind := srcKind, src := src, det := det,
                                            std := std, khz := khz, startGrid := s.time.grid }
      if !there ∨ 16 ≤ det ∨ 5 ≤ std ∨ 2 ^ 18 ≤ khz then (s, some (.st .badArg))
      else if x.state ≠ .free ∧ x.owner ≠ code then (s, some (.st .resourceBusy))
      else if s.sourcePartition srcKind src ≠ part then (s, some (.st .accessDenied))
      else if !s.detSuits srcKind det std ∨ !s.afCovers new then (s, some (.st .badArg))
      else
        let s1 := if x.state = .integrating then (s.closeNow p).logLevels else s
        (s1.updPoint p (fun _ => new), some (.st .ok))))

/-- PT_DELETE (R305): the owner's point freed; its open interval closed at once with END the deletion instant. -/
def execPtDelete (p : PtId) (_u : Unit) (s : State) : Host.Outcome State Fault Refusal :=
  .next (s.mailbox 0x02 (fun c s =>
    let x := s.smc.points[p]
    if x.state ≠ .free ∧ holderOf c.role = some x.owner then
      (((s.closeNow p).logLevels).updPoint p (fun _ => Point.fresh), some (.st .ok))
    else (s, some (.st .accessDenied))))

/-- The instant of the next boundary of a point on the grid: the first multiple of its interval after its start (R305). -/
def State.pointBoundary (s : State) (p : PtId) : Nat :=
  let x := s.smc.points[p]
  multAtOrAfter (s.detInt x.det * secTicks) (max s.time.grid (x.startGrid + 1))

/-- Whether a waiting point may open an interval: RUN, a DEVTIME, a cloche at work and not suspended. -/
def State.mayOpen (s : State) : Bool := s.inRun && s.time.set && s.smcWorks && !s.smc.suspended

/-- An interval of a waiting point opened now, its accumulators cleared; the MPX power of the last minute goes on where the last interval ended here (R305, R311, Table 11.1). -/
def State.openInterval (s : State) (p : PtId) : State :=
  if (s.smc.points[p]).state = .waiting ∧ s.mayOpen then
    s.updPoint p (fun x =>
      let acc : PtAcc := { PtAcc.fresh with mpx := if x.startGrid = s.time.grid then x.acc.mpx else [] }
      { x with state := .integrating, start := s.time.devtime, startAt := s.time.mono, startGrid := s.time.grid, flags := s.flagsNow x, acc := acc, ckpt := none })
  else s

/-- INTERVAL_BOUNDARY (R305, R310 to R312, R316): the point's boundary: its open interval closed with a record, and the next one opened. -/
def execIntervalBoundary (p : PtId) (_u : Unit) (s : State) : Host.Outcome State Fault Refusal :=
  let x := s.smc.points[p]
  if x.state = .integrating ∨ (x.state = .waiting ∧ s.mayOpen) then
    let s1 := s.after (s.pointBoundary p - s.time.grid)
    .next (((s1.closeNow p).logLevels).openInterval p)
  else .next s

/-! ### Records (R314 to R316) -/

/-- REC_READ (R314, Table 11.7): the owner's held records of a range are placed on Q6 again. -/
def execRecRead (first count : Nat) (s : State) : Host.Outcome State Fault Refusal :=
  .next (s.mailbox 0x03 (fun c s =>
    match holderOf c.role with
    | none => (s, some (.st .accessDenied))
    | some code =>
      if count = 0 ∨ 64 < count then (s, some (.st .badArg))
      else
        let rs := s.smc.log.filter (fun r => decide (r.owner = recOwner code + 1) && decide (first ≤ r.seq) && decide (r.seq < first + count))
        (rs.foldl (fun s r => s.placeRec r) s, some (.st .ok))))

/-- Measurement restarts once the log is down to 1,382 records: EVENT_COUNT for the counted kinds, RESUME, new intervals (R316). -/
def State.logResume (s : State) : State :=
  if s.smc.suspended ∧ s.smc.log.length ≤ 1382 then
    let counted := s.smc.counted.filter (fun c => c.2 ≠ 0)
    let s1 := (s.updSmc (fun x => { x with suspended := false, counted := [], points := x.points.map (fun p => if p.state = .waiting then { p with startGrid := s.time.grid } else p) }))
    let s2 := counted.foldl (fun s c => s.smcEvent 0x8A (c.1 * 2 ^ 16 + min c.2 0xFFFF)) s1
    ((s2.smcEvent 0x87 4).raise (pgSmc 0) evSmcLogResumed).logLevels
  else s

/-- REC_RECEIPT (R315): a digest that matches the owner's sent record N deletes the owner's sent records up to N. -/
def execRecReceipt (seq : Nat) (digest : BitVec 256) (s : State) : Host.Outcome State Fault Refusal :=
  .next (s.mailbox 0x04 (fun c s =>
    match holderOf c.role with
    | none => (s, some (.st .accessDenied))
    | some code =>
      let o := recOwner code + 1
      if s.smc.log.any (fun r => decide (r.owner = o) && decide (r.seq = seq) && r.sent && decide (Config.sha256 r.bytes = digest)) then
        let s1 := s.updSmc (fun x =>
          let log := x.log.filter (fun r => !(decide (r.owner = o) && decide (r.seq ≤ seq) && r.sent))
          { x with log := log, highRaised := x.highRaised && decide (1383 ≤ log.length) })
        (s1.logResume, some (.st .ok))
      else (s, some (.st .badArg))))

/-- GET_CERT (R313): the cloche certificate chain to any role that holds a session; RESULT the byte count (DEDUCED, log 19). -/
def execGetCert (s : State) : Host.Outcome State Fault Refusal :=
  .next (s.mailbox 0x05 (fun c s =>
    if c.ses.isSome then (s, some ⟨.ok, BitVec.ofNat 32 Config.clocheChain.length, packBytes Config.clocheChain⟩)
    else (s, some (.st .accessDenied))))

/-! ### The seal (R318 to R323, R544) -/

/-- SEAL_BREAK (Table 11.4): SEALED to BROKEN_VERIFIER. -/
def execSealBreak (s : State) : Host.Outcome State Fault Refusal :=
  .next (s.verifierOnly 0x10 (fun v s =>
    if s.smc.sealSt ≠ .sealed then (s, .st .notReady)
    else ((((s.setSeal .brokenVerifier).audit v 2 0 0).raise (pgSmc 0) evSmcSealBroken).smcNote 0x81 v, .st .ok)))

/-- The numbers under which sealed parameters are listed as given: REFIN, time source, 16 detectors, 4 distribution sets, 4 gain tables, 4 antenna tables (log 20). -/
def sealedSet : List Nat :=
  [0, 1] ++ (List.range 16).map (fun d => 0x10 + d) ++ (List.range 4).map (fun i => 0x20 + i) ++ (List.range 4).map (fun i => 0x30 + i)
    ++ (List.range 4).map (fun i => 0x40 + i)

/-- SEAL_RESTORE (R318, R319, Table 11.4): every sealed parameter set and TAMPER_N high, as its level at that instant says; a tamper latched at that instant wins, and the race is counted. -/
def execSealRestore (tamperN seen : Bool) (s : State) : Host.Outcome State Fault Refusal :=
  .next (s.verifierOnly 0x11 (fun v t =>
    let s := t.updSmc (fun x => { x with tamperLow := !tamperN })
    if s.smc.sealSt = .sealed ∨ s.smc.sealSt = .absent ∨ s.smc.tamperLow ∨ !sealedSet.all (fun n => s.smc.given.contains n) then (s, .st .notReady)
    else if seen then (s.race (pgSmc 0), .st .notReady)
    else
      let s1 := (s.setSeal .sealed).updSmc (fun x => { x with sealGen := (x.sealGen + 1) % 2 ^ 16 })
      (((s1.audit v 1 0 0).raise (pgSmc 0) evSmcSealed).smcNote 0x83 v, .st .ok)))

/-! ### Sealed parameters (R319, R462, R500, Tables 11.13 to 11.15) -/

/-- The kind number of a sealed value, its index, and the bytes of its value. -/
def sxShape : SxVal → Nat × Nat × List Byte
  | .refin a b => (0, 0, wordBytes a ++ wordBytes b)
  | .timeSource w => (1, 0, wordBytes w)
  | .detector d a b c e => (2, d.val, wordBytes a ++ wordBytes b ++ wordBytes c ++ wordBytes e)
  | .distribution i a b c => (3, i.val, wordBytes a ++ wordBytes b ++ wordBytes c)
  | .gNom i p a b => (4, (Config.tableIndex 4 i.val p.val).toNat, wordBytes a ++ wordBytes b)
  | .antenna i p a b => (5, (Config.tableIndex 5 i.val p.val).toNat, wordBytes a ++ wordBytes b)
  | .verifierKey k cert => (6, k.val, cert)
  | .inject a b => (7, 0, wordBytes a ++ wordBytes b)

/-- The parameter index of Table 11.15: kind × 256 + index, the kind's code being free (log 9). -/
def sxParam (v : SxVal) : Nat := (Config.paramKind (sxShape v).1).toNat * 256 + (sxShape v).2.1

/-- Whether the fields of a sealed value lie in the ranges of Table 11.13. -/
def sxInRange : SxVal → Bool
  | .detector _ w0 _ w2 _ =>
    decide (1 ≤ fieldOf w0 31 24) && decide (fieldOf w0 31 24 ≤ 8) && decide (1 ≤ fieldOf w0 11 0) && decide (fieldOf w0 11 0 ≤ 3600) &&
      decide (1 ≤ fieldOf w2 15 0) && decide (fieldOf w2 15 0 ≤ 1000)
  | .verifierKey _ cert => decide (cert = []) || (Config.verifierCert cert).isSome
  | .inject inj _ => decide (fieldOf inj 29 8 = 0)
  | _ => true

/-- A sealed value takes effect. -/
def State.sxApply (s : State) (v : SxVal) : State :=
  let given (n : Nat) (s : State) : State := s.updSmc (fun x => { x with given := if x.given.contains n then x.given else x.given ++ [n] })
  match v with
  | .refin a b => given 0 ((s.setReg (keyOf (pgSmc 2) smc2RefinCert) a).setReg (keyOf (pgSmc 2) smc2RefinTol) b)
  | .timeSource w => given 1 (s.setReg (keyOf (pgSmc 2) smc2TwMaxAge) w)
  | .detector d a b c e =>
    given (0x10 + d.val) ((((s.setReg (detKey d.val 0) (a &&& 0xFFF80FFF)).setReg (detKey d.val 1) b).setReg (detKey d.val 2) c).setReg (detKey d.val 3) e)
  | .distribution i a b c => given (0x20 + i.val) (((s.setReg (distKey i.val 0) (a &&& 0x81FFFFFF)).setReg (distKey i.val 1) b).setReg (distKey i.val 2) c)
  | .gNom i p a b => given (0x30 + i.val) ((s.setReg (gnomKey i.val p.val 0) a).setReg (gnomKey i.val p.val 1) b)
  | .antenna i p a b => given (0x40 + i.val) ((s.setReg (afKey i.val p.val 0) a).setReg (afKey i.val p.val 1) b)
  | .verifierKey k cert =>
    let s1 := s.endSession true ⟨k.val + 5, by omega⟩
    s1.updSmc (fun x => { x with verifierKeys := x.verifierKeys.set k (if cert = [] then none else Config.verifierCert cert) })
  | .inject inj cnt => (s.setReg (keyOf (pgSmc 0) pgMode) (inj &&& 0xC00000FF)).setReg (keyOf (pgSmc 0) pgInjCnt) cnt

/-- Whether a role may write a sealed value: the Verifier; a certificate fills a Verifier slot without a session; only another Verifier slot clears one (R462). -/
def mayWriteSx (r : Role) (v : SxVal) : Bool :=
  match v, r with
  | .verifierKey k cert, .verifier j => decide (cert ≠ []) || decide (j ≠ k)
  | .verifierKey _ cert, .anyone => decide (cert ≠ [])
  | _, .verifier _ => true
  | _, _ => false

/-- SX_WRITE (R308, R319, R322, R462, R500): a sealed parameter, a Verifier key or the injection of page 0x100, with its audit entry and PARAM_CHANGED. -/
def execSxWrite (v : SxVal) (s : State) : Host.Outcome State Fault Refusal :=
  .next (s.mailbox 0x12 (fun c s =>
    let sounded : Bool := match v with
      | .distribution _ w0 _ _ => decide (fieldOf w0 31 31 = 1)
      | _ => false
    if sounded ∧ !s.fuse.variant.sounding then (s, some (.st .absentUnit))
    else if !mayWriteSx c.role v then (s, some (.st .accessDenied))
    else if s.smc.sealSt = .sealed then (s, some (.st .sealed))
    else if !sxInRange v then (s, some (.st .badArg))
    else
      let s1 := (s.sxApply v).audit ((verifierSlot c.role).getD 0) 4 (sxParam v) (crc32 (sxShape v).2.2)
      (s1.smcNote 0x84 (sxParam v), some (.st .ok))))

/-- REVERIFY (R322, R326): CHAIN_ALTERED of the named inputs cleared from the next record. -/
def execReverify (mask : Nat) (s : State) : Host.Outcome State Fault Refusal :=
  .next (s.verifierOnly 0x13 (fun v s => (((s.clearChain mask).audit v 6 (mask % 16) 0).smcNote 0x8B (mask % 16), .st .ok)))

/-- MARK_SET (R323): a verification mark with its slot and ring time. -/
def execMarkSet (slot : Nat) (mark : Word) (s : State) : Host.Outcome State Fault Refusal :=
  .next (s.verifierOnly 0x14 (fun v s =>
    if h : slot < 4 then
      let m : Mark := ⟨mark, v, s.ringNow / 2 ^ 30 % 2 ^ 30⟩
      ((s.updSmc (fun x => { x with marks := x.marks.set slot m })).audit v 7 slot (crc32 (wordBytes mark)), .st .ok)
    else (s, .st .badArg)))

/-! ### Cloche firmware (R471, R472, Table 17.9) -/

/-- A field of a firmware image: bytes from a place. -/
def imageField (image : List Byte) (from_ len : Nat) : List Byte := (image.drop from_).take len

/-- A number in a firmware image. -/
def imageNat (image : List Byte) (from_ len : Nat) : Nat := natOfBE (imageField image from_ len)

/-- Whether an image holds under R471 for a target and a least security version: form, signature, body hash, target, version (Table 17.9). -/
def imageOk (keyHash : BitVec 256) (target svnMin : Nat) (image : List Byte) : Bool :=
  decide (256 ≤ image.length) && decide (imageNat image 0 4 = 0x554C5346) && decide (imageNat image 4 1 = 1) && decide (imageNat image 5 1 = target) &&
    decide (svnMin ≤ imageNat image 6 2) && decide (256 + imageNat image 12 4 ≤ image.length) &&
    decide ((Config.sha256 (imageField image 256 (imageNat image 12 4))).toNat = imageNat image 16 32) &&
    Config.firmwareSig keyHash (Config.sha256 (image.take 128)) (BitVec.ofNat 512 (imageNat image 128 64))

/-- FW_INSTALL (R319, R322, R472): signed cloche firmware installed while unsealed. -/
def execFwInstall (image : List Byte) (s : State) : Host.Outcome State Fault Refusal :=
  .next (s.verifierOnly 0x15 (fun v s =>
    if s.smc.sealSt = .sealed then (s, .st .sealed)
    else if !imageOk s.fuse.fwKeyHash 1 s.smc.svnMin image then (s, .st .badArg)
    else
      let body := image.take (256 + imageNat image 12 4)
      let crc := crc32 body
      let s1 := s.updSmc (fun x =>
        { x with fwName := imageField image 48 16, fwVer := BitVec.ofNat 32 (imageNat image 8 4), fwCrc := BitVec.ofNat 32 crc,
                 svnMin := max x.svnMin (imageNat image 6 2) })
      ((s1.audit v 5 0 crc).smcNote 0x85 crc, .st .ok)))

/-! ### Events of the cloche itself -/

/-- A stop of the converters of 1 s or more is recorded, and its end (Table 11.6). -/
def State.stopNotes (s : State) : State :=
  let long : Bool := match s.clk.convClosedAt with
    | some t => decide (t + secTicks ≤ s.time.mono)
    | none => false
  if long ∧ !s.smc.paused then s.smcPause 2
  else if s.clk.convClosedAt.isNone ∧ s.smc.pauseReason = 2 then s.smcResume 2
  else s

/-- CLOCHE_CHECKPOINT (R324): 1 s after the last one, the accumulators of open intervals are kept. -/
def execClocheCheckpoint (_u : Unit) (s : State) : Host.Outcome State Fault Refusal :=
  if s.smcWorks then
    let s1 := s.after (s.smc.lastCkpt + secTicks - s.time.mono)
    let keep := fun (y : Point) => if y.state = .integrating then { y with ckpt := some ⟨s1.time.devtime, s1.time.mono, y.acc⟩ } else y
    let s2 := s1.updSmc (fun x => { x with points := x.points.map keep })
    .next ((s2.updSmc (fun x => { x with lastCkpt := s1.time.mono })).stopNotes)
  else .next s

/-- CLOCHE_SELFTEST (R313, R325, Table 19.1): the known-answer test, the CRC test or the SRAM test; a failure enters FAILED with SMC_FAIL. -/
def execClocheSelftest (test : Fin 3) (fail : Bool) (s : State) : Host.Outcome State Fault Refusal :=
  if s.smcWorks then
    let (src, s1) := s.evaluate (pgSmc 0) (2 + test.val) fail
    if src = 0 then .next s1
    else
      let s2 := s1.finding (pgSmc 0) (2 + test.val) (pgSmc 0) evSmcFail 0x30 src 0
      .next (s2.updSmc (fun x => { x with failed := true, points := x.points.map (fun p => if p.state = .integrating then { p with state := .waiting, ckpt := none } else p) }))
  else .next s

/-- TAMPER (R318, R320, R321, Table 11.4): TAMPER_N low for 1 ms breaks the seal; while the cloche is powered down the break is latched and recorded at its next power-up. -/
def execTamper (s : State) : Host.Outcome State Fault Refusal :=
  if !s.fuse.variant.cloche then .next s
  else
    let s0 := s.updSmc (fun x => { x with tamperLow := true })
    let breaks := decide (s.smc.sealSt = .sealed) || decide (s.smc.sealSt = .brokenVerifier)
    if s.smcUp then
      let (src, s1) := s0.evaluate (pgSmc 0) 1 true
      let s2 := s1.logFinding (eventWord (pgSmc 0) evSmcTamper false) (pgSmc 0) 1 src 0
      if breaks then .next ((((s2.setSeal .brokenTamper).audit 0 3 0 0).raise (pgSmc 0) evSmcTamper).smcNote 0x82 0)
      else .next s2
    else if breaks then .next ((s0.setSeal .brokenTamper).updSmc (fun x => { x with lateTamper := true }))
    else .next s0

/-- Each open interval closed with END at its last checkpoint (R324). -/
def State.closeAtCheckpoints (s : State) : State :=
  ((List.finRange 16).foldl (fun s p =>
    let x := s.smc.points[p]
    match x.ckpt with
    | some c => s.closeInterval p c.acc c.dev c.at_
    | none => s.closeInterval p PtAcc.fresh x.start x.startAt) s).logLevels

/-- CLOCHE_POWER_RESTORE (R324, Table 11.6): on the return of VDD_SMC each open interval gets a record with END at its last checkpoint, and POWER_LOSS is written. -/
def execClochePowerRestore (secs : Nat) (s : State) : Host.Outcome State Fault Refusal :=
  if s.fuse.variant.cloche ∧ !s.smc.failed then
    let s2 := s.closeAtCheckpoints.smcNote 0x89 (min secs (2 ^ 31 - 1))
    .next (s2.updSmc (fun x => { x with lastCkpt := s.time.mono })).smcLate
  else .next s

end Sys2Proof.Machine
end

