-- ==== Sys2Proof/Machine/PortOps.lean ====
section
/-! DEFINITION. The ring ports as frames and blocks use them (R332 to R339, R346 to R349, R354 to R358), and a port's fall from UP. -/

namespace Sys2Proof.Machine

/-- The state with one ring port changed. -/
def State.updPort (s : State) (p : Port) (f : Prt → Prt) : State := { s with ports := upd s.ports p f }
/-- The state with the ring record changed. -/
def State.updRing (s : State) (f : Ring → Ring) : State := { s with ring := f s.ring }
/-- The state with the synthesiser changed. -/
def State.updClk (s : State) (f : Clk → Clk) : State := { s with clk := f s.clk }

/-- Whether an event that comes at most once per 10 ms may be raised. -/
def State.eventDue (s : State) (last : Option Nat) : Bool :=
  match last with
  | some t => decide (t + 10 * msTicks ≤ s.time.mono)
  | none => true

/-! ### Eligibility (R409) and clock quality (R354) -/

/-- The instants from which the tests of R409 hold for a port, brought up to date: UP, qualified, frames with CQ 0 and CHOPS at most 64. -/
def State.refreshElig (s : State) (p : Port) : State :=
  let x := s.ports[p]
  s.updClk (fun c => { c with ports := upd c.ports p (fun y =>
    let up := decide (x.state = .up)
    let cq0 := if up then y.cq0Since else none
    let pass := up && y.qual && cq0.isSome && decide (x.chopsIn ≤ 64)
    { y with cq0Since := cq0, passSince := if pass then (match y.passSince with
      | some t => some t
      | none => some s.time.mono) else none }) })

/-- CQ_OUT takes a value; the instants at which it leaves 0 and returns to 0 are kept for the guard of R409. -/
def State.setCq (s : State) (cq : Nat) : State :=
  if cq = s.ring.cqOut then s
  else
    let s1 := s.updRing (fun r => { r with cqOut := cq })
    if cq = 0 then s1.updClk (fun c => { c with cqZeroAt := some s.time.mono })
    else if s.ring.cqOut = 0 then s1.updClk (fun c => { c with cqNonZeroAt := some s.time.mono, cqZeroAt := none })
    else s1

/-- CHOPS_OUT: one more than that of the reference port's frames, 127 at most (R354). -/
def State.setChops (s : State) : State :=
  match s.clk.ref with
  | some p => if (s.ports[p]).state = .up then s.updRing (fun r => { r with chopsOut := min 127 ((s.ports[p]).chopsIn + 1) }) else s
  | none => s

/-! ### Blocks sent -/

/-- A control block of Table 12.2. -/
def ctlBlock (lane type : Nat) (low : Nat) : OutItem := .block lane type (quadPack [(127, 120, type), (119, 0, low)])

/-- Items put on the lanes of a port. -/
def State.send (s : State) (p : Port) (l : List OutItem) : State := s.updPort p (fun x => { x with out := x.out ++ l })

/-- A training block on both lanes: port letter, lane, serial number. -/
def State.sendTs (s : State) (p : Port) (type : Nat) : State :=
  s.send p [ctlBlock 0 type (p.val * 2 ^ 119 + s.fuse.serial.toNat), ctlBlock 1 type (p.val * 2 ^ 119 + 2 ^ 118 + s.fuse.serial.toNat)]

/-- A delay request on lane 0 (Table 12.2): the send instant in 1/256-tick units. -/
def State.sendDelayReq (s : State) (p : Port) : State := s.send p [ctlBlock 0 0x20 (s.time.mono * 256 % 2 ^ 64)]

/-! ### Frames sent (R335, R339, R347, R348) -/

/-- The receiver's buffers of a class, in frames (R348). -/
def classBuffer : Nat → Nat
  | 0 => 16 | 1 => 64 | 2 => 128 | _ => 64

/-- A class number as an index. -/
def tcOf (n : Nat) : Fin 4 := ⟨n % 4, by omega⟩

/-- Whether a port holds credit for a class (R348). -/
def Prt.hasCredit (x : Prt) (tc : Fin 4) : Bool := decide ((x.sent[tc] + 16384 - x.credit[tc] % 16384) % 16384 < classBuffer tc.val)

/-- A frame sent on a port: its hop fields filled, credit taken (R335, R348, R354). -/
def State.transmit (s : State) (p : Port) (f : RFrame) : State :=
  let x := s.ports[p]
  let tc := tcOf f.tc
  let g : RFrame := { f with crcOk := true, hseq := x.hseqOut[tc], crTc := x.crTc, crCnt := x.freed[tcOf x.crTc] % 16384, cq := s.ring.cqOut, chops := s.ring.chopsOut }
  (s.updPort p (fun y =>
    { y with out := y.out ++ [.frame g], crTc := (y.crTc + 1) % 4, hseqOut := y.hseqOut.set tc ((y.hseqOut[tc] + 1) % 65536),
             sent := y.sent.set tc ((y.sent[tc] + 1) % 16384) })).count (pgPort p) prtTxFrames 1

/-- The hop-local frame that a port sends in each frame time in which no other frame is ready (R337): credit and clock quality, no payload. It needs no credit, is never forwarded, and is not listed in `out` (log 50). -/
def State.hopLocal (s : State) (p : Port) : RFrame :=
  let x := s.ports[p]
  { crcOk := true, dst := 0, src := s.ring.pos.getD 0x7F, queue := 0, tc := 0, dual := false, hseq := 0, len := 0, firstHdr := 63, crTc := x.crTc,
    crCnt := x.freed[tcOf x.crTc] % 16384, cq := s.ring.cqOut, chops := s.ring.chopsOut, ttl := 127, payload := [] }

/-- A frame of a class freed by the receiver of a port, n in all (R348). -/
def State.freeCredit (s : State) (p : Port) (tc : Fin 4) (n : Nat) : State :=
  s.updPort p (fun x => { x with freed := x.freed.set tc ((x.freed[tc] + n) % 16384) })

/-- A buffer of the port on which a forwarded frame came freed (R348, R349); a local frame held none. -/
def State.freeFrom (s : State) (from_ : Option Port) (f : RFrame) : State :=
  match from_ with
  | some p => s.freeCredit p (tcOf f.tc) 1
  | none => s

/-- A waiting frame sent: it leaves its port buffer, and a forwarded one the pass-through buffer of the port on which it came, which that port returns as credit (R348, R349). -/
def State.leaveBuffer (s : State) (p : Port) (w : WaitFrame) : State := (s.transmit p w.frame).freeFrom w.from_ w.frame

/-- The frame that a port serves next: classes in strict order; within a class a forwarded frame before a local one, unless a local one has waited 64 frame times (R347). -/
def State.nextFrame (s : State) (p : Port) : Option WaitFrame :=
  let x := s.ports[p]
  (List.finRange 4).findSome? (fun tc =>
    if x.hasCredit tc then
      let l := x.wait.filter (fun w => w.frame.tc = tc.val)
      match l.find? (fun w => w.from_.isNone && decide (w.at_ + 13728 ≤ s.time.mono)) with
      | some w => some w
      | none => match l.find? (fun w => w.from_.isSome) with
        | some w => some w
        | none => l.head?
    else none)

/-- Frames that wait at a port sent as its credit allows; the bound is the number that waits. -/
def State.drainWait (s : State) (p : Port) : Nat → State
  | 0 => s
  | n + 1 => match s.nextFrame p with
    | some w => ((s.updPort p (fun x => { x with wait := x.wait.erase w })).leaveBuffer p w).drainWait p n
    | none => s

/-- A frame handed to a port: it waits its turn there (R347 to R349). -/
def State.enqueueFrame (s : State) (p : Port) (from_ : Option Port) (f : RFrame) : State :=
  let s1 := s.updPort p (fun x => { x with wait := x.wait ++ [⟨f, from_, s.time.mono⟩] })
  s1.drainWait p (s1.ports[p]).wait.length

/-- A frame for a port, or turned to the other one when this one does not carry traffic: DUAL copies, broadcasts and Q3 frames are then discarded (R356). -/
def State.sendFrame (s : State) (p : Port) (from_ : Option Port) (f : RFrame) : State :=
  if s.carries p then s.enqueueFrame p from_ f
  else if s.turned p ∧ !(f.dual || decide (f.dst = 0x7F) || decide (f.queue = 3)) then s.enqueueFrame (otherPort p) from_ f
  else s.freeFrom from_ f

/-- The words of a notice or time word sent on the port opposite to its arrival, never turned (R351, R356). -/
def State.forwardNotice (s : State) (p : Port) (ws : List Quad) : State :=
  if s.carries (otherPort p) then s.send (otherPort p) [.notice ws] else s

/-! ### Wrapping, and a port's fall (R355, R356) -/

/-- Entry to wrapping at a port raises WRAP and is counted; whether the part wraps there is kept. -/
def State.ringSettle (s : State) : State :=
  (List.finRange 2).foldl (fun s p =>
    let w := s.wrapping p
    let s1 := if w ∧ !s.ring.wrapped[p] then (s.raise pgLnk evLnkWrap).count pgLnk lnkWrapCnt 1 else s
    s1.updRing (fun r => { r with wrapped := r.wrapped.set p w })) s

/-- A port goes DOWN: from UP it is a fall, with PORT_DOWN, its count and LINK_DOWN into the hop; its waiting frames are lost (R355, R357). With EN = 0 or on leaving the ring no event is raised (Table 12.6). -/
def State.portDrop (s : State) (p : Port) (linkDown ev : Bool) : State :=
  let x := s.ports[p]
  let items := if linkDown && decide (x.state = .up) then [ctlBlock 0 0x30 0] else []
  let s1 := s.updPort p (fun y => { Prt.fresh with downAt := if y.state = .down then y.downAt else s.time.mono, fell := y.fell || decide (y.state = .up), out := y.out ++ items, crcAt := y.crcAt, laneAt := y.laneAt })
  let s2 := s1.put (pgPort p) prtPeerPos 0
  let s3 := if x.state = .up then (if ev then s2.raise (pgPort p) evPrtPortDown else s2).count (pgPort p) prtDownCnt 1 else s2
  let s3 := (x.wait.filter (fun w => decide (w.from_ = some (otherPort p)))).foldl (fun s w => s.freeFrom w.from_ w.frame) s3
  (s3.refreshElig p).ringSettle

/-- Both ports fall: the ring-forwarding domain stops (R421). -/
def State.portsDrop (s : State) : State := (s.portDrop 0 true true).portDrop 1 true true

end Sys2Proof.Machine
end

