-- ==== Sys2Proof/Machine/Lanes.lean ====
section
/-! DEFINITION. What a port's lanes carry (R332 to R335): frames as words with their CRC, words and control blocks as 130-bit blocks, dealt to two lanes and scrambled, with SKIP and ALIGN blocks between them. -/

namespace Sys2Proof.Machine

/-- The header word of a frame without its CRC (Table 12.3). -/
def frameHead (f : RFrame) : Quad :=
  quadPack [(127, 121, f.dst), (120, 114, f.src), (113, 110, f.queue), (109, 108, f.tc), (107, 107, bit f.dual), (106, 91, f.hseq), (90, 85, f.len),
    (84, 79, f.firstHdr), (78, 77, f.crTc), (76, 63, f.crCnt), (62, 61, f.cq), (60, 54, f.chops), (53, 47, f.ttl)]

/-- The 32 payload words of a frame: unused words are 0. -/
def frameBody (f : RFrame) : List Quad := f.payload.take 32 ++ List.replicate (32 - f.payload.length) 0

/-- The CRC of a frame: over header bits 127:32 and the 32 payload words in order (Table 12.3). -/
def frameCrc (f : RFrame) : Nat := crc32 ((bytesBE 16 (frameHead f).toNat).take 12 ++ (frameBody f).flatMap (fun w => bytesBE 16 w.toNat))

/-- The 33 words of a frame (R335). -/
def frameWords (f : RFrame) : List Quad := ((frameHead f) ||| quadPlace 31 0 (frameCrc f)) :: (frameBody f)

/-- What a lane has sent: the number of its blocks, the scrambler, the CRC-16 over the blocks since the last ALIGN, the blocks, newest first. -/
structure LaneTx where
  count : Nat
  scr : Nat
  crc : Nat
  blocks : List (BitVec 130)
deriving DecidableEq, Repr

/-- The seed of a lane's scrambler (R332). -/
def laneSeed (lane : Nat) : Nat := if lane = 0 then 0x1DBFBC else 0x0607BB

/-- A lane before its first block. -/
def LaneTx.fresh (lane : Nat) : LaneTx := ⟨0, laneSeed lane, 0xFFFF, []⟩

/-- One step of the additive scrambler of polynomial x^23 + x^21 + x^16 + x^8 + x^5 + x^2 + 1 (R332): the bit that it gives, and its next state. PRESUMED (log 76). -/
def scrambleStep (c : Nat) : Bool × Nat :=
  (bitAt c 22, c * 2 % 2 ^ 23 + bit ([22, 20, 15, 7, 4, 1].foldl (fun b i => xor b (bitAt c i)) false))

/-- A word scrambled, bit 127 first, and the scrambler after it. -/
def scrambleWord (c : Nat) (w : Quad) : Quad × Nat :=
  (List.range 128).foldl (fun (r : Quad × Nat) i =>
    let x := scrambleStep r.2
    (r.1 ^^^ (if x.1 then quadPlace (127 - i) (127 - i) 1 else 0), x.2)) (w, c)

/-- One block on a lane: sync header 0b01 for data and 0b10 for control, then the word scrambled (R332). -/
def LaneTx.block (x : LaneTx) (ctl : Bool) (w : Quad) : LaneTx :=
  let r := scrambleWord x.scr w
  { count := x.count + 1, scr := r.2, crc := crcBytes 16 0x1021 x.crc (bytesBE 16 w.toNat),
    blocks := ((if ctl then (2 : BitVec 2) else 1) ++ r.1) :: x.blocks }

/-- The SKIP and ALIGN blocks that fall due on a lane: one SKIP per 2,048 blocks, and as each 4,096th block an ALIGN with the CRC-16 of the 4,095 before it, at which the scrambler is seeded anew (R332, Table 12.2). PRESUMED (log 76): where a SKIP stands between two ALIGNs, and that the seed serves the ALIGN block itself. -/
def LaneTx.due (lane : Nat) (x : LaneTx) : LaneTx :=
  if x.count % 4096 = 4095 then { ({ x with scr := laneSeed lane }).block true (quadPack [(127, 120, 0x02), (15, 0, x.crc)]) with crc := 0xFFFF }
  else if x.count % 2048 = 1023 then x.block true (quadPack [(127, 120, 0x01)])
  else x

/-- A block on a lane after those that fall due. -/
def LaneTx.put (lane : Nat) (x : LaneTx) (ctl : Bool) (w : Quad) : LaneTx := (x.due lane).block ctl w

/-- The two lanes of a port and the lane that the next data word takes. -/
structure LanesTx where
  l0 : LaneTx
  l1 : LaneTx
  next : Bool
deriving DecidableEq, Repr

/-- A control block on a lane. -/
def LanesTx.ctl (x : LanesTx) (lane : Nat) (w : Quad) : LanesTx :=
  if lane = 0 then { x with l0 := x.l0.put 0 true w } else { x with l1 := x.l1.put 1 true w }

/-- A data word: dealt alternately to lane 0 and lane 1, across frame boundaries too (R332). -/
def LanesTx.data (x : LanesTx) (w : Quad) : LanesTx :=
  if x.next then { x with l1 := x.l1.put 1 false w, next := false } else { x with l0 := x.l0.put 0 false w, next := true }

/-- The frame of a notice or time word on Q3; what its hop fields hold is left out (log 50). -/
def noticeFrame (ws : List Quad) : RFrame :=
  { crcOk := true, dst := 0x7F, src := 0, queue := 3, tc := 0, dual := false, hseq := 0, len := ws.length, firstHdr := 0, crTc := 0, crCnt := 0, cq := 0, chops := 0,
    ttl := 127, payload := ws }

/-- What an item of a port's output puts on the lanes. -/
def LanesTx.item (x : LanesTx) : OutItem → LanesTx
  | .block lane _ w => x.ctl lane w
  | .frame f => (frameWords f).foldl LanesTx.data x
  | .notice ws => (frameWords (noticeFrame ws)).foldl LanesTx.data x

/-- The blocks that a port's two lanes carry for what it has sent, oldest first (R332). -/
def Prt.lanes (x : Prt) : List (BitVec 130) × List (BitVec 130) :=
  let r := x.out.foldl LanesTx.item ⟨LaneTx.fresh 0, LaneTx.fresh 1, false⟩
  (r.l0.blocks.reverse, r.l1.blocks.reverse)

end Sys2Proof.Machine
end

