-- ==== Sys2Proof/Machine/Clocks.lean ====
section
/-! DEFINITION. The clock synthesiser (R401 to R424): qualification, acquisition, the choice of the reference, holdover, clockless safe (Table 15.4). -/

namespace Sys2Proof.Machine

/-- The state with what the synthesiser holds of one port changed. -/
def State.updClkPort (s : State) (p : Port) (f : ClkPort → ClkPort) : State := s.updClk (fun c => { c with ports := upd c.ports p f })

/-- Whether the reference is lost: disqualified, or DOWN after having been UP since it was acquired (R411). -/
def State.refLost (s : State) (p : Port) : Bool :=
  !(s.clk.ports[p]).qual || ((s.clk.ports[p]).wasUp && decide ((s.ports[p]).state ≠ .up))

/-- A hitless change of the reference (R411). -/
def State.hitless (s : State) (p : Port) : State :=
  let s1 := s.updClk (fun c => { c with ref := some p, upstreamRaised := false })
  let s2 := s1.updClkPort p (fun y => { y with wasUp := decide ((s.ports[p]).state = .up) })
  (((s2.raise pgClk evClkRefSwitch).count pgClk clkSwitchCnt 1).setCq 0).setChops

/-- Entry to holdover (R413). -/
def State.enterHoldover (s : State) : State :=
  let s1 := s.updClk (fun c => { c with state := .holdover, holdFrom := s.time.mono, upstreamRaised := false })
  (s1.raise pgClk evClkHoldover).count pgClk clkHoldCnt 1

/-- The reference judged while locked (R411 case 1, R412, R413): lost, a coasting upstream, or sound. -/
def State.clkEvaluate (s : State) : State :=
  match s.clk.state, s.clk.ref with
  | .locked, some p =>
    let o := otherPort p
    if s.refLost p then
      let s1 := s.setCq 2
      if s1.eligible o then s1.hitless o else s1.enterHoldover
    else if (s.ports[p]).state = .up ∧ (s.ports[p]).cqIn ≠ 0 then
      let s1 := (s.setCq 1).setChops
      if s1.eligible o then s1.hitless o
      else if s1.clk.upstreamRaised then s1
      else (s1.raise pgClk evClkUpstreamCoast).updClk (fun c => { c with upstreamRaised := true })
    else
      let s1 := if (s.ports[p]).state = .up then s.updClkPort p (fun y => { y with wasUp := true }) else s
      ((s1.setCq 0).setChops).updClk (fun c => { c with upstreamRaised := false })
  | _, _ => s

/-- A port falls and the clock is judged again (R355, R411). -/
def State.portFall (s : State) (p : Port) (linkDown : Bool) : State := (s.portDrop p linkDown true).clkEvaluate

/-- Whether a frequency passes the test of Table 15.3 that a port meets before it qualifies; frequencies in 0.01 ppm. -/
def State.freqOk (s : State) (freq : Int) : Bool :=
  let lim : Nat := match s.clk.state with
    | .locked => 2000 | .holdover => 2000 | _ => 20000
  decide (freq.natAbs ≤ lim)

/-- The frequency register of a port. -/
def freqFld (p : Port) : Fld := if p = 0 then clkFreqA else clkFreqB

/-- A port begins training once its clock is qualified: BITLOCK, sending TS1 (Table 12.6). -/
def State.trainOn (s : State) (p : Port) : State :=
  if (s.ports[p]).state = .clock ∧ (s.clk.ports[p]).qual then (s.updPort p (fun x => { x with state := .bitlock })).sendTs p 0x10 else s

/-- The root acquires a port (R410). -/
def State.acquire (s : State) (p : Port) : State :=
  (s.updClk (fun c => { c with state := .acquiring, ref := some p, acqAt := s.time.mono })).updClkPort p (fun y => { y with wasUp := decide ((s.ports[p]).state = .up) })

/-- Whether PREF lets a second port that qualifies in the same 20 µs take the place of the first (R410). -/
def State.prefers (s : State) (p : Port) : Bool :=
  match s.get pgClk clkPref with
  | 1 => p = 0
  | _ => p = 1

/-- CLOCK_QUALIFY (R406, R410, R415, R521): a port's clock has passed every test for 20 µs. Before lock the part acquires it; the synthesiser does not wait for boot. -/
def execClockQualify (p : Port) (freq : Int) (s : State) : Host.Outcome State Fault Refusal :=
  if s.clk.state ≠ .off ∧ s.clk.settled ∧ s.flag (pgPort p) prtEn ∧ s.freqOk freq then
    let s1 := ((s.put pgClk (freqFld p) (twos 32 freq)).updClkPort p (fun y => { y with qual := true })).refreshElig p
    let s2 := s1.trainOn p
    .next (match s.clk.state with
      | .qualifying => s2.acquire p
      | .safe => s2.acquire p
      | .acquiring => if !s.ranOut s.clk.acqAt (20 * usTicks) ∧ s.clk.ref ≠ some p ∧ s.prefers p then s2.acquire p else s2
      | _ => s2)
  else .next s

/-- A disqualified port: counted when its edges fail, PORT_DISQUAL at most once per 10 ms, its link down, the reference judged (R355, R406, Table 19.1). -/
def State.disqualify (s : State) (p : Port) (edges : Bool) (src : Nat) : State :=
  let f := if p = 0 then clkEdgeErrA else clkEdgeErrB
  let s1 := if edges then s.count pgClk f 1 else s
  let s2 := s1.updClkPort p (fun y => { y with qual := false })
  let s3 := if s.eventDue (s.clk.ports[p]).disqualAt then (s2.raise pgClk evClkPortDisqual).updClkPort p (fun y => { y with disqualAt := some s.time.mono }) else s2
  let s4 := s3.logFinding (eventWord pgClk evClkPortDisqual false) pgClk (2 * p.val + 1 + bit edges) src 0
  let s5 := s4.refreshElig p
  if (s5.ports[p]).state = .up then s5.portFall p true else s5.clkEvaluate

/-- PORT_DISQUAL (R406): a failing edge, frequency or rate test. -/
def execPortDisqual (p : Port) (edges : Bool) (s : State) : Host.Outcome State Fault Refusal :=
  if s.clk.state ≠ .off then
    let (src, s1) := s.evaluate pgClk (2 * p.val + 1 + bit edges) true
    .next (s1.disqualify p edges src)
  else .next s

/-- VCO_SETTLE (R416): 10 µs at the learned word; qualification begins. -/
def execVcoSettle (s : State) : Host.Outcome State Fault Refusal :=
  if s.clk.state ≠ .off ∧ s.ranOut s.clk.vcoAt (10 * usTicks) then .next (s.updClk (fun c => { c with settled := true })) else .next s

/-- The lost-cycle count of the ring-forwarding domain written at its first edge (R420). -/
def State.closeRingGap (s : State) : State :=
  match s.clk.ringClosedAt with
  | some t => (s.put pgClk clkRingGap (min (s.time.mono - t) (2 ^ 32 - 1))).updClk (fun c => { c with ringClosedAt := none })
  | none => s

/-- ROOT_LOCK (R407, R415, R416): F_L latched, the learned word in force, the ring-forwarding domain starts, converters may start; CLOCK_BACK after clockless safe. -/
def execRootLock (fl : Int) (s : State) : Host.Outcome State Fault Refusal :=
  if s.clk.state = .acquiring then
    let s1 := s.updClk (fun c => { c with state := .locked, fl := fl, learned := true, cold := false, upstreamRaised := false, fromSafe := false })
    let s2 := if s.clk.cold then { s1 with snd := { s1.snd with lockAt := some s.time.mono } } else s1
    let s3 := if s.clk.fromSafe then s2.raise pgClk evClkClockBack else s2
    .next ((s3.closeRingGap.put pgClk clkDrift 0).clkEvaluate.audGeneratorStarts.startConvs)
  else .next s

/-- ACQUISITION_TIMEOUT (R407): 15 µs without lock: the port is disqualified, and the part returns to qualification. -/
def execAcquisitionTimeout (s : State) : Host.Outcome State Fault Refusal :=
  match s.clk.state, s.clk.ref with
  | .acquiring, some p =>
    if !s.ranOut s.clk.acqAt (15 * usTicks) then .next s
    else .next (((s.updClk (fun c => { c with state := .qualifying, ref := none })).updClkPort p (fun y => { y with qual := false })).refreshElig p)
  | _, _ => .next s

/-- Both stop gates close for a relock (R421): converters stopped and tagged UNLOCKED, the ring-forwarding domain stopped, the sounding packet ended. -/
def State.relockStop (s : State) : State :=
  let s1 := (s.convStopAll .stoppedUnlocked).txClockAbort.portsDrop
  s1.updClk (fun c => { c with ringClosedAt := some s.time.mono })

/-- The lock detector trips (R407, R421). -/
def State.unlock (s : State) (src : Nat) : State :=
  let s1 := (s.finding pgClk 5 pgClk evClkLockLost 0x10 src 0).count pgClk clkUnlockCnt 1
  let s2 := s1.updClk (fun c => { c with state := .qualifying, ref := none, settled := false, vcoAt := s.time.mono, ports := c.ports.map (fun y => { y with qual := false }) })
  ((s2.relockStop).refreshElig 0).refreshElig 1

/-- LOCK_LOST (R421, Table 15.5). -/
def execLockLost (s : State) : Host.Outcome State Fault Refusal :=
  if s.clk.state = .locked then
    let (src, s1) := s.evaluate pgClk 5 true
    .next (s1.unlock src)
  else .next s

/-- How long a port has been eligible, at least. -/
def State.eligibleFor (s : State) (p : Port) (d : Nat) : Bool :=
  match s.eligFrom p with
  | some t => decide (t + d ≤ s.time.mono)
  | none => false

/-- Whether cases 2 or 3 of R411 call for the other port: PREF with REVERT, or AUTO and CHOPS at least 2 lower, after 100 ms of eligibility. -/
def State.wantsOther (s : State) (p : Port) : Bool :=
  let o := otherPort p
  s.eligibleFor o (100 * msTicks) &&
    (match s.get pgClk clkPref with
    | 0 => decide ((s.ports[p]).state = .up) && decide ((s.ports[o]).chopsIn + 2 ≤ (s.ports[p]).chopsIn)
    | n => s.flag pgClk clkRevert && decide (n = o.val + 1))

/-- REF_SWITCH (R411): the rules of the reference applied now; the guard or the dwell of another port may have run out. -/
def execRefSwitch (s : State) : Host.Outcome State Fault Refusal :=
  match s.clk.state, s.clk.ref with
  | .locked, some p =>
    let s1 := s.clkEvaluate
    .next (if s1.clk.state = .locked ∧ s1.clk.ref = some p ∧ s1.wantsOther p then s1.hitless (otherPort p) else s1)
  | _, _ => .next s

/-- The eligible port that holdover is left for: the one that PREF names, else the one with the lower CHOPS, B when equal (log 21). -/
def State.eligiblePort (s : State) : Option Port :=
  match s.eligible 0, s.eligible 1 with
  | true, true =>
    match s.get pgClk clkPref with
    | 1 => some 0
    | 2 => some 1
    | _ => if (s.ports[(0 : Port)]).chopsIn < (s.ports[(1 : Port)]).chopsIn then some 0 else some 1
  | true, false => some 0
  | false, true => some 1
  | false, false => none

/-- CLK_HOLD_LAST written at the end of a holdover, µs. -/
def State.holdEnds (s : State) : State := s.put pgClk clkHoldLast (min ((s.time.mono - s.clk.holdFrom) / usTicks) (2 ^ 32 - 1))

/-- HOLDOVER_REENTRY (R414): an eligible port within ±5 ppm of the held frequency is taken hitlessly, and an input enabled meanwhile starts (R54); one beyond it makes the part relock. `freq` is in 0.01 ppm. -/
def execHoldoverReentry (freq : Int) (s : State) : Host.Outcome State Fault Refusal :=
  match s.clk.state, s.eligiblePort with
  | .holdover, some p =>
    if freq.natAbs ≤ 500 then
      let s1 := s.holdEnds.updClk (fun c => { c with state := .locked, ref := some p, upstreamRaised := false })
      let s2 := (s1.updClkPort p (fun y => { y with wasUp := true })).raise pgClk evClkHoldoverEnd
      let s3 := if s.clk.ref = some p then s2 else (s2.raise pgClk evClkRefSwitch).count pgClk clkSwitchCnt 1
      .next (((s3.setCq 0).setChops).startConvs)
    else .next ((s.holdEnds.relockStop).acquire p)
  | _, _ => .next s

/-- Clockless safe (R415): converters STOPPED_CLOCK, sounding CLOCK_ABORT, the DEVTIME counter stopped and not aligned. -/
def State.enterSafe (s : State) : State :=
  let s1 := ((s.convStopAll .stoppedClock).txClockAbort).audGeneratorStops
  let s2 := s1.updClk (fun c => { c with state := .safe, ref := none, fromSafe := true, ringClosedAt := some s.time.mono, ports := c.ports.map (fun y => { y with qual := false }) })
  let s3 := { s2 with time := { s2.time with running := false, set := false, afterSafe := true, step := none } }
  let s4 := (s3.updRing (fun r => { r with aligned := false, late := [] })).portsDrop
  (s4.raise pgClk evClkClocklessSafe).count pgClk clkSafeCnt 1

/-- HOLD_MAX_EXPIRY (R379, R414): HOLD_MAX ms of holdover are over. A port that has become eligible wins, and the race is counted; otherwise clockless safe. -/
def execHoldMaxExpiry (s : State) : Host.Outcome State Fault Refusal :=
  if s.clk.state = .holdover ∧ s.ranOut s.clk.holdFrom (s.get pgClk clkHoldMax * msTicks) then
    match s.eligiblePort with
    | some _ => .next (s.race pgClk)
    | none => .next s.holdEnds.enterSafe
  else .next s

/-- The synthesiser off, as every rung below IDLE has it (Table 15.4): both ports unqualified, the DEVTIME counter stopped with its value retained (R418). -/
def State.clkOff (s : State) : State :=
  if s.clk.state = .off then s
  else
    let s1 := s.updClk (fun c => { c with state := .off, ref := none, settled := false, cold := true, upstreamRaised := false, convClosedAt := none, ringClosedAt := none,
                                          cqNonZeroAt := none, cqZeroAt := none, ports := Vector.replicate 2 ClkPort.fresh })
    let s2 := { s1 with time := { s1.time with running := false, retained := if s.time.set then some s.time.devtime else none, step := none } }
    (s2.updRing (fun r => { r with aligned := false, late := [], cqOut := 0, chopsOut := 0 })).audGeneratorStops

/-- The synthesiser on again at a rise to IDLE or RUN. -/
def State.clkOn (s : State) : State := s.updClk (fun c => if c.state = .off then { c with state := .qualifying, vcoAt := s.time.mono } else c)

/-- The injection of the CLK detectors, whose windows are far shorter than the epoch at which the model evaluates them (R499, log 22). -/
def State.clkInjected (s : State) : State :=
  match (List.range 5).find? (fun k => s.injected pgClk (k + 1)) with
  | some 4 => if s.clk.state = .locked then (s.consumeInj pgClk).unlock 2 else s
  | some k =>
    let p : Port := ⟨k / 2 % 2, by omega⟩
    if s.clk.state ≠ .off ∧ (s.clk.ports[p]).qual then (s.consumeInj pgClk).disqualify p (decide (k % 2 = 1)) 2 else s
  | none => s

/-- What the clock meters show at the end of an epoch (Table 15.9): the offsets of both ports, and what has been followed since F_L. -/
def State.clkMeters (s : State) (m : ClkMeas) : State :=
  let s1 := (s.put pgClk clkFreqA (twos 32 m.a)).put pgClk clkFreqB (twos 32 m.b)
  if s.clk.state = .locked then s1.put pgClk clkDrift (twos 32 (m.ref - s.clk.fl)) else s1

end Sys2Proof.Machine
end

