-- ==== Sys2Proof/Machine/Training.lean ====
section
/-! DEFINITION. Training of the ring ports, loss and heal (R342, R355, R358, Table 12.6). -/

namespace Sys2Proof.Machine

/-- A port may train: EN, rung RUN or IDLE (Table 12.6). -/
def State.mayTrain (s : State) (p : Port) : Bool := decide (s.boot = .complete) && s.flag (pgPort p) prtEn && decide (s.pwr.rung ≤ 1)

/-- A DOWN port sees clock edges and enters CLOCK; a clock that is qualified already takes it on to BITLOCK. -/
def State.startTraining (s : State) (p : Port) : State :=
  if (s.ports[p]).state = .down ∧ s.mayTrain p then (s.updPort p (fun x => { x with state := .clock, trainAt := s.time.mono })).trainOn p else s

/-- PORT_ENABLE (Table 12.6). -/
def execPortEnable (p : Port) (s : State) : Host.Outcome State Fault Refusal := .next (s.startTraining p)

/-- RETRAIN_TIMER (R358): a port that has been DOWN for RETRAIN ms retrains. -/
def execRetrainTimer (p : Port) (s : State) : Host.Outcome State Fault Refusal :=
  .next (if s.ranOut (s.ports[p]).downAt (s.get pgLnk lnkRetrain * msTicks) then s.startTraining p else s)

/-- BIT_LOCK (Table 12.6). -/
def execBitLock (p : Port) (s : State) : Host.Outcome State Fault Refusal :=
  .next (if (s.ports[p]).state = .bitlock then s.updPort p (fun x => { x with state := .blocklock }) else s)

/-- BLOCK_LOCK (R334, Table 12.6). -/
def execBlockLock (p : Port) (s : State) : Host.Outcome State Fault Refusal :=
  .next (if (s.ports[p]).state = .blocklock then s.updPort p (fun x => { x with state := .deskew }) else s)

/-- TS1 (R342, R355): from DESKEW, TS1 that names the other port letter on both lanes gives DELAY and TS2; on an UP port it is a fall. -/
def execTs1 (p : Port) (lane : Fin 2) (peerB : Bool) (peerLane : Fin 2) (serial : BitVec 64) (inverted : Bool) (s : State) : Host.Outcome State Fault Refusal :=
  let x := s.ports[p]
  let _ := serial
  if x.state = .up then .next (s.portFall p true)
  else if x.state = .deskew ∧ peerB ≠ decide (p = 1) then
    let inv := s.get (pgPort p) prtPolInv
    let s1 := s.puts (pgPort p) [(prtLaneSwap, bit (decide (peerLane ≠ lane))),
      (prtPolInv, inv - (inv / 2 ^ lane.val % 2) * 2 ^ lane.val + bit inverted * 2 ^ lane.val)]
    let ts := x.ts1.set lane true
    if ts[(0 : Fin 2)] ∧ ts[(1 : Fin 2)] then
      .next ((s1.updPort p (fun y => { y with state := .delay, ts1 := Vector.replicate 2 false, ts2 := false, agree := 0 })).sendTs p 0x11)
    else .next (s1.updPort p (fun y => { y with ts1 := ts }))
  else .next s

/-- TS2 (R342): the delay exchange starts. -/
def execTs2 (p : Port) (s : State) : Host.Outcome State Fault Refusal :=
  .next (if (s.ports[p]).state = .delay then (s.updPort p (fun x => { x with ts2 := true })).sendDelayReq p else s)

/-- DELAY_REQ (Table 12.2): answered with the receive instant of the request and the send instant of the response, low 56 bits each. -/
def execDelayReq (p : Port) (sendAt recvAt respAt : Nat) (s : State) : Host.Outcome State Fault Refusal :=
  let _ := sendAt
  .next (if 5 ≤ (s.ports[p]).state.code then s.send p [ctlBlock 0 0x21 (recvAt % 2 ^ 56 * 2 ^ 64 + respAt % 2 ^ 56)] else s)

/-- A difference of two instants of which only the low 56 bits are sent. -/
def instantDiff (a b : Nat) : Int := signedOf 56 ((a + 2 ^ 56 - b % 2 ^ 56) % 2 ^ 56)

/-- The hop delay of an exchange in 1/256 tick (Table 12.6). -/
def hopDelay (t1 t2 t3 t4 : Nat) : Int := (instantDiff t4 t1 - instantDiff t3 t2) / 2

/-- The HELLO of a device that completes training without a position (R345, R542). -/
def State.hello (s : State) (result : Nat) : State :=
  { s with q := { s.q with q4 := s.q.q4 ++ [⟨0x71, 0, .ok, 0, 0, BitVec.ofNat 32 (result + s.ring.pos.getD 0 + (match s.fuse.variant with
      | .cs => 0 | .c => 1 | .s => 2 | .n => 3) * 2 ^ 16), [quadPlace 127 64 s.fuse.serial.toNat], none⟩] } }

/-- A port reaches UP: hop delay shown, PORT_UP, hop-local traffic only until it heals (R342, R358). -/
def State.portUp (s : State) (p : Port) (d : Int) : State :=
  let s1 := s.updPort p (fun x => { x with state := .up, cleanFrom := s.time.mono, healed := false, crcHist := [], laneBad := Vector.replicate 2 false })
  let s2 := (s1.put (pgPort p) prtDelay (twos 32 d)).raise (pgPort p) evPrtPortUp
  let s3 := if s.clk.ref = some p ∧ s.clk.state = .locked then s2.updClkPort p (fun y => { y with wasUp := true }) else s2
  let s4 := (s3.refreshElig p).clkEvaluate
  if s4.ring.pos.isNone then s4.hello (2 ^ 9) else s4

/-- The DEVTIME counter resumes on the reference port after STANDBY, DOZE or SLEEP: the peer's send instant plus the hop delay, bits 63:48 from the value retained (R418). -/
def State.resumeTime (s : State) (p : Port) (t3 : Nat) (d : Int) : State :=
  match s.time.retained with
  | some r =>
    if s.clk.ref = some p ∧ s.clk.state = .locked then
      let v := r / 2 ^ 48 * 2 ^ 48 + (((t3 % 2 ^ 56 : Nat) + d) / 256).toNat % 2 ^ 48
      ({ s with time := { s.time with devtime := v, running := true, retained := none } }).startConvs
    else s
  | none => s

/-- DELAY_RESP (R342, R418): an exchange completes; eight that agree within 4/256 tick take the port UP. -/
def execDelayResp (p : Port) (t1 t2 t3 t4 : Nat) (s : State) : Host.Outcome State Fault Refusal :=
  let x := s.ports[p]
  if x.state = .delay ∧ x.ts2 then
    let d := hopDelay t1 t2 t3 t4
    let s0 := s.resumeTime p t3 d
    let agrees := decide (0 < x.agree) && decide ((d - x.agreeDelay).natAbs ≤ 4)
    let n := if agrees then x.agree + 1 else 1
    let s1 := s0.updPort p (fun y => { y with agree := n, agreeDelay := if agrees then y.agreeDelay else d })
    .next (if 8 ≤ n then s1.portUp p d else s1.sendDelayReq p)
  else .next s

/-- TRAINING_TIMEOUT (Table 12.6): 100 µs without reaching UP. -/
def execTrainingTimeout (p : Port) (s : State) : Host.Outcome State Fault Refusal :=
  let c := (s.ports[p]).state.code
  .next (if 1 ≤ c ∧ c ≤ 5 ∧ s.ranOut (s.ports[p]).trainAt (100 * usTicks) then s.portDrop p false false else s)

/-- A port healed at the next frame boundary: it carries traffic; a wrapping device raises HEAL (R358). -/
def State.healDone (s : State) (p : Port) : State :=
  let was := s.ring.wrapped[p]
  let s1 := (s.updPort p (fun x => { x with healed := true, healSent := false, healSeen := false })).ringSettle
  if was then s1.raise pgLnk evLnkHeal else s1

/-- HEAL_CLEAN_MET (R358): the port has run for HEAL_CLEAN ms without an error: HEAL is sent, or HEAL_ACK when the peer has offered. -/
def execHealCleanMet (p : Port) (s : State) : Host.Outcome State Fault Refusal :=
  let x := s.ports[p]
  if x.state = .up ∧ !x.healed ∧ s.ranOut x.cleanFrom (s.get pgLnk lnkHealClean * msTicks) then
    if x.healSeen then .next ((s.send p [ctlBlock 0 0x33 0]).healDone p)
    else .next ((s.send p [ctlBlock 0 0x32 0]).updPort p (fun y => { y with healSent := true }))
  else .next s

/-- HEAL (R358): the peer's offer; when the offers cross, the heal is complete. -/
def execHeal (p : Port) (s : State) : Host.Outcome State Fault Refusal :=
  let x := s.ports[p]
  if x.state = .up ∧ !x.healed then
    .next (if x.healSent then s.healDone p else s.updPort p (fun y => { y with healSeen := true }))
  else .next s

/-- HEAL_ACK (R358). -/
def execHealAck (p : Port) (s : State) : Host.Outcome State Fault Refusal :=
  let x := s.ports[p]
  .next (if x.state = .up ∧ x.healSent then s.healDone p else s)

/-- LINK_DOWN (R355). -/
def execLinkDown (p : Port) (s : State) : Host.Outcome State Fault Refusal :=
  .next (if (s.ports[p]).state = .up then s.portFall p true else s)

/-- LEAVE (R355, R359): the port goes DOWN without LINK_DOWN. -/
def execLeave (p : Port) (s : State) : Host.Outcome State Fault Refusal :=
  .next (if (s.ports[p]).state = .up then s.portFall p false else s)

/-- BLOCK_LOCK_LOSS (R334, R355). -/
def execBlockLockLoss (p : Port) (s : State) : Host.Outcome State Fault Refusal :=
  .next (if (s.ports[p]).state = .up then s.portFall p true else s)

/-- ALIGN (R334, R355, Table 19.1): the lane CRC checked; errors in two blocks of one lane in a row are a fall. -/
def execAlign (p : Port) (lane : Fin 2) (crcOk : Bool) (s : State) : Host.Outcome State Fault Refusal :=
  let x := s.ports[p]
  if 4 ≤ x.state.code then
    let (src, s1) := if lane = 0 then s.evaluate (pgPort p) 1 (!crcOk) else (bit (!crcOk), s)
    if src = 0 then .next (s1.updPort p (fun y => { y with laneBad := y.laneBad.set lane false }))
    else
      let s2 := (s1.updPort p (fun y => { y with cleanFrom := s.time.mono })).count (pgPort p) (if lane = 0 then prtLaneErr0 else prtLaneErr1) 1
      let s3 := if s.eventDue x.laneAt then (s2.raise (pgPort p) evPrtLaneCrc).updPort p (fun y => { y with laneAt := some s.time.mono }) else s2
      let s4 := s3.logFinding (eventWord (pgPort p) evPrtLaneCrc false) (pgPort p) 1 src 0
      if x.laneBad[lane] ∧ x.state = .up then .next (s4.portFall p true)
      else .next (s4.updPort p (fun y => { y with laneBad := y.laneBad.set lane true }))
  else .next s

/-- SKIP (R333): elastic-buffer fill, which the receiver deletes or keeps; nothing that the state holds changes. -/
def execSkip (p : Port) (lane : Fin 2) (s : State) : Host.Outcome State Fault Refusal :=
  let _ := (p, lane)
  .next s

end Sys2Proof.Machine
end

