-- ==== Sys2Proof/Machine/Ring.lean ====
section
/-! DEFINITION. Frames, notices and time words of the ring (R335 to R339, R343 to R353), and DEVTIME steps (R417, R470). -/

namespace Sys2Proof.Machine

/-! ### Frames received (R336, R338, R346, R348) -/

/-- A frame that fails its CRC, or that follows a gap: FRAME_CRC at most once per 10 ms, and its finding (Table 19.1); the clean period of a port that has still to heal begins anew (R358). -/
def State.frameFinding (s : State) (p : Port) (src : Nat) : State :=
  let s0 := s.updPort p (fun y => { y with cleanFrom := s.time.mono })
  let s1 := if s.eventDue (s.ports[p]).crcAt then (s0.raise (pgPort p) evPrtFrameCrc).updPort p (fun y => { y with crcAt := some s.time.mono }) else s0
  s1.logFinding (eventWord (pgPort p) evPrtFrameCrc false) (pgPort p) 2 src 0

/-- A frame discarded whole for its CRC: counted; four among sixteen in a row are a fall (R336, R355). -/
def State.frameBad (s : State) (p : Port) (src : Nat) : State :=
  let hist := (true :: (s.ports[p]).crcHist).take 16
  let s1 := ((s.updPort p (fun x => { x with crcHist := hist })).count (pgPort p) prtCrcErr 1).frameFinding p src
  if 4 ≤ (hist.filter id).length then s1.portFall p true else s1

/-- What a sound frame says of the hop: clock quality, credit, and for a hop-local frame the peer's position (R337, R348, R354). -/
def State.frameHop (s : State) (p : Port) (f : RFrame) : State :=
  let s1 := s.updPort p (fun x =>
    { x with crcHist := (false :: x.crcHist).take 16, cqIn := f.cq, chopsIn := f.chops, credit := x.credit.set (tcOf f.crTc) f.crCnt })
  let s2 := s1.updClkPort p (fun y => { y with cq0Since := if f.cq = 0 then (match y.cq0Since with
    | some t => some t
    | none => some s.time.mono) else none })
  let s3 := if f.len = 0 then s2.put (pgPort p) prtPeerPos (if f.src ≤ 64 then f.src else 0) else s2
  let s4 := (s3.refreshElig p).clkEvaluate
  s4.drainWait p (s4.ports[p]).wait.length

/-- The sequence check of a frame that is not hop-local: missing frames counted and counted as freed (R336). -/
def State.frameSeq (s : State) (p : Port) (f : RFrame) : State :=
  let tc := tcOf f.tc
  let gap := match (s.ports[p]).hseqIn[tc] with
    | some e => (f.hseq + 65536 - e) % 65536
    | none => 0
  let s1 := s.updPort p (fun x => { x with hseqIn := x.hseqIn.set tc (some ((f.hseq + 1) % 65536)) })
  if gap = 0 then s1 else ((s1.count (pgPort p) prtSeqGap gap).freeCredit p tc gap).frameFinding p 1

/-- Where a sound frame goes: absorbed, forwarded, or discarded (R338, R346). Its buffer is freed at once, or where it is forwarded when it leaves (R349). What an absorbed frame carries arrives as commands of its own. -/
def State.frameRoute (s : State) (p : Port) (f : RFrame) : State :=
  let mine := decide (some f.dst = s.ring.pos) || decide (f.dst = 0x7F)
  let banned := decide (4 ≤ f.queue) || decide (f.src ≠ 0)
  let onward (s : State) : State :=
    if f.ttl ≤ 1 then (s.count (pgPort p) prtDiscard 1).freeFrom (some p) f else s.sendFrame (otherPort p) (some p) { f with ttl := f.ttl - 1 }
  if 64 < f.dst ∧ f.dst ≠ 0x7F then s.freeFrom (some p) f
  else if mine then
    if banned then (s.count (pgPort p) prtDiscard 1).freeFrom (some p) f
    else if f.dst = 0x7F ∧ f.queue ≠ 3 then onward s
    else s.freeFrom (some p) f
  else onward s

/-- FRAME_RECEIVE (R335 to R338, R346, R348, R354): a ring frame on an UP port. -/
def execFrameReceive (p : Port) (f : RFrame) (s : State) : Host.Outcome State Fault Refusal :=
  if (s.ports[p]).state = .up then
    let (src, s1) := s.evaluate (pgPort p) 2 (!f.crcOk)
    if src ≠ 0 then .next (s1.frameBad p src)
    else
      let s2 := s1.frameHop p f
      if f.len = 0 then .next s2
      else .next ((s2.frameSeq p f).frameRoute p f)
  else .next s

/-! ### Frames of the stream queues (R214, R225, R337, R339) -/

/-- The words of packets in order, each with its header word for a port (R214). -/
def packetWords (path : Nat) (ps : List Packet) : List Quad := ps.flatMap (fun p => p.header path :: p.payload)

/-- The words that a frame takes from a queue: the next 32 at most that no frame holds yet (R335). -/
def StrmQueue.frameWords (x : StrmQueue) (path : Nat) : List Quad := ((packetWords path x.packets).drop x.gone).take 32

/-- The number of words from a place in a list of packets to the next packet header. -/
def toHeader : List Packet → Nat → Option Nat
  | [], _ => none
  | p :: l, gone => if gone = 0 then some 0 else if gone < p.len + 1 then (if l = [] then none else some (p.len + 1 - gone)) else toHeader l (gone - (p.len + 1))

/-- The index of the first packet header among the words of a frame; 63 when none starts in it (R335). -/
def firstHeader (x : StrmQueue) : Nat :=
  match toHeader x.packets x.gone with
  | some n => if n < 32 then n else 63
  | none => 63

/-- The packets of a queue that have left whole freed (R225). -/
def State.freeQueue (s : State) (q : SQueue) : State := s.updQueue q (fun _ => s.buffered q)

/-- A local frame of a queue and class with its words. -/
def State.localFrame (s : State) (q tc : Nat) (dual : Bool) (first : Nat) (ws : List Quad) : RFrame :=
  { crcOk := true, dst := 0, src := s.ring.pos.getD 0x7F, queue := q, tc := tc, dual := dual, hseq := 0, len := ws.length,
    firstHdr := first, crTc := 0, crCnt := 0, cq := 0, chops := 0, ttl := 127, payload := ws }

/-- Local frames that wait at a port. -/
def Prt.localWait (x : Prt) : Nat := (x.wait.filter (fun w => w.from_.isNone)).length

/-- One frame of a stream queue is formed, or two copies with PORTS BOTH. Two local frames at most wait at a port (log 23). -/
def State.sendStream (s : State) (q : SQueue) : State :=
  let x := s.squeues[q]
  let ports := s.get pgStrm (strmPorts.nth q.val)
  let up := s.carries 0 || s.carries 1
  let full := (bitAt ports 0 && decide (2 ≤ (s.ports[(0 : Port)]).localWait)) || (bitAt ports 1 && decide (2 ≤ (s.ports[(1 : Port)]).localWait))
  let ws := x.frameWords (if ports = 2 then 1 else 0)
  if ws = [] ∨ !up ∨ full ∨ ports = 0 then s
  else
    let first := firstHeader x
    let tc := s.get pgStrm (strmTc.nth q.val)
    let s1 := s.updQueue q (fun y => { y with gone := y.gone + ws.length })
    if ports = 3 then
      ((s1.sendFrame 0 none (s1.localFrame (q.val + 7) tc true first ws)).sendFrame 1 none (s1.localFrame (q.val + 7) tc true first (x.frameWords 1))).freeQueue q
    else (s1.sendFrame (if ports = 1 then 0 else 1) none (s1.localFrame (q.val + 7) tc false first ws)).freeQueue q

/-- E0 of Table 12.5 with a LEN. -/
def EvtPacket.e0 (e : EvtPacket) (len : Nat) : Quad := quadPack [(127, 120, 0xE5), (119, 110, len), (109, 98, e.words.length), (63, 0, e.devtime)]

/-- The words of an event packet: E0 and the event words four to a word, in clear or in the form of Table 17.7 (R340, R466). -/
def EvtPacket.quads (e : EvtPacket) : List Quad :=
  let body := quadsOf e.words
  match e.sess with
  | none => e.e0 body.length :: body
  | some u => sealedQuads u (e.e0 (body.length + 3)) 0 body

/-- The words of what leaves on Q6. DESIGN CHOICE (log 37): the manual gives a record's packet no first word; it is an A0 with OP 0xC1, the first byte of a record, and 0 elsewhere but LEN. -/
def SmcOut.quads : SmcOut → List Quad
  | .answer a => answerQuads a
  | .record _ _ bytes u => let body := packBytes bytes
                           sealedQuads u (quadPack [(127, 120, 0xC1), (119, 110, body.length + 3)]) 0 body

/-- The oldest packet of Q4, Q5 or Q6 (0, 1, 2) that no frame holds yet. -/
def State.nextOut (s : State) (q : Fin 3) : Option (List Quad) :=
  let n := s.q.framed[q]
  if q = 0 then (s.q.q4[n]?).map answerQuads
  else if q = 1 then (s.q.q5[n]?).map EvtPacket.quads
  else (s.q.q6[n]?).map SmcOut.quads

/-- The frames of a TC0 packet: 32 words each, the last perhaps fewer, the packet's header first (R335, R337). -/
def State.packetFrames (s : State) (q : Fin 3) (ws : List Quad) : List RFrame :=
  (List.range ((ws.length + 31) / 32)).map (fun k => s.localFrame (q.val + 4) 0 true (if k = 0 then 0 else 63) ((ws.drop (32 * k)).take 32))

/-- The oldest packet of Q4, Q5 or Q6 placed in frames, each sent on both ports with DUAL (R337, R339), while a port carries traffic. -/
def State.sendOut (s : State) (q : Fin 3) : State :=
  if s.carries 0 || s.carries 1 then
    match s.nextOut q with
    | some ws => (s.packetFrames q ws).foldl (fun s f => (s.sendFrame 0 none f).sendFrame 1 none f)
        { s with q := { s.q with framed := s.q.framed.set q (s.q.framed[q] + 1) } }
    | none => s
  else s

/-- FRAME_SEND_TIMER (R214, R225, R335, R337, R339): the oldest word of a queue has waited its time, in a TC0 queue none, and leaves in frames. -/
def execFrameSendTimer (q : OutQueue) (s : State) : Host.Outcome State Fault Refusal :=
  match q with
  | .q4 => .next (s.sendOut 0)
  | .q5 => .next (s.sendOut 1)
  | .q6 => .next (s.sendOut 2)
  | .strm q => .next (s.sendStream q)

/-! ### Topology notices (R343 to R345, Table 12.7) -/

/-- A position taken: POS_ASSIGNED, DEVTIME unset; converters that run go on (R345, R352, R523). -/
def State.takePos (s : State) (n : Nat) : State :=
  let runs := s.inputs.toList.any (fun x => decide (x.conv ≠ .off))
  let s1 := s.updRing (fun r => { r with pos := some n, aligned := false, late := [], newPos := runs && s.time.running })
  { s1.raise pgLnk evLnkPosAssigned with time := { s1.time with set := false, step := none } }

/-- DISCOVER (R343, Table 12.7): a device without a position takes one; the notice goes on with COUNT + 1, and a HELLO answers it. -/
def execDiscover (p : Port) (count : Nat) (renumber : Bool) (s : State) : Host.Outcome State Fault Refusal :=
  if (s.ports[p]).state = .up then
    let s0 := if renumber then s.updRing (fun r => { r with pos := none }) else s
    let n := if p = 1 then count + 1 else 64 - count
    let s1 := if s0.ring.pos.isNone ∧ 1 ≤ n ∧ n ≤ 64 then s0.takePos n else s0
    let w := quadPack [(127, 120, 0x71), (119, 113, count + 1), (112, 112, bit renumber)]
    .next ((s1.hello (p.val * 2 ^ 8)).forwardNotice p [w])
  else .next s

/-- RING_SIZE (R344): N into RING_N; forwarded. -/
def execRingSize (p : Port) (n : Nat) (s : State) : Host.Outcome State Fault Refusal :=
  if (s.ports[p]).state = .up then
    .next ((s.updRing (fun r => { r with ringN := n })).forwardNotice p [quadPack [(127, 120, 0x73), (70, 64, n)]])
  else .next s

/-- ASSIGN (R345): the position of the device whose serial number it names; forwarded. -/
def execAssign (p : Port) (serial : BitVec 64) (pos : Nat) (s : State) : Host.Outcome State Fault Refusal :=
  if (s.ports[p]).state = .up then
    let s1 := if serial = s.fuse.serial ∧ s.ring.pos ≠ some pos then s.takePos pos else s
    .next (s1.forwardNotice p [quadPack [(127, 120, 0x72), (70, 64, pos), (63, 0, serial.toNat)]])
  else .next s

/-! ### Time words (R350 to R353) and steps (R417, R470) -/

/-- Every tenant's stream keys erased and its session with the part ended (R470). -/
def State.eraseStreamKeys (s : State) : State :=
  let t := s.endSessions false [1, 2, 3, 4]
  { t with skeys := Vector.replicate 4 ⟨none, none, none, 0, 0, 0⟩ }

/-- The periods of enabled streams and of bundles begun anew on a DEVTIME that has just been set (R223, R229). -/
def State.restartPeriods (s : State) : State :=
  { s with
    strms := Vector.ofFn (fun i => let x := s.strms[i]; if x.en then { x with nextPeriod := s.firstPeriod (s.strmDef i).kind, late := 0 } else x)
    bunds := s.bunds.map (fun b => if b.owner = 0 then b else { b with period := s.time.nextMultiple 1280000 - 1280000, held := [] }) }

/-- A step marked on every stream: its first packet that reaches beyond this instant sets TIME_STEP. Streams and bundles keep their periods, which are places in samples (R417). -/
def State.markStep (s : State) : State :=
  { s with strms := s.strms.map (fun x => { x with timeStep := some s.time.mono }) }

/-- DEVTIME set to a value, with no converter on its grid: the grid is placed anew, and waiting commits take their boundaries on it (R61, R352, R523). Set after clockless safe, or back by 1 s or more, it ends the tenants' stream keys and sessions (R470). -/
def State.setTime (s : State) (v : Nat) : State :=
  let back := s.time.afterSafe || decide (v + secTicks ≤ s.time.devtime)
  let idle := s.inputs.toList.all (fun x => decide (x.conv = .off) || decide (x.conv = .stoppedClock))
  let t := { s.time with devtime := v, set := true, running := true, retained := none, afterSafe := false, step := none, steps := [] }
  let s1 := if idle then
      let t1 : Time := { t with grid := v, goneFrame := none, goneEpoch := none, goneBlock := none, goneBed := none, goneTick := none }
      { s with time := t1, captured := s.captured.map (fun c => { c with due := commitDue t1 (kindCode c.page) }) }
    else { s with time := t }
  let s2 := if idle then s1.restartPeriods else s1
  if back then s2.eraseStreamKeys else s2

/-- The first time word used sets DEVTIME, or for a device that took a position while its converters run plans a step of any size (R352). `e` is in 1/256 tick. -/
def State.firstWord (s : State) (e h : Int) (arrival : Nat) : State :=
  let s1 := s.updRing (fun r => { r with aligned := true, late := [], newPos := false })
  if s.ring.newPos then { s1 with time := { s1.time with set := true, step := some (roundDiv e 256) } }
  else (s1.setTime (roundDiv (h - arrival) 256).toNat).startConvs

/-- A later time word: three in a row beyond TSTEP_TH plan a step by their mean (R352, R417). -/
def State.laterWord (s : State) (e : Int) : State :=
  let late := if (s.get pgLnk lnkTstepTh * 256 : Nat) < e.natAbs then s.ring.late ++ [e] else []
  let s1 := s.updRing (fun r => { r with aligned := true, late := if late.length = 3 then [] else late })
  if late.length = 3 then { s1 with time := { s1.time with step := some (roundDiv late.sum 768) } } else s1

/-- EPOCH and TRACEABLE of a word used (R353). -/
def State.wordEpoch (s : State) (traceable : Bool) (epoch : Nat) : State :=
  let changed := s.ring.epoch.isSome && decide (s.ring.epoch ≠ some epoch)
  let s1 := s.updRing (fun r => { r with traceable := traceable, epoch := some epoch })
  if changed then (s1.raise pgLnk evLnkEpochChange).smcTimeBreak else s1

/-- TIME_WORD (R351 to R353): used on the reference port, and forwarded with its hop's delay. `arrival` is the instant of arrival after the present, `residence` the time to departure, in 1/256 tick. -/
def execTimeWord (p : Port) (hops corr tseq : Nat) (traceable : Bool) (devtimeTx epoch arrival residence : Nat) (s : State) : Host.Outcome State Fault Refusal :=
  if (s.ports[p]).state = .up then
    let hop := signedOf 32 (s.get (pgPort p) prtDelay)
    let on := quadPack [(127, 120, 0x70), (119, 113, hops + 1), (112, 112, bit traceable), (111, 96, tseq), (63, 32, twos 32 (corr + hop + residence))]
    let s1 := s.forwardNotice p [on, quadPack [(127, 64, devtimeTx), (63, 0, epoch)]]
    if s.clk.ref = some p ∧ (s.clk.state = .locked ∨ s.clk.state = .holdover) then
      let h : Int := (devtimeTx * 256 + corr : Nat) + hop
      let s2 := if s.timeStale then s1.smcTimeBreak else s1
      let s3 := ((s2.updRing (fun r => { r with lastTw := some s.time.mono })).wordEpoch traceable epoch).count pgLnk lnkTwCnt 1
      let e : Int := (s.time.devtime * 256 + arrival : Nat) - h
      let s4 := if s.time.set then s3.laterWord e else s3.firstWord e h arrival
      let shown : Int := if s.time.set ∨ s.ring.newPos then e else (s4.time.devtime * 256 + arrival : Nat) - h
      let s5 := if s.time.set ∧ (s.get (pgSmc 2) smc2StepTol * 256 : Nat) < e.natAbs then s4.smcTimeBreak else s4
      .next (s5.put pgLnk lnkTimeErr (twos 32 shown))
    else .next s1
  else .next s

/-- DEVTIME_STEP (R61, R417, R470): at the next sieve-frame boundary DEVTIME := DEVTIME − s; frames and every other boundary keep their place. -/
def execDevtimeStep (s : State) : Host.Outcome State Fault Refusal :=
  match s.time.step with
  | some d =>
    let t1 := s.time.advance (s.time.next .frame - s.time.grid)
    let t2 := { t1 with devtime := ((t1.devtime : Int) - d).toNat, step := none,
                        steps := (t1.mono, d) :: t1.steps.filter (fun x => decide (t1.mono < x.1 + 90 * secTicks)) }
    let s1 := (({ s with time := t2, conds := s.keepConds }).markStep).putPair pgClk clkStepAtLo clkStepAtHi t2.devtime
    let s2 := (((s1.put pgClk clkStepLast (twos 32 d)).count pgClk clkStepCnt 1).raise pgClk evClkTimeStep).smcTimeBreak
    .next (if (secTicks : Int) ≤ d then s2.eraseStreamKeys else s2)
  | none => .next s

end Sys2Proof.Machine
end

