-- ==== Sys2Proof/Machine/Replay.lean ====
section
/-! DEFINITION. What outlives a reset or a rung, and how it comes back: replay of the general journal (R484, R485), the resume profile (Table 16.6), the log tail (R506), a reset of the part (R516, R518), the load of firmware (R471, R493). -/

namespace Sys2Proof.Machine

/-- The words of a string of bytes, four bytes each. -/
def wordsOfBytes : List Byte → List Word
  | a :: b :: c :: d :: l => BitVec.ofNat 32 (natOfBE [a, b, c, d]) :: wordsOfBytes l
  | _ => []

/-- A public key of 64 bytes. -/
def keyOfBytes (l : List Byte) : BitVec 512 := BitVec.ofNat 512 (natOfBE (l.take 64))

/-- Consecutive registers of a page set from a list of words. -/
def State.setWords (s : State) (key : Nat) (ws : List Word) : State :=
  (ws.foldl (fun x w => (x.1.setReg x.2 w, x.2 + 4)) (s, key)).1

/-! ### The log tail (R506) -/

/-- The 32 bytes of an entry. -/
def LogEntry.bytes (e : LogEntry) : List Byte := e.quads.flatMap (fun q => bytesBE 16 q.toNat)

/-- The entry of 32 bytes. -/
def entryOfBytes (l : List Byte) : LogEntry :=
  let at_ := fun (a n : Nat) => natOfBE ((l.drop a).take n)
  { event := BitVec.ofNat 32 (at_ 0 4), ptype := at_ 4 1, inst := at_ 5 1, det := at_ 6 1, src := at_ 7 1 / 64, first := at_ 8 8,
    seq := at_ 16 2, rep := at_ 18 2, detail := BitVec.ofNat 32 (at_ 20 4), last := at_ 24 8, copied := at_ 18 2, copiedAt := 0 }

/-- The log tail as the Loam store holds it. -/
def State.tailStored (s : State) : List LogEntry := (List.range 64).filterMap (fun k => (s.stored 0x60 k).map entryOfBytes)

/-- One entry copied to the Loam store as its TYPE 0x60 record; whether it was. -/
def State.copyEntry (s : State) (e : LogEntry) : State × Bool :=
  let (s1, ok) := s.journal 0x60 (e.seq % 64) false 0x10 e.bytes
  if ok then
    ({ s1 with log := { s1.log with
        tail := s1.log.tail.filter (fun x => !(decide (x.seq % 64 = e.seq % 64))) ++ [e]
        entries := s1.log.entries.map (fun x => if x.seq = e.seq then { x with copied := e.rep, copiedAt := s1.time.mono } else x) } }, true)
  else (s1, false)

/-- The oldest waiting copy written, in the form its entry has now; it goes on waiting while the journal has no place. -/
def State.copyWaiting (s : State) : State :=
  match s.log.waiting with
  | [] => s
  | e :: rest =>
    let x := (s.log.entries.find? (fun y => y.seq = e.seq)).getD e
    let (s1, ok) := s.copyEntry x
    if ok then { s1 with log := { s1.log with waiting := rest } } else s1

/-- Every waiting copy written, as before an entry to SLEEP. -/
def State.flushTail (s : State) : State := s.log.waiting.foldl (fun s _ => s.copyWaiting) s

/-! ### Replay (R484, R485) -/

/-- The standard of a stored frequency. -/
def stdOfCode : Nat → Std
  | 0 => .fm | 1 => .am | 2 => .dab | 3 => .drm | _ => .drmPlus

/-- A stored frequency of 5 bytes. -/
def afFreqOf (base : Nat) (l : List Byte) : AfFreq :=
  let n := natOfBE l
  ⟨stdOfCode (n / 2 ^ 37 % 8), n / 2 ^ 19 % 2 ^ 18, n / 2 ^ 11 % 2 ^ 8, (base + n % 2 ^ 11) * 3600⟩

/-- A stored identity of 96 bytes, if the place holds one (R482). -/
def afIdentityOf (l : List Byte) : Option AfIdentity :=
  let at_ := fun (a n : Nat) => natOfBE ((l.drop a).take n)
  if at_ 0 1 = 0 then none
  else
    let fs := (List.range (min 16 (at_ 9 1))).map (fun i => afFreqOf (at_ 10 4) ((l.drop (16 + 5 * i)).take 5))
    some ⟨at_ 8 1, at_ 0 1, at_ 1 7, fs, fs, none⟩

/-- The AF database as the Loam store holds it. -/
def State.afStored (s : State) : List AfIdentity :=
  (List.range 256).flatMap (fun b => match s.stored 0x20 b with
    | some l => (List.range 16).filterMap (fun i => afIdentityOf ((l.drop (96 * i)).take 96))
    | none => [])

/-- The keys that the journal holds in force (R484, Table 18.3). -/
def State.loadKeys (s : State) : State :=
  let tenant : Fin 4 → TenantSlot := fun n => match s.stored 0x41 (n.val + 1) with
    | some l => { TenantSlot.fresh with state := .enrolled, key := keyOfBytes l }
    | none => TenantSlot.fresh
  let sec := s.sec
  { s with sec := { sec with
      siteKey := (s.stored 0x40 0).map keyOfBytes
      vendorKey := ((s.stored 0x42 0).map keyOfBytes).getD sec.vendorKey
      svnMin := ((s.stored 0x50 0).map natOfBE).getD sec.svnMin
      tenants := #v[tenant 0, tenant 1, tenant 2, tenant 3] } }

/-- The key of the first register of a tenant's row. -/
def rowKey (n : TenId) : Nat := pgSec * 0x400 + 0x080 + 0x20 * n.val

/-- The tenant rows that the journal holds in force. -/
def State.loadRows (s : State) : State :=
  allTenants.foldl (fun s n => match s.stored 0x41 (n.val + 1) with
    | some l => s.setWords (rowKey n) (wordsOfBytes ((l.drop 64).take 32))
    | none => s) s

/-- The regulatory profile, the factory shaping set and mask, and SEC_DEBUG_CNT as the journal holds them. -/
def State.loadTables (s : State) : State :=
  let s1 := match s.stored 0x30 0 with
    | some l => s.setWords profileLo (wordsOfBytes (l.take 136))
    | none => s
  let s2 := match s.stored 0x31 0 with
    | some l =>
      let taps := (List.range 64).foldl (fun s i => s.setReg (firKey i) (BitVec.ofNat 32 (natOfBE ((l.drop (2 * i)).take 2)))) s1
      taps.setWords (pgSnd * 0x400 + 0x160) (wordsOfBytes ((l.drop 128).take 64))
    | none => s1
  match s.stored 0x51 0 with
  | some l => s2.put pgSec secDebugCnt (natOfBE l)
  | none => s2

/-- Torn records found by a replay: counted, TORN_FOUND once (R485, Table 19.1). -/
def State.replayTorn (s : State) : State :=
  let n := (s.loam.recs.filter (fun r => r.torn)).length
  if n = 0 then s else (s.count pgLoam loamTornCnt n).finding pgLoam 2 pgLoam evLoamTornFound 0x10 1 0

/-- Replay of the general journal: keys, rows, tables, the AF database, the log tail; torn records counted (R484, R485, Table 20.1). -/
def State.replay (s : State) : State :=
  let s1 := s.loadKeys.loadRows.loadTables
  { s1 with afdb := s1.afStored, log := { s1.log with tail := s1.tailStored } }.replayTorn

/-! ### The resume profile (Tables 16.5, 16.6, 18.3) -/

/-- The bits of a register that are configuration: RW and RS. -/
def configMask (key : Nat) : Word :=
  match rowOf key with
  | some r => BitVec.ofNat 32 (r.rw ||| r.rs)
  | none => if firKey 0 ≤ key ∧ key < firKey 64 then BitVec.allOnes 32 else 0

/-- Whether a register lives in the cloche partition, as every sealed value does. -/
def sealedKey (key : Nat) : Bool :=
  decide (detKey 0 0 ≤ key) || (decide (pgSmc 2 * 0x400 + 0x040 ≤ key) && decide (key ≤ pgSmc 2 * 0x400 + 0x048))

/-- The registers that differ from their reset values in configuration bits, with those bits. -/
def State.config (s : State) : List (Nat × Word) :=
  s.regs.filterMap (fun x =>
    let w := merge (resetOf x.1) x.2 (configMask x.1)
    if sealedKey x.1 ∨ w = resetOf x.1 then none else some (x.1, w))

/-- The data of the resume profile: address and value pairs of 8 bytes. -/
def State.resumeBytes (s : State) : List Byte := s.config.flatMap (fun x => bytesBE 4 x.1 ++ wordBytes x.2)

/-- Address and value pairs put in force. -/
def State.applyPairs (s : State) : List Word → State
  | k :: w :: l => (s.setReg k.toNat (merge (s.reg k.toNat) w (configMask k.toNat))).applyPairs l
  | _ => s

/-- The resume profile applied. -/
def State.resume (s : State) : State :=
  match s.stored 0x11 0 with
  | some l => s.applyPairs (wordsOfBytes l)
  | none => s

/-- Whether a register keeps its value in SLEEP: the two-wire block, what firmware SRAM holds of the identification, SEC_DEBUG_CNT, the TARGET of the descent, sealed values. -/
def keptAsleep (key : Nat) : Bool :=
  sealedKey key || decide (key / 0x400 = pgTwb) || decide (key / 0x400 = pgId) || decide (key = keyOf pgSec secDebugCnt) || decide (key = keyOf pgPwr pwrTarget)

/-! ### A reset of the part (R516, R518) -/

/-- Reset asserted: every unit at its reset values; MRAM, fuses, the cloche's partition and its tamper latch stay. -/
def State.resetPart (s : State) : State :=
  let smc := { s.smc with failed := false, paused := false, pauseReason := 0, corr := [], lastCkpt := 0 }
  let t := State.fresh s.fuse { s.loam with restart := false } smc
  { t with
    boot := .held
    freeCtr := s.freeCtr
    pending := s.pending
    regs := s.regs.filter (fun x => sealedKey x.1)
    sec := { t.sec with devKey := s.sec.devKey, vendorKey := s.sec.vendorKey, serviceOpen := false, claimOpen := false }
    clk := { t.clk with state := .off } }

/-- RESET_ASSERT (R446, R516): RESET_N low for 1 µs, or a rail below its threshold. -/
def execResetAssert (s : State) : Host.Outcome State Fault Refusal := .next s.resetPart

/-! ### Firmware (R471, R493) -/

/-- A 128-bit word of a firmware slot; a word never written reads 0. -/
def FwSlot.word (x : FwSlot) (i : Nat) : Quad :=
  match x.words.find? (fun (w : Nat × Quad) => w.1 = i) with
  | some w => w.2
  | none => 0

/-- The first n words of a firmware slot, as bytes. -/
def FwSlot.image (x : FwSlot) (n : Nat) : List Byte := (List.range n).flatMap (fun i => bytesBE 16 (x.word i).toNat)

/-- The image that a slot holds, as long as its header says, 1 MiB at most. -/
def FwSlot.content (x : FwSlot) : List Byte :=
  let n := imageNat (x.image 1) 12 4
  x.image (min 65536 (16 + (n + 15) / 16))

/-- Whether a slot passes the tests of R471: a factory image, or an image written and checked. -/
def State.fwHolds (s : State) (x : FwSlot) : Bool :=
  decide (x.state = .valid) && (if x.words = [] then decide (s.sec.svnMin ≤ x.svn) else imageOk s.fuse.fwKeyHash 0 s.sec.svnMin x.content)

/-- The slot that the slot select record names (R493). -/
def State.fwSelected (s : State) : Fin 2 :=
  match s.stored 0x52 0 with
  | some l => if natOfBE l % 2 = 0 then 0 else 1
  | none => s.loam.active

/-- A slot runs: SVN_RUN, SVN_MIN raised and kept, ID_FW_CRC (R471, R493). -/
def State.fwRun (s : State) (k : Fin 2) : State :=
  let x := s.loam.slots[k]
  let low := max s.sec.svnMin x.svn
  let s1 := { s with loam := { s.loam with active := k }, sec := { s.sec with svnRun := x.svn, svnMin := low } }
  let s2 := if s.sec.svnMin < low then (s1.journal 0x50 0 false 0x10 (bytesBE 4 low)).1 else s1
  s2.put pgId idFwCrc (crc32 x.content)

/-- Firmware loaded from a slot, else from the other with FW_REJECTED; whether one has loaded (R471). -/
def State.fwLoad (s : State) (k : Fin 2) : State × Bool :=
  let o : Fin 2 := if k = 0 then 1 else 0
  if s.fwHolds s.loam.slots[k] then (s.fwRun k, true)
  else
    let s1 := s.raise pgSec evSecFwRejected
    if s.fwHolds s.loam.slots[o] then (s1.fwRun o, true) else (s1, false)

/-- RESET_RELEASE (R384, R397, R473, R516, R519, R521): straps sampled, the VCO on, the windows open, firmware loaded and verified, the journal replayed. -/
def execResetRelease (strap : BitVec 6) (s : State) : Host.Outcome State Fault Refusal :=
  if s.boot = .held then
    let svn := ((s.stored 0x50 0).map natOfBE).getD 0
    let s0 := { s with sec := { s.sec with svnMin := svn } }
    let x := s0.fwLoad s0.fwSelected
    let s1 := x.1.replay
    let s2 := { s1 with twb := { s1.twb with strap := strap }, clk := { s1.clk with state := .qualifying, vcoAt := s.time.mono } }
    .next { s2 with boot := if x.2 then .booting else .bankOnly,
                    sec := { s2.sec with serviceOpen := true, claimOpen := s2.sec.siteKey.isNone, openAt := s.time.mono } }
  else .next s

end Sys2Proof.Machine
end

