-- ==== Sys2Proof/Machine/Power.lean ====
section
/-! DEFINITION. The power manager (R425 to R450): the setpoint and its confirmation, the PMBus host, the voltage loop and the rate sequencer, the power ladder (Table 16.6). -/

namespace Sys2Proof.Machine

/-- The state with the power manager changed. -/
def State.updPwr (s : State) (f : Pwr → Pwr) : State := { s with pwr := f s.pwr }

/-- The state with one PMBus slot changed. -/
def State.updPmb (s : State) (k : Fin 4) (f : PmbSlot → PmbSlot) : State := { s with pmb := upd s.pmb k f }

/-- A PMBus command sent (Table 16.3). -/
def State.pmbSend (s : State) (k : Fin 4) (code data : Nat) : State := { s with pmbSent := s.pmbSent ++ [⟨k, code, data⟩] }

/-! ### The setpoint (R430, R433, R437) -/

/-- A setpoint written to slot 0, unconfirmed from now on; nothing is sent to a slot that is LOST or MODE_BAD (R434, R437). VCORE_CEILING when it reaches the ceiling (R430). -/
def State.writeSetpoint (s : State) (v : Nat) : State :=
  let x := s.pmb[0]
  let s1 := s.updPwr (fun p => { p with setpoint := v, confirmed := false, setAt := s.time.mono, moved := 5 * ((v : Int) - p.setpoint).natAbs })
  let s2 := if x.lost ∨ x.modeBad then s1 else s1.pmbSend 0 0x21 (5 * v)
  if v = s.ceiling ∧ s.pwr.setpoint ≠ s.ceiling then s2.raise pgPwr evPwrVcoreCeiling else s2

/-- The setpoint moves to a value. -/
def State.setSetpoint (s : State) (v : Nat) : State := if v = s.pwr.setpoint then s else s.writeSetpoint v

/-- What slot 0's warning or loss does to the ceiling, and the events of a slot's warning (R436, R437); `old` is the state before. -/
def State.pmbSettle (old s : State) (k : Fin 4) : State :=
  let w := (s.pmb[k]).warnBits || (decide (k = 0) && s.pwr.unconfWarn)
  let s1 := s.updPmb k (fun x => { x with warned := w })
  let s2 := if (old.pmb[k]).warned ∧ !w then s1.raise pgPmb evPmbRegClear else s1
  if k = 0 then
    let fresh := (w && !(old.pmb[0]).warned) || ((s.pmb[0]).lost && !(old.pmb[0]).lost)
    let s3 := s2.updPwr (fun p => { p with warnNew := p.warnNew || fresh })
    if s3.slot0Warns then (if old.slot0Warns then s3 else s3.updPwr (fun p => { p with held := some p.setpoint, warnRun := 0 }))
    else s3.updPwr (fun p => { p with held := none, warnRun := 0 })
  else s2

/-- A setpoint confirmed: the end of its warning, a restore's measurement next, converters may start (R433, R439). -/
def State.confirmSetpoint (s : State) : State :=
  let s1 := s.updPwr (fun p => { p with confirmed := true, unconfWarn := false, restore := if p.restore = .raising then .waiting else p.restore })
  (State.pmbSettle s s1 0).startConvs

/-- READ_VOUT of slot 0, in mV: within ±10 mV it confirms the setpoint in force (R433). -/
def State.readVout (s : State) (mv : Nat) : State :=
  let s1 := s.put pgPmb pmbVout mv
  if s.pwr.confirmed then s1
  else if mv ≤ 5 * s.pwr.setpoint + 10 ∧ 5 * s.pwr.setpoint ≤ mv + 10 then s1.confirmSetpoint
  else s1

/-- How long after a write the part first reads back, in ticks: 1.2 times the change over SLEW (R433). -/
def State.slewTicks (s : State) : Nat := 6 * s.pwr.moved * usTicks / (5 * s.get pgPmb pmbSlew)

/-- SETPOINT_CONFIRM (R433): READ_VOUT read back while a setpoint is unconfirmed, once the regulator has had its time. -/
def execSetpointConfirm (vout : Nat) (s : State) : Host.Outcome State Fault Refusal :=
  if s.boot = .complete ∧ !s.pwr.confirmed ∧ s.ranOut s.pwr.setAt s.slewTicks then .next (s.readVout vout) else .next s

/-- An unconfirmed setpoint at the end of VSETTLE: a warning of slot 0; a restore's raise fails (R433, R439). -/
def State.settleFails (s : State) : State :=
  let s1 := s.updPwr (fun p => { p with unconfWarn := true, restore := if p.restore = .raising then .none else p.restore })
  let s2 := if (s.pmb[0]).warned then s1 else s1.finding pgPmb 1 pgPmb evPmbRegWarn 0x10 1 (place 15 0 (s.get pgPmb (pmbStatusWord.nth 0)))
  State.pmbSettle s s2 0

/-- VSETTLE_EXPIRY (R379, R433): VSETTLE after the write the setpoint is still unconfirmed; a confirmation that is visible wins, and the race is counted. -/
def execVsettleExpiry (seen : Bool) (s : State) : Host.Outcome State Fault Refusal :=
  if s.boot = .complete ∧ !s.pwr.confirmed ∧ !s.pwr.unconfWarn ∧ s.ranOut s.pwr.setAt (s.get pgPmb pmbVsettle * 10 * usTicks) then
    if seen then .next (s.race pgPmb).confirmSetpoint else .next s.settleFails
  else .next s

/-! ### The PMBus host (R434 to R436) -/

/-- A transaction that has ended: its failure counted, the run of failures of its slot. -/
def State.pmbEnd (s : State) (k : Fin 4) : PmbTx → State
  | .ok _ => s.updPmb k (fun x => { x with failRun := 0 })
  | .nack => (s.count pgPmb pmbNackCnt 1).updPmb k (fun x => { x with failRun := x.failRun + 1 })
  | .pec => (s.count pgPmb pmbPecCnt 1).updPmb k (fun x => { x with failRun := x.failRun + 1 })

/-- Whether a transaction succeeded. -/
def txGood : PmbTx → Bool
  | .ok _ => true
  | _ => false

/-- One evaluation of a regulator detector at a poll of a slot: injections act at slot 0 alone. -/
def State.pmbEvaluate (s : State) (k : Fin 4) (det : Nat) (real : Bool) : Nat × State :=
  if k = 0 then s.evaluate pgPmb det real else (bit real, s)

/-- The DETAIL of a regulator finding: STATUS_WORD. -/
def State.pmbDetail (s : State) (k : Fin 4) : Word := place 15 0 (s.get pgPmb (pmbStatusWord.nth k.val))

/-- What the status of a slot shows at a poll: STATUS_WORD, CLEAR_FAULTS when a bit was set, warnings and faults on entry or injected (R435, R436). -/
def State.pmbStatus (s : State) (k : Fin 4) (r : PmbRead) : State :=
  let x := s.pmb[k]
  match r.status with
  | .ok v =>
    let s1 := s.put pgPmb (pmbStatusWord.nth k.val) v
    let s2 := if v % 65536 = 0 then s1 else s1.pmbSend k 0x03 0
    let (w, s3) := s2.pmbEvaluate k 1 r.warn
    let s4 := if w = 0 ∨ (w = 1 ∧ x.warned) then s3 else s3.finding pgPmb 1 pgPmb evPmbRegWarn 0x10 w (s3.pmbDetail k)
    let (f, s5) := s4.pmbEvaluate k 2 r.fault
    let s6 := if f = 0 ∨ (f = 1 ∧ x.fault) then s5 else s5.finding pgPmb 2 pgPmb evPmbRegFault 0x10 f (s5.pmbDetail k)
    s6.updPmb k (fun y => { y with warnBits := decide (w ≠ 0), fault := decide (f ≠ 0) })
  | _ => s

/-- LOST after three failed transactions in a row, or injected; the next successful poll ends it (R436). -/
def State.pmbLoss (s : State) (k : Fin 4) (good : Bool) : State :=
  let x := s.pmb[k]
  let (src, s1) := s.pmbEvaluate k 3 (decide (3 ≤ x.failRun))
  if src = 0 then
    if good ∧ x.lost then (s1.updPmb k (fun y => { y with lost := false })).raise pgPmb evPmbBack else s1
  else if src = 1 ∧ x.lost then s1
  else (s1.finding pgPmb 3 pgPmb evPmbLost 0x10 src (s1.pmbDetail k)).updPmb k (fun y => { y with lost := true })

/-- READ_VOUT and READ_IOUT of slot 0 at a poll. -/
def State.pmbTelemetry (s : State) (r : PmbRead) : State :=
  let s1 := match r.iout with
    | .ok v => s.put pgPmb pmbIout v
    | _ => s
  match r.vout with
  | .ok v => s1.readVout v
  | _ => s1

/-- The poll of one slot (R435, R436): STATUS_WORD, and for slot 0 READ_VOUT and READ_IOUT. -/
def State.pmbPollSlot (s : State) (k : Fin 4) (r : PmbRead) : State :=
  if k = 0 ∨ s.flag pgPmb (pmbEn.nth k.val) then
    let s1 := s.pmbEnd k r.status
    let s2 := if k = 0 then (s1.pmbEnd k r.vout).pmbEnd k r.iout else s1
    let good := txGood r.status && (decide (k ≠ 0) || (txGood r.vout && txGood r.iout))
    let s3 := State.pmbSettle s ((s2.pmbStatus k r).pmbLoss k good) k
    if k = 0 then s3.pmbTelemetry r else s3
  else s

/-- The slots of a poll, in order. -/
def State.pmbPollAll (s : State) (reads : List (Fin 4 × PmbRead)) : State :=
  if s.boot = .complete ∧ s.pwr.rung ≤ 3 then reads.foldl (fun s x => s.pmbPollSlot x.1 x.2) s else s

/-- PMB_POLL (R435 to R437): every enabled slot read, every POLL ms. -/
def execPmbPoll (reads : List (Fin 4 × PmbRead)) (s : State) : Host.Outcome State Fault Refusal :=
  if s.ranOut s.pwr.polledAt (s.get pgPmb pmbPoll * msTicks) then .next ((s.updPwr (fun p => { p with polledAt := s.time.mono })).pmbPollAll reads) else .next s

/-- PMB_ALERT (Table 16.3): PMB_ALERT_N falls and every enabled slot is read at once. -/
def execPmbAlert (reads : List (Fin 4 × PmbRead)) (s : State) : Host.Outcome State Fault Refusal := .next (s.pmbPollAll reads)

/-- The probe of a slot: VOUT_MODE as read, or no answer; linear mode makes it PRESENT, and CLEAR_FAULTS is sent (R434, Table 16.3). -/
def State.pmbProbe (s : State) (k : Fin 4) (mode : Option (BitVec 8)) : State :=
  match mode with
  | none => (s.pmbEnd k .nack).updPmb k (fun x => { x with present := false, modeBad := false })
  | some m =>
    let s1 := s.pmbEnd k (.ok 0)
    if m.toNat / 32 = 0 then
      ((s1.put pgPmb (pmbVoutExp.nth k.val) m.toNat).updPmb k (fun x => { x with present := true, modeBad := false })).pmbSend k 0x03 0
    else s1.updPmb k (fun x => { x with present := false, modeBad := true })

/-! ### Slack, the loop and the sequencer (R426 to R430, R438 to R441) -/

/-- Whether the pipeline of a meter has work: SIEVE0 to SIEVE3, SLICE, BED, DECODE, STREAM (R427). -/
def State.meterBusy (s : State) (k : Nat) : Bool :=
  if k < 4 then decide ((s.inputs[inpOf k]).conv = .run)
  else if k = 4 then s.slices.toList.any (fun x => decide (x.use ≠ .idle))
  else if k = 5 then s.beds.toList.any (fun x => decide (x.state ≠ .off))
  else if k = 6 then s.decs.toList.any (fun x => decide (x.state ≠ .idle))
  else s.strms.toList.any (fun x => x.en)

/-- The eight meters at an epoch, from the shares measured: an idle pipeline reads 100 (R427). -/
def State.meters (s : State) (slack : List Nat) : List Nat :=
  (List.range 8).map (fun k => if s.meterBusy k then min 100 (slack[k]?.getD 100) else 100)

/-- The least of some meters; an idle one, which reads 100, never lowers it (R428). -/
def minOf (l : List Nat) : Nat := l.foldl min 100

/-- The meters as PWR_SLACK0, PWR_SLACK1, MIN_EPOCH and MIN_SINCE show them (Table 16.8). -/
def State.showMeters (s : State) (ms : List Nat) (fmin : Nat) : State :=
  let word := fun (l : List Nat) => l.reverse.foldl (fun n v => n * 256 + v) 0
  s.puts pgPwr [(pwrSlack0, word (ms.take 4)), (pwrSlack1, word (ms.drop 4)), (pwrMinEpoch, fmin), (pwrMinSince, min fmin (s.get pgPwr pwrMinSince))]

/-- The loop of R430 for one epoch, with the least of all meters. -/
def State.voltageLoop (s : State) (m : Nat) : State :=
  let v := s.pwr.setpoint
  if m < 10 ∧ v < s.ceiling then
    (s.updPwr (fun p => { p with downRun := 0 })).setSetpoint (min s.ceiling (v + s.get pgPwr pwrStepUp))
  else if 30 < m then
    let run := s.pwr.downRun + 1
    if s.get pgPwr pwrDownEpochs ≤ run ∧ s.get pgPwr pwrVmin < v then
      (s.updPwr (fun p => { p with downRun := 0 })).setSetpoint (max (s.get pgPwr pwrVmin) (v - s.get pgPwr pwrStepDn))
    else s.updPwr (fun p => { p with downRun := run })
  else s.updPwr (fun p => { p with downRun := 0 })

/-- A restore's measurement at an epoch boundary: it begins at the first boundary after the confirmation and closes at the next; a fabric minimum of RESTORE_SLACK restores the input (R439). -/
def State.restoreStep (s : State) (fmin : Nat) : State :=
  match s.pwr.restore with
  | .waiting => s.updPwr (fun p => { p with restore := .measuring })
  | .measuring =>
    let s1 := s.updPwr (fun p => { p with restore := .none })
    match s.nextRestore with
    | some i =>
      if s.get pgPwr pwrRestoreSlack ≤ fmin ∧ !s.slot0Warns ∧ s.pwr.confirmed then
        ((s1.changeRate i false).raise pgPwr evPwrRestored).updPwr (fun p => { p with sinceChange := 0, lastRestore := some s.time.epochNo })
      else s1
    | none => s1
  | _ => s

/-- One input halved at an epoch boundary, where one in RUN is at full rate (R438, R440, Table 2.5). `low` tells the first case. -/
def State.halve (s : State) (low : Bool) : State :=
  match s.nextHalve with
  | some i =>
    let s1 := ((s.changeRate i true).count pgPwr pwrHrCnt 1).updPwr (fun p => { p with warnRun := 0, sinceChange := 0, restore := .none })
    let soon : Bool := match s.pwr.lastRestore with
      | some e => decide (s.time.epochNo < e + 1024)
      | none => false
    if low ∧ soon ∧ !s.pwr.suspended then (s1.raise pgPwr evPwrRestoreSusp).updPwr (fun p => { p with suspended := true }) else s1
  | none => s

/-- The halvings of an epoch boundary: a case of R438 raises SLACK_LOW and halves one input; a sensor above TEMP_CRIT halves one where no case does (R438, R511). -/
def State.sequence (s : State) (src : Nat) : State :=
  let four := s.slot0Warns && decide (s.get pgPwr pwrWarnStep ≤ s.pwr.warnRun) && decide (s.pwr.setpoint = s.ceiling)
  let s1 := if src = 0 then s else s.finding pgPwr 1 pgPwr evPwrSlackLow 0x10 src 0
  if src ≠ 0 then s1.halve true
  else if s.pwr.fifoHigh ∨ s.pwr.warnNew ∨ four then (s1.raise pgPwr evPwrSlackLow).halve false
  else if s.temps.crit then
    match s.nextHalve with
    | some i => (s1.changeRate i true).updPwr (fun p => { p with sinceChange := 0, restore := .none })
    | none => s1
  else s1

/-- Whether every sensor reads 5 °C or more below TEMP_CRIT (R511). -/
def State.coolSensors (s : State) : Bool :=
  (List.range 6).all (fun k => decide (signedOf 16 (s.get pgTel (telTemp.nth k)) < ((s.get pgTel telTempCrit : Int) - 5) * 100))

/-- The epochs of R511 counted. -/
def State.tempEpoch (s : State) : State :=
  let t := s.temps
  { s with temps := { t with clearEpochs := if t.crit then 0 else if 64 ≤ t.clearEpochs then 64 else if s.coolSensors then t.clearEpochs + 1 else 0 } }

/-- The epochs that the sequencer counts. -/
def State.countEpochs (s : State) (low : Bool) : State :=
  s.updPwr (fun p => { p with
    lowRun := if low then p.lowRun + 1 else 0
    clearRun := if s.slot0Warns then 0 else p.clearRun + 1
    sinceChange := p.sinceChange + 1
    warnRun := if s.slot0Warns then p.warnRun + 1 else 0 })

/-- The power manager at an epoch boundary: meters, a restore's measurement, the loop, the sequencer; in RUN only (R427 to R441). -/
def State.powerEpoch (s : State) (slack : List Nat) : State :=
  let s0 := s.tempEpoch
  if s.inRun then
    let ms := s0.meters slack
    let (inj, s1) := s0.evaluate pgPwr 1 false
    let fmin := if inj ≠ 0 then 0 else minOf (ms.take 6)
    let low := decide (fmin < 5) && decide (s1.pwr.setpoint = s1.ceiling)
    let s2 := (s1.showMeters ms fmin).countEpochs low
    let s3 := s2.restoreStep fmin
    let s4 := if s3.pwr.restore = .none then s3.voltageLoop (if inj ≠ 0 then 0 else minOf ms) else s3
    let s5 := s4.sequence (findingSrc (decide (2 ≤ s4.pwr.lowRun)) (decide (inj ≠ 0)))
    s5.updPwr (fun p => { p with warnNew := false, fifoHigh := false })
  else s0.updPwr (fun p => { p with warnNew := false, fifoHigh := false, lowRun := 0, downRun := 0 })

/-- SEQ_RESTORE_RAISE (R439, R440, R511): the conditions of a restore met, the setpoint is raised by RESTORE_MARGIN. -/
def execSeqRestoreRaise (s : State) : Host.Outcome State Fault Refusal :=
  let n := s.get pgPwr pwrRestoreEpochs
  let v := s.pwr.setpoint + s.get pgPwr pwrRestoreMargin
  if s.inRun ∧ s.pwr.restore = .none ∧ s.nextRestore.isSome ∧ n ≤ s.pwr.clearRun ∧ n ≤ s.pwr.sinceChange ∧ v ≤ s.get pgPwr pwrVmax ∧ !s.pwr.suspended
      ∧ !s.temps.crit ∧ 64 ≤ s.temps.clearEpochs then
    .next ((s.updPwr (fun p => { p with restore := .raising, downRun := 0 })).setSetpoint v)
  else .next s

/-! ### The power ladder (R442 to R446, Tables 16.5 and 16.6) -/

/-- RUN left: converters and transmitter OFF, the cloche closes its intervals, the loop frozen at the setpoint in force. -/
def State.leaveRunRung (s : State) : State :=
  (s.smcIdle.convOffAll.txClockAbort).updPwr (fun p => { p with entry := p.setpoint, restore := .none })

/-- One port leaves the ring: every frame that waits is sent, then LEAVE eight times (R359). -/
def State.leavePort (s : State) (p : Port) : State :=
  let x := s.ports[p]
  if x.state = .up then
    let s1 := (s.updPort p (fun y => { y with wait := [] }))
    let s2 := x.wait.foldl (fun s w => s.leaveBuffer p w) s1
    (s2.send p (List.replicate 8 (ctlBlock 0 0x31 0))).portDrop p false false
  else s.portDrop p false false

/-- IDLE left for STANDBY: the ring left, the synthesiser off, the setpoint VMIN. -/
def State.leaveIdle (s : State) : State :=
  (((s.leavePort 0).leavePort 1).clkOff.setSetpoint (s.get pgPwr pwrVmin)).count pgPwr pwrRungCnt 1

/-- STANDBY left for DOZE: alignment and ensemble memory and what they hold lost. -/
def State.leaveStandby (s : State) : State :=
  let s1 := s.snapsLost.slicesDown.bedsDown.slotsDown
  { s1 with bunds := s1.bunds.map (fun b => { b with held := [] }) }

/-- Every session of both endpoints ends, and pending opens are dropped (R468). -/
def State.dropSessions (s : State) : State :=
  let s1 := (s.endSessions false (List.finRange 8)).endSessions true (List.finRange 8)
  { s1 with sec := { s1.sec with pend := Vector.replicate 8 none, cpend := Vector.replicate 8 none } }

/-- What SLEEP takes away: queues, stream buffers and keys, staged values, the error log, pending keys; the registers keep the two-wire block and what the cloche partition holds. -/
def State.forget (s : State) : State :=
  { s with
    staged := []
    captured := []
    lastStatus := []
    q := ⟨Vector.replicate 3 [], Vector.replicate 3 [], none, [], [], [], [], [], Vector.replicate 3 0⟩
    squeues := Vector.replicate 9 ⟨[], 0, false⟩
    skeys := Vector.replicate 4 ⟨none, none, none, 0, 0, 0⟩
    log := ⟨[], 0, false, none, [], s.log.tail, false, 0, 0⟩
    temps := ⟨false, false, false, false, 64, [], [], s.temps.telAt⟩
    survey := []
    afdb := s.afStored
    afNext := []
    conds := []
    sec := { s.sec with tenants := s.sec.tenants.map (fun t => if t.state = .enrolling then TenantSlot.fresh else t) }
    regs := s.regs.filter (fun x => keptAsleep x.1) }

/-- DOZE left for SLEEP: the cloche closes its intervals and powers down, the resume profile is written, sessions end. -/
def State.leaveDoze (s : State) : State :=
  let s1 := s.smcSleep.flushTail.dropSessions
  (s1.journal 0x11 0 false 0x10 s1.resumeBytes).1.forget

/-- SLEEP left for DORMANT: OPERATION off; all that is left lives in the MRAM, the address matcher and the cloche partition. -/
def State.leaveSleep (s : State) : State :=
  let s1 := s.pmbSend 0 0x01 0
  { s1 with
    regs := s1.regs.filter (fun x => sealedKey x.1)
    ring := ⟨none, 0, 0, 0, false, [], false, none, false, Vector.replicate 2 false, none⟩
    clk := { Clk.fresh with state := .off }
    time := { Time.fresh with mono := s1.time.mono }
    twb := ⟨s1.twb.strap, .idle, 0, [], [], false, [], [], []⟩ }

/-- The configuration of a part that wakes: the resume profile, factory trims, TARGET at DOZE. -/
def State.wakeConfig (s : State) : State := s.resume.factoryTrims.put pgPwr pwrTarget 3

/-- DORMANT left for DOZE: OPERATION on, firmware loaded from the active slot, the journal replayed, the resume profile applied, the setpoint VMIN. -/
def State.wakeDormant (s : State) : State :=
  let x := (s.pmbSend 0 0x01 0x80).fwLoad s.loam.active
  let s1 := x.1.replay.wakeConfig
  let s2 := if x.2 then s1 else { s1 with boot := .bankOnly }
  s2.writeSetpoint (s2.get pgPwr pwrVmin)

/-- STANDBY left for IDLE: the retained setpoint written, the synthesiser on, ports that fell forgotten. -/
def State.leaveStandbyUp (s : State) : State :=
  let s1 := (s.setSetpoint s.pwr.entry).clkOn
  (s1.updPort 0 (fun x => { x with fell := false })).updPort 1 (fun x => { x with fell := false })

/-- The actions of the step that a transition begins, by the rung it leaves and its direction (Table 16.6). -/
def State.stepActions (s : State) (rising : Bool) : State :=
  if rising then
    match s.pwr.rung with
    | 1 => s.startConvs
    | 2 => s.leaveStandbyUp
    | 3 => s
    | 4 => s.wakeConfig
    | _ => s.wakeDormant
  else
    match s.pwr.rung with
    | 0 => s.leaveRunRung
    | 1 => s.leaveIdle
    | 2 => s.leaveStandby
    | 3 => s.leaveDoze
    | _ => s.leaveSleep

/-- The rung that a step ends in. -/
def nextRung (rung : Nat) (rising : Bool) : Nat := if rising then (if 4 ≤ rung then 3 else rung - 1) else rung + 1

/-- A step of a transition begins (R442). -/
def State.stepBegin (s : State) (rising : Bool) : State :=
  let s1 := s.updPwr (fun p => { p with
    busy := true
    rising := rising
    riseAt := if rising then (match p.riseAt with
      | some t => some t
      | none => some s.time.mono) else none
    riseAcc := if rising then p.riseAcc else 0 })
  s1.stepActions rising

/-- The rung that TARGET asks for; a part that has shut down goes no higher than IDLE (R442, R511). -/
def State.rungGoal (s : State) : Nat := if s.temps.shutdown then max 1 (s.get pgPwr pwrTarget) else s.get pgPwr pwrTarget

/-- The transition goes on toward the goal, or ends with RUNG_DONE; SLEEP and DORMANT are left by an address match alone (R442, R443). -/
def State.stepOn (s : State) : State :=
  let r := s.pwr.rung
  let g := s.rungGoal
  if g = r ∨ (g < r ∧ 4 ≤ r) then (s.updPwr (fun p => { p with busy := false, rising := false, riseAt := none, riseAcc := if p.riseAt.isNone then p.riseAcc else 0 })).raise pgPwr evPwrRungDone
  else s.stepBegin (decide (g < r))

/-- A write of PWR_RUNG (R442, R511): its status; a transition begins unless one is under way. -/
def State.writeTarget (s : State) (w : Word) : State × Status :=
  let t := fieldOf w 2 0
  let r := s.pwr.rung
  if 5 < t then (s, .badArg)
  else if 2 ≤ t ∧ r < t ∧ (s.cal.run.isSome ∨ s.cal.load ∨ s.loam.slots.toList.any (fun x => decide (x.state = .writing))) then (s, .notReady)
  else
    let s1 := s.put pgPwr pwrTarget t
    let s2 := if s1.temps.shutdown ∧ s1.temps.cool then { s1 with temps := { s1.temps with shutdown := false } } else s1
    if s2.pwr.busy ∨ s2.rungGoal = r ∨ (s2.rungGoal < r ∧ 4 ≤ r) then (s2, .ok)
    else (s2.stepBegin (decide (s2.rungGoal < r)), .ok)

/-- The part reaches a rung: what follows at the end of the step (Tables 16.5, 16.6, R393, R444). -/
def State.arrive (s : State) (from_ to_ : Nat) : State :=
  let s1 := s.updPwr (fun p => { p with rung := to_, suspended := false })
  if 4 ≤ from_ ∧ to_ = 3 then
    let spent := match s.pwr.riseAt with
      | some t => s.time.mono - t
      | none => 0
    ((s1.smcWake.raise pgTwb evTwbWake).count pgTwb twbWakeCnt 1).updPwr (fun p => { p with riseAt := none, riseAcc := spent })
  else if to_ = 0 then
    let t := s.pwr.riseAcc + (match s.pwr.riseAt with
      | some t => s.time.mono - t
      | none => 0)
    (s1.smcRun.put pgPwr pwrExitLast (min (t / usTicks) (2 ^ 32 - 1))).updPwr (fun p => { p with riseAt := none, riseAcc := 0 })
  else s1

/-- RUNG_STEP_DONE (R442, Table 16.6): the step in progress ends; the next begins, or the transition is done. -/
def execRungStepDone (s : State) : Host.Outcome State Fault Refusal :=
  if s.pwr.busy then .next (s.arrive s.pwr.rung (nextRung s.pwr.rung s.pwr.rising)).stepOn else .next s

/-- The rise that an address match starts (R392, R393, R443). -/
def State.wake (s : State) : State :=
  if 4 ≤ s.pwr.rung ∧ !s.pwr.busy then (s.updPwr (fun p => { p with riseAt := some s.time.mono, riseAcc := 0 })).stepBegin true else s

end Sys2Proof.Machine
end

