-- ==== Sys2Proof/Machine/Security.lean ====
section
/-! DEFINITION. Roles, keys and sessions (R451 to R477): the session commands, CLAIM, tenants, Vendor service and debug, the rows of the SEC page. -/

namespace Sys2Proof.Machine

/-- The state with the roles, keys and sessions changed. -/
def State.updSec (s : State) (f : Sec → Sec) : State := { s with sec := f s.sec }

/-- A public key or signature in four words (R463). -/
def keyQuads (k : BitVec 512) : List Quad := [k.extractLsb' 384 128, k.extractLsb' 256 128, k.extractLsb' 128 128, k.extractLsb' 0 128]

/-- The serial number as 8 bytes. -/
def State.serialBytes (s : State) : List Byte := bytesBE 8 s.fuse.serial.toNat

/-- A command of Q0 that only some roles may give; any other completes ACCESS_DENIED (Table 17.6). -/
def State.roleOnly (s : State) (op : Nat) (p : Role → Bool) (act : State → State × Reply) : State :=
  s.serve 0 [op] (fun c s => if p c.role then ((act s).1, some (act s).2) else (s, some (.st .accessDenied)))

/-- Whether a role is Site. -/
def isSite (r : Role) : Bool := decide (r = .site)

/-- Whether a role is Vendor. -/
def isVendor (r : Role) : Bool := decide (r = .vendor)

/-- A tenant named by its number, 1 to 4. -/
def tenOf (n : Nat) : Option TenId := if h : 1 ≤ n ∧ n ≤ 4 then some ⟨n - 1, by omega⟩ else none

/-! ### Sessions (R463 to R468) -/

/-- The role of a key code (R463). -/
def roleOfCode (code : Nat) : Option Role :=
  match code with
  | 0x10 => some .site
  | 0x21 => some (.tenant 0) | 0x22 => some (.tenant 1) | 0x23 => some (.tenant 2) | 0x24 => some (.tenant 3)
  | 0x31 => some (.verifier 0) | 0x32 => some (.verifier 1) | 0x33 => some (.verifier 2)
  | 0x40 => some .vendor
  | _ => none

/-- The key code of a role (R463). -/
def codeOfRole (r : Role) : Nat :=
  match r with
  | .site => 0x10 | .tenant n => 0x21 + n.val | .verifier k => 0x31 + k.val | .vendor => 0x40 | .anyone => 0

/-- Whether Table 17.1 opens sessions of a role on a queue; a tenant's code on Q1 must be that of C0.TENANT (R464). -/
def opensOn (r : Role) (q : CQueue) (tenant : Nat) : Bool :=
  match r with
  | .site => decide (q.val = 0)
  | .tenant n => (decide (q.val = 1) && decide (tenant = n.val + 1)) || decide (q.val = 2)
  | .verifier _ => decide (q.val = 2)
  | .vendor => decide (q.val = 0)
  | .anyone => false

/-- The public key that an endpoint holds for a role (Table 17.3). -/
def State.keyOfRole (s : State) (cloche : Bool) (r : Role) : Option (BitVec 512) :=
  match r with
  | .site => s.sec.siteKey
  | .tenant n => if cloche then s.smc.tenantKeys[n] else if (s.sec.tenants[n]).state = .enrolled then some (s.sec.tenants[n]).key else none
  | .verifier k => s.smc.verifierKeys[k]
  | .vendor => some s.sec.vendorKey
  | .anyone => none

/-- The pending opens of an endpoint. -/
def State.pendings (s : State) (cloche : Bool) : Vector (Option PendingOpen) 8 := if cloche then s.sec.cpend else s.sec.pend

/-- One pending open of an endpoint replaced (R464: one for each key slot at most). -/
def State.setPending (s : State) (cloche : Bool) (k : KeySlot) (x : Option PendingOpen) : State :=
  s.updSec (fun y => if cloche then { y with cpend := y.cpend.set k x } else { y with pend := y.pend.set k x })

/-- Whether a session ID is in use at an endpoint. -/
def State.idUsed (s : State) (cloche : Bool) (id : BitVec 16) : Bool :=
  (s.sessions cloche).toList.any (fun x => match x with
    | some y => decide (y.id = id)
    | none => false)
  || (s.pendings cloche).toList.any (fun x => match x with
    | some y => decide (y.id = id)
    | none => false)

/-- A session ID that is not in use, from a free value. -/
def State.newId (s : State) (cloche : Bool) (v : Nat) : BitVec 16 :=
  (((List.range 17).map (fun i => BitVec.ofNat 16 (v + i))).find? (fun id => !s.idUsed cloche id)).getD 0

/-- The signature that an endpoint makes of a hash (R463). -/
def endpointSign (cloche : Bool) (h : BitVec 256) : BitVec 512 := if cloche then Config.clocheSign h else Config.deviceSign h

/-- A pending open made, and its answer: session ID, part key and nonce, signature over the transcript (R463, Table 17.5). The part's random values are free values. -/
def State.openPending (s : State) (cloche : Bool) (k : KeySlot) (code : Nat) (key : BitVec 512) (nonce : Quad) : State × Reply :=
  let (n, s1) := s.draw
  let (m, s2) := s1.draw
  let (l, s3) := s2.draw
  let id := s.newId cloche (Config.freeValue n).toNat
  let priv : BitVec 256 := (Config.freeValue m).extractLsb' 0 256
  let partNonce : Quad := (Config.freeValue l).extractLsb' 0 128
  let partKey := Config.publicKey priv
  let t := Config.sha256 (bytesBE 8 code ++ bytesBE 64 key.toNat ++ bytesBE 16 nonce.toNat ++ bytesBE 64 partKey.toNat ++ bytesBE 16 partNonce.toNat
    ++ bytesBE 2 id.toNat ++ s.serialBytes)
  let p : PendingOpen := ⟨id, t, Config.ecdh priv key, bytesBE 16 nonce.toNat ++ bytesBE 16 partNonce.toNat, s.time.mono⟩
  (s3.setPending cloche k (some p), ⟨.ok, BitVec.ofNat 32 id.toNat, keyQuads partKey ++ [partNonce] ++ keyQuads (endpointSign cloche t)⟩)

/-- SESS_OPEN (R463, R464): a pending open, or BAD_ARG or ACCESS_DENIED in the order of R464. -/
def execSessOpen (q : CQueue) (code : Nat) (key : BitVec 512) (nonce : Quad) (s : State) : Host.Outcome State Fault Refusal :=
  .next (s.serve q [0xF0] (fun c s =>
    let cloche := decide (q.val = 2)
    match roleOfCode code with
    | none => (s, some (.st .badArg))
    | some r =>
      if !opensOn r q c.w.head.tenant then (s, some (.st .badArg))
      else if (s.keyOfRole cloche r).isNone ∨ (isVendor r ∧ !(c.w.bus && s.sec.serviceOpen)) then (s, some (.st .accessDenied))
      else match slotOfRole r with
        | some k => let x := s.openPending cloche k code key nonce; (x.1, some x.2)
        | none => (s, some (.st .badArg))))

/-- The key slot whose pending open carries an ID. -/
def State.findPending (s : State) (cloche : Bool) (id : BitVec 16) : Option (KeySlot × PendingOpen) :=
  (List.finRange 8).findSome? (fun k => match (s.pendings cloche)[k] with
    | some p => if p.id = id then some (k, p) else none
    | none => none)

/-- The info string of R465: "ULS9096 session", key code, session ID, serial number. -/
def State.hkdfInfo (s : State) (code : Nat) (id : BitVec 16) : List Byte :=
  ("ULS9096 session".toList.map (fun c => BitVec.ofNat 8 c.toNat)) ++ bytesBE 1 code ++ bytesBE 2 id.toNat ++ s.serialBytes

/-- The DEVTIME at which a new stream key of a tenant applies (R470): the first slice-block boundary after now, or where no grid is placed the next DEVTIME multiple of its period. -/
def State.keySwitchAt (s : State) : Nat :=
  if s.time.placed then s.time.devOf (multAfter 1280000 s.time.grid) else multAfter 1280000 s.time.devtime

/-- A session opened from its pending open: keys derived, an earlier session of the slot ended, K_S taken for a tenant's session with the part (R464, R465, R470). -/
def State.openSession (s : State) (cloche : Bool) (k : KeySlot) (p : PendingOpen) : State × Word :=
  let r := roleOfSlot cloche k
  let keys := Config.hkdf p.shared p.salt (s.hkdfInfo (codeOfRole r) p.id)
  let s1 := ((s.endSession cloche k).setPending cloche k none).setSession cloche k (some ⟨p.id, 0, 0, 0, keys⟩)
  match r with
  | .tenant n =>
    if cloche then (s1, 0)
    else
      let at_ := s.keySwitchAt
      ({ s1 with skeys := upd s1.skeys n (fun y => { y with next := some (keys.extractLsb' 64 256), switchAt := at_ }) }, devLo at_)
  | _ => (s1, 0)

/-- The records that wait for a role's session with the cloche placed on Q6 (R468). -/
def State.placeFor (s : State) (r : Role) : State :=
  match r with
  | .tenant n => s.placeRecords (n.val + 1)
  | .verifier _ => s.placeRecords 5
  | _ => s

/-- SESS_CONFIRM (R464, R465, R470): the role's signature over SHA-256(0x01 ‖ T) opens the session. -/
def execSessConfirm (q : CQueue) (id : BitVec 16) (sig : BitVec 512) (s : State) : Host.Outcome State Fault Refusal :=
  .next (s.serve q [0xF1] (fun c s =>
    let cloche := decide (q.val = 2)
    let stale := (s.count pgSec secStaleCnt 1, some (Reply.st .staleSession))
    match s.findPending cloche id with
    | none => stale
    | some (k, p) =>
      let r := roleOfSlot cloche k
      let tenant : Bool := match r with
        | .tenant _ => true
        | _ => false
      if p.at_ + 10 * secTicks < s.time.mono then stale
      else if tenant ∧ !cloche ∧ !s.time.set then (s, some (.st .notReady))
      else match s.keyOfRole cloche r with
        | none => (s.setPending cloche k none, some (.st .accessDenied))
        | some key =>
          if (isVendor r ∧ !s.sec.serviceOpen) ∨ !Config.ecdsaVerify key (Config.sha256 (bytesBE 1 1 ++ bytesBE 32 p.transcript.toNat)) sig then
            (s.setPending cloche k none, some (.st .accessDenied))
          else
            let (s1, res) := s.openSession cloche k p
            let s2 := s1.answer c 0 ⟨.ok, res, []⟩
            (if cloche then s2.placeFor r else s2, none)))

/-- SESS_PENDING_EXPIRY (R379, R464): 10 s after the open's answer the pending open lapses; a SESS_CONFIRM that is visible wins, and the race is counted. -/
def execSessPendingExpiry (cloche : Bool) (k : KeySlot) (seen : Bool) (s : State) : Host.Outcome State Fault Refusal :=
  match (s.pendings cloche)[k] with
  | some p =>
    if !s.rootRanOut p.at_ (10 * secTicks) then .next s
    else if seen then .next ((s.setPending cloche k (some { p with at_ := s.time.mono - 10 * secTicks })).race pgSec)
    else .next (s.setPending cloche k none)
  | none => .next s

/-- SESS_CLOSE (R468): the session of the command ends after its answer, without SESSION_ENDED. -/
def execSessClose (q : CQueue) (s : State) : Host.Outcome State Fault Refusal :=
  .next (s.serve q [0xF2] (fun c s =>
    match c.ses with
    | some k => ((s.answer c 0 (.st .ok)).setSession (decide (q.val = 2)) k none, none)
    | none => (s, some (.st .badArg))))

/-- DEV_CERT (Table 17.5): the device certificate chain, to any role. -/
def execDevCert (q : CQueue) (s : State) : Host.Outcome State Fault Refusal :=
  .next (s.serve q [0xF4] (fun _ s => (s, some ⟨.ok, BitVec.ofNat 32 Config.deviceChain.length, packBytes Config.deviceChain⟩)))

/-! ### The site key and the windows (R397, R398, R459, R473) -/

/-- CLAIM (R397, R398, Table 17.4): the site key enrolled through the bus mailbox on Q0 while the window is open. -/
def execClaim (q : CQueue) (key : BitVec 512) (s : State) : Host.Outcome State Fault Refusal :=
  .next (s.serve q [0xF3] (fun c s =>
    if !c.w.bus ∨ q.val ≠ 0 then (s, some (.st .accessDenied))
    else if !s.sec.claimOpen ∨ s.sec.claimBlocked then (s, some (.st .notReady))
    else
      let (s1, ok) := s.journal 0x40 0 false 0x10 (bytesBE 64 key.toNat)
      if !ok then (s1, some (.st .noSpace))
      else
        let s2 := s1.updSec (fun x => { x with siteKey := some key, claimOpen := false })
        let h := Config.sha256 (bytesBE 64 key.toNat ++ s.serialBytes)
        (s2.raise pgTwb evTwbClaimed, some ⟨.ok, 0, keyQuads s.sec.devKey ++ keyQuads (Config.deviceSign h)⟩)))

/-- Whether the claim window's time may have run out: CLAIM_WINDOW seconds after the release of reset, timed one-shot (R397, R422, R473). -/
def State.windowRanOut (s : State) : Bool := s.mayRunOut s.sec.openAt (s.get pgTwb twbClaimWindow * secTicks)

/-- CLAIM_WINDOW_CLOSE (R397, R398): the window closes unclaimed; a claim that is visible wins, and the race is counted. -/
def execClaimWindowClose (seen : Bool) (s : State) : Host.Outcome State Fault Refusal :=
  if s.sec.claimOpen ∧ s.windowRanOut then
    if seen then .next (s.race pgTwb)
    else .next ((s.updSec (fun x => { x with claimOpen := false })).raise pgTwb evTwbClaimClosed)
  else .next s

/-- SERVICE_WINDOW_CLOSE (R473): the Vendor service window closes. -/
def execServiceWindowClose (seen : Bool) (s : State) : Host.Outcome State Fault Refusal :=
  if s.sec.serviceOpen ∧ s.windowRanOut then
    if seen then .next (s.race pgSec) else .next (s.updSec (fun x => { x with serviceOpen := false }))
  else .next s

/-! ### Tenants (R459 to R461) -/

/-- The state with one tenant slot changed. -/
def State.updTenant (s : State) (n : TenId) (f : TenantSlot → TenantSlot) : State := s.updSec (fun x => { x with tenants := upd x.tenants n f })

/-- TENANT_ENROLL (Table 17.4): a pending key and its challenge. -/
def execTenantEnroll (n : Nat) (key : BitVec 512) (s : State) : Host.Outcome State Fault Refusal :=
  .next (s.roleOnly 0x20 isSite (fun s =>
    match tenOf n with
    | none => (s, .st .badArg)
    | some t =>
      if (s.sec.tenants[t]).state ≠ .empty then (s, .st .resourceBusy)
      else
        let (i, s1) := s.draw
        let ch : BitVec 256 := (Config.freeValue i).extractLsb' 0 256
        (s1.updTenant t (fun _ => ⟨.enrolling, key, ch, s.time.mono⟩), ⟨.ok, 0, [ch.extractLsb' 128 128, ch.extractLsb' 0 128]⟩)))

/-- The 32 bytes of a tenant's row. -/
def State.rowBytes (s : State) (n : TenId) : List Byte := (List.range 8).flatMap (fun k => wordBytes (s.reg (rowKey n + 4 * k)))

/-- The record of a tenant's key and row written (Table 18.3); whether it was. -/
def State.journalTenant (s : State) (n : TenId) : State × Bool :=
  s.journal 0x41 (n.val + 1) false (0x21 + n.val) (bytesBE 64 (s.sec.tenants[n]).key.toNat ++ s.rowBytes n)

/-- The key notice of R461: the cloche takes its copy of a tenant key, or loses it. -/
def State.keyNotice (s : State) (n : TenId) (key : Option (BitVec 512)) : State :=
  if s.fuse.variant.cloche then s.updSmc (fun x => { x with tenantKeys := x.tenantKeys.set n key }) else s

/-- TENANT_PROVE (Table 17.4): a proof that verifies enrols the tenant; one that fails erases the pending key. -/
def execTenantProve (n : Nat) (sig : BitVec 512) (s : State) : Host.Outcome State Fault Refusal :=
  .next (s.roleOnly 0x21 isSite (fun s =>
    match tenOf n with
    | none => (s, .st .badArg)
    | some t =>
      let x := s.sec.tenants[t]
      if x.state ≠ .enrolling then (s, .st .notReady)
      else if Config.ecdsaVerify x.key (Config.sha256 (bytesBE 32 x.challenge.toNat ++ s.serialBytes ++ bytesBE 1 n)) sig then
        let (s1, ok) := s.journalTenant t
        if !ok then (s1, .st .noSpace)
        else (((s1.updTenant t (fun y => { y with state := .enrolled, challenge := 0, at_ := 0 })).keyNotice t (some x.key)).raise pgSec evSecTenantEnrolled, .st .ok)
      else (s.updTenant t (fun _ => TenantSlot.fresh), .st .accessDenied)))

/-- ENROLL_TIMEOUT (R379, R459): 60 s without a proof erase the pending key; a proof that is visible wins, and the race is counted. -/
def execEnrollTimeout (n : TenId) (seen : Bool) (s : State) : Host.Outcome State Fault Refusal :=
  if (s.sec.tenants[n]).state = .enrolling ∧ s.rootRanOut (s.sec.tenants[n]).at_ (60 * secTicks) then
    if seen then .next (s.race pgSec) else .next (s.updTenant n (fun _ => TenantSlot.fresh))
  else .next s

/-- Whether the cloche holds a measurement point or an uncollected record of a tenant (R317, R460). -/
def State.clocheHolds (s : State) (n : TenId) : Bool :=
  s.smc.points.toList.any (fun p => decide (p.state ≠ .free) && decide (p.owner = 0x21 + n.val)) || s.smc.log.any (fun r => decide (r.owner = n.val + 1))

/-- A commit made by the part itself: words that take effect at the page's next boundary (R460). -/
def State.captureWords (s : State) (page role : Nat) (ws : List (Nat × Word)) : State :=
  { s with captured := s.captured ++ [⟨page, role, s.time.grid, commitDue s.time (kindCode page), ws⟩] }

/-- A slice disabled at its slice-block boundary. -/
def State.disableSlice (s : State) (i : Slc) : State :=
  if s.flag (pgSlc i) pgEn ∨ (s.slices[i]).move = .claimHost then
    (s.captureWords (pgSlc i) 0 [(keyOf (pgSlc i) pgEn, 0)]).updSlc i (fun x => if x.use = .host then { x with move := .release } else x)
  else s

/-- A bed disabled at its boundary. -/
def State.disableBed (s : State) (k : BedId) : State :=
  if s.flag (pgBed k) pgEn ∨ (s.beds[k]).claim then s.captureWords (pgBed k) 0 [(keyOf (pgBed k) pgEn, 0)] else s

/-- An audio output disabled at a port frame, or at once while none runs. -/
def State.disableOut (s : State) (role : Nat) (o : OutId) : State :=
  if s.outEn o then
    let key := keyOf pgAud (audEn.nth o.val)
    let ws := [(key, withField (s.reg key) (audEn.nth o.val).hi (audEn.nth o.val).lo 0)]
    if s.audFrames then s.captureWords pgAud role ws else s.audApply ws
  else s

/-- A decoder released and its EN cleared. -/
def State.disableDec (s : State) (d : DecId) : State :=
  if (s.decs[d]).state = .idle then s else (s.decRelease d).put pgDec (decEn.nth d.val) 0

/-- A service slot off and its EN cleared. -/
def State.disableSlot (s : State) (v : SvcId) : State :=
  if (s.slots[v]).state = .off then s else (s.slotOff v).put (pgSvc v) pgEn 0

/-- What a tenant holds given up (R460): streams, bundles and captures at once; slots, decoders, outputs, slices and beds at their boundaries. -/
def State.dropHoldings (s : State) (code : Nat) : State :=
  let s1 := (List.finRange 512).foldl (fun s i => if (s.strms[i]).owner = code then s.freeStream i else s) s
  let s2 := (List.finRange 64).foldl (fun s b => if (s.bunds[b]).owner = code then (s.updBund b (fun _ => Bund.fresh)).clearRegs (pgBundle b) 0x060 0x074 else s) s1
  let s3 := (List.finRange 4).foldl (fun s c => if (s.snaps[c]).state ≠ .idle ∧ (s.snaps[c]).owner = code then s.snapIdle c false else s) s2
  let s4 := (List.finRange 32).foldl (fun s v => if s.svcOwner v = code then s.disableSlot v else s) s3
  let s5 := (List.finRange 24).foldl (fun s d => if s.decPartition d = code then s.disableDec d else s) s4
  let s6 := (List.finRange 4).foldl (fun s o => if s.outOwner o = code then s.disableOut code o else s) s5
  let s7 := (List.finRange 12).foldl (fun s k => if s.bedOwner k = code then s.disableBed k else s) s6
  (List.finRange 96).foldl (fun s i => if s.sliceOwner i = code then s.disableSlice i else s) s7

/-- The stored AF buckets brought to what the database holds now (R482): a bucket that has emptied gets a DELETE record. -/
def State.afRewrite (s : State) : State :=
  (List.range 256).foldl (fun s b =>
    let ids := s.afBucket b
    let data := ids.flatMap afBytes ++ List.replicate (96 * (16 - ids.length)) 0
    match s.stored 0x20 b with
    | none => s
    | some old =>
      if ids = [] then (s.journal 0x20 b true 0x10 []).1
      else if old = data then s
      else (s.journal 0x20 b false 0x10 data).1) s

/-- The AF entries of some owners erased. -/
def State.afErase (s : State) (p : Nat → Bool) : State :=
  { s with afdb := s.afdb.filter (fun x => !p x.owner), afNext := s.afNext.filter (fun x => !p x.owner), survey := s.survey.filter (fun x => !p x.owner) }.afRewrite

/-- A tenant's sessions with both endpoints and its pending opens end. -/
def State.endTenant (s : State) (n : TenId) : State :=
  let k : KeySlot := ⟨n.val + 1, by omega⟩
  (((s.endSession false k).endSession true k).setPending false k none).setPending true k none

/-- A tenant's row back at T0. -/
def State.clearRow (s : State) (n : TenId) : State := s.clearRegs pgSec (0x080 + 0x20 * n.val) (0x09F + 0x20 * n.val)

/-- TENANT_REVOKE (R460, R461). -/
def execTenantRevoke (n : Nat) (s : State) : Host.Outcome State Fault Refusal :=
  .next (s.roleOnly 0x22 isSite (fun s =>
    match tenOf n with
    | none => (s, .st .badArg)
    | some t =>
      if (s.sec.tenants[t]).state ≠ .enrolled then (s, .st .notReady)
      else if s.clocheHolds t then (s, .st .resourceBusy)
      else
        let code := 0x21 + t.val
        let s1 := ((s.endTenant t).dropHoldings code).afErase (fun o => o = code)
        let s2 := (s1.journal 0x41 (t.val + 1) true code []).1
        let s3 := { s2.updTenant t (fun _ => TenantSlot.fresh) with skeys := upd s2.skeys t (fun _ => ⟨none, none, none, 0, 0, 0⟩) }
        (((s3.clearRow t).keyNotice t none).raise pgSec evSecTenantRevoked, .st .ok)))

/-- SITE_RELEASE (Table 17.4): the site key erased once every tenant slot is EMPTY; Site sessions end after the answer. -/
def execSiteRelease (s : State) : Host.Outcome State Fault Refusal :=
  .next (s.serve 0 [0x23] (fun c s =>
    if c.role ≠ .site then (s, some (.st .accessDenied))
    else if s.sec.siteKey.isNone then (s, some (.st .notReady))
    else if s.sec.tenants.toList.any (fun t => decide (t.state ≠ .empty)) then (s, some (.st .resourceBusy))
    else
      let s1 := (s.journal 0x40 0 true 0x10 []).1
      let s2 := ((s1.answer c 0 (.st .ok)).endSession false 0).setPending false 0 none
      ((s2.updSec (fun x => { x with siteKey := none })).raise pgSec evSecSiteReleased, none)))

/-! ### Vendor service and debug (R473 to R475) -/

/-- VENDOR_PROFILE (R286, R474): the whole regulatory profile replaced; it may loosen. Without the sounding link it is ABSENT_UNIT to every role (R6, R7). -/
def execVendorProfile (words : List Word) (s : State) : Host.Outcome State Fault Refusal :=
  .next (s.serve 0 [0x30] (fun c s =>
    if !s.fuse.variant.sounding then (s, some (.st .absentUnit))
    else if c.role ≠ .vendor then (s, some (.st .accessDenied))
    else
      let keyed := words.mapIdx (fun i w => (profileLo + 4 * i, w))
      if words.length ≠ 34 ∨ !keyed.all (fun (x : Nat × Word) => wordInRange x.1 x.2) then (s, some (.st .badArg))
      else
        let s1 := keyed.foldl (fun s (x : Nat × Word) => s.setReg x.1 (merge (resetOf x.1) x.2 (rsMask x.1))) s
        let (s2, ok) := s1.journal 0x30 0 false 0x10 s1.profileBytes
        if ok then (s2.raise pgSnd evSndProfileChanged, some (.st .ok)) else (s.count pgLoam loamNospaceCnt 1, some (.st .noSpace))))

/-- Every session ends but the Vendor's with the part, and every pending open is dropped. -/
def State.endOthers (s : State) : State :=
  let s1 := (s.endSessions false [0, 1, 2, 3, 4]).endSessions true (List.finRange 8)
  s1.updSec (fun x => { x with pend := Vector.replicate 8 none, cpend := Vector.replicate 8 none })

/-- The records that VENDOR_ERASE deletes: site and tenant keys, configuration profiles, resume profile. -/
def erasedRecords : List (Nat × Nat) := (0x40, 0) :: ((List.range 4).map (fun n => (0x41, n + 1)) ++ (List.range 16).map (fun n => (0x10, n)) ++ [(0x11, 0)])

/-- VENDOR_ERASE (R474). -/
def execVendorErase (s : State) : Host.Outcome State Fault Refusal :=
  .next (s.roleOnly 0x31 isVendor (fun s =>
    if allTenants.any (fun n => s.clocheHolds n) then (s, .st .resourceBusy)
    else
      let s1 := erasedRecords.foldl (fun s r => if (s.stored r.1 r.2).isSome then (s.journal r.1 r.2 true 0x10 []).1 else s) s
      let s2 := (s1.afErase tenantOwned).endOthers
      let s3 := allTenants.foldl (fun s n => s.clearRow n) s2
      ((s3.updSec (fun x => { x with siteKey := none, tenants := Vector.replicate 4 TenantSlot.fresh })).raise pgSec evSecSiteReleased, .st .ok)))

/-- DEBUG_UNLOCK (R475): debug opened on an unclaimed part with no tenant; the claim window closes until reset, DEBUG_CNT counts, DEBUG_UNLOCKED is logged. -/
def execDebugUnlock (s : State) : Host.Outcome State Fault Refusal :=
  .next (s.roleOnly 0x32 isVendor (fun s =>
    if s.sec.siteKey.isSome ∨ s.sec.tenants.toList.any (fun t => decide (t.state ≠ .empty)) then (s, .st .notReady)
    else
      let s1 := s.count pgSec secDebugCnt 1
      let s2 := (s1.journal 0x51 0 false 0x10 (bytesBE 4 (s1.get pgSec secDebugCnt))).1
      let s3 := if s.sec.claimOpen then s2.raise pgTwb evTwbClaimClosed else s2
      let s4 := s3.updSec (fun x => { x with debugOpen := true, claimOpen := false, claimBlocked := true })
      ((s4.raise pgSec evSecDebugUnlocked).logFinding (eventWord pgSec evSecDebugUnlocked false) pgSec 0 1 0, .st .ok)))

/-! ### The rows of the SEC page (R455 to R458) -/

/-- The staged word of a tenant's row. -/
def State.rowStaged (s : State) (n : TenId) (off : Nat) : Nat := (s.stg 0 (rowKey n + off)).toNat

/-- Whether a register of the staged rows puts one resource in two rows. -/
def State.rowsClash (s : State) (off mask : Nat) : Bool :=
  allTenants.any (fun a => allTenants.any (fun b => decide (a.val < b.val) && !(s.rowStaged a off &&& s.rowStaged b off &&& mask == 0)))

/-- The partition that the staged rows would give a resource. -/
def State.stagedPartition (s : State) (off : Nat) (b : Nat) : Nat :=
  partitionOf (fun n => match tenOf (n + 1) with
    | some t => bitAt (s.rowStaged t off) b
    | none => false)

/-- The sum of a staged field over the rows. -/
def State.rowSum (s : State) (f : Fld) : Nat := allTenants.foldl (fun n t => n + s.stgGet 0 pgSec (f.nth t.val)) 0

/-- The share of alignment memory that the staged rows would give a holder. -/
def State.stagedShare (s : State) (owner : Nat) : Nat :=
  if tenantOwned owner then s.stgGet 0 pgSec (secAlnShare.nth (owner - 0x21)) else 16777216 - s.rowSum secAlnShare

/-- Whether the staged rows move a resource that is in use (R457). -/
def State.rowsBusy (s : State) : Bool :=
  (List.finRange 96).any (fun (i : Slc) => decide ((s.slices[i]).use ≠ .idle) && decide (s.stagedPartition (4 * (i.val / 32)) (i.val % 32) ≠ s.sliceOwner i))
  || (List.finRange 24).any (fun (d : DecId) => decide ((s.decs[d]).state ≠ .idle) && decide (s.stagedPartition 0x0C d.val ≠ s.decPartition d))
  || (List.finRange 32).any (fun (v : SvcId) => decide ((s.slots[v]).state ≠ .off) && decide (s.stagedPartition 0x10 v.val ≠ s.svcOwner v))
  || (List.finRange 9).any (fun (q : SQueue) => s.queueUsed q && decide (s.stagedPartition 0x14 q.val ≠ s.queueOwner q))
  || (List.finRange 4).any (fun (o : OutId) => s.outEn o && decide (s.stagedPartition 0x14 (16 + o.val) ≠ s.outOwner o))

/-- The owner codes that hold resources: Site and the tenants. -/
def holders : List Nat := [0x10, 0x21, 0x22, 0x23, 0x24]

/-- Whether the staged rows lower a share below what its holder has reserved and holds (R457). -/
def State.sharesBusy (s : State) : Bool :=
  holders.any (fun o => decide (s.stagedShare o < s.alnShareOf o) && decide (s.stagedShare o < s.alnRsv o + s.snapHeld o))

/-- The status of a commit of the SEC page (R457, R477). -/
def State.secStatus (s : State) : Status :=
  if !s.stagedInRange pgSec 0 then .badArg
  else if [(0x00, 0xFFFFFFFF), (0x04, 0xFFFFFFFF), (0x08, 0xFFFFFFFF), (0x0C, 0xFFFFFF), (0x10, 0xFFFFFFFF), (0x14, 0xF01FF)].any (fun x => s.rowsClash x.1 x.2) then .badArg
  else if 16777216 < s.rowSum secAlnShare ∨ 512 < s.rowSum secStrmMax ∨ 4096 < s.rowSum secAfQuota then .badArg
  else if s.rowsBusy ∨ s.sharesBusy then .resourceBusy
  else .ok

/-- The identity of an owner that leaves first: as `afVictim`, else the oldest of all (R458). -/
def State.afLeaves (s : State) (owner : Nat) : Option AfIdentity :=
  match s.afVictim owner with
  | some x => some x
  | none => (s.afdb.filter (fun x => x.owner = owner)).foldl (fun o x => match o with
      | some y => if x.seenAt < y.seenAt then some x else some y
      | none => some x) none

/-- An owner's identities beyond its quota removed (R458). -/
def State.afTrim (s : State) (owner : Nat) : Nat → State
  | 0 => s
  | n + 1 =>
    if s.afQuota owner < (s.afdb.filter (fun x => x.owner = owner)).length then
      match s.afLeaves owner with
      | some x => ({ s with afdb := s.afdb.filter (fun y => !decide (y = x)) } : State).afTrim owner n
      | none => s
    else s

/-- A commit of the SEC page takes effect: rows in force and on the Loam store, quotas trimmed (R457, R458, Table 18.3). -/
def State.secApply (s : State) : State :=
  let s1 := s.applyStaged pgSec 0
  let s2 := allTenants.foldl (fun t n => if (s.sec.tenants[n]).state = .enrolled ∧ s1.rowBytes n ≠ s.rowBytes n then (t.journalTenant n).1 else t) s1
  let s3 := holders.foldl (fun t o => t.afTrim o s.afdb.length) s2
  if s3.afdb = s2.afdb then s3 else s3.afRewrite

end Sys2Proof.Machine
end

