-- ==== Sys2Proof/Machine/Queues.lean ====
section
/-! DEFINITION. Commands on their way in and events on their way out: arrival on Q0 to Q2 (R341), the bus mailbox (R387), event packets (R376), the end of boot (R519). -/

namespace Sys2Proof.Machine

/-- The state with the queues changed. -/
def State.updQ (s : State) (f : Queues → Queues) : State := { s with q := f s.q }

/-- The state with the two-wire block changed. -/
def State.updTwb (s : State) (f : Twb → Twb) : State := { s with twb := f s.twb }

/-! ### Arrival (R341) -/

/-- The TAGs accepted on a queue that still count for the duplicate rule: the last 64, 10 ms at most. -/
def State.recentTags (s : State) (q : CQueue) : List TagSeen :=
  (s.q.seen[q]).filter (fun t => decide (s.time.mono ≤ t.at_ + 10 * msTicks))

/-- A command discarded at a full queue: answered NOT_READY with its TAG, counted, CMD_DROP at most once per 10 ms. -/
def State.dropCommand (s : State) (q : CQueue) (w : Waiting) : State :=
  let s1 := (s.post q w none (.st .notReady)).count pgLnk lnkCmdDrop 1
  if s1.eventDue s.q.dropAt then (s1.raise pgLnk evLnkCmdDrop).updQ (fun x => { x with dropAt := some s.time.mono }) else s1

/-- A command accepted on a queue, remembered for the duplicate rule. -/
def State.acceptCommand (s : State) (q : CQueue) (w : Waiting) : State :=
  let seen := (⟨w.head.tag, s.time.mono⟩ :: s.recentTags q).take 64
  (s.updQ (fun x => { x with cmd := upd x.cmd q (fun l => l ++ [w]), seen := x.seen.set q seen })).flushForeign q 32

/-- A command packet arrives on a queue: a duplicate TAG is discarded, a full queue answers NOT_READY, else it waits (R341). -/
def State.arriveCommand (s : State) (q : CQueue) (w : Waiting) : State :=
  if (s.recentTags q).any (fun t => t.tag = w.head.tag) then s
  else if 32 ≤ (s.q.cmd[q]).length then s.dropCommand q w
  else s.acceptCommand q w

/-- COMMAND_ARRIVAL (R341): a command packet from the ring; the ring reaches the part in RUN and IDLE once boot is complete (R520, Table 12.6). -/
def execCommandArrival (q : CQueue) (h : CmdHead) (s : State) : Host.Outcome State Fault Refusal :=
  if s.boot = .complete ∧ s.pwr.rung ≤ 1 then .next (s.arriveCommand q ⟨h, false⟩) else .next s

/-! ### The bus mailbox (R387) -/

/-- C0, and S0 where AUTH is 1, of a packet given in 128-bit words (Tables 12.5, 17.7). -/
def headOf (l : List Quad) (tagOk : Bool) : CmdHead :=
  let at_ := fun (w : Quad) (hi lo : Nat) => w.toNat / 2 ^ lo % 2 ^ (hi + 1 - lo)
  let c0 := l.headD 0
  let s0 := (l.drop 1).headD 0
  { op := at_ c0 127 120, len := at_ c0 119 110, tag := at_ c0 109 94, tenant := at_ c0 93 91, argZero := decide (at_ c0 63 0 = 0),
    auth := if at_ c0 90 90 = 1 then some ⟨BitVec.ofNat 16 (at_ s0 127 112), at_ s0 111 48, tagOk⟩ else none }

/-- The queue that TWB_MBOX_CTL.QUEUE selects. -/
def State.mboxQueue (s : State) : CQueue := if s.get pgTwb twbQueue = 1 then 1 else if s.get pgTwb twbQueue = 2 then 2 else 0

/-- A word written to TWB_MBOX_IN; a packet of C0.LEN + 1 words is complete and arrives on the selected queue (R387). With both firmware slots failed only the commands of R471 are taken. -/
def State.mboxIn (s : State) (w : Word) (tagOk : Bool) : State :=
  let ws := s.twb.inWords ++ [w]
  let l := quadsOf ws
  let h := headOf l tagOk
  if 4 ≤ ws.length ∧ ws.length = 4 * (h.len + 1) then
    let s1 := s.updTwb (fun x => { x with inWords := [] })
    if s1.servesOp h.op then s1.arriveCommand s1.mboxQueue ⟨h, true⟩ else s1
  else s.updTwb (fun x => { x with inWords := ws })

/-- A read of TWB_MBOX_OUT takes its first word (R387). -/
def State.mboxOut (s : State) : State := s.updTwb (fun x => { x with out := x.out.tail })

/-! ### Events (R376, R466, R468) -/

/-- The session under which events go to an owner: the Site's or a tenant's with the part, a Verifier's with the cloche. -/
def State.eventSession (s : State) (owner : Nat) : Option (Bool × KeySlot) :=
  if owner = 0x10 then (if (s.sec.sess[0]).isSome then some (false, 0) else none)
  else if h : 0x21 ≤ owner ∧ owner ≤ 0x24 then (if (s.sec.sess[owner - 0x20]'(by omega)).isSome then some (false, ⟨owner - 0x20, by omega⟩) else none)
  else if owner = 0x30 then (([5, 6, 7] : List KeySlot).find? (fun k => (s.sec.csess[k]).isSome)).map (fun k => (true, k))
  else none

/-- The next counter of a session taken for a packet: what the packet is sent under (R467). -/
def State.takeCtr (s : State) (x : Option (Bool × KeySlot)) : Option Under × State :=
  match x with
  | some (cl, k) => match (s.sessions cl)[k] with
    | some y => (some ⟨y.id, y.ctrOut + 1, y.keys⟩, s.setSession cl k (some { y with ctrOut := y.ctrOut + 1 }))
    | none => (none, s)
  | none => (none, s)

/-- The event words that one E0 packet carries: 4,088, or under a session, whose words LEN counts too, as many as leave LEN at 1,022 (R340, R466). DEDUCED (log 37). -/
def eventRoom (sess : Option (Bool × KeySlot)) : Nat := if sess.isSome then 4076 else 4088

/-- EVENT_PACKET_SEND (R376): the words gathered for an owner leave as one E0 packet; without room on Q5 they are not sent, and the next word of each of their pages carries LOST. -/
def execEventPacketSend (owner : Nat) (room : Bool) (s : State) : Host.Outcome State Fault Refusal :=
  let mine := s.q.gather.filter (fun e => e.to_ = owner)
  match mine with
  | [] => .next s
  | e :: _ =>
    if room then
      let n := eventRoom (s.eventSession owner)
      let now := mine.take n
      let later := mine.drop n
      let (sess, s1) := s.takeCtr (s.eventSession owner)
      .next (s1.updQ (fun x => { x with gather := x.gather.filter (fun e => !(e.to_ = owner)) ++ later, q5 := x.q5 ++ [⟨owner, now.map (·.word), e.at_, sess⟩] }))
    else
      let pages := (mine.map (·.page)).filter (fun p => !s.q.lostPages.contains p)
      .next (s.updQ (fun x => { x with gather := x.gather.filter (fun e => !(e.to_ = owner)), lostPages := x.lostPages ++ pages.eraseDups }))

/-! ### The end of boot (R519, R520) -/

/-- BOOT_COMPLETE (R397, R519, Table 20.1, step 3 and 4): the PMBus slots probed with the VOUT_MODE each read, the VMIN setpoint written to slot 0 and confirmed where slot 0 answers; then the register file opens. The cloche has come up by then. -/
def execBootComplete (modes : Vector (Option (BitVec 8)) 4) (s : State) : Host.Outcome State Fault Refusal :=
  if s.boot = .booting then
    let s1 := (List.finRange 4).foldl (fun s k => s.pmbProbe k modes[k]) s
    let s2 := s1.writeSetpoint (s1.get pgPwr pwrVmin)
    let s3 := s2.updPwr (fun p => { p with confirmed := (s2.pmb[0]).present, unconfWarn := false, entry := p.setpoint })
    let s4 := if s3.smcWorks then s3.closeAtCheckpoints.pointsWait.smcLate else s3
    .next { s4 with boot := .complete }
  else .next s

end Sys2Proof.Machine
end

