-- ==== Sys2Proof/Machine/Firmware.lean ====
section
/-! DEFINITION. The firmware bank (R471, R492, R493) and the MRAM scrubber (R490). -/

namespace Sys2Proof.Machine

/-- The state with one firmware slot changed. -/
def State.updFw (s : State) (k : Fin 2) (f : FwSlot → FwSlot) : State := { s with loam := { s.loam with slots := upd s.loam.slots k f } }

/-- A firmware-bank command: from Site on Q0, or without a session where both slots have failed (R492). -/
def State.bankCommand (s : State) (op : Nat) (act : Caller → State → State × Reply) : State :=
  s.serve 0 [op] (fun c s =>
    if c.role = .site ∨ s.boot = .bankOnly then ((act c s).1, some (act c s).2) else (s, some (.st .accessDenied)))

/-- A firmware slot named by a number. -/
def fwOf (n : Nat) : Option (Fin 2) := if h : n < 2 then some ⟨n, h⟩ else none

/-- Whether a slot is the active one; none is where both have failed. -/
def State.fwActive (s : State) (k : Fin 2) : Bool := decide (s.boot = .complete) && decide (s.loam.active = k)

/-- FW_OPEN (Table 18.5). -/
def execFwOpen (slot : Nat) (s : State) : Host.Outcome State Fault Refusal :=
  .next (s.bankCommand 0x40 (fun _ s =>
    match fwOf slot with
    | none => (s, .st .badArg)
    | some k =>
      if s.fwActive k then (s, .st .notReady)
      else if s.loam.slots.toList.any (fun x => decide (x.state = .writing)) then (s, .st .resourceBusy)
      else (s.updFw k (fun _ => ⟨.writing, 0, 0, []⟩), .st .ok)))

/-- The canonical form of a firmware slot's words: indexes strictly rising, no word equal to 0, which an unlisted word reads as (log 7). -/
def fwWf (l : List (Nat × Quad)) : Bool := l.all (fun x => !(x.2 == 0)) && decide (l.Pairwise (fun a b => a.1 < b.1))

/-- A 128-bit word put into a list of words by index, rising. -/
def insertFw : List (Nat × Quad) → Nat → Quad → List (Nat × Quad)
  | [], i, w => [(i, w)]
  | (k, x) :: l, i, w => if i < k then (i, w) :: (k, x) :: l else if i = k then (i, w) :: l else (k, x) :: insertFw l i w

/-- A word of a firmware slot written, keeping the canonical form. -/
def putFw (l : List (Nat × Quad)) (i : Nat) (w : Quad) : List (Nat × Quad) :=
  if w = 0 then l.filter (fun x => !(x.1 == i)) else insertFw l i w

/-- Consecutive words of a slot written. -/
def FwSlot.write (x : FwSlot) (first : Nat) (data : List Quad) : FwSlot :=
  { x with words := (data.mapIdx (fun i w => (first + i, w))).foldl (fun l (p : Nat × Quad) => putFw l p.1 p.2) x.words }

/-- FW_WRITE (Table 18.5): image bytes into the slot that is WRITING; the data words are those that LEN counts. -/
def execFwWrite (off : Nat) (data : List Quad) (s : State) : Host.Outcome State Fault Refusal :=
  .next (s.bankCommand 0x41 (fun c s =>
    match (List.finRange 2).find? (fun k => decide ((s.loam.slots[k]).state = .writing)) with
    | none => (s, .st .notReady)
    | some k =>
      if off % 16 ≠ 0 ∨ data.length ≠ clearLen c.w.head ∨ 1048576 < off + 16 * data.length then (s, .st .badArg)
      else (s.updFw k (fun x => x.write (off / 16) data), .st .ok)))

/-- Whether a slot passes the tests of R471 now, with its VERSION and SVN. -/
def State.fwCheck (s : State) (x : FwSlot) : Option (Nat × Nat) :=
  if x.words = [] then (if x.state = .valid ∧ s.sec.svnMin ≤ x.svn then some (x.version, x.svn) else none)
  else
    let image := x.content
    if imageOk s.fuse.fwKeyHash 0 s.sec.svnMin image then some (imageNat image 8 4, imageNat image 6 2) else none

/-- FW_CHECK (R471, Table 18.5): the slot becomes VALID with FW_SLOT_VALID, or BAD. -/
def execFwCheck (slot : Nat) (s : State) : Host.Outcome State Fault Refusal :=
  .next (s.bankCommand 0x42 (fun _ s =>
    match fwOf slot with
    | none => (s, .st .badArg)
    | some k =>
      match s.fwCheck s.loam.slots[k] with
      | some (version, svn) =>
        ((s.updFw k (fun x => { x with state := .valid, version := version, svn := svn })).raise pgLoam evLoamFwSlotValid, ⟨.ok, BitVec.ofNat 32 version, []⟩)
      | none => (s.updFw k (fun x => { x with state := .bad }), .st .badArg)))

/-- FW_SWITCH (Table 18.5): the slot select record committed; with RESTART a reset follows. -/
def execFwSwitch (arg : Nat) (s : State) : Host.Outcome State Fault Refusal :=
  .next (s.bankCommand 0x43 (fun _ s =>
    match (if arg < 512 then fwOf (arg % 256) else none) with
    | none => (s, .st .badArg)
    | some k =>
      if (s.loam.slots[k]).state ≠ .valid then (s, .st .notReady)
      else
        let (s1, ok) := s.journal 0x52 0 false 0x10 (bytesBE 4 k.val)
        if ok then ({ s1 with loam := { s1.loam with restart := s1.loam.restart || decide (256 ≤ arg), restartAt := if 256 ≤ arg ∧ !s1.loam.restart then s1.time.mono else s1.loam.restartAt } }, .st .ok) else (s1, .st .noSpace)))

/-- FW_SWITCH_RESTART (Table 18.5): 10 ms after the answer to an FW_SWITCH with RESTART the part resets. -/
def execFwSwitchRestart (s : State) : Host.Outcome State Fault Refusal := if s.loam.restart ∧ s.ranOut s.loam.restartAt (10 * msTicks) then .next s.resetPart else .next s

/-! ### MRAM ECC (R490) -/

/-- The record of the general journal that holds a granule treated as torn: counted, TORN_FOUND (R485, R490). -/
def State.tearRecord (s : State) (gran : Nat) : State :=
  let hit := fun (r : JRec) => !r.torn && decide (r.seg = gran / 512) && decide (r.off ≤ gran % 512) && decide (gran % 512 < r.off + r.gran)
  if s.loam.recs.any hit then
    let s1 := { s with loam := { s.loam with recs := s.loam.recs.map (fun r => if hit r then { r with torn := true } else r) } }
    (s1.count pgLoam loamTornCnt 1).finding pgLoam 2 pgLoam evLoamTornFound 0x10 1 0
  else s

/-- The anchor in force lost: the one before it is used, which names the segment before as the tail (R486, R490). -/
def State.loseAnchor (s : State) (gran : Nat) : State :=
  let l := s.loam
  if gran % 512 = l.anchorGen % 512 then
    { s with loam := { l with anchorGen := l.anchorGen - 1, tail := if l.segUsed < 46 then (l.tail + 45) % 46 else l.tail } }
  else s

/-- What an uncorrectable MRAM word does where it lies: regions 1 anchors, 2 general journal, 5 and 6 firmware slots A and B, in the order of Table 18.1; `addr` counts words of 64 bits. -/
def State.mramLost (s : State) (region addr : Nat) : State :=
  match region with
  | 1 => s.loseAnchor (addr / 4)
  | 2 => s.tearRecord (addr / 4)
  | 5 => s.updFw 0 (fun x => { x with state := .bad })
  | 6 => s.updFw 1 (fun x => { x with state := .bad })
  | _ => s

/-- MRAM_SCRUB (R490, Table 19.1): a word read by the scrubber: clean (0), corrected and rewritten (1), or uncorrectable. -/
def execMramScrub (region addr : Nat) (bad : Nat) (s : State) : Host.Outcome State Fault Refusal :=
  if s.boot = .complete then
    let (src, s1) := s.evaluate pgLoam 1 (decide (2 ≤ bad))
    let s2 := if bad = 1 then s1.count pgLoam loamEccCorr 1 else s1
    if src = 0 then .next s2
    else .next (((s2.count pgLoam loamEccUncorr 1).finding pgLoam 1 pgLoam evLoamEcc 0x10 src 0).mramLost region addr)
  else .next s

end Sys2Proof.Machine
end

