-- ==== Sys2Proof/Machine/Faults.lean ====
section
/-! DEFINITION. Memory scrubbing, the stall watchdog, the log tail, telemetry, temperatures and rails (R27, R28, R496 to R511), and the multi-function balls (R530). -/

namespace Sys2Proof.Machine

/-! ### SRAM errors (R27, R501, Table 19.1) -/

/-- DETAIL of an SRAM finding: the memory and the word address (Table 19.2). -/
def sramDetail (w : ScrubWord) : Word := place 31 28 w.mem ||| place 27 0 w.addr

/-- One evaluation of an SRAM detector; an injection acts only at a read of the memory that its row names. -/
def State.sramEvaluate (s : State) (det : Nat) (here real : Bool) : Nat × State := if here then s.evaluate pgFlt det real else (bit real, s)

/-- The event of an SRAM detector. -/
def sramEvent (det : Nat) : Ev := if det = 1 then evFltSramSec else if det = 5 then evFltSramDedCtl else evFltSramDed

/-- The n-th packet held by bundles leaves its bundle and is dropped (R501). -/
def State.loseHeld (s : State) (n : Nat) : State :=
  let all : List (BundId × Packet) := (List.finRange 64).flatMap (fun b => (s.bunds[b]).held.map (fun p => (b, p)))
  match all[n]? with
  | some (b, p) => (s.updBund b (fun x => { x with held := x.held.erase p })).dropPacket p.stream
  | none => s

/-- The words of packets, headers included. -/
def wordsOfPackets (l : List Packet) : Nat := l.foldl (fun n p => n + p.len + 1) 0

/-- The n-th packet in the stream queues leaves its queue and is dropped (R501). -/
def State.loseQueued (s : State) (n : Nat) : State :=
  let all : List (SQueue × Nat × Packet) := (List.finRange 9).flatMap (fun q => (s.squeues[q]).packets.mapIdx (fun j p => (q, j, p)))
  match all[n]? with
  | some (q, j, p) =>
    (s.updQueue q (fun x => { x with packets := x.packets.eraseIdx j, gone := x.gone - min (p.len + 1) (x.gone - wordsOfPackets (x.packets.take j)) })).dropPacket p.stream
  | none => s

/-- Two numbers between a and b on a line, at a third and at two thirds of the way. -/
def thirds (a b : Int) : Int × Int := (a + roundDiv (b - a) 3, a + roundDiv (2 * (b - a)) 3)

/-- Frames k and k + 1 of a run by linear interpolation between the frames either side; where one side has none, as the other (R501). -/
def interpolated (l : List (Int × Int)) (k : Nat) : List (Int × Int) :=
  let after := (l[k + 2]?).getD (if k = 0 then (0, 0) else (l[k - 1]?).getD (0, 0))
  let before := if k = 0 then after else (l[k - 1]?).getD after
  let x := thirds before.1 after.1
  let y := thirds before.2 after.2
  [(x.1, y.1), (x.2, y.2)]

/-- Frames a up to b of a clip. -/
def Clip.part (c : Clip) (a b : Nat) : List Clip := if a < b then [{ c with at_ := c.instant a, frames := (c.frames.take b).drop a }] else []

/-- A delay line whose frames k and k + 1, counted from the first that it holds, concealment has made anew (R501). -/
def repairLine (l : List Clip) (k : Nat) : List Clip :=
  let fs := interpolated (clipFrames l) k
  (l.foldl (fun (r : List Clip × Nat) c =>
    let n := c.frames.length
    let a := min n (k - r.2)
    let b := min n (k + 2 - r.2)
    let mid := (c.part a b).map (fun m => { m with frames := (fs.drop (r.2 + a - k)).take (b - a), conceal := true })
    (r.1 ++ c.part 0 a ++ mid ++ c.part b n, r.2 + n)) ([], 0)).1

/-- The 64-bit words of every delay line, two stereo frames of 16 bits each (R177). -/
def State.lineWords (s : State) : List (SvcId × CandId × Nat) :=
  (List.finRange 32).flatMap (fun v => (List.finRange 12).map (fun n => (v, n, (clipFrames ((s.slots[v]).cands[n]).line).length / 2)))

/-- The delay line that the n-th word of a list of them lies in, and its place there. -/
def wordIn : List (SvcId × CandId × Nat) → Nat → Option (SvcId × CandId × Nat)
  | [], _ => none
  | (v, n, k) :: l, i => if i < k then some (v, n, i) else wordIn l (i - k)

/-- The n-th word of the delay lines fails: its two frames are concealed (R501). -/
def State.loseFrames (s : State) (n : Nat) : State :=
  match wordIn s.lineWords n with
  | some (v, c, i) => s.updCand v c (fun x => { x with line := repairLine x.line (2 * i) })
  | none => s

/-- An uncorrectable word of data memory (R501): where it lay in a bundle's held packet or in a queue buffer, that packet is dropped; where it lay in a delay line its frames are concealed; elsewhere, and in a snapshot until its readout (R89), nothing follows. What lies at an address the manual does not say: a free value (log 9). -/
def State.sramLoss (s : State) (mem : Nat) : State :=
  let (k, s1) := s.draw
  let v := (Config.freeValue k).toNat
  if mem = 0 then
    let held := (s.bunds.toList.map (fun b => b.held.length)).sum
    let lines := (s.lineWords.map (·.2.2)).sum
    let n := v % (held + lines + 1)
    if n < held then s1.loseHeld n else s1.loseFrames (n - held)
  else s1.loseQueued (v % (((s.squeues.toList.map (fun q => q.packets.length)).sum) + 1))

/-- The consequence of an SRAM finding (Table 19.1): data lost, or with both control copies lost a reset that waits for its Loam copy. -/
def State.sramConsequence (s : State) (det : Nat) (w : ScrubWord) : State :=
  if det = 2 then s.sramLoss (if w.mem = 1 then 1 else 0)
  else if det = 5 then { s with log := { s.log with resetDue := true } }
  else s

/-- One SRAM detector at a read. -/
def State.sramDetect (s : State) (det : Nat) (here real : Bool) (w : ScrubWord) : State :=
  let (src, s1) := s.sramEvaluate det here real
  if src = 0 then s1 else (s1.finding pgFlt det pgFlt (sramEvent det) 0x10 src (sramDetail w)).sramConsequence det w

/-- SRAM_SCRUB (R27, R501): a word read by a scrubber; a corrected word is written back. Memories 0 alignment, 1 queues, 2 ensembles; 3 to 5 hold control data in two copies. -/
def execSramScrub (w : ScrubWord) (s : State) : Host.Outcome State Fault Refusal :=
  if s.boot = .complete then
    let control := decide (3 ≤ w.mem)
    let bad := decide (2 ≤ w.bad)
    let s1 := s.sramDetect 1 true (decide (w.bad = 1)) w
    let s2 := s1.sramDetect 2 (decide (w.mem = 0)) (bad && decide (w.mem ≤ 1)) w
    let s3 := s2.sramDetect 3 (decide (w.mem = 2)) (bad && decide (w.mem = 2)) w
    let s4 := s3.sramDetect 4 control (control && decide (w.bad = 2)) w
    .next (s4.sramDetect 5 control (control && decide (3 ≤ w.bad)) w)
  else .next s

/-! ### The stall watchdog (R497) -/

/-- Whether a unit that the watchdog watches runs. -/
def State.unitRuns (s : State) (page unit : Nat) : Bool :=
  match kindOfPage page with
  | some .slc => match slcOf (page - 0x040) with
    | some i => decide ((s.slices[i]).use ≠ .idle) && decide (unit = 0)
    | none => false
  | some .bed => match bedOf (page - 0x020) with
    | some k => decide ((s.beds[k]).state ≠ .off) && decide (unit = 0)
    | none => false
  | some .sieve => decide (unit < 4) && decide ((s.inputs[inpOf unit]).conv = .run)
  | some .dec => match decOf unit with
    | some d => decide ((s.decs[d]).state ≠ .idle)
    | none => false
  | some .strm => decide (page = pgStrm) && decide (unit = 0) && s.strms.toList.any (fun x => x.en)
  | _ => false

/-- A converter that a stall of its sieve takes through STARTING (Table 2.4). -/
def State.restartConv (s : State) (i : Inp) : State :=
  ((s.leaveRun i false).put (pgInp i) inpValid 0).updInp i (fun y => y.begin (s.startGain i) s.time.mono)

/-- A bed that stalls: SEARCH as from OFF; for one that was in SYNC or later, as on a loss of sync besides (R497). -/
def State.stallBed (s : State) (k : BedId) : State := (if 2 ≤ (s.beds[k]).state.code then s.bedFall k else s).bedSearch k

/-- What a stall does to its unit (R497). -/
def State.stallUnit (s : State) (page unit : Nat) : State :=
  match kindOfPage page with
  | some .slc => match slcOf (page - 0x040) with
    | some i => (s.slcSettle i).restartDemod i
    | none => s
  | some .bed => match bedOf (page - 0x020) with
    | some k => s.stallBed k
    | none => s
  | some .sieve => s.restartConv (inpOf unit)
  | some .dec => match decOf unit with
    | some d => s.updDec d (fun x => { x with state := .wait, mismatch := false, ca := false, found := 0, concealMs := 0, lastGood := [], repeats := 0, rampUp := false })
    | none => s
  | some .strm => { s with strms := s.strms.map (fun x => { x with mulchNext := x.mulchNext || x.en }) }
  | _ => s

/-- A stall found: STALL on the FLT page to Site, its entry, its consequence. -/
def State.stall (s : State) (page unit src : Nat) : State := (s.finding page (0x80 + unit) pgFlt evFltStall 0x10 src 0).stallUnit page unit

/-- STALL_WATCHDOG (R379, R497): a handshake stage of a unit that runs has held its data for 1 ms; progress visible at that instant wins, and the race is counted. -/
def execStallWatchdog (page : Nat) (unit : Nat) (stalled : Bool) (s : State) : Host.Outcome State Fault Refusal :=
  if s.unitRuns page unit then (if stalled then .next (s.stall page unit 1) else .next (s.race page)) else .next s

/-- The units of the stall watchdog: page and sub-unit (R497). -/
def stallUnits : List (Nat × Nat) :=
  (List.range 96).map (fun i => (0x040 + i, 0)) ++ (List.range 12).map (fun k => (0x020 + k, 0)) ++ (List.range 4).map (fun i => (pgSieve, i))
    ++ (List.range 24).map (fun d => (pgDec, d)) ++ [(pgStrm, 0)]

/-- The injections of the stall watchdog, which act at a slice-block boundary of a unit that runs (R499, Table 19.1). -/
def State.stallsInjected (s : State) : State :=
  stallUnits.foldl (fun s (x : Nat × Nat) =>
    if s.injected x.1 (0x80 + x.2) && s.unitRuns x.1 x.2 then (s.consumeInj x.1).stall x.1 x.2 2 else s) s

/-! ### The error log (R502 to R506) -/

/-- A FAULT or FATAL entry whose copy is due to be rewritten: REPEAT has grown, and 60 s have passed (R506). -/
def State.tailRewrite (s : State) : State :=
  match s.log.entries.find? (fun e => decide (2 ≤ sevOf e.event) && decide (0 < e.copied) && decide (e.copied < e.rep)
      && decide (e.copiedAt + 60 * secTicks ≤ s.time.mono)) with
  | some e => (s.copyEntry e).1
  | none => s

/-- Whether a copy that a reset waits for is still to be written: one of SRAM_DED_CTL. -/
def ErrLog.resetWaits (l : ErrLog) : Bool := l.waiting.any (fun e => e.det = 5 && decide (e.event = eventWord pgFlt evFltSramDedCtl false))

/-- LOG_TAIL_COPY (R498, R506): the oldest waiting copy written to the Loam store, else a copy rewritten whose REPEAT has grown. A reset for SRAM_DED_CTL follows its copy, or at once where the journal has no place for it. -/
def execLogTailCopy (s : State) : Host.Outcome State Fault Refusal :=
  if s.boot = .complete then
    let s1 := if s.log.waiting = [] then s.tailRewrite else s.copyWaiting
    if s1.log.resetDue ∧ (!s1.log.resetWaits ∨ s1.log.waiting = s.log.waiting) then .next s1.resetPart else .next s1
  else .next s

/-- Entries at or before a SEQ retired, in serial-number arithmetic (R505). -/
def State.ackLog (s : State) (seq : Nat) : State :=
  let l := { s.log with entries := s.log.entries.filter (fun e => !decide ((seq + 65536 - e.seq) % 65536 < 32768)) }
  { s with log := { l with fullRaised := l.fullRaised && decide (240 ≤ l.low) } }

/-! ### Telemetry (R28, R510, Table 19.4) -/

/-- The RTYPE of a telemetry record's first word. -/
def rtypeOf (w : Quad) : Nat := w.toNat / 2 ^ 120

/-- Six 16-bit values in bits 111:16, the first highest. -/
def sixOf (l : List Nat) : Nat := l.foldl (fun n v => n * 65536 + v % 65536) 0

/-- The records of quantities that TEL_REC enables. -/
def State.telValues (s : State) : List Quad :=
  let on := fun k => bitAt (s.get pgTel telRec) k
  let six := fun (f : Fld) => sixOf ((List.range 6).map (fun k => s.get pgTel (f.nth k)))
  let halved := maskOfBits 4 (fun i => (s.inputs[inpOf i]).half)
  (if on 0 then [quadPack [(127, 120, 0x50), (111, 16, six telTemp)]] else [])
    ++ (if on 1 then [quadPack [(127, 120, 0x51), (111, 16, six telRail)]] else [])
    ++ (if on 2 then [quadPack [(127, 120, 0x52), (111, 80, s.get pgPwr pwrSlack1), (79, 48, s.get pgPwr pwrSlack0), (31, 24, s.pwr.setpoint), (15, 12, halved)]] else [])
    ++ (if on 3 then [quadPack [(127, 120, 0x53), (63, 32, (s.readWord 0x10 (pgPort 0 * 0x400 + 0x04C)).toNat),
                       (31, 0, (s.readWord 0x10 (pgPort 1 * 0x400 + 0x04C)).toNat)]] else [])

/-- The record of a new log entry: its RTYPE word, then the entry's two words. -/
def entryRecord (e : LogEntry) : List Quad := quadPack [(127, 120, 0x54)] :: e.quads

/-- The records of the new log entries, each in the form it has now. -/
def State.telEntries (s : State) : List Quad :=
  s.temps.newEntries.flatMap (fun e => entryRecord ((s.log.entries.find? (fun x => x.seq = e.seq)).getD e))

/-- The unsent TELEMETRY packet of a stream in its queue: one of which no word has been placed in a frame. -/
def StrmQueue.unsent (x : StrmQueue) (i : StrmId) : Option Packet :=
  (x.packets.mapIdx (fun j p => (j, p))).findSome? (fun y => if y.2.stream = i ∧ x.gone ≤ wordsOfPackets (x.packets.take y.1) then some y.2 else none)

/-- The records among the words of a TELEMETRY payload; the number bounds them. -/
def telRecords : Nat → List Quad → List (List Quad)
  | 0, _ => []
  | _, [] => []
  | n + 1, w :: l => if rtypeOf w = 0x54 then (w :: l.take 2) :: telRecords n (l.drop 2) else [w] :: telRecords n l

/-- The RTYPE of a record. -/
def recType (r : List Quad) : Nat := rtypeOf (r.headD 0)

/-- Unsent records with those of a later period, in the order of Table 19.4: of each quantity the latest value alone, of log entries all; and how many values were discarded (R28, R510). -/
def telMerge (old new : List (List Quad)) : List (List Quad) × Nat :=
  let latest := fun k => if new.any (fun r => recType r = k) then new.filter (fun r => recType r = k) else old.filter (fun r => recType r = k)
  ([0x50, 0x51, 0x52, 0x53].flatMap latest ++ (old ++ new).filter (fun r => recType r = 0x54),
   (old.filter (fun r => decide (recType r ≠ 0x54) && new.any (fun x => recType x = recType r))).length)

/-- The first of some records that fit in a number of words, and the others. -/
def fitRecords : Nat → List (List Quad) → List (List Quad) × List (List Quad)
  | _, [] => ([], [])
  | cap, r :: l => if r.length ≤ cap then let x := fitRecords (cap - r.length) l
                                          (r :: x.1, x.2) else ([], r :: l)

/-- The records that a TELEMETRY stream still holds back. -/
def Temps.heldOf (t : Temps) (i : StrmId) : List Quad := ((t.held.find? (fun x => x.1 = i)).map (·.2)).getD []

/-- The records that a TELEMETRY stream holds back replaced. -/
def State.holdTel (s : State) (i : StrmId) (ws : List Quad) : State :=
  { s with temps := { s.temps with held := (if ws = [] then [] else [(i, ws)]) ++ s.temps.held.filter (fun x => x.1 ≠ i) } }

/-- The telemetry of a period on one stream (R28, R510): with what has not begun to leave it makes one packet, in which a newer value takes the place of an older one, which is counted; what finds no room is held back. -/
def State.telPacket (s : State) (i : StrmId) (words : List Quad) : State :=
  match queueOf (s.strmDef i).queue with
  | some q =>
    let old := (s.squeues[q]).unsent i
    let before := (match old with
      | some p => p.payload
      | none => []) ++ s.temps.heldOf i
    let m := telMerge (telRecords before.length before) (telRecords words.length words)
    let room := 16384 - (s.buffered q).words + (match old with
      | some p => p.len + 1
      | none => 0)
    let fit := fitRecords (min 1022 (room - 1)) m.1
    let ws := fit.1.flatten
    let s1 := (s.holdTel i fit.2.flatten).count pgTel telDiscardCnt m.2
    if ws = [] then s1
    else match old with
      | some p =>
        let stamp := if ws.head? = words.head? then s.time.mono else p.at_
        let renew := fun (y : Packet) => { y with payload := ws, len := ws.length, at_ := stamp, devtime := s.time.devAt stamp, holdover := y.holdover || s.condHoldover }
        s1.updQueue q (fun x => { x with packets := updFirst (fun y => decide (y = p)) renew x.packets })
      | none => s1.formPacket i ⟨s.time.mono, s.time.mono + 1, ws.length, false, ⟨false, s.condHoldover, false⟩, 0, ws⟩
  | none => s

/-- The eye margins of a port as its page shows them. -/
def State.showEyes (s : State) (p : Port) (e : EyeMeas) : State :=
  s.puts (pgPort p) [(prtEyeH0, min e.h0 255), (prtEyeV0, min e.v0 255), (prtEyeH1, min e.h1 255), (prtEyeV1, min e.v1 255)]

/-- TELEMETRY_PERIOD (R28, R510): the packet of a period on Site's TELEMETRY streams; the eye margins are measured again. -/
def execTelemetryPeriod (eyes : Vector EyeMeas 2) (s : State) : Host.Outcome State Fault Refusal :=
  if s.boot = .complete ∧ s.ranOut s.temps.telAt (s.get pgTel telPeriod * msTicks) then
    let s1 := (s.showEyes 0 eyes[0]).showEyes 1 eyes[1]
    let words := s1.telValues ++ s1.telEntries
    let s2 := (s1.streamsOf (fun d => d.kind = 9)).foldl (fun s i => s.telPacket i words) s1
    .next { s2 with temps := { s2.temps with telAt := s.time.mono, newEntries := [], held := s2.temps.held.filter (fun x => decide ((s2.strmDef x.1).kind = 9)) } }
  else .next s

/-! ### Temperatures and rails (R511) -/

/-- The six readings as their registers show them (Table 19.9). -/
def State.showTemps (s : State) (t : Vector Int 6) (hottest : Int) : State :=
  let s1 := (List.finRange 6).foldl (fun s k => (s.put pgTel (telTemp.nth k.val) (twos 16 t[k])).put pgTel (telValid.nth k.val) 1) s
  s1.put pgTel telMaxTemp (twos 16 (max hottest (signedOf 16 (s.get pgTel telMaxTemp))))

/-- The part descends to IDLE at a shutdown (R511). -/
def State.shutDown (s : State) : State :=
  let s1 := { s with temps := { s.temps with shutdown := true, cool := false } }
  if s1.pwr.rung = 0 ∧ !s1.pwr.busy then s1.stepBegin false else s1

/-- SENSOR_READ (R511, Table 19.1): the six sensors, in 0.01 °C; an injection takes the hottest as TEMP_CRIT + 1 °C. -/
def execSensorRead (t : Vector Int 6) (s : State) : Host.Outcome State Fault Refusal :=
  if s.boot = .complete ∧ s.pwr.rung ≤ 3 then
    let hottest := t.toList.foldl max t[0]
    let warn : Int := s.get pgTel telTempWarn * 100
    let crit : Int := s.get pgTel telTempCrit * 100
    let inj := s.injected pgTel 1
    let s0 := if inj then s.consumeInj pgTel else s
    let s1 := s0.showTemps t hottest
    let taken := if inj then crit + 100 else hottest
    let s2 := if warn < taken ∧ !s.temps.high then s1.finding pgTel 1 pgTel evTelTempHigh 0x10 (findingSrc (decide (warn < hottest)) inj) 0 else s1
    let s3 := if crit < taken ∧ (inj ∨ !s.temps.crit) then s2.finding pgTel 1 pgTel evTelTempCrit 0x10 (findingSrc (decide (crit < hottest)) inj) 0 else s2
    let clear := decide (taken ≤ warn) && t.toList.all (fun x => decide (x ≤ warn - 500))
    let s4 := if s.temps.high ∧ clear then s3.raise pgTel evTelTempOk else s3
    let s5 := { s4 with temps := { s4.temps with high := decide (warn < taken) || (s.temps.high && !clear), crit := decide (crit < taken),
                                                 cool := t.toList.all (fun x => decide (x < 10000)) } }
    if 12500 ≤ hottest ∧ !s.temps.shutdown then .next (s5.finding pgTel 1 pgTel evTelTempShutdown 0x10 1 0).shutDown else .next s5
  else .next s

/-- RAIL_WARN (R511, Table 19.1): a rail monitor's reading, in mV, and whether the rail has been outside ±5 % for 10 µs; the injection is report only. -/
def execRailWarn (rail : Fin 6) (mv : Nat) (low high : Bool) (s : State) : Host.Outcome State Fault Refusal :=
  if s.boot = .complete then
    let was := s.flag pgTel (telLow.nth rail.val) || s.flag pgTel (telHigh.nth rail.val)
    let out := low || high
    let s1 := s.puts pgTel [(telRail.nth rail.val, min mv 65535), (telLow.nth rail.val, bit low), (telHigh.nth rail.val, bit high)]
    let (src, s2) := s1.evaluate pgTel 2 (out && !was)
    let s3 := if src = 0 then s2 else s2.finding pgTel 2 pgTel evTelRailWarn 0x10 src 0
    .next (if was && !out then s3.raise pgTel evTelRailOk else s3)
  else .next s

/-! ### The multi-function balls (R530, Table 21.4) -/

/-- Whether the part drives a ball high. -/
def State.ballHigh (s : State) (b : Fin 4) : Bool :=
  let m := s.mfp[b]
  match m.func with
  | 1 => m.high && s.ring.aligned
  | 2 => m.high
  | 3 => decide (s.clk.state = .locked)
  | 4 => decide (s.clk.state = .holdover) || decide (s.clk.state = .safe)
  | _ => false

/-- Whether the sounding transmitter is between the start of RAMP_UP and the end of RAMP_DOWN. -/
def State.txOn (s : State) : Bool := decide (s.snd.state = .rampUp) || decide (s.snd.state = .tx) || decide (s.snd.state = .rampDown)

/-- A ball claimed for a function, and locked until reset. -/
def State.claimBall (s : State) (b : Fin 4) (f : Nat) : State :=
  { s with mfp := upd s.mfp b (fun _ => ⟨f, true, decide (f = 2) && s.txOn⟩) }

/-- BALL_FUNC (R530): a claim or a query by Site; a claim of TX_ACTIVE on a part without the sounding link is ABSENT_UNIT to every role (R6, R7). -/
def execBallFunc (arg : Nat) (s : State) : Host.Outcome State Fault Refusal :=
  .next (s.serve 0 [0x50] (fun c s =>
    let b : Fin 4 := ⟨arg % 4, by omega⟩
    let f := arg / 256 % 16
    let now : Word := BitVec.ofNat 32 (s.mfp[b]).func
    if f = 2 ∧ !bitAt arg 15 ∧ !s.fuse.variant.sounding then (s, some (.st .absentUnit))
    else if c.role ≠ .site then (s, some (.st .accessDenied))
    else if 5 ≤ f then (s, some (.st .badArg))
    else if bitAt arg 15 then (s, some ⟨.ok, now, []⟩)
    else if (s.mfp[b]).locked then (s, some ⟨.resourceBusy, now, []⟩)
    else (s.claimBall b f, some (.st .ok))))

/-- PPS_EDGE (R530, Table 21.4): the balls that show PPS go high at a whole second of ring time while the part is aligned, and low 100 ms later. -/
def execPpsEdge (high : Bool) (s : State) : Host.Outcome State Fault Refusal :=
  .next { s with mfp := s.mfp.map (fun m => if m.func = 1 then { m with high := high && s.ring.aligned } else m) }

end Sys2Proof.Machine
end

