-- ==== Sys2Proof/Machine/Outputs.lean ====
section
/-! DEFINITION. What the part puts on its balls (R8, R236, R239 to R241, R271, R287, R321, R376, Tables 21.3 and 21.4), the domains of the root (R402, Table 15.1), and the chips of a sounding packet (R276 to R279). -/

namespace Sys2Proof.Machine

/-! ### The root and its domains (R401, R402, Table 15.1) -/

/-- The domains fed by the root: converter sample instants and sub-converters of an input, the DEVTIME counter, SerDes bit clock, forwarded clock out of both ports, sounding DAC, audio clock generator. -/
inductive Domain where
  | sample (i : Inp) | subConverter (i : Inp) | devtime | serdes | forwarded | dac | audio
deriving DecidableEq, Repr

/-- Whether the root feeds domains: locked, or coasting in holdover; before lock and in clockless safe none receives an edge (R401). -/
def State.rootFeeds (s : State) : Bool := decide (s.clk.state = .locked) || decide (s.clk.state = .holdover)

/-- Whether the audio generator runs (R240): whenever the root synthesiser does, in IDLE and RUN. -/
def State.generatorRuns (s : State) : Bool := s.rootFeeds && decide (s.pwr.rung ≤ 1)

/-- Whether a domain has edges (Table 15.1, Table 2.4, R415, R421). -/
def State.domainRuns (s : State) : Domain → Bool
  | .sample i => s.rootFeeds && decide ((s.inputs[i]).conv = .run)
  | .subConverter i => s.rootFeeds && decide ((s.inputs[i]).conv = .run)
  | .devtime => s.time.running
  | .serdes => s.rootFeeds
  | .forwarded => s.rootFeeds
  | .dac => s.rootFeeds && decide (s.snd.state ≠ .off)
  | .audio => s.generatorRuns

/-- FS in Hz (Table 8.4). -/
def fsHz (code : Nat) : Nat :=
  match code with
  | 0 => 32000 | 1 => 44100 | 2 => 48000 | _ => 96000

/-- N of the audio generator in units of 2⁻²⁴: the root over 256 × FS, to the nearest (R240). -/
def audioDivider (fs : Nat) : Nat := (12800000000 * 2 ^ 24 + 128 * fs) / (256 * fs)

/-- The division of the 12.8 GHz root in a domain, in units of 2⁻²⁴ (Table 15.1): a halved input's sub-converters run at half their rate. -/
def State.domainDivision (s : State) : Domain → Nat
  | .sample i => (if (s.inputs[i]).shownHalf then 40 else 20) * 2 ^ 24
  | .subConverter i => (if (s.inputs[i]).shownHalf then 320 else 160) * 2 ^ 24
  | .devtime => 20 * 2 ^ 24
  | .serdes => 2 * 2 ^ 24
  | .forwarded => 40 * 2 ^ 24
  | .dac => 20 * 2 ^ 24
  | .audio => audioDivider (fsHz (s.get pgAud audFs))

/-! ### Levels of the balls (R8, R529, Table 21.3) -/

/-- What a ball shows: driven low or high, a clock or data, high impedance (an input, or released), or common mode. -/
inductive Drive where
  | low | high | active | open_ | common
deriving DecidableEq, Repr

/-- A level driven. -/
def drive (b : Bool) : Drive := if b then .high else .low

/-- SEAL_IND (R8, R321). -/
def State.sealIndBall (s : State) : Drive := drive s.sealInd

/-- Whether the port drives its own clocks now (Table 8.2, R246): a clock to drive, and no stop gate closed. -/
def State.portClocked (s : State) : Bool := s.audFrames && (decide (s.aud.clk ≠ .switching) || s.aud.ramping)

/-- Whether ABCLK and AWS are modulated: SSC_EN in MASTER_INT alone (R241). -/
def State.sscOn (s : State) : Bool := s.flag pgAud audSscEn && decide (s.get pgAud audMode = 1)

/-- The lowest AMCLK of MASTER_INT with SSC, in 0.1 % of 256 × FS: DEPTH downward (R241). -/
def State.sscLow (s : State) : Nat := if s.sscOn then 1000 - s.get pgAud audDepth else 1000

/-- How far below 256 × FS the modulated AMCLK stands, in 10⁻⁶ of it, some ticks after a period of its triangle began (R241): from 0 to DEPTH and back at RATE kHz. -/
def State.sscDrop (s : State) (phase : Nat) : Nat :=
  let x := phase * s.get pgAud audRate % msTicks
  if s.sscOn then s.get pgAud audDepth * 1000 * (2 * min x (msTicks - x)) / msTicks else 0

/-- AMCLK (R239): driven at 256 × FS in MASTER_INT, an input in MASTER_EXT, high impedance in SLAVE, low in OFF. -/
def State.amclk (s : State) : Drive :=
  if s.boot ≠ .complete then .low
  else match s.get pgAud audMode with
    | 0 => .low
    | 1 => if s.portClocked && s.generatorRuns then .active else .low
    | _ => .open_

/-- ABCLK and AWS (R239): driven in the MASTER modes, inputs in SLAVE, low in OFF and while the stop gate is closed. -/
def State.abclk (s : State) : Drive :=
  if s.boot ≠ .complete then .low
  else match s.get pgAud audMode with
    | 0 => .low
    | 3 => .open_
    | 1 => if s.portClocked && s.generatorRuns then .active else .low
    | _ => if s.portClocked then .active else .low

/-- ASDn (R236, R246): data while port frames run, low otherwise. -/
def State.asd (s : State) (_ : OutId) : Drive := if s.boot = .complete ∧ s.portClocked then .active else .low

/-- The bits of a slot, most significant first. -/
def slotBits (n v : Nat) : List Bool := (List.range n).map (fun k => bitAt v (n - 1 - k))

/-- The bits of SLOT (Table 8.4). -/
def slotLen (code : Nat) : Nat :=
  match code with
  | 0 => 16 | 1 => 24 | _ => 32

/-- The data of an output in one port frame: the left slot while AWS is low, then the right one (R236, R237). -/
def State.asdFrame (s : State) (o : OutId) : List Bool :=
  let n := slotLen (s.get pgAud audSlot)
  slotBits n (s.aud.outs[o]).left ++ slotBits n (s.aud.outs[o]).right

/-- PROBE (R8, R259, R289): the packet between the start of RAMP_UP and the end of RAMP_DOWN, common mode at every other time. -/
def State.probeBall (s : State) : Drive := if s.fuse.variant.sounding && s.txOn then .active else .common

/-- CX_REQ and CX_PRI (R8, R287). -/
def State.cxReqBall (s : State) : Drive := drive (s.fuse.variant.sounding && s.snd.cxReq)
def State.cxPriBall (s : State) : Drive := drive (s.fuse.variant.sounding && s.snd.cxPri)

/-- ATTN_N: low while a page calls for attention, released otherwise and before boot is complete (R376, Table 21.3). -/
def State.attnBall (s : State) : Drive := if s.boot = .complete ∧ s.attn then .low else .open_

/-- The forwarded clock outputs: both ports while the root is locked or coasts, common mode otherwise (R402, R521, Table 21.3). -/
def State.clockOut (s : State) (_ : Port) : Drive := if s.rootFeeds then .active else .common

/-- The TX lanes of a port: at common mode while the port is DOWN or the ring-forwarding domain stands (Table 21.3, R520). -/
def State.txLanes (s : State) (p : Port) : Drive := if s.rootFeeds ∧ (s.ports[p]).state ≠ .down ∧ (s.ports[p]).state ≠ .clock then .active else .common

/-- The swing of a port's transmitters in mVppd, data and clock (R330, Tables 12.1 and 12.12). -/
def State.txSwing (s : State) (p : Port) : Nat := 100 * s.get (pgPort p) prtTxSwing

/-- The de-emphasis of a port's transmitters in dB (Table 12.12). -/
def State.txDeemph (s : State) (p : Port) : Nat := s.get (pgPort p) prtTxDeemph

/-- The bit rate of the PMBus in Hz (R434). -/
def State.pmbHz (s : State) : Nat :=
  match s.get pgPmb pmbSpeed with
  | 0 => 100000 | 1 => 400000 | _ => 1000000

/-- A multi-function ball (Table 21.4): an input until it is claimed. -/
def State.mfpBall (s : State) (b : Fin 4) : Drive := if (s.mfp[b]).func = 0 then .open_ else drive (s.ballHigh b)

/-! ### Chips of a packet (R273, R276 to R279) -/

/-- The lower tap of the polynomial of an SF code (Table 10.1); the third term of SF 256 besides. -/
def sfTaps (code : Nat) : List Nat :=
  match code with
  | 0 => [2] | 1 => [1] | 2 => [3] | 3 => [4, 3, 2] | 4 => [4] | _ => [3]

/-- A run of a Fibonacci register, its stages a list from the output stage on: the bits that leave it. The next bit is the sum of the output stage and of the stages that the polynomial's lower terms name. -/
def lfsr (taps : List Nat) : Nat → List Bool → List Bool
  | 0, _ => []
  | n + 1, r =>
    let out := r.headD false
    let next := taps.foldl (fun b t => xor b ((r[t]?).getD false)) out
    out :: lfsr taps n (r.drop 1 ++ [next])

/-- The code of an SF code: the maximal-length sequence from all ones, and one chip of value +1. PRESUMED (log 78): a bit 0 of the register is the chip +1, a bit 1 the chip −1; the output stage holds the term of degree 0. -/
def spreadCode (code : Nat) : List Int :=
  (lfsr (sfTaps code) (sfOf code - 1) (List.replicate (code + 5) true)).map (fun b => if b then -1 else 1) ++ [1]

/-- The 48 bits of the header of a packet from a position less one (Table 10.2). -/
def txHeader (r : TxReq) (own : Nat) : Nat :=
  own * 2 ^ 42 + bit r.bcast * 2 ^ 41 + r.dst % 64 * 2 ^ 35 + r.type % 4 * 2 ^ 33 + r.len % 128 * 2 ^ 26 + r.level % 512 * 2 ^ 17 + r.g / 65536 % 65536

/-- The bits of a string of bytes, most significant first. -/
def bitsOf (l : List Byte) : List Bool := l.flatMap (fun b => slotBits 8 b.toNat)

/-- The phase changes of DBPSK bits, in quarter turns. -/
def dbpsk (l : List Bool) : List Nat := l.map (fun b => 2 * bit b)

/-- The phase changes of DQPSK dibits with their Gray coding, in quarter turns (R277). -/
def dqpsk : List Bool → List Nat
  | a :: b :: l => (match a, b with
      | false, false => 0 | false, true => 1 | true, true => 2 | true, false => 3) :: dqpsk l
  | _ => []

/-- The phase changes of a packet, symbol by symbol: preamble, start delimiter, header with its CRC-16, payload with its CRC-32 (R277). -/
def txPhases (r : TxReq) (own : Nat) : List Nat :=
  let head := bytesBE 6 (txHeader r own)
  let payload := if r.len = 0 then [] else r.data ++ bytesBE 4 (crc32 r.data)
  dbpsk (List.replicate 64 false ++ slotBits 16 0xE5B2) ++ dqpsk (bitsOf (head ++ bytesBE 2 (crcBytes 16 0x1021 0xFFFF head)) ++ bitsOf payload)

/-- The symbols of a packet as quarter turns from the first, each the phase of the one before it moved on. -/
def symbolTurns : Nat → List Nat → List Nat
  | _, [] => []
  | p, d :: l => (p + d) % 4 :: symbolTurns ((p + d) % 4) l

/-- The I and Q of a quarter turn. -/
def turnIq (t : Nat) : Int × Int :=
  match t % 4 with
  | 0 => (1, 0) | 1 => (0, 1) | 2 => (-1, 0) | _ => (0, -1)

/-- The chips of a packet: each symbol is the code times the symbol's value (R276). -/
def txChips (r : TxReq) (own : Nat) : List (Int × Int) :=
  (symbolTurns 0 (txPhases r own)).flatMap (fun t => (spreadCode r.sf).map (fun c => (c * (turnIq t).1, c * (turnIq t).2)))

/-- A sample of the shaped baseband at four samples to a chip: the latched taps over the chips (R273). -/
def State.shapedSample (s : State) (chips : List (Int × Int)) (n : Nat) : Int × Int :=
  (List.range 64).foldl (fun a k =>
    if n < k ∨ (n - k) % 4 ≠ 0 then a
    else
      let tap := signedOf 16 ((s.reg (airKey k)).toNat % 65536)
      let c := (chips[(n - k) / 4]?).getD (0, 0)
      (a.1 + tap * c.1, a.2 + tap * c.2)) (0, 0)

end Sys2Proof.Machine
end

