-- ==== Sys2Proof/Machine/Periods.lean ====
section
/-! DEFINITION. Packet periods of streams (R67, R73, R138, R157, R179, R215 to R220, R223): sampled packets, MEASURE records, units of DRM streams, packets of a readout. -/

namespace Sys2Proof.Machine

/-! ### I/Q packets (R65 to R67, R73, R138) -/

/-- The shift, the samples and the length in ticks of a packet of an I/Q kind (R67, R73, R138, Table 7.2). -/
def State.iqShape (s : State) (d : StrmDef) : Nat × Nat :=
  match d.kind with
  | 1 => (match slcOf d.src with
      | some i => s.get (pgSlc i) slcIqShift
      | none => 0, 625)
  | 2 => (match bedOf d.src with
      | some k => s.get (pgBed k) bedIqShift
      | none => 0, 2048)
  | _ => (s.get pgSieve (match d.src % 4 with
      | 0 => sieveShift0 | 1 => sieveShift1 | 2 => sieveShift2 | _ => sieveShift3), 500)

/-- Whether an input yielded full-rate samples, or bins below a limit at half rate, throughout a span (R55, R65). -/
def State.binsLive (s : State) (i : Inp) (bin limit a b : Nat) : Bool :=
  s.liveIn i a b && (!(s.condIn (some i) a b).half || decide (bin < limit))

/-- Whether a bed yields symbols throughout a span: on and not in HOLD, both its bins live (R138). -/
def State.bedThere (s : State) (k : BedId) (a b : Nat) : Bool :=
  decide ((s.beds[k]).state ≠ .off) && decide ((s.beds[k]).state ≠ .hold) && s.binsLive (s.bedInp k) (s.get (pgBed k) bedBin) 63 a b

/-- Whether a bed's stream is mulch for its first period, which starts at or after the entry to SEARCH (R138). -/
def Bed.firstPeriod (x : Bed) (p : Nat) : Bool :=
  match x.searchAt with
  | some a => decide (a ≤ p) && decide (p < a + 640000)
  | none => false

/-- Whether the source of an I/Q stream has a sample for every place of the period that starts at a root time (R219). -/
def State.iqThere (s : State) (d : StrmDef) (p : Nat) : Bool :=
  match d.kind with
  | 1 => match slcOf d.src with
    | some i => (s.slices[i]).valid.contains p
    | none => false
  | 2 => match bedOf d.src with
    | some k => s.bedThere k p (p + 640000) && !(s.beds[k]).firstPeriod p
    | none => false
  | _ => s.binsLive (inpOf d.src) d.sub 64 p (p + 64000)

/-- The saturated samples of an I/Q packet counted, once for all the streams of their source, with IQ_SATURATED at most once per slice block (R67, R73, R138). -/
def State.iqCount (s : State) (d : StrmDef) (p stop n : Nat) : State :=
  match d.kind with
  | 1 => match slcOf d.src with
    | some i =>
      if (s.slices[i]).iqUpTo ≤ p then
        let s1 := (s.count (pgSlc i) slcSatCnt n).updSlc i (fun x => { x with iqUpTo := stop, satRaised := x.satRaised || decide (n ≠ 0) })
        if n ≠ 0 ∧ !(s.slices[i]).satRaised then s1.raise (pgSlc i) evSlcIqSaturated else s1
      else s
    | none => s
  | 2 => match bedOf d.src with
    | some k =>
      if (s.beds[k]).iqUpTo ≤ p then
        let s1 := (s.count (pgBed k) bedSatCnt n).updBed k (fun x => { x with iqUpTo := stop, satRaised := x.satRaised || decide (n ≠ 0) })
        if n ≠ 0 ∧ !(s.beds[k]).satRaised then s1.raise (pgBed k) evBedIqSaturated else s1
      else s
    | none => s
  | _ =>
    let i := inpOf d.src
    let upTo := (((s.inputs[i]).binUpTo.find? (fun x => x.1 = d.sub)).map (·.2)).getD 0
    if upTo ≤ p then
      (s.count pgSieve (match i.val with
        | 0 => sieveOvfCnt0 | 1 => sieveOvfCnt1 | 2 => sieveOvfCnt2 | _ => sieveOvfCnt3) n).updInp i (fun x =>
          { x with binUpTo := (d.sub, stop) :: x.binUpTo.filter (fun y => y.1 ≠ d.sub) })
    else s

/-- The packet of an I/Q period, and the state with its saturated samples counted. -/
def State.iqPacket (s : State) (d : StrmDef) (p : Nat) (iq : List (Int × Int)) : PacketSpec × State :=
  let stop := p + kindPeriod d.kind
  let i := s.sourceInput d
  let cond := s.condIn i p stop
  if s.sourceThere d && s.iqThere d p then
    let (shift, n) := s.iqShape d
    let l := iqSamples n iq
    let ovr := (i.map (fun j => s.overranged j p stop)).getD false
    (⟨p, stop, kindLen d.kind, false, cond, bit ovr, iqPayload shift n iq⟩, s.iqCount d p stop (l.filter (iqSaturates shift)).length)
  else (⟨p, stop, kindLen d.kind, true, cond, 0, []⟩, s)

/-! ### PCM packets (R98, R155, R179, R216 to R220) -/

/-- The input behind a PCM source, where one input is. -/
def State.pcmInput (s : State) (d : StrmDef) : Option Inp :=
  if d.srcKind = 2 then (decOf d.src).bind s.decInput else s.sourceInput d

/-- Whether a splice or blend touched one of the frames that a slot played in a span of stamps. -/
def State.spliced (s : State) (d : StrmDef) (p stop : Nat) : Bool :=
  if d.srcKind = 3 then
    match svcOf d.src with
    | some v => (s.slots[v]).out.any (fun f => f.splice && decide (p ≤ f.at_ + 6666) && decide (f.at_ + 6666 < stop))
    | none => false
  else false

/-- The packet of a PCM period: 96 stereo frames, each the sample of its instant; mulch where one is missing. A slot that has begun or ceased to play within the period is silent where it does not play: DEDUCED (log 72). -/
def State.pcmPacket (s : State) (d : StrmDef) (p : Nat) : PacketSpec :=
  let stop := p + 1280000
  let audio := clipsWithin (s.audioOf d.srcKind d.src) (p - 6667) stop
  let l := (List.range 96).map (fun n => clipAt audio (p + sampleTicks n))
  let cond := (l.filterMap id).foldl (fun c x => c.join x.1.cond) Cond.none
  let there := if d.srcKind = 3 then l.any (·.isSome) else l.all (·.isSome)
  if s.sourceThere d && there then
    let flags := bit (l.any (fun o => (o.map (fun x => x.1.conceal)).getD false)) + 2 * bit (s.spliced d p stop)
    ⟨p, stop, 36, false, cond, flags, packPcm (l.map (fun o => (o.map (·.2)).getD (0, 0)))⟩
  else ⟨p, stop, 36, true, cond.join (s.condIn (s.pcmInput d) p stop), 0, []⟩

/-! ### The packet of a sampled period (R215, R219, R223) -/

/-- The root time at which the packet of the period that starts at p may be formed: its end, for a slot PRESENT later (R179). -/
def State.periodDue (s : State) (d : StrmDef) (p : Nat) : Nat :=
  p + kindPeriod d.kind + (if d.kind = 4 ∧ d.srcKind = 3 then (match svcOf d.src with
    | some v => s.get (pgSvc v) svcPresent * msTicks
    | none => 0) else 0)

/-- STRM_SOURCE_GONE, once, where the source of a sampled stream is not there; it may be raised again when packets have resumed (R223). -/
def State.sourceCheck (s : State) (i : StrmId) (mulch : Bool) : State :=
  if s.sourceThere (s.strmDef i) then (if mulch then s else s.updStrm i (fun x => { x with goneRaised := false }))
  else if (s.strms[i]).goneRaised then s
  else (s.raiseTo pgStrm evStrmSourceGone (s.strms[i]).owner).updStrm i (fun x => { x with goneRaised := true })

/-- The packet of the period of a sampled stream formed; after a stall of the stream engine it is mulch (R497). -/
def State.sampledPacket (s : State) (i : StrmId) (m : PktMeas) : State :=
  let x := s.strms[i]
  let d := s.strmDef i
  let p := x.nextPeriod
  let (spec, s1) := if d.kind = 4 then (s.pcmPacket d p, s) else s.iqPacket d p m.iq
  let spec1 : PacketSpec := if x.mulchNext then { spec with mulch := true, kflags := 0 } else spec
  let s2 := (s1.formPacket i spec1).updStrm i (fun y => { y with nextPeriod := p + kindPeriod d.kind, mulchNext := false })
  s2.sourceCheck i spec1.mulch

/-- A sampled stream at the end of a packet period: a late packet whose place mulch has taken is discarded (R215); past its last period a disabled stream ends (R223); before the period's end there is nothing yet. -/
def State.sampledPeriod (s : State) (i : StrmId) (m : PktMeas) : State :=
  let x := s.strms[i]
  if 0 < x.late then s.updStrm i (fun y => { y with late := y.late - 1 })
  else if !x.formsAt x.nextPeriod then s.updStrm i (fun y => { y with ending := none })
  else if s.time.mono < s.periodDue (s.strmDef i) x.nextPeriod then s
  else s.sampledPacket i m

/-! ### MEASURE (Table 7.5) -/

/-- What the page of a slice shows of the block that has ended. -/
def State.slcMeas (s : State) (i : Slc) : MeasVal :=
  let m := s.get (pgSlc i) slcDemod
  let valid := s.flag (pgSlc i) slcValid && (s.slices[i]).valid.contains (s.time.mono - 1280000)
  let level := s.get (pgSlc i) slcLevel
  if m = 1 then ⟨valid, level, s.get (pgAm i) amCnr, 0, 0, 0, signedOf 32 (s.get (pgAm i) amOffset), 0⟩
  else if m = 2 then ⟨valid, level, s.get (pgFm i) fmCnr, 0, s.get (pgFm i) fmMp, s.get (pgFm i) fmBler, signedOf 32 (s.get (pgFm i) fmOffset), s.get (pgFm i) fmDevPeak⟩
  else if m = 3 ∨ m = 4 then ⟨valid, level, 0, s.get (pgDrm i) drmMer, 0, 0, signedOf 32 (s.get (pgDrm i) drmOffset), 0⟩
  else ⟨valid, level, 0, 0, 0, 0, 0, 0⟩

/-- What the page of a bed shows at the end of a block. -/
def State.bedMeas (s : State) (k : BedId) : MeasVal :=
  ⟨s.flag (pgBed k) bedValid_058 && s.flag (pgBed k) bedLvlValid && s.bedLive k, s.get (pgBed k) bedLevel, 0, s.get (pgBed k) bedMer, 0, 0,
    signedOf 32 (s.get (pgBed k) bedOffset), 0⟩

/-- The values of the block that has ended kept for a MEASURE stream whose interval has begun. -/
def State.keepMeas (s : State) (i : StrmId) : State :=
  let d := s.strmDef i
  let from_ := s.time.mono - 1280000
  if (s.strms[i]).nextPeriod ≤ from_ then
    let v := if d.srcKind = 1 then (slcOf d.src).map s.slcMeas else (bedOf d.src).map s.bedMeas
    match v with
    | some v => s.updStrm i (fun x => { x with meas := x.meas ++ [(from_, v)] })
    | none => s
  else s

/-- The values of the block that has ended kept for every MEASURE stream. -/
def State.measBlock (s : State) : State := (s.streamsOf (fun d => d.kind = 7)).foldl (fun s i => s.keepMeas i) s

/-- The mean of a list, to the nearest; 0 of none. -/
def meanOf (l : List Int) : Int := roundDiv l.sum (max 1 l.length)

/-- A MEASURE record: the means over the blocks of an interval, LEVEL as power; VALID when every block of it was valid (Table 7.5). -/
def measureRecord (d : StrmDef) (l : List MeasVal) : Quad :=
  let mean := fun (f : MeasVal → Nat) => (meanOf (l.map (fun x => (f x : Int)))).toNat
  quadPack [(127, 120, if d.srcKind = 1 then 0x30 else 0x31), (119, 113, d.src), (112, 112, bit (l.all (·.valid) && decide (d.sub ≤ l.length))),
    (111, 100, if l = [] then 4095 else levelOf ((l.map (fun x => levelPower x.level)).sum / l.length)), (99, 92, mean (·.cnr)), (91, 82, mean (·.mer)), (81, 74, mean (·.mp)),
    (73, 64, mean (·.bler)), (63, 32, twos 32 (meanOf (l.map (·.offset)))), (31, 20, mean (·.devPeak))]

/-- A MEASURE stream at the end of its interval of MEAS_INT slice blocks: its record (R216, R219, R223). -/
def State.measurePeriod (s : State) (i : StrmId) : State :=
  let x := s.strms[i]
  let d := s.strmDef i
  let stop := x.nextPeriod + d.sub * 1280000
  if !x.formsAt x.nextPeriod then s.updStrm i (fun y => { y with ending := none })
  else if s.time.mono < stop then s
  else
    let l := (x.meas.filter (fun v => decide (v.1 < stop))).map (·.2)
    let s1 := s.formPacket i ⟨x.nextPeriod, stop, 1, false, s.condIn (s.sourceInput d) x.nextPeriod stop, 0, [measureRecord d l]⟩
    s1.updStrm i (fun y => { y with nextPeriod := stop, meas := y.meas.filter (fun v => decide (stop ≤ v.1)), goneRaised := false })

/-! ### Units of DRM streams and readouts (R89, R157) -/

/-- A unit of the DRM stream that a COMPRESSED stream names, where the SDC defines that stream (R157). -/
def State.drmUnit (s : State) (i : StrmId) (u : Unit_) : State :=
  let d := s.strmDef i
  match slcOf d.src with
  | some n => if s.get (pgDrm n) (drmValid_0e0.nth d.sub) = 1 then
      s.formPacket i (s.unitSpec 2 d.src (s.sourceInput d) { u with subch := d.sub }) else s
  | none => s

/-- The next packet of the readout that a SNAPSHOT stream carries (R89, R223). -/
def State.snapPeriod (s : State) (i : StrmId) (bad : List Nat) : State :=
  let d := s.strmDef i
  if h : d.src < 4 then
    let c : SnapCh := ⟨d.src, h⟩
    if (s.snaps[c]).state = .reading ∧ s.snapStream c = some i then s.snapPacket c i bad else s
  else s

/-- PACKET_PERIOD (R89, R157, R216, R218 to R220, R223): what a stream forms now, its DEVTIME being set: the packet of a sampled period that is over, mulch where its source has no data; a MEASURE record; a unit of a DRM stream; the next packet of a readout. -/
def execPacketPeriod (i : StrmId) (m : PktMeas) (s : State) : Host.Outcome State Fault Refusal :=
  let x := s.strms[i]
  let d := s.strmDef i
  if x.owner = 0 ∨ !s.time.set then .next s
  else if sampledKind d.kind then .next (s.sampledPeriod i m)
  else if d.kind = 7 then .next (s.measurePeriod i)
  else if d.kind = 8 then .next (s.snapPeriod i m.bad)
  else if d.kind = 5 ∧ d.srcKind = 2 ∧ (x.en ∨ x.ending.isSome) then
    match m.unit_ with
    | some u => .next (s.drmUnit i u)
    | none => .next s
  else .next s

end Sys2Proof.Machine
end

