-- ==== Sys2Proof/Machine/Taps.lean ====
section
/-! DEFINITION. The taps of the cloche (R299, R304): what a slice block of a point's source carries, whether it is covered, and what it adds to the point's accumulators (R306, R311, Table 11.1). -/

namespace Sys2Proof.Machine

/-- What a tap carries beside the samples of a slice block (R299): whether its source yielded samples throughout; the tags of its sieve frames; the DEVTIME of its first sample; of the plan entry its centre in Hz, and for a slice its DEMOD. -/
structure TapTags where
  live : Bool
  ovr : Bool
  cond : Cond
  dev : Nat
  hz : Int
  demod : Option Nat
deriving DecidableEq, Repr

/-- The tap of a point for the slice block that ends now, before the slice plan is swapped. -/
def State.tapOf (s : State) (x : Point) : Option TapTags :=
  let from_ := s.time.mono - 1280000
  let tags := fun (i : Inp) (live : Bool) (hz : Int) (demod : Option Nat) =>
    (⟨live, s.overranged i from_ s.time.mono, s.condIn (some i) from_ s.time.mono, s.time.devAt from_, hz, demod⟩ : TapTags)
  if x.srcKind = 1 then
    (slcOf x.src).map (fun i => tags (s.slcInp i) (decide ((s.slices[i]).use ≠ .bed) && s.blockValid i) (s.sliceHz i) (some (s.get (pgSlc i) slcDemod)))
  else
    (bedOf x.src).map (fun k => tags (s.bedInp k) (s.bedThere k from_ s.time.mono) (s.bedHz k) none)

/-- The DEMOD of a standard, by the codes of Tables 11.2 and 3.14. -/
def demodOfStd : Nat → Nat
  | 0 => 2 | 1 => 1 | 3 => 3 | 4 => 4 | _ => 0

/-- Whether the block of a tap is covered for a point (R304): samples there, the source tuned to the nominal frequency and of the standard's DEMOD, a bed within 1 kHz. DESIGN CHOICE (log 54): a slice is tuned to the nominal frequency when its centre is nearest that whole kHz. -/
def Point.covers (x : Point) (t : TapTags) : Bool :=
  t.live && (match t.demod with
    | some d => decide ((t.hz - x.khz * 1000).natAbs < 500) && decide (d = demodOfStd x.std)
    | none => nearKhz t.hz x.khz)

/-- A deviation counted in a histogram, greatest first. -/
def histAdd : List (Nat × Nat) → Nat → List (Nat × Nat)
  | [], d => [(d, 1)]
  | (e, c) :: l, d => if d = e then (e, c + 1) :: l else if e < d then (d, 1) :: (e, c) :: l else (e, c) :: histAdd l d

/-- Whether the criterion of availability fails in a millisecond (R306): level below LVL_TH, MER below MER_TH for a digital standard, or no carrier; `low` stands for a level that the sealed tables do not give. -/
def State.msFails (s : State) (x : Point) (low : Bool) (m : TapMs) : Bool :=
  (match (s.pointInput x).bind (fun i => s.levelValue i 1 x.khz m.level) with
    | some v => decide (v < s.detLevel x.det)
    | none => low) ||
  (decide (2 ≤ x.std) && decide (m.mer < s.detMer x.det)) || !m.carrier

/-- A covered block added to accumulators. -/
def State.tapAdd (s : State) (x : Point) (low : Bool) (m : TapMeas) : PtAcc :=
  let a := x.acc
  let ms := m.ms.take 2
  let q := s.detQuantity x.det
  { a with
    blocks := a.blocks + 1
    ms := a.ms + ms.length
    power := a.power + (ms.map (fun y => centiPower y.level)).sum
    mer := a.mer + (ms.map (·.mer)).sum
    offset := a.offset + m.offset
    snr := a.snr + m.snr
    hist := if q = 4 then m.devs.foldl histAdd a.hist else a.hist
    excursion := max a.excursion m.excursion
    mpxSum := a.mpxSum + centiPower m.mpx
    mpxCount := a.mpxCount + 1
    failed := a.failed + (ms.filter (s.msFails x low)).length }

/-- The mean power of the MPX over the last 60 seconds, where there are as many and a block of them was covered. -/
def mpxMean (l : List (Nat × Nat)) : Option Nat :=
  let n := histCount l
  if l.length < 60 ∨ n = 0 then none else some ((l.map (·.1)).sum / n)

/-- A second of an interval ended (Table 11.1, R306): one in which the criterion failed for OUT_MIN ms is an outage second. -/
def State.secondEnds (s : State) (x : Point) (a : PtAcc) : PtAcc :=
  let l := ((a.mpxSum, a.mpxCount) :: a.mpx).take 60
  { a with
    mpxSum := 0
    mpxCount := 0
    mpx := l
    mpxBest := match a.mpxBest, mpxMean l with
      | some b, some m => some (max b m)
      | some b, none => some b
      | none, m => m
    failed := 0
    outages := a.outages + bit (decide (0 < a.failed) && decide (s.detOutMin x.det ≤ a.failed)) }

/-- One point at the end of a slice block of its open interval: the flags that hold now; a covered block with its tags and what the cloche has taken from it; the end of a second (R304, R306, R311). -/
def State.tapBlock (s : State) (taps : List TapMeas) (p : PtId) : State :=
  let x := s.smc.points[p]
  if x.state = .integrating ∧ s.smcWorks ∧ x.startGrid + 1280000 ≤ s.time.grid then
    let (n, s1) := s.draw
    let (acc, flags) := match s.tapOf x, taps.find? (fun m => m.point = p) with
      | some t, some m =>
        if x.covers t then (s.tapAdd x (bitAt (Config.freeValue n).toNat 0) m, 4 * bit t.cond.holdover + 16 * bit t.cond.half) else (x.acc, 0)
      | _, _ => (x.acc, 0)
    let acc1 := if s.time.grid % secTicks = 0 then s.secondEnds x acc else acc
    s1.updPoint p (fun y => { y with acc := acc1, flags := y.flags ||| s.flagsNow x ||| flags })
  else s

/-- Every point at the end of a slice block. -/
def State.tapsBlock (s : State) (taps : List TapMeas) : State := (List.finRange 16).foldl (fun s p => s.tapBlock taps p) s

end Sys2Proof.Machine
end

