-- ==== Sys2Proof/Machine/Boundary.lean ====
section
/-! DEFINITION. The boundaries at which the units act together (R61, R62, R133): the sieve epoch, the slice block, the bed boundary; and the end of a reference check (R268). -/

namespace Sys2Proof.Machine

/-- SIEVE_EPOCH_BOUNDARY (R45, R61, R84, R266, R427 to R441): the frame rule first, then the epoch that ends is measured, coefficient sets two epochs old are swapped in, commits of the CAL and SIEVE pages take effect, the power manager decides, the clock meters show what they measured. -/
def execSieveEpochBoundary (m : Vector EpochMeas 4) (slack : List Nat) (clk : ClkMeas) (s : State) : Host.Outcome State Fault Refusal :=
  let s1 := (s.advance .epoch).frameUnseen
  let s2 := (List.finRange 4).foldl (fun s i => s.inputEpoch i m[i]) s1
  let s3 := (s2.putPair pgSieve sieveEpochLo sieveEpochHi s2.time.devtime).coefsDue
  .next (((s3.epochCommits.powerEpoch slack).clkInjected).clkMeters clk)

/-- SLICE_BLOCK_BOUNDARY (R61, R64, R85, R172, R304): the cloche takes its taps of the block that ends, the block is measured, the slice plan is swapped, beds start again after DOZE, injected stalls act, slots play and those whose active is lost splice at once, MEASURE streams take the values of the block, side-data packets close. -/
def execSliceBlockBoundary (m : BoundaryMeas) (s : State) : Host.Outcome State Fault Refusal :=
  .next (((((s.advance .block).tapsBlock m.taps).slicesBlock m.blocks).bedsBlock.bedsWake.stallsInjected.followBlock.measBlock).closeSides.streamsBlock)

/-- BED_COMMIT_BOUNDARY (R133, R134): commits of BED pages take effect. -/
def execBedCommitBoundary (s : State) : Host.Outcome State Fault Refusal := .next (s.advance .bed).bedCommits

/-- Whether a tone at an input, in 0.001 dBm at the ball, lies within the sealed tolerance of the sealed certificate value; an input that no longer runs gives none (R268, Table 11.13). -/
def State.tonePasses (s : State) (i : Inp) (tone : Int) : Bool :=
  decide ((s.inputs[i]).conv = .run) && (s.inputs[i]).onRefin &&
    decide ((tone - signedOf 32 (s.get (pgSmc 2) smc2RefinCert)).natAbs ≤ s.get (pgSmc 2) smc2RefinTol)

/-- REF_CHECK_DONE (R268, Table 11.5): after 20 epochs the cloche judges the tone of each input on its own tap, in 0.001 dBm at the ball: the inputs return to their balls with the gain they had, those that pass lose CHAIN_ALTERED, the check is recorded and answered. -/
def execRefCheckDone (tones : Vector Int 4) (s : State) : Host.Outcome State Fault Refusal :=
  match s.cal.check with
  | some x =>
    if !s.ranOut x.at_ (20 * epochTicks) then .next s else
    let ok := (inputsOf x.mask).foldl (fun m i => if s.tonePasses i tones[i] then m + 2 ^ i.val else m) 0
    let s1 := (inputsOf x.mask).foldl (fun s i => s.checkLeave i) s
    let s2 := ((s1.clearChain ok).smcNote 0x8C (ok + 16 * (x.mask - ok)))
    .next ({ s2 with cal := { s2.cal with check := none } }.answer x.caller 0 (.st .ok))
  | none => .next s

end Sys2Proof.Machine
end

