-- ==== Sys2Proof/Machine/Commits.lean ====
section
/-! DEFINITION. A commit of a page (R370 to R372, R523, R545): its status, RES_CONFLICT, and what it applies or captures at its response. -/

namespace Sys2Proof.Machine

/-- The status that the page's own rules give a commit by a role. -/
def State.pageStatus (s : State) (role page : Nat) : Status :=
  let ranges : Status := if s.stagedInRange page (stageRole page role) then .ok else .badArg
  match kindOfPage page with
  | some .inp => s.inpStatus (inpOf (page - 0x010))
  | some .cal => s.calStatus
  | some .aln => s.alnStatus role
  | some .dec => s.decStatus role
  | some .aud => s.audStatus role
  | some .snd => s.sndStatus
  | some .strm => s.strmCommitStatus role
  | some .bed => if h : page - 0x020 < 12 then s.bedStatus ⟨page - 0x020, h⟩ else ranges
  | some .slc => if h : page - 0x040 < 96 then s.slcStatus ⟨page - 0x040, h⟩ else ranges
  | some .svc => if h : page - 0x0C0 < 32 then s.svcStatus ⟨page - 0x0C0, h⟩ else ranges
  | some .sec => s.secStatus
  | _ => ranges

/-- The status of a sounding request that a commit of the SND page makes (R282); OK where it makes none. -/
def State.goStatus (s : State) (page : Nat) : Status :=
  if page = pgSnd ∧ s.goStaged then (s.txRefused s.txFields).getD .ok else .ok

/-- NO_SPACE where a commit would change the regulatory profile and the Loam store has no place for it (R286, R489). -/
def State.profileSpace (s : State) (page : Nat) : Status :=
  if page = pgSnd ∧ s.profileStaged ∧ profileOf (fun f => s.stgGet 0 pgSnd f) ≠ profileOf (fun f => s.get pgSnd f) ∧ !s.journalOk 0x30 264 then .noSpace else .ok

/-- The status of a commit: NOT_READY while one waits (R372) and, on a page with a boundary, while DEVTIME is unset (R523); else the page's own. -/
def State.commitStatus (s : State) (role page : Nat) : Status :=
  if s.pendingCommit page (stageRole page role) then .notReady
  else if kindCode page ≠ 0 ∧ !s.time.set then .notReady
  else firstBad [s.pageStatus role page, s.profileSpace page, s.goStatus page]

/-- The event of a commit that meets a resource that something else holds (R18, R95, R131, R221, R227). -/
def State.conflictEvent (s : State) (role page : Nat) : Option Ev :=
  let when_ (b : Bool) (ev : Ev) : Option Ev := if b then some ev else none
  match kindOfPage page with
  | some .aln => when_ (s.alnConflict role) evAlnResConflict
  | some .dec => when_ (s.decConflict role) evDecResConflict
  | some .strm => when_ (s.strmConflict role) evStrmResConflict
  | some .bed => if h : page - 0x020 < 12 then when_ (s.bedConflict ⟨page - 0x020, h⟩) evBedResConflict else none
  | some .slc => if h : page - 0x040 < 96 then when_ (s.slcConflict ⟨page - 0x040, h⟩) evSlcResConflict else none
  | some .svc => if h : page - 0x0C0 < 32 then when_ (s.svcConflict ⟨page - 0x0C0, h⟩) evSvcResConflict else none
  | some .snd => when_ (decide (s.desigStatus = .resourceBusy)) evSndResConflict
  | _ => none

/-- A commit refused: LAST_STATUS, and RES_CONFLICT where it met one; the staged values stay staged (R372). `now` is the state that the commit saw. -/
def State.commitRefused (s now : State) (role page : Nat) (st : Status) : State :=
  let s1 := s.setLast page (stageRole page role) st
  if st = .resourceBusy then
    match now.conflictEvent role page with
    | some ev => s1.raiseTo page ev (if sharedPage page then role else s1.pageOwner page)
    | none => s1
  else s1

/-- An SND commit takes effect (R286, R290): a changed profile goes to the Loam store with PROFILE_CHANGED, a designation claims its slice. -/
def State.sndApply (s : State) : State :=
  let s1 := s.applyStaged pgSnd 0
  let s2 := if s1.profileBytes = s.profileBytes then s1 else (s1.journal 0x30 0 false 0x10 s1.profileBytes).1.raise pgSnd evSndProfileChanged
  State.desigApply s s2

/-- An AUD commit while no port frame runs takes effect at its response (R539). -/
def State.audAtOnce (s : State) (role : Nat) : State := (s.audApply (s.stagedOf pgAud role)).unstage pgAud role

/-- What an accepted commit does at its response: on an immediate page its effect, elsewhere the capture of the staging copy and what the page claims already (R16, R18, R134, R370). -/
def State.commitApply (s : State) (role page : Nat) : State :=
  let r := stageRole page role
  match kindOfPage page with
  | some .inp => s.capture page r
  | some .sieve => s.capture page r
  | some .cal =>
    let load := decide (s.stgGet 0 pgCal calOp = 2)
    let s1 := s.capture page r
    { s1 with cal := { s1.cal with load := s1.cal.load || load } }
  | some .slc => if h : page - 0x040 < 96 then (s.slcClaim ⟨page - 0x040, h⟩).capture page r else s
  | some .bed => if h : page - 0x020 < 12 then (s.bedClaim ⟨page - 0x020, h⟩).capture page r else s
  | some .aud => if s.audFrames then s.capture page r else s.audAtOnce role
  | some .aln => s.alnApply role
  | some .dec => s.decApply role
  | some .snd => s.sndApply
  | some .strm => s.applyStrmPage role
  | some .svc => if h : page - 0x0C0 < 32 then s.svcApply ⟨page - 0x0C0, h⟩ else s
  | some .sec => s.secApply
  | _ => s.applyStaged page r

/-- RESULT of a commit: DEVTIME of its boundary, or of its response on an immediate page (R377). A port-frame boundary lies at the next AWS edge, whose DEVTIME is not the part's to know: a free value while frames run (log 9). -/
def State.commitResult (s : State) (page : Nat) : Word × State :=
  if kindCode page = 0 then (devLo s.time.devtime, s)
  else if kindCode page = 5 then
    if s.audFrames then
      let (i, s1) := s.draw
      ((Config.freeValue i).extractLsb' 0 32, s1)
    else (devLo s.time.devtime, s)
  else (devLo (s.time.devOf (commitDue s.time (kindCode page))), s)

/-- A commit of a page by a caller, on the state its writes have left; `undo` is the state where the same writes have only staged (R371, R372, R378, R545). A request of the SND page may have its answer withheld (R283). A refused commit made through the direct window has been answered too, and takes the next RSEQ (R17, R386). -/
def State.commitPage (s undo : State) (c : Caller) (page : Nat) (asked : Bool) : State × Option Reply :=
  let role := roleCode c.role
  match s.commitStatus role page with
  | .ok =>
    let go := decide (page = pgSnd) && s.goStaged
    let (res, s0) := s.commitResult page
    let s1 := (s0.commitApply role page).setLast page (stageRole page role) .ok
    let result : Word := if asked then res else 0
    if go then
      let x := s1.txRequest c
      (x.1, x.2.map (fun r => { r with result := result }))
    else (s1, some ⟨.ok, result, []⟩)
  | st =>
    let u := undo.commitRefused s role page st
    (if c.q.isNone then u.windowSeq else u, some (.st st))

end Sys2Proof.Machine
end

