-- ==== Sys2Proof/Machine/Writes.lean ====
section
/-! DEFINITION. Register reads and writes (R365 to R369, R373, R377, R378, R386, R499): the refusals in their order, what each register does when it is read or written, and the commit that may follow. -/

namespace Sys2Proof.Machine

/-- One register of a write: its address, the word, and the bits that the command writes. -/
structure RegWrite where
  addr : Nat
  value : Word
  mask : Word
deriving DecidableEq, Repr

/-- The value of the written bits: those that W1C and WO bits act on (R377). -/
def RegWrite.act (w : RegWrite) : Word := w.value &&& w.mask

/-- Whether a write reaches a field. -/
def RegWrite.touches (w : RegWrite) (f : Fld) : Bool := !(w.mask &&& maskOf f.hi f.lo == 0)

/-! ### Where an access lands -/

/-- The key that a write stages or changes: a register of the stream or bundle window under its own address (R545), any other where the address leads. -/
def State.writeKey (s : State) (role addr : Nat) : Option Nat := if isWindowKey addr then some addr else s.resolve role true addr

/-- Whether a register reads as a word of a table behind an index (R263, R273). -/
def isTableKey (key : Nat) : Bool := decide (key = keyOf pgCal calWinData) || decide (key = keyOf pgSnd sndFirData)

/-- The word that a write of some bits starts from: staged values where it stages, values in force elsewhere (R377). -/
def State.oldWord (s : State) (role key : Nat) : Word :=
  let page := key / 0x400
  let off := key % 0x400
  if isWindowKey key then s.window role off (s.inForceKey role key)
  else
    let r := stageRole (homePage key) role
    let w := s.stg r key
    if isTableKey key ∨ (isCandKey key ∧ (s.staged? r key).isNone) then overlay w off (s.view role page off) else w

/-- The word that a write gives a register. -/
def State.newWord (s : State) (role key : Nat) (w : RegWrite) : Word := merge (s.oldWord role key) w.value w.mask

/-! ### Refusals (R365, R373, R378, R391) -/

/-- Whether an access is malformed or names an unallocated page. -/
def badAccess (addr count : Nat) : Bool :=
  decide (2 ^ 20 ≤ addr) || decide (addr % 4 ≠ 0) || decide (count = 0) || decide (256 < count) || decide (0x400 < addr % 0x400 + 4 * count) ||
  (kindOfPage (addr / 0x400)).isNone

/-- The addresses of an access. -/
def addrsOf (addr count : Nat) : List Nat := (List.range count).map (fun i => addr + 4 * i)

/-- With both firmware slots failed only the ID page and the two-wire page answer (R471). -/
def State.pageAnswers (s : State) (page : Nat) : Bool := decide (s.boot ≠ .bankOnly) || decide (page = pgId) || decide (page = pgTwb)

/-- Whether a write of an address completes SEALED: an SX register, a block register of the SMC view that is no selection register (R327, R369). -/
def sealedAddr (addr : Nat) : Bool :=
  let page := addr / 0x400
  let off := addr % 0x400
  (match rowOf addr with
   | some r => decide (r.sx ≠ 0)
   | none => false) ||
  (decide (0x100 ≤ page) && decide (page ≤ 0x103) && decide (0x040 ≤ off) &&
    !((decide (page = 0x102) && (decide (off = 0x04C) || decide (off = 0x060))) || (decide (page = 0x103) && decide (off = 0x040))))

/-- The first status that refuses a write before its values are known (R378, R391). -/
def State.writeRefusal (s : State) (r : Role) (addr count : Nat) : Status :=
  if badAccess addr count then .badArg
  else if !s.pageAnswers (addr / 0x400) then .notReady
  else if !s.present (addr / 0x400) then .absentUnit
  else if (addrsOf addr count).any (fun a => !s.mayWrite r a) then .accessDenied
  else if (addrsOf addr count).any sealedAddr then .sealed
  else .ok

/-- Whether the RW fields that a write reaches take values in their ranges, and the relations between them hold. -/
def State.valueOk (s : State) (role : Nat) (w : RegWrite) : Bool :=
  match s.writeKey role w.addr with
  | none => true
  | some key =>
    match rowOf key, kindOfPage (key / 0x400) with
    | some r, some k =>
      let new := s.newWord role key w
      (rangesOf k).all (fun x =>
        !(x.covers (key % 0x400)) || !w.touches x.f || decide (r.rw / 2 ^ x.f.lo % 2 = 0)
          || (decide (x.lo ≤ fieldOf new x.f.hi x.f.lo) && decide (fieldOf new x.f.hi x.f.lo ≤ x.hi))) && relationsOk key new
    | _, _ => true

/-- The detectors that a page holds (Table 19.1). -/
def hasDetector (page det : Nat) : Bool :=
  match kindOfPage page with
  | some .flt | some .clk => decide (1 ≤ det) && decide (det ≤ 5)
  | some .slc | some .bed | some .strm => decide (det = 0x80)
  | some .sieve => decide (det = 1) || (decide (0x80 ≤ det) && decide (det < 0x84))
  | some .dec => decide (0x80 ≤ det) && decide (det < 0x98)
  | some .inp | some .sec => decide (det = 1)
  | some .pwr | some .prt | some .loam | some .tel | some .twb | some .snd | some .aud => decide (det = 1) || decide (det = 2)
  | some .pmb => decide (1 ≤ det) && decide (det ≤ 3)
  | some .smc0 => decide (1 ≤ det) && decide (det ≤ 4)
  | _ => false

/-- Whether the injection registers of a page hold what R499 accepts, as a command leaves them: MODE 0, or a detector of the page and, in MODE 3, a count. -/
def State.injectOk (s : State) (role page : Nat) (ws : List RegWrite) : Bool :=
  let word : Nat → Word := fun off => match ws.find? (fun (w : RegWrite) => w.addr = page * 0x400 + off) with
    | some w => s.newWord role w.addr w
    | none => s.reg (page * 0x400 + off)
  if ws.any (fun w => w.addr = page * 0x400 + 0x020) then
    let mode := fieldOf (word 0x020) 31 30
    mode = 0 || (hasDetector page (fieldOf (word 0x020) 7 0) && (decide (mode ≠ 3) || !(word 0x024 == (0 : Word))))
  else true

/-- The status that the values of a write give before anything is written: out of range, an injection that R499 refuses, a rung that R442 refuses. -/
def State.valueStatus (s : State) (role page : Nat) (ws : List RegWrite) : Status :=
  if ws.any (fun w => !s.valueOk role w) ∨ !s.injectOk role page ws then .badArg
  else match ws.find? (fun w => w.addr = keyOf pgPwr pwrTarget && w.touches pwrTarget) with
    | some w => (s.writeTarget (s.newWord role w.addr w)).2
    | none => .ok

/-! ### What a write does -/

/-- PG_CTL.SRESET (Table 13.2): staged values discarded, events cleared, injection stopped. -/
def State.sreset (s : State) (role page : Nat) : State :=
  let s1 := s.unstage page (stageRole page role)
  let s2 := (s1.setReg (page * 0x400 + 0x010) 0).setReg (page * 0x400 + 0x018) 0
  (s2.put page pgMode 0).put page pgInjCnt 0

/-- A write of a port's EN from 1 to 0: DOWN from any state, lanes and forwarded clock at common mode (R342, Table 12.6). -/
def State.portOff (s : State) (p : Port) : State := (s.portDrop p false false).clkEvaluate

/-- A write of CAL_WIN_DATA reaches word IDX of the load buffer alone (R263). -/
def State.calWinWrite (s : State) (w : Word) : State :=
  if s.get pgCal calBank = 1 then s.setReg (calKey 1 (s.get pgCal calIdx)) w else s

/-- An access to CAL_WIN_DATA moves IDX on. -/
def State.calWinNext (s : State) : State := s.put pgCal calIdx ((s.get pgCal calIdx + 1) % 512)

/-- A write of SND_FIR_DATA gives tap SND_FIR_IDX (R273). -/
def State.firWrite (s : State) (w : Word) : State := s.setReg (firKey (s.get pgSnd sndFirIdx)) (w &&& 0xFFFF)

/-- An access to SND_FIR_DATA moves the index on. -/
def State.firNext (s : State) : State := s.put pgSnd sndFirIdx ((s.get pgSnd sndFirIdx + 1) % 64)

/-- Whether the tag of a packet that a plain register write completes in the mailbox verifies: the write carries no verdict, and takes a free value (logs 4, 5, 9). -/
def State.freeTag (s : State) : Bool × State :=
  let (i, s1) := s.draw
  ((Config.freeValue i).getLsbD 0, s1)

/-- What a probe that a plain register write starts reads as VOUT_MODE: a free value, no answer among them (logs 4, 9). -/
def State.freeMode (s : State) : Option (BitVec 8) × State :=
  let (i, s1) := s.draw
  let v := Config.freeValue i
  (if v.getLsbD 0 then some (v.extractLsb' 8 8) else none, s1)

/-- The slot whose ADDR register lies at an offset of the PMB page. -/
def pmbSlotAt (off : Nat) : Option (Fin 4) := if h : 0x044 ≤ off ∧ off < 0x064 ∧ off % 8 = 4 then some ⟨(off - 0x044) / 8, by omega⟩ else none

/-- What a register does besides taking its bits when it is written; `old` is the state before the write. -/
def State.onWrite (old s : State) (key : Nat) (w : RegWrite) (new : Word) : State :=
  let page := key / 0x400
  let off := key % 0x400
  match kindOfPage page with
  | some .pwr =>
    if off = 0x040 then (if w.touches pwrTarget then (old.writeTarget new).1 else s)
    else if off = 0x048 then s.updPwr (fun p => { p with suspended := false })
    else s
  | some .pmb =>
    match pmbSlotAt off with
    | some k =>
      if s.get pgPmb (pmbAddr.nth k.val) = old.get pgPmb (pmbAddr.nth k.val) then s
      else
        let (m, s1) := s.freeMode
        s1.pmbProbe k m
    | none => s
  | some .twb =>
    if off = 0x064 then
      let (t, s1) := s.freeTag
      s1.mboxIn new t
    else s
  | some .flt => if off = 0x06C then s.ackLog (fieldOf w.act 15 0) else s
  | some .prt =>
    let p : Port := if page = 0x004 then 0 else 1
    if off = 0x044 ∧ old.flag page prtEn ∧ !s.flag page prtEn then s.portOff p else s
  | some .cal => if off = 0x054 then (old.calWinWrite new).calWinNext else s
  | some .snd =>
    if off = 0x154 then (old.firWrite new).firNext
    else if off = 0x040 then
      let s1 := if bitAt w.act.toNat 31 then s.clearMask else s
      if w.touches sndReturn then s1.returnWritten else s1
    else s
  | _ => s

/-- The staging part of one register of a write: its RS bits, and the WO bits that act at a commit. -/
def State.stageReg (s : State) (role : Nat) (w : RegWrite) : State :=
  match s.writeKey role w.addr with
  | none => s
  | some key => if stageMask key = 0 then s else s.stage (stageRole (homePage key) role) key (s.newWord role key w)

/-- One register written (R369): SRESET first, then its RS bits staged, its RW bits in force, its W1C bits cleared, and what the register does besides. Reserved registers take nothing. -/
def State.writeReg (s : State) (role : Nat) (w : RegWrite) : State :=
  match s.writeKey role w.addr with
  | none => s
  | some key =>
    match rowOf key with
    | none => s
    | some r =>
      let s0 := if key % 0x400 = 0x008 ∧ key / 0x400 < 0x400 ∧ bitAt w.act.toNat 1 then s.sreset role (key / 0x400) else s
      let new := s0.newWord role key w
      let s1 := s0.stageReg role w
      let s2 := if r.rw = 0 then s1 else s1.setReg key (merge (s1.reg key) new (BitVec.ofNat 32 r.rw))
      let s3 := if r.w1c = 0 then s2 else s2.setReg key (s2.reg key &&& ~~~ (w.act &&& BitVec.ofNat 32 r.w1c))
      State.onWrite s0 s3 key w new

/-- Whether a write writes 1 to PG_COMMIT.COMMIT. -/
def RegWrite.commits (w : RegWrite) : Bool := decide (w.addr % 0x400 = 0x02C) && bitAt w.act.toNat 0

/-- A write command of a caller: refused under R378, or every register written and, where it commits, the page committed. `asked` is the COMMIT bit of the command; `each` writes one register. -/
def State.writeWith (s : State) (each : State → RegWrite → State) (c : Caller) (ws : List RegWrite) (asked : Bool) : State × Option Reply :=
  match ws with
  | [] => (s, some (.st .badArg))
  | w :: _ =>
    let page := w.addr / 0x400
    let role := roleCode c.role
    match s.writeRefusal c.role w.addr ws.length with
    | .absentUnit => (s.raiseAbsent page role, some (.st .absentUnit))
    | .ok =>
      match s.valueStatus role page ws with
      | .ok =>
        let s1 := ws.foldl each s
        if asked ∨ ws.any (·.commits) then State.commitPage s1 (ws.foldl (fun s w => s.stageReg role w) s) c page asked
        else (s1, some (.st .ok))
      | st => (s, some (.st st))
    | st => (s, some (.st st))

/-- A write command, each register written as its access class says. -/
def State.writeCommand (s : State) (c : Caller) (ws : List RegWrite) (asked : Bool) : State × Option Reply :=
  s.writeWith (fun s w => s.writeReg (roleCode c.role) w) c ws asked

/-! ### Reads -/

/-- The first status that refuses a read (R365, R373, R378). -/
def State.readRefusal (s : State) (r : Role) (addr count : Nat) : Status :=
  if badAccess addr count then .badArg
  else if !s.pageAnswers (addr / 0x400) then .notReady
  else if (addrsOf addr count).any (fun a => !s.mayRead r a) then .accessDenied
  else .ok

/-- What a read of a register changes: RC bits go back to their reset value, a table window moves on, TWB_MBOX_OUT gives up its word (R263, R273, R369, R387). -/
def State.onRead (s : State) (role addr : Nat) : State :=
  if !s.present (addr / 0x400) then s
  else match s.resolve role false addr with
    | none => s
    | some key =>
      match rowOf key with
      | none => s
      | some r =>
        let s1 := if r.rc = 0 then s else s.setReg key (merge (s.reg key) (resetOf key) (BitVec.ofNat 32 r.rc))
        if key = keyOf pgCal calWinData then s1.calWinNext
        else if key = keyOf pgSnd sndFirData then s1.firNext
        else if key = keyOf pgTwb twbMboxOut then s1.mboxOut
        else s1

/-- The words of a read, all at one instant (R378). -/
def State.readWords (s : State) (role addr count : Nat) : List Word := (addrsOf addr count).map (fun a => s.readWord role a)

/-- The words that a refused read returns: zeros (R365, R373). -/
def zerosFor (count : Nat) : List Word := if count ≤ 256 then List.replicate count 0 else []

/-- A read command of a caller: COUNT and the words; zeros where it is refused (R373, R377). -/
def State.readCommand (s : State) (c : Caller) (addr count : Nat) : State × Reply :=
  let role := roleCode c.role
  match s.readRefusal c.role addr count with
  | .ok => ((addrsOf addr count).foldl (fun s a => s.onRead role a) s, ⟨.ok, BitVec.ofNat 32 count, quadsOf (s.readWords role addr count)⟩)
  | st => (s, ⟨st, 0, quadsOf (zerosFor count)⟩)

end Sys2Proof.Machine
end

