-- ==== Sys2Proof/Machine/Commands.lean ====
section
/-! DEFINITION. The register commands (R377, R378), and the commands that are one register write, one register read or one commit, made by the command at the front of Q0 or Q1 or through the direct window (R385, R386). -/

namespace Sys2Proof.Machine

/-- Words after C0 of a register write of n registers: four registers a word (R377). -/
def dataWords (n : Nat) : Nat := (n + 3) / 4

/-- The opcode and the LEN of a caller's packet, which the direct window does not have. -/
def formFits (c : Caller) (ops : List Nat) (len : Nat) : Bool :=
  match c.q with
  | some _ => ops.contains c.w.head.op && decide (clearLen c.w.head = len)
  | none => true

/-- REG_READ (R2, R4, R365, R373, R377, R378). -/
def execRegRead (q : CQueue) (addr count : Nat) (s : State) : Host.Outcome State Fault Refusal :=
  .next (s.viaOps [0x01] (.cmd q) addr (fun c s =>
    if formFits c [0x01] 0 then
      let x := s.readCommand c addr count
      (x.1, some x.2)
    else (s, some (.st .badArg))))

/-- REG_WRITE (R377, R378): COUNT registers from ADDR, and a commit where its COMMIT bit is 1. -/
def execRegWrite (q : CQueue) (addr count : Nat) (words : List Word) (commit : Bool) (s : State) : Host.Outcome State Fault Refusal :=
  .next (s.viaOps [0x02] (.cmd q) addr (fun c s =>
    if formFits c [0x02] (dataWords count) ∧ 1 ≤ count ∧ count ≤ 256 then
      s.writeCommand c ((List.range count).map (fun i => ⟨addr + 4 * i, words.getD i 0, BitVec.allOnes 32⟩)) commit
    else (s, some (.st .badArg))))

/-- REG_MODIFY (R377): the bits of MASK of one register. -/
def execRegModify (q : CQueue) (addr : Nat) (mask value : Word) (commit : Bool) (s : State) : Host.Outcome State Fault Refusal :=
  .next (s.viaOps [0x03] (.cmd q) addr (fun c s =>
    if formFits c [0x03] 1 then s.writeCommand c [⟨addr, value, mask⟩] commit else (s, some (.st .badArg))))

/-! ### One register written -/

/-- Registers written whole, as the front command of a queue or through the direct window. -/
def State.writeVia (s : State) (src : Src) (ws : List (Nat × Word)) (each : State → Nat → RegWrite → State) (asked : Bool) : State :=
  s.viaWrite src ((ws.map (·.1)).headD 0) (fun c s =>
    if formFits c writeOps 1 then
      s.writeWith (fun s w => each s (roleCode c.role) w) c (ws.map (fun x => ⟨x.1, x.2, BitVec.allOnes 32⟩)) asked
    else (s, some (.st .badArg)))

/-- One register written whole. -/
def State.writeOne (s : State) (src : Src) (addr : Nat) (w : Word) : State := s.writeVia src [(addr, w)] State.writeReg false

/-- PLAIN_REGISTER_WRITE (R369): a write takes effect under the access class of each bit. -/
def execPlainRegisterWrite (src : Src) (addr : Nat) (w : Word) (s : State) : Host.Outcome State Fault Refusal := .next (s.writeOne src addr w)

/-- SRESET (Table 13.2): a write of 1 to PG_CTL.SRESET, EN as it is staged. -/
def execSreset (src : Src) (page : Nat) (s : State) : Host.Outcome State Fault Refusal :=
  .next (s.viaWrite src (page * 0x400 + 0x008) (fun c s =>
    if formFits c writeOps 1 then s.writeCommand c [⟨page * 0x400 + 0x008, 2, 2⟩] false else (s, some (.st .badArg))))

/-- EVT_PEND_CLEAR (R376): a W1C write of PG_EVT_PEND. -/
def execEvtPendClear (src : Src) (page : Nat) (w : Word) (s : State) : Host.Outcome State Fault Refusal :=
  .next (s.writeOne src (page * 0x400 + 0x018) w)

/-- INJECT_ARM (R499, R500): PG_INJ and PG_INJ_CNT written by one command of a queue; through the direct window, which writes register by register, PG_INJ_CNT and then PG_INJ. -/
def execInjectArm (src : Src) (page mode det count : Nat) (s : State) : Host.Outcome State Fault Refusal :=
  let inj := place 31 30 mode ||| place 7 0 det
  let cnt := place 31 0 count
  let base := page * 0x400
  match src with
  | .cmd _ => .next (s.writeVia src [(base + 0x020, inj), (base + 0x024, cnt)] State.writeReg false)
  | .window => .next ((s.writeOne src (base + 0x024) cnt).writeOne src (base + 0x020) inj)

/-- RUNG_TARGET_WRITE (R442): a write of PWR_RUNG. -/
def execRungTargetWrite (src : Src) (w : Word) (s : State) : Host.Outcome State Fault Refusal := .next (s.writeOne src (keyOf pgPwr pwrTarget) w)

/-- HRCFG_WRITE (R440): a write of PWR_HRCFG ends a suspension of restores. -/
def execHrcfgWrite (src : Src) (w : Word) (s : State) : Host.Outcome State Fault Refusal := .next (s.writeOne src (pgPwr * 0x400 + 0x048) w)

/-- The write of a slot's ADDR register, with the VOUT_MODE that its probe reads (R435, Table 16.3). -/
def State.addrWrite (s : State) (slot : Fin 4) (mode : Option (BitVec 8)) (role : Nat) (w : RegWrite) : State :=
  let old := s.get pgPmb (pmbAddr.nth slot.val)
  let key := keyOf pgPmb (pmbAddr.nth slot.val)
  let rw : Nat := match rowOf key with
    | some r => r.rw
    | none => 0
  let s1 := s.setReg key (merge (s.reg key) (s.newWord role key w) (BitVec.ofNat 32 rw))
  if s1.get pgPmb (pmbAddr.nth slot.val) = old then s1 else s1.pmbProbe slot mode

/-- PMB_ADDR_WRITE (R435, Table 16.3): a changed ADDR probes the slot again. -/
def execPmbAddrWrite (src : Src) (slot : Fin 4) (w : Word) (mode : Option (BitVec 8)) (s : State) : Host.Outcome State Fault Refusal :=
  .next (s.writeVia src [(keyOf pgPmb (pmbAddr.nth slot.val), w)] (fun s role x => s.addrWrite slot mode role x) false)

/-- One field of a register written by REG_MODIFY, as its front command or through the direct window. -/
def State.modifyVia (s : State) (src : Src) (page : Nat) (f : Fld) (v : Nat) : State :=
  s.viaWrite src (keyOf page f) (fun c s =>
    if formFits c writeOps 1 then s.writeCommand c [⟨keyOf page f, place f.hi f.lo v, maskOf f.hi f.lo⟩] false else (s, some (.st .badArg)))

/-- TX_RETURN_WRITE (R289, Table 10.3): a write of SND_RETURN moves the transmitter between OFF and WARM. -/
def execTxReturnWrite (src : Src) (ret : Nat) (s : State) : Host.Outcome State Fault Refusal := .next (s.modifyVia src pgSnd sndReturn ret)

/-- MASK_CLEAR (R275): a write of MASK_CLEAR clears MASK_LOCK. -/
def execMaskClear (src : Src) (s : State) : Host.Outcome State Fault Refusal := .next (s.modifyVia src pgSnd sndMaskClear 1)

/-- PORT_DISABLE (R342, Table 12.6): a write of EN = 0 on a port page. -/
def execPortDisable (src : Src) (p : Port) (s : State) : Host.Outcome State Fault Refusal := .next (s.modifyVia src (pgPort p) prtEn 0)

/-- FLT_LOG_ACK (R505): entries up to a SEQ retired. -/
def execFltLogAck (src : Src) (seq : Nat) (s : State) : Host.Outcome State Fault Refusal := .next (s.writeOne src (keyOf pgFlt fltLogAck) (place 15 0 seq))

/-- MBOX_IN_WORD (R387): a word written to TWB_MBOX_IN, with the verdict on the tag of the packet that it may complete. -/
def execMboxInWord (src : Src) (w : Word) (tagOk : Bool) (s : State) : Host.Outcome State Fault Refusal :=
  .next (s.writeVia src [(keyOf pgTwb twbMboxIn, w)] (fun s _ x => s.mboxIn x.value tagOk) false)

/-! ### One register read -/

/-- One register read, as the front command of a queue or through the direct window, which records status and address and shows the bytes (R386, R391). -/
def State.readVia (s : State) (src : Src) (addr : Nat) : State :=
  match src with
  | .cmd _ => s.viaOps [0x01] src addr (fun c s =>
      if formFits c [0x01] 0 then
        let x := s.readCommand c addr 1
        (x.1, some x.2)
      else (s, some (.st .badArg)))
  | .window =>
    if s.windowOpen then
      let x := s.readCommand ⟨s.windowRole, none, noWords, none⟩ addr 1
      let y := (x.1.put pgTwb twbLastAddr addr).put pgTwb twbLastStatus x.2.status.code
      y.updTwb (fun t => { t with driven := ((x.2.data.flatMap wordsOf).take 1).flatMap wordBytes })
    else s

/-- MBOX_OUT_READ (R387): a read of TWB_MBOX_OUT takes the next word of the oldest answer. -/
def execMboxOutRead (src : Src) (s : State) : Host.Outcome State Fault Refusal := .next (s.readVia src (keyOf pgTwb twbMboxOut))

/-- CAL_WIN_ACCESS (R263): CAL_WIN_DATA written or read; IDX moves on. -/
def execCalWinAccess (src : Src) (w : Option Word) (s : State) : Host.Outcome State Fault Refusal :=
  match w with
  | some v => .next (s.writeOne src (keyOf pgCal calWinData) v)
  | none => .next (s.readVia src (keyOf pgCal calWinData))

/-- FIR_TAP_ACCESS (R273): SND_FIR_DATA written or read; the index moves on. -/
def execFirTapAccess (src : Src) (w : Option Word) (s : State) : Host.Outcome State Fault Refusal :=
  match w with
  | some v => .next (s.writeOne src (keyOf pgSnd sndFirData) v)
  | none => .next (s.readVia src (keyOf pgSnd sndFirData))

/-! ### One commit -/

/-- A write of 1 to PG_COMMIT.COMMIT, or a command whose COMMIT bit is 1 and that stages nothing new (R371). -/
def State.commitVia (s : State) (src : Src) (page : Nat) : State :=
  s.viaWrite src (page * 0x400 + 0x02C) (fun c s =>
    if formFits c writeOps 1 then
      s.writeCommand c [⟨page * 0x400 + 0x02C, 1, 1⟩] (decide (c.q ≠ none))
    else (s, some (.st .badArg)))

/-- The role code under which a source's commit would run, for the rows that name what it has staged: the role of the front command's session, or that of the direct window. -/
def State.srcRole (s : State) (src : Src) : Nat :=
  match src with
  | .window => roleCode s.windowRole
  | .cmd q => match s.q.cmd[q] with
    | [] => 0
    | w :: _ => match w.head.auth with
      | some a => match s.findSession false a.sid with
        | some k => roleCode (roleOfSlot false k)
        | none => 0
      | none => roleCode (s.clearRole q w)

/-- A commit of a page, when the source has staged on it what the row names; nothing otherwise (log 3). -/
def State.commitIf (s : State) (src : Src) (page : Nat) (staged : Nat → Bool) : Host.Outcome State Fault Refusal :=
  if staged (s.srcRole src) then .next (s.commitVia src page) else .next s

/-- COMMIT (R370 to R372). -/
def execCommit (src : Src) (page : Nat) (s : State) : Host.Outcome State Fault Refusal := .next (s.commitVia src page)

/-- SNAP_ARM (R86, R87, Table 3.4): a commit with ARM = 1. -/
def execSnapArm (src : Src) (c : SnapCh) (s : State) : Host.Outcome State Fault Refusal := s.commitIf src pgAln (fun role => s.snapStages role c alnArm)

/-- SNAP_READ (R87, R89): a commit with READ = 1. -/
def execSnapRead (src : Src) (c : SnapCh) (s : State) : Host.Outcome State Fault Refusal := s.commitIf src pgAln (fun role => s.snapStages role c alnRead)

/-- SNAP_DISCARD (R87): a commit with DISCARD = 1. -/
def execSnapDiscard (src : Src) (c : SnapCh) (s : State) : Host.Outcome State Fault Refusal := s.commitIf src pgAln (fun role => s.snapStages role c alnDiscard)

/-- DEC_ENABLE (R152): a commit with EN = 1 of a decoder. -/
def execDecEnable (src : Src) (d : DecId) (s : State) : Host.Outcome State Fault Refusal :=
  s.commitIf src pgDec (fun role => s.decStaged role d && (s.decWanted role d).1)

/-- DEC_DISABLE (R152): a commit with EN = 0 of a decoder. -/
def execDecDisable (src : Src) (d : DecId) (s : State) : Host.Outcome State Fault Refusal :=
  s.commitIf src pgDec (fun role => s.decStaged role d && !(s.decWanted role d).1)

/-- SVC_ENABLE (R173): a commit that enables a slot. -/
def execSvcEnable (src : Src) (v : SvcId) (s : State) : Host.Outcome State Fault Refusal := s.commitIf src (pgSvc v) (fun _ => s.svcEnables v)

/-- SVC_DISABLE (R173): a commit that disables a slot. -/
def execSvcDisable (src : Src) (v : SvcId) (s : State) : Host.Outcome State Fault Refusal :=
  s.commitIf src (pgSvc v) (fun _ => decide (s.stgGet 0 (pgSvc v) pgEn = 0) && decide ((s.slots[v]).state ≠ .off))

/-- CAND_WRITE (R184): an entry register of a slot written and committed, which adds, blocks or removes a candidate at the next tick. -/
def execCandWrite (src : Src) (v : SvcId) (n : CandId) (w : Word) (s : State) : Host.Outcome State Fault Refusal :=
  .next (s.writeVia src [(candKey v n, w)] State.writeReg true)

/-- STREAM_COMMIT (R222): a commit with something staged in the stream window. -/
def execStreamCommit (src : Src) (s : State) : Host.Outcome State Fault Refusal := s.commitIf src pgStrm (fun role => s.strmStaged role)

/-- BUNDLE_COMMIT (R227): a commit with something staged in the bundle window. -/
def execBundleCommit (src : Src) (s : State) : Host.Outcome State Fault Refusal := s.commitIf src pgStrm (fun role => s.bundStaged role)

/-- QUEUE_RESET (R224): a commit with QRESET = 1 staged for a queue. -/
def execQueueReset (src : Src) (q : SQueue) (s : State) : Host.Outcome State Fault Refusal :=
  s.commitIf src pgStrm (fun role => match s.staged? role (keyOf pgStrm (strmTc.nth q.val)) with
    | some w => decide (fieldOf w 8 8 = 1)
    | none => false)

/-- CAL_RUN (R256, R257): a commit of CAL_CMD with OP = RUN. -/
def execCalRun (src : Src) (s : State) : Host.Outcome State Fault Refusal := s.commitIf src pgCal (fun _ => decide (s.stgGet 0 pgCal calOp = 1))

/-- CAL_LOAD (R264): a commit of CAL_CMD with OP = LOAD. -/
def execCalLoad (src : Src) (s : State) : Host.Outcome State Fault Refusal := s.commitIf src pgCal (fun _ => decide (s.stgGet 0 pgCal calOp = 2))

/-- CAL_ABORT (R260): a commit of CAL_CMD with OP = ABORT. -/
def execCalAbort (src : Src) (s : State) : Host.Outcome State Fault Refusal := s.commitIf src pgCal (fun _ => decide (s.stgGet 0 pgCal calOp = 3))

/-- TX_REQUEST (R282, R283): a commit with GO = 1. -/
def execTxRequest (src : Src) (s : State) : Host.Outcome State Fault Refusal := s.commitIf src pgSnd (fun _ => s.goStaged)

/-- PROFILE_COMMIT (R286): a commit with a regulatory profile staged. -/
def execProfileCommit (src : Src) (s : State) : Host.Outcome State Fault Refusal := s.commitIf src pgSnd (fun _ => s.profileStaged)

/-- SND_DESIGNATE (R290): a commit that changes the designated slice. -/
def execSndDesignate (src : Src) (s : State) : Host.Outcome State Fault Refusal :=
  s.commitIf src pgSnd (fun _ => (s.staged? 0 (keyOf pgSnd sndDesig)).isSome)

/-- SEC_ROW_COMMIT (R457): a commit with tenant rows staged. -/
def execSecRowCommit (src : Src) (s : State) : Host.Outcome State Fault Refusal := s.commitIf src pgSec (fun _ => decide (s.stagedOf pgSec 0 ≠ []))

end Sys2Proof.Machine
end

