-- ==== Sys2Proof/Machine/Profiles.lean ====
section
/-! DEFINITION. Configuration profiles (R491): saved to the Loam store, loaded page by page, erased. -/

namespace Sys2Proof.Machine

/-- The offsets of a register row. -/
def RegRow.offsets (r : RegRow) : List Nat := if r.stride = 0 then [r.off] else (List.range r.count).map (fun k => r.off + r.stride * k)

/-- The rows of registers that a page shows in force: its own and, on a slice, those of its demodulator (R100). -/
def State.pageRows (s : State) (page : Nat) : List RegRow :=
  (match kindOfPage page with
   | some k => layout k
   | none => []) ++
  (match (if kindOfPage page = some .slc then slcOf (page - 0x040) else none) with
   | some i => match demodPage i (s.get page slcDemod) with
     | some p => match kindOfPage p with
       | some k => layout k
       | none => []
     | none => []
   | none => [])

/-- Whether a profile stores a register: of a page that Site owns or that lies at T0, of an entry that no tenant holds, none of the SEC rows, no window onto a table (R491). -/
def State.profiled (s : State) (page off : Nat) : Bool :=
  decide (s.pageOwner page = 0x10) && s.present page && !(decide (page = pgSec) && decide (0x080 ≤ off)) &&
  !isTableKey (page * 0x400 + off) &&
  (match s.entryOwner 0x10 page off with
   | some o => decide (o = 0x10) || decide (o = 0)
   | none => true)

/-- The registers of a page that a profile stores: address, and its RW and RS bits in force, where one differs from reset (R491). -/
def State.profilePage (s : State) (page : Nat) : List (Nat × Word) :=
  (s.pageRows page).flatMap (fun r =>
    let mask := BitVec.ofNat 32 (r.rw ||| r.rs)
    if mask = 0 then []
    else r.offsets.filterMap (fun off =>
      let w := s.readWord 0x10 (page * 0x400 + off) &&& mask
      if s.profiled page off ∧ w ≠ BitVec.ofNat 32 r.res &&& mask then some (page * 0x400 + off, w) else none))

/-- The data of a profile: address and value pairs of 8 bytes. -/
def State.profileData (s : State) : List Byte := (allPages.flatMap s.profilePage).flatMap (fun x => bytesBE 4 x.1 ++ wordBytes x.2)

/-- A profile command of Site on Q0, with a profile number of 0 to 15 (R491, log 17). -/
def State.profileCommand (s : State) (n : Nat) (act : Caller → State → State × Reply) : State :=
  s.serve 0 unassignedOps (fun c s =>
    if c.role ≠ .site then (s, some (.st .accessDenied))
    else if 16 ≤ n then (s, some (.st .badArg))
    else
      let x := act c s
      (x.1, some x.2))

/-- PROF_SAVE (R491): a record of TYPE 0x10; more than 6,144 bytes, or no place in the journal, completes NO_SPACE and stores nothing. -/
def execProfSave (n : Nat) (s : State) : Host.Outcome State Fault Refusal :=
  .next (s.profileCommand n (fun _ s =>
    let data := s.profileData
    if 6144 < data.length then (s, .st .noSpace)
    else
      let (s1, ok) := s.journal 0x10 n false 0x10 data
      (s1, .st (if ok then .ok else .noSpace))))

/-- Address and value pairs. -/
def pairsOf : List Word → List (Nat × Word)
  | a :: w :: l => (a.toNat, w) :: pairsOf l
  | _ => []

/-- One page of a profile written and committed as a REG_WRITE with COMMIT writes and commits it (R491): whether its commit completed OK. -/
def State.loadPage (s : State) (c : Caller) (page : Nat) (l : List (Nat × Word)) : State × Bool :=
  let ws : List RegWrite := (l.filter (fun x => x.1 / 0x400 = page)).map (fun x => ⟨x.1, x.2, BitVec.allOnes 32⟩)
  let role := roleCode c.role
  if ws.any (fun w => decide (s.writeRefusal c.role w.addr 1 ≠ .ok)) ∨ s.valueStatus role page ws ≠ .ok then (s, false)
  else
    let s1 := ws.foldl (fun s w => s.writeReg role w) s
    let x := State.commitPage s1 (ws.foldl (fun s w => s.stageReg role w) s) c page true
    (x.1, match x.2 with
      | some r => decide (r.status = .ok)
      | none => false)

/-- PROF_LOAD (R491): RESULT counts the pages whose commit did not complete OK. -/
def execProfLoad (n : Nat) (s : State) : Host.Outcome State Fault Refusal :=
  .next (s.profileCommand n (fun c s =>
    match s.stored 0x10 n with
    | none => (s, .st .notReady)
    | some data =>
      let l := pairsOf (wordsOfBytes data)
      let x := ((l.map (fun x => x.1 / 0x400)).eraseDups).foldl (fun (x : State × Nat) page =>
        let y := x.1.loadPage c page l
        (y.1, if y.2 then x.2 else x.2 + 1)) (s, 0)
      (x.1, ⟨.ok, BitVec.ofNat 32 x.2, []⟩)))

/-- PROF_ERASE (R491): a DELETE record. -/
def execProfErase (n : Nat) (s : State) : Host.Outcome State Fault Refusal :=
  .next (s.profileCommand n (fun _ s =>
    let (s1, ok) := s.journal 0x10 n true 0x10 []
    (s1, .st (if ok then .ok else .noSpace))))

end Sys2Proof.Machine
end

