-- ==== Sys2Proof/Machine/TwoWire.lean ====
section
/-! DEFINITION. The two-wire bus (R381 to R396): the address, write and read transfers byte by byte through the direct window, abandonment, timeouts and recovery. -/

namespace Sys2Proof.Machine

/-- Whether the two-wire block decodes addresses: straps sampled and registers open, or both firmware slots failed (R384, R471, R519). -/
def State.busOpen (s : State) : Bool := decide (s.boot = .complete) || decide (s.boot = .bankOnly)

/-- The committed bytes of an incomplete register discarded and counted (R389). -/
def State.discardPart (s : State) : State :=
  let n := if s.twb.state = .writing then s.twb.part.length else 0
  let s1 := if n = 0 then s else s.count pgTwb twbDiscardCnt n
  s1.updTwb (fun t => { t with part := [] })

/-- A transfer ended: the block waits for a START; the pointer stands. -/
def State.busIdle (s : State) : State := s.discardPart.updTwb (fun t => { t with state := .idle })

/-- A transfer abandoned (R390); nothing where none is under way. -/
def State.abandon (s : State) : State := if s.twb.state = .idle then s else s.busIdle.count pgTwb twbAbandonCnt 1

/-- The rights of the direct window for the transfer under way (R385, R398). -/
def State.busCaller (s : State) : Caller := ⟨if s.twb.site then .site else .anyone, none, noWords, none⟩

/-- TWB_ADDRESS_MATCH (R382, R384, R392, R393, R443): a START and an address. A START abandons what is under way; an address that is not the part's is not acknowledged; SLEEP acknowledges and rises, DORMANT only rises. -/
def execTwbAddressMatch (addr : Nat) (read : Bool) (s : State) : Host.Outcome State Fault Refusal :=
  if !s.busOpen then .next s
  else
    let s1 := s.abandon
    if addr ≠ 0x38 + s.twb.strap.toNat then .next s1
    else if s.pwr.rung = 5 then .next s1.wake
    else
      let s2 := s1.updTwb (fun t =>
        { t with state := if read then .reading else .addressed, site := decide (s.windowRole = .site), driven := if read then [] else t.driven })
      .next s2.wake

/-- A register written by the four data bytes of a transfer; the pointer advances (R386, R388). -/
def State.busWrite (s : State) (w : Word) : State :=
  let addr := s.twb.pointer
  let c := s.busCaller
  (State.reply c addr (s.writeCommand c [⟨addr, w, BitVec.allOnes 32⟩] false)).updTwb (fun t => { t with pointer := (addr + 4) % 2 ^ 24 })

/-- The first data byte of a register that the part refuses is not acknowledged, and the bytes up to the STOP are ignored (R391). -/
def State.busRefuse (s : State) (st : Status) : State :=
  let s1 := s.windowDone s.twb.pointer st
  let s2 := if st = .absentUnit then s1.raiseAbsent (s.twb.pointer / 0x400) (roleCode s.busCaller.role) else s1
  s2.updTwb (fun t => { t with state := .refused })

/-- One committed byte of a write transfer (R388, R389, R391). -/
def State.busByte (s : State) (b : Byte) : State :=
  let p := s.twb.part ++ [b]
  match s.twb.state with
  | .addressed =>
    if p.length < 3 then s.updTwb (fun t => { t with part := p })
    else s.updTwb (fun t => { t with state := .writing, pointer := natOfBE p, part := [], left := [] })
  | .writing =>
    let st := if s.twb.part = [] then s.writeRefusal s.busCaller.role s.twb.pointer 1 else .ok
    if st ≠ .ok then s.busRefuse st
    else if p.length < 4 then s.updTwb (fun t => { t with part := p })
    else (s.updTwb (fun t => { t with part := [] })).busWrite (BitVec.ofNat 32 (natOfBE p))
  | _ => s

/-- TWB_WRITE_TRANSFER (R386, R388, R389, R391): bytes of a write transfer after its address, and its STOP where one follows. -/
def execTwbWriteTransfer (bytes : List Byte) (stop : Bool) (s : State) : Host.Outcome State Fault Refusal :=
  if s.windowOpen ∧ (s.twb.state = .addressed ∨ s.twb.state = .writing ∨ s.twb.state = .refused) then
    let s1 := bytes.foldl (fun s b => s.busByte b) s
    .next (if stop then s1.busIdle else s1)
  else .next s

/-- A register fetched at the pointer for a read transfer: zeros where it is refused or denied (R388, R391). -/
def State.busFetch (s : State) : State :=
  let addr := s.twb.pointer
  let x := s.readCommand s.busCaller addr 1
  let y := (x.1.put pgTwb twbLastAddr addr).put pgTwb twbLastStatus x.2.status.code
  let word := (x.2.data.flatMap wordsOf).headD 0
  y.updTwb (fun t => { t with left := wordBytes word, pointer := (addr + 4) % 2 ^ 24 })

/-- Bytes driven in a read transfer (R388). -/
def State.busDrive (s : State) : Nat → State
  | 0 => s
  | n + 1 =>
    let s1 := if s.twb.left = [] then s.busFetch else s
    (s1.updTwb (fun t => { t with driven := t.driven ++ t.left.take 1, left := t.left.drop 1 })).busDrive n

/-- TWB_READ_TRANSFER (R388, R391): bytes from the pointer, and the STOP where one follows. -/
def execTwbReadTransfer (count : Nat) (stop : Bool) (s : State) : Host.Outcome State Fault Refusal :=
  if s.windowOpen ∧ s.twb.state = .reading then
    let s1 := s.busDrive count
    .next (if stop then s1.busIdle else s1)
  else .next s

/-- TWB_START_ABANDON (R389, R390): a START, or a STOP that does not lie between bytes. -/
def execTwbStartAbandon (s : State) : Host.Outcome State Fault Refusal := if s.busOpen then .next s.abandon else .next s

/-- Whether the timers of the block run: in every rung in which it holds a transfer (R393). -/
def State.busTimed (s : State) : Bool := s.busOpen && decide (s.pwr.rung ≤ 4)

/-- SCL_LOW_TIMEOUT (R379, R394): SCL low for SCL_LOW_MAX abandons the transfer; an SCL edge that is visible wins. -/
def execSclLowTimeout (seen : Bool) (s : State) : Host.Outcome State Fault Refusal :=
  if s.busTimed then
    let (src, s1) := s.evaluate pgTwb 1 (!seen)
    if src = 0 then .next (s1.race pgTwb)
    else .next ((s1.abandon.put pgTwb twbSclLow 1).finding pgTwb 1 pgTwb evTwbSclLowTimeout 0x10 src 0)
  else .next s

/-- SDA_RELEASE_TIMEOUT (R379, R395): SDA held low by the part for SDA_HOLD_MAX with no SCL edge is released; an edge that is visible wins. -/
def execSdaReleaseTimeout (seen : Bool) (s : State) : Host.Outcome State Fault Refusal :=
  if s.busTimed ∧ (s.twb.state = .addressed ∨ s.twb.state = .writing ∨ s.twb.state = .reading) then
    let (src, s1) := s.evaluate pgTwb 2 (!seen)
    if src = 0 then .next (s1.race pgTwb)
    else .next ((s1.busIdle.put pgTwb twbSdaReleased 1).finding pgTwb 2 pgTwb evTwbSdaReleased 0x10 src 0)
  else .next s

/-- NINE_CLOCK_RECOVERY (R396): the read byte under way is shifted out, its acknowledge slot is taken as a not-acknowledge, and SDA is released. -/
def execNineClockRecovery (s : State) : Host.Outcome State Fault Refusal :=
  if s.windowOpen ∧ s.twb.state = .reading then .next (s.busDrive 1).busIdle else .next s

end Sys2Proof.Machine
end

