-- ==== Sys2Proof/Machine/Dispatch.lean ====
section
/-! DEFINITION. One arm for each command: a direct call of its meaning. -/

namespace Sys2Proof.Machine

/-- The effect of a command on everything but the queue of waiting commands. -/
def exec (i : Instr) (s : State) : Host.Outcome State Fault Refusal :=
  match i with
  | .resetAssert => Sys2Proof.Machine.execResetAssert s
  | .resetRelease strap => Sys2Proof.Machine.execResetRelease strap s
  | .bootComplete modes => Sys2Proof.Machine.execBootComplete modes s
  | .commandArrival q h => Sys2Proof.Machine.execCommandArrival q h s
  | .regRead q addr count => Sys2Proof.Machine.execRegRead q addr count s
  | .regWrite q addr count words commit => Sys2Proof.Machine.execRegWrite q addr count words commit s
  | .regModify q addr mask value commit => Sys2Proof.Machine.execRegModify q addr mask value commit s
  | .plainRegisterWrite src addr w => Sys2Proof.Machine.execPlainRegisterWrite src addr w s
  | .commit src page => Sys2Proof.Machine.execCommit src page s
  | .sreset src page => Sys2Proof.Machine.execSreset src page s
  | .evtPendClear src page w => Sys2Proof.Machine.execEvtPendClear src page w s
  | .eventPacketSend owner room => Sys2Proof.Machine.execEventPacketSend owner room s
  | .injectArm src page mode det count => Sys2Proof.Machine.execInjectArm src page mode det count s
  | .sieveFrameBoundary m => Sys2Proof.Machine.execSieveFrameBoundary m s
  | .sieveEpochBoundary m slack clk => Sys2Proof.Machine.execSieveEpochBoundary m slack clk s
  | .sliceBlockBoundary m => Sys2Proof.Machine.execSliceBlockBoundary m s
  | .bedCommitBoundary => Sys2Proof.Machine.execBedCommitBoundary s
  | .followingTick ms => Sys2Proof.Machine.execFollowingTick ms s
  | .portFrame => Sys2Proof.Machine.execPortFrame s
  | .gainArrival n1 => Sys2Proof.Machine.execGainArrival n1 s
  | .acquisitionEnd n1 => Sys2Proof.Machine.execAcquisitionEnd n1 s
  | .convStartDone n1 => Sys2Proof.Machine.execConvStartDone n1 s
  | .rateChangeDone n1 => Sys2Proof.Machine.execRateChangeDone n1 s
  | .coefSwap n1 => Sys2Proof.Machine.execCoefSwap n1 s
  | .sliceSettleEnd n1 => Sys2Proof.Machine.execSliceSettleEnd n1 s
  | .surveyVisit n1 m => Sys2Proof.Machine.execSurveyVisit n1 m s
  | .snapArm src c => Sys2Proof.Machine.execSnapArm src c s
  | .snapTrigger c => Sys2Proof.Machine.execSnapTrigger c s
  | .snapCaptureDone c => Sys2Proof.Machine.execSnapCaptureDone c s
  | .snapRead src c => Sys2Proof.Machine.execSnapRead src c s
  | .snapReadoutDone c bad => Sys2Proof.Machine.execSnapReadoutDone c bad s
  | .snapDiscard src c => Sys2Proof.Machine.execSnapDiscard src c s
  | .amCarrierLock n1 => Sys2Proof.Machine.execAmCarrierLock n1 s
  | .amCarrierDrop n1 => Sys2Proof.Machine.execAmCarrierDrop n1 s
  | .pilotLock n1 => Sys2Proof.Machine.execPilotLock n1 s
  | .pilotLost n1 => Sys2Proof.Machine.execPilotLost n1 s
  | .rdsBlock n1 b ago => Sys2Proof.Machine.execRdsBlock n1 b ago s
  | .rdsGroup n1 a b c d cPrime offE need info ago => Sys2Proof.Machine.execRdsGroup n1 a b c d cPrime offE need info ago s
  | .amssBlock n1 block ok spaced ago data sid afs => Sys2Proof.Machine.execAmssBlock n1 block ok spaced ago data sid afs s
  | .demodGapRestart n1 => Sys2Proof.Machine.execDemodGapRestart n1 s
  | .drmFac n1 f m texts ago => Sys2Proof.Machine.execDrmFac n1 f m texts ago s
  | .drmSdc n1 ok m ago => Sys2Proof.Machine.execDrmSdc n1 ok m ago s
  | .drmReconfigApply n1 => Sys2Proof.Machine.execDrmReconfigApply n1 s
  | .drmSyncLost n1 gap => Sys2Proof.Machine.execDrmSyncLost n1 gap s
  | .bedNullSync k nullAgo => Sys2Proof.Machine.execBedNullSync k nullAgo s
  | .bedFib k f => Sys2Proof.Machine.execBedFib k f s
  | .bedMciComplete k => Sys2Proof.Machine.execBedMciComplete k s
  | .bedCif k cif frame soft m => Sys2Proof.Machine.execBedCif k cif frame soft m s
  | .bedReconfig k => Sys2Proof.Machine.execBedReconfig k s
  | .bedSyncLoss k => Sys2Proof.Machine.execBedSyncLoss k s
  | .bedHoldEntry k => Sys2Proof.Machine.execBedHoldEntry k s
  | .bedHoldResume k => Sys2Proof.Machine.execBedHoldResume k s
  | .bedHoldTimeout k seen => Sys2Proof.Machine.execBedHoldTimeout k seen s
  | .decEnable src d => Sys2Proof.Machine.execDecEnable src d s
  | .decDisable src d => Sys2Proof.Machine.execDecDisable src d s
  | .decSourceReady d => Sys2Proof.Machine.execDecSourceReady d s
  | .decFrame d f => Sys2Proof.Machine.execDecFrame d f s
  | .decConcealTimeout d seen => Sys2Proof.Machine.execDecConcealTimeout d seen s
  | .svcEnable src v => Sys2Proof.Machine.execSvcEnable src v s
  | .svcDisable src v => Sys2Proof.Machine.execSvcDisable src v s
  | .candWrite src v n w => Sys2Proof.Machine.execCandWrite src v n w s
  | .candGiveUp v n seen => Sys2Proof.Machine.execCandGiveUp v n seen s
  | .loudnessValid v n => Sys2Proof.Machine.execLoudnessValid v n s
  | .standbyFilled v => Sys2Proof.Machine.execStandbyFilled v s
  | .switchSplice v => Sys2Proof.Machine.execSwitchSplice v s
  | .blendEnd v => Sys2Proof.Machine.execBlendEnd v s
  | .mulchConcealExpiry v seen => Sys2Proof.Machine.execMulchConcealExpiry v seen s
  | .candFailRetry v n => Sys2Proof.Machine.execCandFailRetry v n s
  | .trialDecoderMove v => Sys2Proof.Machine.execTrialDecoderMove v s
  | .learnedIdDrop v => Sys2Proof.Machine.execLearnedIdDrop v s
  | .streamCommit src => Sys2Proof.Machine.execStreamCommit src s
  | .bundleCommit src => Sys2Proof.Machine.execBundleCommit src s
  | .queueReset src q => Sys2Proof.Machine.execQueueReset src q s
  | .packetPeriod n1 m => Sys2Proof.Machine.execPacketPeriod n1 m s
  | .bundleRelease b => Sys2Proof.Machine.execBundleRelease b s
  | .bundleDeadline b seen => Sys2Proof.Machine.execBundleDeadline b seen s
  | .streamKeySwitch n => Sys2Proof.Machine.execStreamKeySwitch n s
  | .oldStreamKeyExpiry n => Sys2Proof.Machine.execOldStreamKeyExpiry n s
  | .audMuteRampEnd => Sys2Proof.Machine.execAudMuteRampEnd s
  | .audNewClockEdge gap => Sys2Proof.Machine.execAudNewClockEdge gap s
  | .audClockQualified => Sys2Proof.Machine.execAudClockQualified s
  | .asrcLock o ratio => Sys2Proof.Machine.execAsrcLock o ratio s
  | .audClockStop seen => Sys2Proof.Machine.execAudClockStop seen s
  | .audFrameGlitch => Sys2Proof.Machine.execAudFrameGlitch s
  | .audRateWrong => Sys2Proof.Machine.execAudRateWrong s
  | .audUnderrun o => Sys2Proof.Machine.execAudUnderrun o s
  | .calRun src => Sys2Proof.Machine.execCalRun src s
  | .calStepComplete probe => Sys2Proof.Machine.execCalStepComplete probe s
  | .calRunDone inputs probe words => Sys2Proof.Machine.execCalRunDone inputs probe words s
  | .calLoad src => Sys2Proof.Machine.execCalLoad src s
  | .calAbort src => Sys2Proof.Machine.execCalAbort src s
  | .calWinAccess src w => Sys2Proof.Machine.execCalWinAccess src w s
  | .refCheck q mask => Sys2Proof.Machine.execRefCheck q mask s
  | .refCheckDone tones => Sys2Proof.Machine.execRefCheckDone tones s
  | .txRequest src => Sys2Proof.Machine.execTxRequest src s
  | .txDeferClear => Sys2Proof.Machine.execTxDeferClear s
  | .txDeferTimeout seen => Sys2Proof.Machine.execTxDeferTimeout seen s
  | .txReturnWrite src ret => Sys2Proof.Machine.execTxReturnWrite src ret s
  | .txRampUpStart gnt => Sys2Proof.Machine.execTxRampUpStart gnt s
  | .grantHeld => Sys2Proof.Machine.execGrantHeld s
  | .grantWaitExpiry seen => Sys2Proof.Machine.execGrantWaitExpiry seen s
  | .rampUpEnd => Sys2Proof.Machine.execRampUpEnd s
  | .txLastChip => Sys2Proof.Machine.execTxLastChip s
  | .grantDrop seen => Sys2Proof.Machine.execGrantDrop seen s
  | .maskViolation bins => Sys2Proof.Machine.execMaskViolation s bins
  | .rampDownEnd u => Sys2Proof.Machine.execRampDownEnd u s
  | .maskClear src => Sys2Proof.Machine.execMaskClear src s
  | .firTapAccess src w => Sys2Proof.Machine.execFirTapAccess src w s
  | .profileCommit src => Sys2Proof.Machine.execProfileCommit src s
  | .sndDesignate src => Sys2Proof.Machine.execSndDesignate src s
  | .preambleDetect searcher m => Sys2Proof.Machine.execPreambleDetect searcher m s
  | .rxHeader hdr crc => Sys2Proof.Machine.execRxHeader hdr crc s
  | .rxPacketEnd m => Sys2Proof.Machine.execRxPacketEnd m s
  | .rxInterrupted => Sys2Proof.Machine.execRxInterrupted s
  | .ptSet p srcKind src det std khz => Sys2Proof.Machine.execPtSet p srcKind src det std khz s
  | .ptDelete p u => Sys2Proof.Machine.execPtDelete p u s
  | .recRead first count => Sys2Proof.Machine.execRecRead first count s
  | .recReceipt seq digest => Sys2Proof.Machine.execRecReceipt seq digest s
  | .getCert => Sys2Proof.Machine.execGetCert s
  | .sealBreak => Sys2Proof.Machine.execSealBreak s
  | .sealRestore tamperN seen => Sys2Proof.Machine.execSealRestore tamperN seen s
  | .sxWrite v => Sys2Proof.Machine.execSxWrite v s
  | .reverify mask => Sys2Proof.Machine.execReverify mask s
  | .markSet slot mark => Sys2Proof.Machine.execMarkSet slot mark s
  | .fwInstall image => Sys2Proof.Machine.execFwInstall image s
  | .intervalBoundary p u => Sys2Proof.Machine.execIntervalBoundary p u s
  | .clocheCheckpoint u => Sys2Proof.Machine.execClocheCheckpoint u s
  | .clocheSelftest test fail => Sys2Proof.Machine.execClocheSelftest test fail s
  | .tamper => Sys2Proof.Machine.execTamper s
  | .clochePowerRestore secs => Sys2Proof.Machine.execClochePowerRestore secs s
  | .portEnable p => Sys2Proof.Machine.execPortEnable p s
  | .bitLock p => Sys2Proof.Machine.execBitLock p s
  | .blockLock p => Sys2Proof.Machine.execBlockLock p s
  | .ts1 p lane peerB peerLane serial inverted => Sys2Proof.Machine.execTs1 p lane peerB peerLane serial inverted s
  | .ts2 p => Sys2Proof.Machine.execTs2 p s
  | .delayReq p sendAt recvAt respAt => Sys2Proof.Machine.execDelayReq p sendAt recvAt respAt s
  | .delayResp p t1 t2 t3 t4 => Sys2Proof.Machine.execDelayResp p t1 t2 t3 t4 s
  | .trainingTimeout p => Sys2Proof.Machine.execTrainingTimeout p s
  | .retrainTimer p => Sys2Proof.Machine.execRetrainTimer p s
  | .healCleanMet p => Sys2Proof.Machine.execHealCleanMet p s
  | .heal p => Sys2Proof.Machine.execHeal p s
  | .healAck p => Sys2Proof.Machine.execHealAck p s
  | .linkDown p => Sys2Proof.Machine.execLinkDown p s
  | .leave p => Sys2Proof.Machine.execLeave p s
  | .blockLockLoss p => Sys2Proof.Machine.execBlockLockLoss p s
  | .align p lane crcOk => Sys2Proof.Machine.execAlign p lane crcOk s
  | .skip p lane => Sys2Proof.Machine.execSkip p lane s
  | .frameReceive p f => Sys2Proof.Machine.execFrameReceive p f s
  | .frameSendTimer q => Sys2Proof.Machine.execFrameSendTimer q s
  | .discover p count renumber => Sys2Proof.Machine.execDiscover p count renumber s
  | .ringSize p n => Sys2Proof.Machine.execRingSize p n s
  | .assign p serial pos => Sys2Proof.Machine.execAssign p serial pos s
  | .timeWord p hops corr tseq traceable devtimeTx epoch arrival residence => Sys2Proof.Machine.execTimeWord p hops corr tseq traceable devtimeTx epoch arrival residence s
  | .devtimeStep => Sys2Proof.Machine.execDevtimeStep s
  | .clockQualify p freq => Sys2Proof.Machine.execClockQualify p freq s
  | .portDisqual p edges => Sys2Proof.Machine.execPortDisqual p edges s
  | .vcoSettle => Sys2Proof.Machine.execVcoSettle s
  | .rootLock fl => Sys2Proof.Machine.execRootLock fl s
  | .acquisitionTimeout => Sys2Proof.Machine.execAcquisitionTimeout s
  | .lockLost => Sys2Proof.Machine.execLockLost s
  | .refSwitch => Sys2Proof.Machine.execRefSwitch s
  | .holdoverReentry freq => Sys2Proof.Machine.execHoldoverReentry freq s
  | .holdMaxExpiry => Sys2Proof.Machine.execHoldMaxExpiry s
  | .rungTargetWrite src w => Sys2Proof.Machine.execRungTargetWrite src w s
  | .rungStepDone => Sys2Proof.Machine.execRungStepDone s
  | .seqRestoreRaise => Sys2Proof.Machine.execSeqRestoreRaise s
  | .setpointConfirm vout => Sys2Proof.Machine.execSetpointConfirm vout s
  | .vsettleExpiry seen => Sys2Proof.Machine.execVsettleExpiry seen s
  | .hrcfgWrite src w => Sys2Proof.Machine.execHrcfgWrite src w s
  | .pmbPoll reads => Sys2Proof.Machine.execPmbPoll reads s
  | .pmbAlert reads => Sys2Proof.Machine.execPmbAlert reads s
  | .pmbAddrWrite src slot w mode => Sys2Proof.Machine.execPmbAddrWrite src slot w mode s
  | .twbAddressMatch addr read => Sys2Proof.Machine.execTwbAddressMatch addr read s
  | .twbWriteTransfer bytes stop => Sys2Proof.Machine.execTwbWriteTransfer bytes stop s
  | .twbReadTransfer count stop => Sys2Proof.Machine.execTwbReadTransfer count stop s
  | .twbStartAbandon => Sys2Proof.Machine.execTwbStartAbandon s
  | .sclLowTimeout seen => Sys2Proof.Machine.execSclLowTimeout seen s
  | .sdaReleaseTimeout seen => Sys2Proof.Machine.execSdaReleaseTimeout seen s
  | .nineClockRecovery => Sys2Proof.Machine.execNineClockRecovery s
  | .mboxInWord src w tagOk => Sys2Proof.Machine.execMboxInWord src w tagOk s
  | .mboxOutRead src => Sys2Proof.Machine.execMboxOutRead src s
  | .claimWindowClose seen => Sys2Proof.Machine.execClaimWindowClose seen s
  | .serviceWindowClose seen => Sys2Proof.Machine.execServiceWindowClose seen s
  | .sessOpen q code key nonce => Sys2Proof.Machine.execSessOpen q code key nonce s
  | .sessConfirm q id sig => Sys2Proof.Machine.execSessConfirm q id sig s
  | .sessPendingExpiry cloche k seen => Sys2Proof.Machine.execSessPendingExpiry cloche k seen s
  | .sessClose q => Sys2Proof.Machine.execSessClose q s
  | .claim q key => Sys2Proof.Machine.execClaim q key s
  | .devCert q => Sys2Proof.Machine.execDevCert q s
  | .tenantEnroll n key => Sys2Proof.Machine.execTenantEnroll n key s
  | .tenantProve n sig => Sys2Proof.Machine.execTenantProve n sig s
  | .enrollTimeout n seen => Sys2Proof.Machine.execEnrollTimeout n seen s
  | .tenantRevoke n => Sys2Proof.Machine.execTenantRevoke n s
  | .siteRelease => Sys2Proof.Machine.execSiteRelease s
  | .vendorProfile words => Sys2Proof.Machine.execVendorProfile words s
  | .vendorErase => Sys2Proof.Machine.execVendorErase s
  | .debugUnlock => Sys2Proof.Machine.execDebugUnlock s
  | .secRowCommit src => Sys2Proof.Machine.execSecRowCommit src s
  | .profSave n => Sys2Proof.Machine.execProfSave n s
  | .profLoad n => Sys2Proof.Machine.execProfLoad n s
  | .profErase n => Sys2Proof.Machine.execProfErase n s
  | .rakeSegment => Sys2Proof.Machine.execRakeSegment s
  | .fwOpen slot => Sys2Proof.Machine.execFwOpen slot s
  | .fwWrite off data => Sys2Proof.Machine.execFwWrite off data s
  | .fwCheck slot => Sys2Proof.Machine.execFwCheck slot s
  | .fwSwitch arg => Sys2Proof.Machine.execFwSwitch arg s
  | .fwSwitchRestart => Sys2Proof.Machine.execFwSwitchRestart s
  | .mramScrub region addr bad => Sys2Proof.Machine.execMramScrub region addr bad s
  | .sramScrub w => Sys2Proof.Machine.execSramScrub w s
  | .stallWatchdog page unit stalled => Sys2Proof.Machine.execStallWatchdog page unit stalled s
  | .logTailCopy => Sys2Proof.Machine.execLogTailCopy s
  | .fltLogAck src seq => Sys2Proof.Machine.execFltLogAck src seq s
  | .telemetryPeriod eyes => Sys2Proof.Machine.execTelemetryPeriod eyes s
  | .sensorRead t => Sys2Proof.Machine.execSensorRead t s
  | .railWarn rail mv low high => Sys2Proof.Machine.execRailWarn rail mv low high s
  | .ballFunc arg => Sys2Proof.Machine.execBallFunc arg s
  | .portDisable src p => Sys2Proof.Machine.execPortDisable src p s
  | .dacFifoUnderflow => Sys2Proof.Machine.execDacFifoUnderflow s
  | .ppsEdge high => Sys2Proof.Machine.execPpsEdge high s

end Sys2Proof.Machine
end

