-- ==== Sys2Proof/Safety.lean ====
section
/-! DEFINITION. What statements call a safe run: the invariants of the register file and what no command changes. -/

namespace Sys2Proof.Safety

open Sys2Proof.Machine

/-- The register file is in its canonical form: keys strictly rising, no entry equal to its reset word. -/
def RegsCanonical (s : State) : Prop := regsWf s.regs = true

/-- What the fuses hold is what they held (R1, R380, Table 17.3). -/
def FuseKept (s t : State) : Prop := t.fuse = s.fuse

/-- The RAW bit of an event is set on a page (Table 13.2, R376). -/
def Raised (s : State) (page : Nat) (ev : Ev) : Prop := (s.reg (page * 0x400 + 0x010)).getLsbD (ev.num - 1) = true

/-- Every register outside these pages is as it was. -/
def SamePages (s t : State) (pages : List Nat) : Prop := ∀ k, k / 0x400 ∉ pages → t.reg k = s.reg k

/-- Every register below the windows of streams and bundles and outside these pages is as it was. -/
def SameLow (s t : State) (pages : List Nat) : Prop := ∀ k, k / 0x400 < 0x1000 → k / 0x400 ∉ pages → t.reg k = s.reg k

/-- Every register of the pages of Table 13.1 outside these pages is as it was. -/
def SameMain (s t : State) (pages : List Nat) : Prop := ∀ k, k / 0x400 < 0x400 → k / 0x400 ∉ pages → t.reg k = s.reg k

/-- Every element of a table but one is as it was. -/
def SameBut {α : Type} {n : Nat} (v w : Vector α n) (i : Fin n) : Prop := ∀ j : Fin n, j ≠ i → w[j] = v[j]

/-- The packet at the front of a queue passes every check that comes before its command's own rules (R341, R467, Tables 13.5 and 17.7), carries one of these opcodes and n words of its own, and what waits behind it belongs to the queue: its command runs in state s1 for caller c. -/
def FrontRuns (s : State) (q : CQueue) (ops : List Nat) (n : Nat) (s1 : State) (c : Caller) : Prop :=
  ∃ (w : Waiting) (rest : List Waiting) (r : Role) (ses : Option KeySlot), s.q.cmd[q] = w :: rest ∧
    (∀ x, rest.head? = some x → queueOps q x.head.op = true) ∧ s.servesOp w.head.op = true ∧ w.head.op ∈ ops ∧ formOk w.head q = true ∧
    clearLen w.head = n ∧ (q.val = 2 → s.fuse.variant.cloche = true) ∧ (s.popCmd q).check q w = (s1, .accepted r ses) ∧ c = ⟨r, some q, w, ses⟩

/-- A register access by a source runs in state s1 for caller c: as the packet at the front of Q0 or Q1, or through the direct window while that answers (R385, R386). -/
def Runs (s : State) (src : Src) (ops : List Nat) (n : Nat) (s1 : State) (c : Caller) : Prop :=
  match src with
  | .window => s.windowOpen = true ∧ s1 = s ∧ c = ⟨s.windowRole, none, noWords, none⟩
  | .cmd q => q.val ≠ 2 ∧ FrontRuns s q ops n s1 c

/-- A write of one register, or of consecutive ones, by a source passes every check of R378: it runs in state s1 for caller c. -/
def WriteRuns (s : State) (src : Src) (ws : List RegWrite) (s1 : State) (c : Caller) : Prop :=
  Runs s src writeOps 1 s1 c ∧ s1.writeRefusal c.role ((ws.map (·.addr)).headD 0) ws.length = .ok ∧
    s1.valueStatus (roleCode c.role) ((ws.map (·.addr)).headD 0 / 0x400) ws = .ok

/-- A commit of a page by a source is accepted (R370 to R372): it runs in state s1 for caller c. -/
def CommitRuns (s : State) (src : Src) (page : Nat) (s1 : State) (c : Caller) : Prop :=
  Runs s src writeOps 1 s1 c ∧ s1.writeRefusal c.role (page * 0x400 + 0x02C) 1 = .ok ∧ s1.commitStatus (roleCode c.role) page = .ok

/-- A counter of a page has counted one, and holds at its greatest value (Table 13.2). -/
def Counts (s t : State) (page : Nat) (f : Fld) : Prop := t.get page f = min (s.get page f + 1) (2 ^ (f.hi + 1 - f.lo) - 1)

/-- A command taken from a queue has been answered last of all: the next RSEQ is used, and where the command came on the ring the answer with its opcode, its TAG and a status is the last on Q6 for Q2, on Q4 otherwise (R17, R340, Table 12.5). -/
def Answered (s t : State) (c : Caller) (st : Status) : Prop :=
  t.rseq = s.rseq + 1 ∧ (c.w.bus = false → ∃ a : Answer, a.op = c.w.head.op ∧ a.tag = c.w.head.tag ∧ a.status = st ∧ a.rseq = s.rseq ∧
    ((c.q = some 2 ∧ t.q.q6.getLast? = some (.answer a)) ∨ (c.q ≠ some 2 ∧ t.q.q4.getLast? = some a)))

/-- A record has a place in the journal, whatever its type (R480, R489). -/
def JournalFree (s : State) : Prop := s.loam.reserve = false ∧ 0 < s.loam.freeSegs

/-- A sealed value stands in the cloche's registers or keys (R307 to R309, R319, R462, R500, Tables 11.13 and 11.14). -/
def SxHolds (t : State) : SxVal → Prop
  | .refin a b => t.reg (keyOf (pgSmc 2) smc2RefinCert) = a ∧ t.reg (keyOf (pgSmc 2) smc2RefinTol) = b
  | .timeSource w => t.reg (keyOf (pgSmc 2) smc2TwMaxAge) = w
  | .detector d a b c e => t.reg (detKey d.val 0) = a &&& 0xFFF80FFF ∧ t.reg (detKey d.val 1) = b ∧ t.reg (detKey d.val 2) = c ∧ t.reg (detKey d.val 3) = e
  | .distribution i a b c => t.reg (distKey i.val 0) = a &&& 0x81FFFFFF ∧ t.reg (distKey i.val 1) = b ∧ t.reg (distKey i.val 2) = c
  | .gNom i p a b => t.reg (gnomKey i.val p.val 0) = a ∧ t.reg (gnomKey i.val p.val 1) = b
  | .antenna i p a b => t.reg (afKey i.val p.val 0) = a ∧ t.reg (afKey i.val p.val 1) = b
  | .verifierKey k cert => t.smc.verifierKeys[k] = if cert = [] then none else Config.verifierCert cert
  | .inject a b => t.reg (keyOf (pgSmc 0) pgMode) = a &&& 0xC00000FF ∧ t.reg (keyOf (pgSmc 0) pgInjCnt) = b

/-- A packet of a stream, w payload words long, has a place: in its bundle, or in its queue with its header (R224, R229). -/
def HasPlace (s : State) (d : StrmDef) (w : Nat) : Prop := d.bundled = true ∨ ∃ q : SQueue, queueOf d.queue = some q ∧ s.roomFor q (w + 1) = true

/-- A packet of a stream stands last in its bundle, or last in its queue; no other queue and no other bundle has changed (R224, R229). -/
def Placed (s t : State) (d : StrmDef) (p : Packet) : Prop :=
  if d.bundled then (t.bunds[bundOf d.bundle]).held = (s.bunds[bundOf d.bundle]).held ++ [p] ∧ SameBut s.bunds t.bunds (bundOf d.bundle) ∧ t.squeues = s.squeues
  else ∃ q : SQueue, queueOf d.queue = some q ∧ (t.squeues[q]).packets = (s.squeues[q]).packets ++ [p] ∧ SameBut s.squeues t.squeues q ∧ t.bunds = s.bunds

/-- The page of the slice, bed or sieve that an I/Q stream draws on (Table 7.2): its count of saturated samples stands there (R67, R73, R138). -/
def sourcePages (d : StrmDef) : List Nat :=
  match d.kind with
  | 1 => ((slcOf d.src).map pgSlc).toList
  | 2 => ((bedOf d.src).map pgBed).toList
  | 3 => [pgSieve]
  | _ => []

/-- A tenant's packet of a root time finds a key; any other needs none (R469, R470). -/
def KeyHeld (s : State) (owner at_ : Nat) : Prop := tenantOwned owner = false ∨ (s.keyless owner = false ∧ ∃ k, s.streamKey owner (s.time.devAt at_) = some k)

/-- A port is as it was but for the buffers that frames from it have left, which it returns as credit (R348, R349). -/
def OnlyFreed (s t : State) (p : Port) : Prop := t.ports[p] = { s.ports[p] with freed := (t.ports[p]).freed }

/-- A frame that goes to the same place with the same words as another stands on a port's lanes, or waits for them (R335, R347). -/
def OnPort (t : State) (p : Port) (f : RFrame) : Prop :=
  ∃ g : RFrame, (OutItem.frame g ∈ (t.ports[p]).out ∨ g ∈ (t.ports[p]).wait.map (·.frame)) ∧
    g.dst = f.dst ∧ g.src = f.src ∧ g.queue = f.queue ∧ g.tc = f.tc ∧ g.dual = f.dual ∧ g.len = f.len ∧ g.firstHdr = f.firstHdr ∧ g.ttl = f.ttl ∧ g.payload = f.payload

/-- No step of the part ends in a fault or a refusal. -/
def Completes (s : State) : Prop := ∃ t, step s = .next t

end Sys2Proof.Safety
end

