-- ==== Sys2Proof/WellFormed.lean ====
section
/-! DEFINITION. Which commands are well formed: every number fits the field that carries it, every list is as long as its command says. A stimulus that is not well formed is none the hardware can meet. -/

namespace Sys2Proof

/-- Whether a number fits n bits. -/
def fits (n v : Nat) : Bool := decide (v < 2 ^ n)

/-- C0 and S0 fields within their widths (Tables 12.5, 17.7). -/
def CmdHead.wf (h : CmdHead) : Bool :=
  fits 8 h.op && fits 10 h.len && fits 16 h.tag && fits 3 h.tenant &&
  (match h.auth with
   | some a => fits 64 a.ctr
   | none => true)

/-- A register address: 20 bits (R365). -/
def addrWf (a : Nat) : Bool := fits 20 a

/-- A page number of the 20-bit space. -/
def pageWf (p : Nat) : Bool := fits 10 p

/-- The fields of a ring frame within their widths (Table 12.3), payload as long as LEN. -/
def RFrame.wf (f : RFrame) : Bool :=
  fits 7 f.dst && fits 7 f.src && fits 4 f.queue && fits 2 f.tc && fits 10 f.len && decide (f.payload.length = f.len) && fits 2 f.cq &&
  fits 7 f.chops && fits 7 f.ttl && fits 2 f.crTc

/-- The index of a FIB in its transmission frame (R142). -/
def Fib.wf (f : Fib) : Bool := decide (f.index < 12)

/-- Sealed values within their fields. -/
def SxVal.wf : SxVal → Bool
  | .verifierKey _ cert => decide (cert.length ≤ 4096)
  | _ => true

/-- Whether a command is well formed. -/
def Instr.wf : Instr → Bool
  | .commandArrival _ h => h.wf
  | .regRead _ addr count => addrWf addr && fits 9 count
  | .regWrite _ addr count words _ => addrWf addr && fits 9 count && decide (words.length = count)
  | .regModify _ addr _ _ _ => addrWf addr
  | .plainRegisterWrite _ addr _ => addrWf addr
  | .commit _ page => pageWf page
  | .sreset _ page => pageWf page
  | .evtPendClear _ page _ => pageWf page
  | .injectArm _ page mode det count => pageWf page && fits 2 mode && fits 8 det && fits 32 count
  | .eventPacketSend owner _ => fits 8 owner
  | .rdsGroup _ _ _ _ _ _ _ need _ _ => need.toList.all (fun n => decide (n ≤ 16))
  | .amssBlock _ block _ _ _ _ _ _ => decide (block = 1) || decide (block = 2)
  | .bedFib _ f => f.wf
  | .refCheck _ mask => fits 4 mask
  | .refCheckDone .. => true
  | .txReturnWrite _ ret => fits 2 ret
  | .ptSet _ srcKind src det std khz => fits 2 srcKind && fits 7 src && fits 4 det && fits 3 std && fits 18 khz
  | .reverify mask => fits 4 mask
  | .frameReceive _ f => f.wf
  | .discover _ count _ => fits 8 count
  | .assign _ _ pos => fits 7 pos
  | .sxWrite v => v.wf
  | .twbAddressMatch addr _ => fits 7 addr
  | .fltLogAck _ seq => fits 16 seq
  | .vendorProfile words => decide (words.length = 34)
  | .sessOpen _ code _ _ => fits 8 code
  | .stallWatchdog page unit _ => pageWf page && fits 7 unit
  | .resetAssert => true
  | .resetRelease .. => true
  | .bootComplete .. => true
  | .sieveFrameBoundary .. => true
  | .sieveEpochBoundary .. => true
  | .sliceBlockBoundary .. => true
  | .bedCommitBoundary => true
  | .followingTick .. => true
  | .portFrame => true
  | .gainArrival .. => true
  | .acquisitionEnd .. => true
  | .convStartDone .. => true
  | .rateChangeDone .. => true
  | .coefSwap .. => true
  | .sliceSettleEnd .. => true
  | .surveyVisit .. => true
  | .snapArm .. => true
  | .snapTrigger .. => true
  | .snapCaptureDone .. => true
  | .snapRead .. => true
  | .snapReadoutDone .. => true
  | .snapDiscard .. => true
  | .amCarrierLock .. => true
  | .amCarrierDrop .. => true
  | .pilotLock .. => true
  | .pilotLost .. => true
  | .rdsBlock .. => true
  | .demodGapRestart .. => true
  | .drmFac .. => true
  | .drmSdc .. => true
  | .drmReconfigApply .. => true
  | .drmSyncLost .. => true
  | .bedNullSync .. => true
  | .bedMciComplete .. => true
  | .bedCif .. => true
  | .bedReconfig .. => true
  | .bedSyncLoss .. => true
  | .bedHoldEntry .. => true
  | .bedHoldResume .. => true
  | .bedHoldTimeout .. => true
  | .decEnable .. => true
  | .decDisable .. => true
  | .decSourceReady .. => true
  | .decFrame .. => true
  | .decConcealTimeout .. => true
  | .svcEnable .. => true
  | .svcDisable .. => true
  | .candWrite .. => true
  | .candGiveUp .. => true
  | .loudnessValid .. => true
  | .standbyFilled .. => true
  | .switchSplice .. => true
  | .blendEnd .. => true
  | .mulchConcealExpiry .. => true
  | .candFailRetry .. => true
  | .trialDecoderMove .. => true
  | .learnedIdDrop .. => true
  | .streamCommit .. => true
  | .bundleCommit .. => true
  | .queueReset .. => true
  | .packetPeriod .. => true
  | .bundleRelease .. => true
  | .bundleDeadline .. => true
  | .streamKeySwitch .. => true
  | .oldStreamKeyExpiry .. => true
  | .audMuteRampEnd => true
  | .audNewClockEdge .. => true
  | .audClockQualified => true
  | .asrcLock .. => true
  | .audClockStop .. => true
  | .audFrameGlitch => true
  | .audRateWrong => true
  | .audUnderrun .. => true
  | .calRun .. => true
  | .calStepComplete .. => true
  | .calRunDone .. => true
  | .calLoad .. => true
  | .calAbort .. => true
  | .calWinAccess .. => true
  | .txRequest .. => true
  | .txDeferClear => true
  | .txDeferTimeout .. => true
  | .txRampUpStart .. => true
  | .grantHeld => true
  | .grantWaitExpiry .. => true
  | .rampUpEnd => true
  | .txLastChip => true
  | .grantDrop .. => true
  | .maskViolation .. => true
  | .rampDownEnd _ => true
  | .maskClear .. => true
  | .firTapAccess .. => true
  | .profileCommit .. => true
  | .sndDesignate .. => true
  | .preambleDetect .. => true
  | .rxHeader .. => true
  | .rxPacketEnd .. => true
  | .rxInterrupted => true
  | .ptDelete .. => true
  | .recRead .. => true
  | .recReceipt .. => true
  | .getCert => true
  | .sealBreak => true
  | .sealRestore .. => true
  | .markSet .. => true
  | .fwInstall .. => true
  | .intervalBoundary .. => true
  | .clocheCheckpoint _ => true
  | .clocheSelftest .. => true
  | .tamper => true
  | .clochePowerRestore .. => true
  | .portEnable .. => true
  | .bitLock .. => true
  | .blockLock .. => true
  | .ts1 .. => true
  | .ts2 .. => true
  | .delayReq .. => true
  | .delayResp .. => true
  | .trainingTimeout .. => true
  | .retrainTimer .. => true
  | .healCleanMet .. => true
  | .heal .. => true
  | .healAck .. => true
  | .linkDown .. => true
  | .leave .. => true
  | .blockLockLoss .. => true
  | .align .. => true
  | .skip .. => true
  | .frameSendTimer .. => true
  | .ringSize .. => true
  | .timeWord .. => true
  | .devtimeStep => true
  | .clockQualify .. => true
  | .portDisqual .. => true
  | .vcoSettle => true
  | .rootLock .. => true
  | .acquisitionTimeout => true
  | .lockLost => true
  | .refSwitch => true
  | .holdoverReentry .. => true
  | .holdMaxExpiry => true
  | .rungTargetWrite .. => true
  | .rungStepDone => true
  | .seqRestoreRaise => true
  | .setpointConfirm .. => true
  | .vsettleExpiry .. => true
  | .hrcfgWrite .. => true
  | .pmbPoll .. => true
  | .pmbAlert .. => true
  | .pmbAddrWrite .. => true
  | .twbWriteTransfer .. => true
  | .twbReadTransfer .. => true
  | .twbStartAbandon => true
  | .sclLowTimeout .. => true
  | .sdaReleaseTimeout .. => true
  | .nineClockRecovery => true
  | .mboxInWord .. => true
  | .mboxOutRead .. => true
  | .claimWindowClose .. => true
  | .serviceWindowClose .. => true
  | .sessConfirm .. => true
  | .sessPendingExpiry .. => true
  | .sessClose .. => true
  | .claim .. => true
  | .devCert .. => true
  | .tenantEnroll .. => true
  | .tenantProve .. => true
  | .enrollTimeout .. => true
  | .tenantRevoke .. => true
  | .siteRelease => true
  | .vendorErase => true
  | .debugUnlock => true
  | .secRowCommit .. => true
  | .profSave .. => true
  | .profLoad .. => true
  | .profErase .. => true
  | .rakeSegment => true
  | .fwOpen .. => true
  | .fwWrite .. => true
  | .fwCheck .. => true
  | .fwSwitch .. => true
  | .fwSwitchRestart => true
  | .mramScrub .. => true
  | .sramScrub .. => true
  | .logTailCopy => true
  | .telemetryPeriod .. => true
  | .sensorRead .. => true
  | .railWarn .. => true
  | .ballFunc .. => true
  | .portDisable .. => true
  | .dacFifoUnderflow => true
  | .ppsEdge .. => true

end Sys2Proof
end

