-- ==== Sys2Proof/Certificates/Slice0/Obligations.lean ====
section
/-! DEFINITION. The statements for the provers. Each states what a rule of the manual says a command does, that the command completes with it, and what it leaves as it was. -/

open Sys2Proof Sys2Proof.Machine Sys2Proof.Safety

/-- A gain decision whose two frames have passed reaches the converter of an input that runs or starts and is on its ball: the gain is the decided code, the next decision moves up, and a change marks the frame with STEP, records its first sample in INP_LAST_STEP and counts in INP_STEP_CNT (R42, R46, Table 2.14). A decision that has still frames to wait changes nothing. -/
def Obligations.GainDecisionReachesConverter : Prop :=
  (∀ (s : State) (i : Inp) (f : Flight) (rest : List Flight), (s.inputs[i]).flight = f :: rest → f.left = 0 → (s.inputs[i]).onRefin = false →
    ((s.inputs[i]).conv = .run ∨ (s.inputs[i]).conv = .starting) →
    ∃ t, exec (.gainArrival i) s = .next t ∧ (t.inputs[i]).gain = f.code ∧ (t.inputs[i]).flight = rest ∧
      (t.inputs[i]).step = decide (f.code ≠ (s.inputs[i]).gain) ∧
      (f.code ≠ (s.inputs[i]).gain → t.get (pgInp i) inpStepTime = s.frameStart % 2 ^ 32 ∧ Counts s t (pgInp i) inpStepCnt) ∧
      (f.code = (s.inputs[i]).gain → t.regs = s.regs) ∧
      t = { s with inputs := t.inputs, regs := t.regs } ∧ SameBut s.inputs t.inputs i ∧ SamePages s t [pgInp i]) ∧
  (∀ (s : State) (i : Inp) (f : Flight) (rest : List Flight), (s.inputs[i]).flight = f :: rest → 0 < f.left → exec (.gainArrival i) s = .next s)

/-- Converters and sieve: the start of a converter ends after 8 µs in RUN with four epochs of acquisition (R47, Table 2.4); acquisition ends; a rate change ends after 2 µs in RUN at the rate held for it, FULL_RATE raised at full rate (Table 2.5); a coefficient set whose building began in an epoch that has ended is swapped in at an epoch boundary, COEF_GEN moves on and COEF_SWAP is raised (R84). Each leaves the other inputs as they were. Where the manual leaves a point of it open, it rests on the model's own readings: log 18. -/
def Obligations.InputTransitionsComplete : Prop :=
  (∀ (s : State) (i : Inp), (s.inputs[i]).conv = .starting → (s.inputs[i]).convAt + 8 * usTicks ≤ s.time.mono →
    ∃ t, exec (.convStartDone i) s = .next t ∧ t.inputs[i] = { s.inputs[i] with conv := .run, shownHalf := (s.inputs[i]).half, acqLeft := 4 } ∧
      t = { s with inputs := t.inputs, regs := t.regs, clk := t.clk } ∧ SameBut s.inputs t.inputs i ∧ SamePages s t [pgClk]) ∧
  (∀ (s : State) (i : Inp), ∃ t, exec (.acquisitionEnd i) s = .next t ∧ t.inputs[i] = { s.inputs[i] with acqLeft := 0 } ∧
      t = { s with inputs := t.inputs } ∧ SameBut s.inputs t.inputs i) ∧
  (∀ (s : State) (i : Inp), (s.inputs[i]).conv = .rateChange → (s.inputs[i]).convAt + 2 * usTicks ≤ s.time.mono →
    ∃ t, exec (.rateChangeDone i) s = .next t ∧ (t.inputs[i]).conv = .run ∧ (t.inputs[i]).shownHalf = (s.inputs[i]).half ∧ (t.inputs[i]).half = (s.inputs[i]).half ∧
      ((s.inputs[i]).half = false → Raised t (pgInp i) evInpFullRate) ∧
      ((s.inputs[i]).flight = [] → (t.inputs[i]).gain = (s.inputs[i]).gain) ∧ ((s.inputs[i]).flight ≠ [] → (t.inputs[i]).gain = (s.inputs[i]).pendingGain) ∧
      t = { s with inputs := t.inputs, regs := t.regs, q := t.q } ∧ SameBut s.inputs t.inputs i ∧ SamePages s t [pgInp i]) ∧
  (∀ (s : State) (i : Inp) (e : Nat), (s.inputs[i]).rebuild = some e → e < s.time.epochNo → s.time.goneEpoch = some s.time.grid →
    ∃ t, exec (.coefSwap i) s = .next t ∧ t.inputs[i] = { s.inputs[i] with rebuild := none } ∧
      t.get pgSieve sieveCoefGen = (s.get pgSieve sieveCoefGen + 1) % 256 ∧ Raised t pgSieve evSieveCoefSwap ∧
      t = { s with inputs := t.inputs, regs := t.regs, q := t.q } ∧ SameBut s.inputs t.inputs i ∧ SamePages s t [pgSieve])

/-- Each boundary command takes its boundary: the sieve frame, the sieve epoch, the slice block, the BED commit boundary and the following tick move time on to the next boundary of their kind, at a multiple of its spacing on the grid (R61, R62, R133, R172), and the commits that were captured for it and are due leave the list of waiting commits (R370, R371, Table 13.4); of the others each keeps its page, its role and its values. A sieve-frame boundary that falls with an epoch boundary is taken first; one that has been taken is not taken again. The port frame takes the commits of the AUD page while frames run and no switch is under way, and none while the outputs ramp for a switch (R248, Table 13.4). Where the manual leaves a point of it open, it rests on the model's own readings: log 2. -/
def Obligations.BoundariesTakeDueCommits : Prop :=
  (∀ (s : State) (m : Vector FrameMeas 4), ∃ t, exec (.sieveFrameBoundary m) s = .next t ∧
    t.time.mono = s.time.mono + (s.time.next .frame - s.time.grid) ∧ s.time.next .frame % 128 = 0 ∧
    t.captured.map (fun c => (c.page, c.role, c.words)) =
      (s.captured.filter (fun c => !(isInp c.page && decide (c.due ≤ s.time.next .frame)))).map (fun c => (c.page, c.role, c.words)) ∧
    (s.captured = [] → t.captured = [] ∧ t.time = s.time.take .frame) ∧
    t = { s with regs := t.regs, captured := t.captured, q := t.q, time := t.time, conds := t.conds, inputs := t.inputs, snaps := t.snaps, strms := t.strms, bunds := t.bunds,
                 pwr := t.pwr, log := t.log, temps := t.temps, cal := t.cal }) ∧
  (∀ (s : State) (m : Vector EpochMeas 4) (slack : List Nat) (clk : ClkMeas), s.time.goneFrame = some (s.time.next .epoch) →
    ∃ t, exec (.sieveEpochBoundary m slack clk) s = .next t ∧
    t.time = s.time.take .epoch ∧ t.time.grid = s.time.next .epoch ∧ t.time.grid % 524288 = 0 ∧ t.time.epochNo = s.time.epochNo + 1 ∧
    t.captured = s.captured.filter (fun c => !((decide (c.page = pgCal) || decide (c.page = pgSieve)) && decide (c.due ≤ s.time.next .epoch)))) ∧
  (∀ (s : State) (m : Vector EpochMeas 4) (slack : List Nat) (clk : ClkMeas), ∃ t, exec (.sieveEpochBoundary m slack clk) s = .next t ∧
    t.time.mono = s.time.mono + (s.time.next .epoch - s.time.grid) ∧ t.time.epochNo = s.time.epochNo + 1 ∧ (s.captured = [] → t.captured = [] ∧ t.time.goneFrame = some t.time.grid) ∧
    t = { s with freeCtr := t.freeCtr, regs := t.regs, captured := t.captured, q := t.q, time := t.time, conds := t.conds, inputs := t.inputs, snaps := t.snaps, strms := t.strms,
                 bunds := t.bunds, squeues := t.squeues, clk := t.clk, pwr := t.pwr, pmbSent := t.pmbSent, log := t.log, temps := t.temps, ports := t.ports, ring := t.ring,
                 smc := t.smc, cal := t.cal, snd := t.snd, mfp := t.mfp }) ∧
  (∀ (s : State) (m : BoundaryMeas), ∃ t, exec (.sliceBlockBoundary m) s = .next t ∧
    t.time = s.time.take .block ∧ t.time.grid = s.time.next .block ∧ t.time.grid % 1280000 = 0 ∧
    t.captured = s.captured.filter (fun c => !(isSlc c.page && decide (c.due ≤ s.time.next .block))) ∧
    t = { s with freeCtr := t.freeCtr, regs := t.regs, captured := t.captured, q := t.q, time := t.time, conds := t.conds, inputs := t.inputs, slices := t.slices, demods := t.demods,
                 planGen := t.planGen, snaps := t.snaps, beds := t.beds, decs := t.decs, slots := t.slots, strms := t.strms, bunds := t.bunds, squeues := t.squeues, log := t.log,
                 temps := t.temps, smc := t.smc, cal := t.cal }) ∧
  (∀ (s : State), ∃ t, exec .bedCommitBoundary s = .next t ∧
    t.time = s.time.take .bed ∧ t.time.grid = s.time.next .bed ∧ t.time.grid % 61440000 = 0 ∧
    t.captured = s.captured.filter (fun c => !(decide (kindCode c.page = 4) && decide (c.due ≤ s.time.next .bed))) ∧
    t = { s with regs := t.regs, captured := t.captured, q := t.q, time := t.time, conds := t.conds, slices := t.slices, planGen := t.planGen, beds := t.beds, decs := t.decs,
                 strms := t.strms }) ∧
  (∀ (s : State) (ms : List CandMeas), ∃ t, exec (.followingTick ms) s = .next t ∧
    t.time = s.time.take .tick ∧ t.time.grid = s.time.next .tick ∧ t.time.grid % 64000000 = 0 ∧
    t = { s with regs := t.regs, q := t.q, time := t.time, conds := t.conds, slices := t.slices, demods := t.demods, planGen := t.planGen, decs := t.decs, slots := t.slots,
                 afdb := t.afdb, afNext := t.afNext, survey := t.survey, strms := t.strms, loam := t.loam }) ∧
  (∀ (s : State), s.audFrames = true → (s.aud.clk ≠ .switching ∨ s.aud.ramping = true) → ∃ t, exec .portFrame s = .next t ∧ t.aud.glitches = 0 ∧
    (s.aud.clk ≠ .switching → t.captured = s.captured.filter (fun c => decide (c.page ≠ pgAud))) ∧ (s.aud.clk = .switching → t.captured = s.captured) ∧
    t = { s with regs := t.regs, captured := t.captured, q := t.q, log := t.log, temps := t.temps, aud := t.aud })

/-- An attack of the AGC: in AUTO, on an input in RUN on its ball, a frame whose peak reaches ATTACK_TH lowers the gain that the last decision will give by ATTACK_STEP, not below GAIN_MIN, and the hold counts HOLD_AFTER_ATTACK epochs (R45). What one epoch boundary does to the gain of an input in AUTO that is acquiring: the gain that the last decision will give moves by the distance to TARGET_RMS in steps of 0.5 dB, within GAIN_MIN and GAIN_MAX, and one epoch of acquisition is used up (R45, R47). Where the manual leaves a point of it open, it rests on the model's own readings: log 39. -/
def Obligations.AgcMovesGain : Prop :=
  (∀ (s : State) (m : Vector FrameMeas 4) (i : Inp), (s.inputs[i]).conv = .run → (s.inputs[i]).onRefin = false → s.get (pgInp i) inpAgcMode = 0 →
    -25 * (s.get (pgInp i) inpAttackTh : Int) ≤ (m[i]).peak → (s.inputs[i]).pendingGain ≤ s.get (pgInp i) inpGainMax → s.captured = [] →
    ∃ t, exec (.sieveFrameBoundary m) s = .next t ∧
      (t.inputs[i]).pendingGain = max (s.get (pgInp i) inpGainMin) ((s.inputs[i]).pendingGain - s.get (pgInp i) inpAttackStep) ∧
      (t.inputs[i]).hold = s.get (pgInp i) inpHoldAfterAttack ∧ (t.inputs[i]).conv = .run) ∧
  (∀ (s : State) (i : Inp) (m : EpochMeas), (s.inputs[i]).conv = .run → (s.inputs[i]).onRefin = false → s.get (pgInp i) inpAgcMode = 0 →
    0 < (s.inputs[i]).acqLeft →
    ((s.inputEpoch i m).inputs[i]).pendingGain = (clampInt (((s.inputs[i]).pendingGain : Int) + (-25 * (s.get (pgInp i) inpTargetRms : Int) - m.rms).fdiv 50)
        (s.get (pgInp i) inpGainMin) (s.get (pgInp i) inpGainMax)).toNat ∧
      ((s.inputEpoch i m).inputs[i]).acqLeft = (s.inputs[i]).acqLeft - 1)

/-- Slices and capture channels: the last settle block of a slice ends its settling (R76); a capture channel that is ARMED and whose trigger has come is CAPTURING, the pre-trigger frames kept, and with ON_OVERRANGE the trigger frame, T0 the first sample stored, SNAP_TRIGGERED (R88, Table 3.4); a capture whose frames are stored is HELD, ARM reads 0, SNAP_HELD (Table 3.4); a readout ends once its last packet is placed, or its stream is gone: IDLE, its memory released (R87, R89); a visit of the background survey that holds its bin counts down (R211). Where the manual leaves a point of it open, it rests on the model's own readings: logs 3 and 48. -/
def Obligations.SliceAndCaptureStepsComplete : Prop :=
  (∀ (s : State) (i : Slc), (s.slices[i]).settleLeft = 1 →
    ∃ t, exec (.sliceSettleEnd i) s = .next t ∧ t.slices[i] = { s.slices[i] with settleLeft := 0 } ∧ t = { s with slices := t.slices } ∧ SameBut s.slices t.slices i) ∧
  (∀ (s : State) (c : SnapCh) (ended : Nat), (s.snaps[c]).state = .armed → (s.inputs[(s.snaps[c]).cfg.input]).conv = .run → s.snapFires c = true →
      ended = (if (s.snaps[c]).cfg.trig = 2 then 1 else 0) →
    ∃ t, exec (.snapTrigger c) s = .next t ∧ (t.snaps[c]).state = .capturing ∧
      (t.snaps[c]).frames = lastN ((s.snaps[c]).cfg.pre + ended) (s.snaps[c]).frames ∧
      (t.snaps[c]).toStore = (s.snaps[c]).cfg.frames - (s.snaps[c]).cfg.pre - ended ∧
      (t.snaps[c]).t0 = s.frameStart - 128 * (t.snaps[c]).frames.length ∧ (t.snaps[c]).owner = (s.snaps[c]).owner ∧ Raised t pgAln evAlnSnapTriggered ∧
      t = { s with snaps := t.snaps, regs := t.regs, q := t.q } ∧ SameBut s.snaps t.snaps c ∧ SamePages s t [pgAln]) ∧
  (∀ (s : State) (c : SnapCh), (s.snaps[c]).state = .capturing → (s.snaps[c]).toStore = 0 →
    ∃ t, exec (.snapCaptureDone c) s = .next t ∧ t.snaps[c] = { s.snaps[c] with state := .held } ∧
      t.get pgAln (alnArm.nth c.val) = 0 ∧ Raised t pgAln evAlnSnapHeld ∧
      t = { s with snaps := t.snaps, regs := t.regs, q := t.q } ∧ SameBut s.snaps t.snaps c ∧ SamePages s t [pgAln]) ∧
  (∀ (s : State) (c : SnapCh) (bad : List Nat), (s.snaps[c]).state = .reading → s.snapStream c = none →
    ∃ t, exec (.snapReadoutDone c bad) s = .next t ∧ (t.snaps[c]).state = .idle ∧ (t.snaps[c]).bytes = 0 ∧ (t.snaps[c]).frames = [] ∧ t.get pgAln (alnArm.nth c.val) = 0 ∧
      t = { s with snaps := t.snaps, regs := t.regs } ∧ SameBut s.snaps t.snaps c ∧ SamePages s t [pgAln]) ∧
  (∀ (s : State) (c : SnapCh) (bad : List Nat) (sid : StrmId) (q : SQueue), (s.snaps[c]).state = .reading → s.snapStream c = some sid →
      queueOf (s.strmDef sid).queue = some q → (s.snaps[c]).sent < (s.snaps[c]).words → (s.snaps[c]).words ≤ (s.snaps[c]).sent + 128 →
      s.roomFor q ((s.snaps[c]).words - (s.snaps[c]).sent + 2) = true → s.keyless (s.strms[sid]).owner = false →
    ∃ t, exec (.snapReadoutDone c bad) s = .next t ∧ (t.snaps[c]).state = .idle ∧ (t.snaps[c]).bytes = 0 ∧ (t.snaps[c]).frames = [] ∧ t.get pgAln (alnArm.nth c.val) = 0 ∧
      (t.strms[sid]).seq = ((s.strms[sid]).seq + 1) % 65536 ∧ SameBut s.snaps t.snaps c ∧ SameBut s.strms t.strms sid ∧
      t = { s with regs := t.regs, q := t.q, snaps := t.snaps, strms := t.strms, bunds := t.bunds, squeues := t.squeues, log := t.log, temps := t.temps }) ∧
  (∀ (s : State) (i : Slc) (m : SurveyMeas) (x : SurveyVisit), s.survey.find? (fun y => decide (y.slice = some i)) = some x →
      (s.slices[i]).survey = true → 1 < x.left →
    ∃ t, exec (.surveyVisit i m) s = .next t ∧
      t.survey = s.survey.map (fun y => if y = x then { x with left := x.left - 1, last := s.time.mono } else y) ∧
      t = { s with slots := t.slots, afNext := t.afNext, survey := t.survey })


/-- The analogue demodulator on a slice of a host or of service following: a carrier lock in AM and its loss, a stereo pilot lock in FM and its loss show in the page of the slice and raise their events (R103, R107, Tables 4.1 and 4.2); a gap that called for a restart ends in a demodulator as at the start (R101, R126). RDS and AMSS of a slice, for bits that began after its last restart (R101): while searching, a valid block that follows the last valid one 26 bits on gains synchronisation, RDS_SYNC (R114); in synchronisation, a run of 30 uncorrectable blocks, this one the thirtieth, loses it, RDS_SYNC_LOST (R114, R115); a group whose block A is good counts in RDS_GRP_CNT and its PI waits for its repetition, here with a block B that is uncorrectable (R116, R121); the second good AMSS block in a row at the expected spacing gains AMSS synchronisation, and one at another spacing begins the count anew (R119). -/
def Obligations.AnalogueReceptionCompletes : Prop :=
  (∀ (s : State) (i : Slc), s.demodRuns i = true → s.demodOf i = 1 → s.get (pgAm i) amDet ≠ 0 → s.flag (pgAm i) amCarrierLock = false →
    ∃ t, exec (.amCarrierLock i) s = .next t ∧ t.flag (pgAm i) amCarrierLock = true ∧ (t.demods[i]).fellBack = false ∧ Raised t (pgSlc i) evSlcCarrierLock ∧
      t = { s with demods := t.demods, regs := t.regs, q := t.q } ∧ SameBut s.demods t.demods i ∧ SamePages s t [pgAm i, pgSlc i]) ∧
  (∀ (s : State) (i : Slc), s.demodRuns i = true → s.demodOf i = 1 → s.flag (pgAm i) amCarrierLock = true →
    ∃ t, exec (.amCarrierDrop i) s = .next t ∧ t.flag (pgAm i) amCarrierLock = false ∧ (t.demods[i]).fellBack = true ∧ Raised t (pgSlc i) evSlcCarrierLost ∧
      t = { s with demods := t.demods, regs := t.regs, q := t.q } ∧ SameBut s.demods t.demods i ∧ SamePages s t [pgAm i, pgSlc i]) ∧
  (∀ (s : State) (i : Slc), s.demodRuns i = true → s.demodOf i = 2 → s.flag (pgFm i) fmPilotLock = false →
    ∃ t, exec (.pilotLock i) s = .next t ∧ t.flag (pgFm i) fmPilotLock = true ∧ Raised t (pgSlc i) evSlcPilotLock ∧
      t = { s with regs := t.regs, q := t.q } ∧ SamePages s t [pgFm i, pgSlc i]) ∧
  (∀ (s : State) (i : Slc), s.demodRuns i = true → s.demodOf i = 2 → s.flag (pgFm i) fmPilotLock = true →
    ∃ t, exec (.pilotLost i) s = .next t ∧ t.flag (pgFm i) fmPilotLock = false ∧ Raised t (pgSlc i) evSlcPilotLost ∧
      t = { s with regs := t.regs, q := t.q } ∧ SamePages s t [pgFm i, pgSlc i]) ∧
  (∀ (s : State) (i : Slc), s.demodRuns i = true → (s.slices[i]).restartDue = true → s.sliceLive i = true →
    ∃ t, exec (.demodGapRestart i) s = .next t ∧ t.demods[i] = { Demod.fresh with since := s.time.mono } ∧
      t.slices[i] = { s.slices[i] with restartDue := false, gapTicks := 0 } ∧
      t.flag (pgFm i) fmRdsSync = false ∧ t.flag (pgFm i) fmPiValid = false ∧ t.flag (pgAm i) amCarrierLock = false ∧ t.flag (pgDrm i) drmFacOk = false ∧
      t = { s with slices := t.slices, demods := t.demods, regs := t.regs } ∧ SameBut s.slices t.slices i ∧ SameBut s.demods t.demods i ∧
      SamePages s t [pgAm i, pgFm i, pgDrm i]) ∧
  (∀ (s : State) (i : Slc) (b : RdsBlk) (ago : Nat) (o o' : RdsOffset), s.rdsRuns i = true → s.straddles i ago = false → (s.demods[i]).rds.sync = false →
    b.valid = some o → (s.demods[i]).rds.last = some o' → b.spaced = true → follows o' o = true →
    ∃ t, exec (.rdsBlock i b ago) s = .next t ∧ (t.demods[i]).rds.sync = true ∧ (t.demods[i]).rds.pos = posAfter o ∧ t.flag (pgFm i) fmRdsSync = true ∧
      Raised t (pgSlc i) evSlcRdsSync ∧
      t = { s with demods := t.demods, regs := t.regs, q := t.q, strms := t.strms, bunds := t.bunds, squeues := t.squeues } ∧
      SameBut s.demods t.demods i ∧ SameLow s t [pgFm i, pgSlc i, pgStrm]) ∧
  (∀ (s : State) (i : Slc) (b : RdsBlk) (ago : Nat), s.rdsRuns i = true → s.straddles i ago = false → (s.demods[i]).rds.sync = true →
    blockGood b (s.demods[i]).rds.pos (s.get (pgFm i) fmCorrMax) (s.flag (pgFm i) fmRdsStd) = false → 29 ≤ (s.demods[i]).rds.badRun →
    ∃ t, exec (.rdsBlock i b ago) s = .next t ∧ (t.demods[i]).rds.sync = false ∧ t.flag (pgFm i) fmRdsSync = false ∧
      Counts s t (pgFm i) fmRdsBadCnt ∧ Raised t (pgSlc i) evSlcRdsSyncLost ∧
      t = { s with demods := t.demods, regs := t.regs, q := t.q, strms := t.strms, bunds := t.bunds, squeues := t.squeues } ∧
      SameBut s.demods t.demods i ∧ SameLow s t [pgFm i, pgSlc i, pgStrm]) ∧
  (∀ (s : State) (i : Slc) (a b c d : GrpBlk) (ago : Nat), s.rdsRuns i = true → s.straddles i ago = false → (s.demods[i]).rds.sync = true →
    (GrpBlk.read a (s.get (pgFm i) fmCorrMax) (s.flag (pgFm i) fmRdsStd)).use = true → (GrpBlk.read b (s.get (pgFm i) fmCorrMax) (s.flag (pgFm i) fmRdsStd)).err = 7 →
    ∃ t, exec (.rdsGroup i a.raw b.raw c.raw d.raw false #v[a.offE, b.offE, c.offE, d.offE] #v[a.need, b.need, c.need, d.need] #v[a.info, b.info, c.info, d.info] ago) s = .next t ∧ (t.demods[i]).rds.piCand = some a.info.toNat ∧ Counts s t (pgFm i) fmRdsGrpCnt ∧
      ((s.demods[i]).rds.piCand = some a.info.toNat → t.flag (pgFm i) fmPiValid = true ∧ t.get (pgFm i) fmPi = a.info.toNat) ∧
      t = { s with demods := t.demods, regs := t.regs, q := t.q, strms := t.strms, bunds := t.bunds, squeues := t.squeues } ∧
      SameBut s.demods t.demods i ∧ SameLow s t [pgFm i, pgSlc i, pgStrm]) ∧
  (∀ (s : State) (i : Slc) (block ago data : Nat) (sid : Option Nat) (afs : List Freq), s.demodRuns i = true → s.demodOf i = 1 → s.flag (pgAm i) amAmssEn = true →
    s.straddles i ago = false → (s.demods[i]).amss.sync = false →
    ∃ t, exec (.amssBlock i block true false ago data sid afs) s = .next t ∧ (t.demods[i]).amss.sync = false ∧ (t.demods[i]).amss.goodRun = 1 ∧
      Counts s t (pgAm i) amAmssGood ∧ t = { s with demods := t.demods, regs := t.regs } ∧ SameBut s.demods t.demods i ∧ SamePages s t [pgAm i]) ∧
  (∀ (s : State) (i : Slc) (block ago data : Nat) (sid : Option Nat) (afs : List Freq), s.demodRuns i = true → s.demodOf i = 1 → s.flag (pgAm i) amAmssEn = true →
    s.straddles i ago = false → (s.demods[i]).amss.sync = false → (s.demods[i]).amss.goodRun = 1 →
    ∃ t, exec (.amssBlock i block true true ago data sid afs) s = .next t ∧ (t.demods[i]).amss.sync = true ∧ (t.demods[i]).amss.goodRun = 2 ∧
      t.flag (pgAm i) amAmssSync = true ∧ Counts s t (pgAm i) amAmssGood ∧ Raised t (pgSlc i) evSlcAmssSync ∧
      t = { s with demods := t.demods, regs := t.regs, q := t.q, strms := t.strms, bunds := t.bunds, squeues := t.squeues } ∧
      SameBut s.demods t.demods i ∧ SameLow s t [pgAm i, pgSlc i, pgStrm])


/-- DRM on a slice, for bits that began after its last restart (R101): a good FAC block gains synchronisation, counts, and shows its parameters with the MER of the frame (R150, R161, Table 5.21), a failed one counts and shows FAC_OK 0 (R150); an SDC that fails its CRC counts and shows SDC_OK 0 (R150); the superframe of an announced reconfiguration puts the new services in force (R150); the loss of synchronisation, by a gap of 50 ms or by its FAC, clears what was decoded and raises DRM_SYNC_LOST (R151). Where the manual leaves a point of it open, it rests on the model's own readings: log 43. -/
def Obligations.DrmReceptionCompletes : Prop :=
  (∀ (s : State) (i : Slc) (f : Fac) (m : DrmMeas) (ago : Nat), s.drmRuns i = true → s.straddles i ago = false → s.drmModeOk i f.robMode = true →
    ∃ t, exec (.drmFac i (some f) m [] ago) s = .next t ∧ (t.demods[i]).drm.synced = true ∧ (t.demods[i]).drm.facBadRun = 0 ∧
      (t.demods[i]).drm.reconf = some f.reconf ∧ t.flag (pgDrm i) drmFacOk = true ∧ t.get (pgDrm i) drmRobMode = f.robMode % 8 ∧
      Counts s t (pgDrm i) drmFacGood ∧ t.get (pgDrm i) drmMer = min m.mer 1023 ∧ t.flag (pgDrm i) drmFrameSync = true ∧
      ((s.demods[i]).drm.synced = false → Raised t (pgSlc i) evSlcDrmSync) ∧
      t = { s with demods := t.demods, regs := t.regs, q := t.q, strms := t.strms, bunds := t.bunds, squeues := t.squeues } ∧
      SameBut s.demods t.demods i ∧ SameLow s t [pgDrm i, pgSlc i, pgStrm]) ∧
  (∀ (s : State) (i : Slc) (m : DrmMeas) (ago : Nat), s.drmRuns i = true → s.straddles i ago = false → (s.demods[i]).drm.facBadRun < 7 →
    ∃ t, exec (.drmFac i none m [] ago) s = .next t ∧ (t.demods[i]).drm.facBadRun = (s.demods[i]).drm.facBadRun + 1 ∧
      (t.demods[i]).drm.synced = (s.demods[i]).drm.synced ∧ t.flag (pgDrm i) drmFacOk = false ∧ Counts s t (pgDrm i) drmFacBad ∧
      (m.frame = true → t.get (pgDrm i) drmMer = min m.mer 1023) ∧
      t = { s with demods := t.demods, regs := t.regs } ∧ SameBut s.demods t.demods i ∧ SamePages s t [pgDrm i]) ∧
  (∀ (s : State) (i : Slc) (m : Sdc) (ago : Nat), s.drmRuns i = true → s.straddles i ago = false → (s.demods[i]).drm.synced = true →
    ∃ t, exec (.drmSdc i false m ago) s = .next t ∧ t.flag (pgDrm i) drmSdcOk = false ∧ Counts s t (pgDrm i) drmSdcBad ∧ t = { s with regs := t.regs } ∧ SamePages s t [pgDrm i]) ∧
  (∀ (s : State) (i : Slc), s.drmRuns i = true → (s.demods[i]).drm.pending = true →
    ∃ t, exec (.drmReconfigApply i) s = .next t ∧ (t.demods[i]).drm.pending = false ∧
      (∀ (k : Fin 4) (v : DrmService), (s.demods[i]).drm.nextServices.find? (fun v => decide (v.slot.val = k.val)) = some v →
        t.flag (pgDrm i) (drmValid_0d0.nth k.val) = true ∧ t.get (pgDrm i) (drmSid.nth k.val) = v.sid % 2 ^ (drmSid.hi + 1 - drmSid.lo)) ∧
      t = { s with demods := t.demods, regs := t.regs, q := t.q, decs := t.decs } ∧ SameBut s.demods t.demods i ∧ SamePages s t [pgDrm i, pgDec]) ∧
  (∀ (s : State) (i : Slc) (gap : Bool), s.drmRuns i = true → (s.demods[i]).drm.synced = true → (gap = true → 50 * msTicks ≤ (s.slices[i]).gapTicks) →
    ∃ t, exec (.drmSyncLost i gap) s = .next t ∧ (t.demods[i]).drm = Demod.fresh.drm ∧ Raised t (pgSlc i) evSlcDrmSyncLost ∧
      t.flag (pgDrm i) drmFacOk = false ∧ t.flag (pgDrm i) drmSdcOk = false ∧
      (gap = true → (t.slices[i]).restartDue = true) ∧
      t = { s with slices := t.slices, demods := t.demods, regs := t.regs, q := t.q, decs := t.decs } ∧ SameBut s.slices t.slices i ∧ SameBut s.demods t.demods i ∧
      SamePages s t [pgDrm i, pgSlc i, pgDec])


/-- The states of a bed that Table 5.2 gives its receiver: the null symbol ends SEARCH in SYNC with BED_SYNC; the third good FIB ends SYNC in FIC; complete multiplex information ends FIC in MCI with MCI_COMPLETE; HOLD keeps the state it was entered from and resumes it; a gap that reaches 50 ms, unless samples are seen at that instant, which counts a race (R379), and a loss of synchronisation, fall back to SEARCH with BED_SYNC_LOST (R136 to R142). A CIF of a bed in synchronisation shows its CIF count in BED_CIF and its soft values enter the memory of 16 CIFs (R145, Table 5.15); a reconfiguration that FIG 0/0 announced puts the next configuration in force, counts MCI_GEN and raises RECONFIG (R144). Where the manual leaves a point of it open, it rests on the model's own readings: log 44. -/
def Obligations.BedStatesFollowTable : Prop :=
  (∀ (s : State) (k : BedId) (ago : Nat), (s.beds[k]).state = .search →
    ∃ t, exec (.bedNullSync k ago) s = .next t ∧ t.beds[k] = { s.beds[k] with state := .sync, goodFibs := 0 } ∧ Raised t (pgBed k) evBedSync ∧
      t = { s with beds := t.beds, regs := t.regs, q := t.q } ∧ SameBut s.beds t.beds k ∧ SamePages s t [pgBed k]) ∧
  (∀ (s : State) (k : BedId) (f : Fib), (s.beds[k]).state = .sync → (s.beds[k]).goodFibs = 2 → f.crcOk = true → f.index ≠ 11 → f.figs = [] →
    ∃ t, exec (.bedFib k f) s = .next t ∧ (t.beds[k]).state = .fic ∧ Counts s t (pgBed k) bedFibOk ∧
      t = { s with beds := t.beds, regs := t.regs, q := t.q, strms := t.strms, bunds := t.bunds, squeues := t.squeues } ∧
      SameBut s.beds t.beds k ∧ SameLow s t [pgBed k, pgStrm]) ∧
  (∀ (s : State) (k : BedId), (s.beds[k]).state = .fic → (s.beds[k]).mciDone = true →
    ∃ t, exec (.bedMciComplete k) s = .next t ∧ t.beds[k] = { s.beds[k] with state := .mci, subch := [], svcs := [] } ∧ Raised t (pgBed k) evBedMciComplete ∧
      t = { s with beds := t.beds, regs := t.regs, q := t.q } ∧ SameBut s.beds t.beds k ∧ SamePages s t [pgBed k]) ∧
  (∀ (s : State) (k : BedId), (s.beds[k]).state.synced = true →
    ∃ t, exec (.bedHoldEntry k) s = .next t ∧ t.beds[k] = { s.beds[k] with state := .hold, held := (s.beds[k]).state, gapStart := s.time.mono } ∧
      t = { s with beds := t.beds } ∧ SameBut s.beds t.beds k) ∧
  (∀ (s : State) (k : BedId), (s.beds[k]).state = .hold →
    ∃ t, exec (.bedHoldResume k) s = .next t ∧ t.beds[k] = { s.beds[k] with state := (s.beds[k]).held, held := .off } ∧ t = { s with beds := t.beds } ∧ SameBut s.beds t.beds k) ∧
  (∀ (s : State) (k : BedId), (s.beds[k]).state = .hold → (s.beds[k]).gapStart + 50 * msTicks ≤ s.time.mono →
    ∃ t, exec (.bedHoldTimeout k true) s = .next t ∧ t.beds[k] = { s.beds[k] with state := (s.beds[k]).held, held := .off } ∧ Counts s t (pgBed k) pgRaceCnt ∧
      t = { s with beds := t.beds, regs := t.regs } ∧ SameBut s.beds t.beds k ∧ SamePages s t [pgBed k]) ∧
  (∀ (s : State) (k : BedId), (s.beds[k]).state = .hold → (s.beds[k]).gapStart + 50 * msTicks ≤ s.time.mono →
    ∃ t, exec (.bedHoldTimeout k false) s = .next t ∧ (t.beds[k]).state = .search ∧ (t.beds[k]).curSvcs = [] ∧ Raised t (pgBed k) evBedSyncLost ∧
      Counts s t (pgBed k) bedSyncLoss ∧
      t = { s with beds := t.beds, regs := t.regs, q := t.q, decs := t.decs } ∧ SameBut s.beds t.beds k ∧ SamePages s t [pgBed k, pgDec]) ∧
  (∀ (s : State) (k : BedId), (s.beds[k]).state.synced = true →
    ∃ t, exec (.bedSyncLoss k) s = .next t ∧ (t.beds[k]).state = .search ∧ (t.beds[k]).curSvcs = [] ∧ Raised t (pgBed k) evBedSyncLost ∧
      Counts s t (pgBed k) bedSyncLoss ∧
      t = { s with beds := t.beds, regs := t.regs, q := t.q, decs := t.decs } ∧ SameBut s.beds t.beds k ∧ SamePages s t [pgBed k, pgDec]) ∧
  (∀ (s : State) (k : BedId) (cif : Nat) (soft : List (BitVec 4)), (s.beds[k]).state.synced = true →
    ∃ t, exec (.bedCif k cif none soft ⟨[], []⟩) s = .next t ∧ t.get (pgBed k) bedCifCnt = cif % 5000 ∧
      (t.beds[k]).mem = (soft.take 55296 :: (s.beds[k]).mem).take 16 ∧ (t.beds[k]).state = (s.beds[k]).state ∧
      t = { s with regs := t.regs, beds := t.beds } ∧ SameBut s.beds t.beds k ∧ SamePages s t [pgBed k]) ∧
  (∀ (s : State) (k : BedId) (n : Nat), ((s.beds[k]).state = .fic ∨ (s.beds[k]).state = .mci) → (s.beds[k]).reconf = some n →
    ∃ t, exec (.bedReconfig k) s = .next t ∧ (t.beds[k]).curSubch = (s.beds[k]).nextSubch ∧ (t.beds[k]).reconf = none ∧
      t.get (pgBed k) bedMciGen = (s.get (pgBed k) bedMciGen + 1) % 256 ∧ Raised t (pgBed k) evBedReconfig ∧
      t = { s with beds := t.beds, regs := t.regs, q := t.q, decs := t.decs } ∧ SameBut s.beds t.beds k ∧ SamePages s t [pgBed k, pgDec])


/-- The states of a decoder that Table 5.3 gives its source: a source of a fitting codec in the clear ends WAIT in SYNC; a good frame ends SYNC in RUN with DEC_RUN, and its samples are the decoder's last good frame; an erroneous frame in RUN begins concealment with DEC_CONCEAL; CONCEAL_MAX reached mutes: SYNC, DEC_MUTE, and the mute counts (R152, R154, R155, R156). Frames count in DEC_GOOD and DEC_BAD (Table 5.19); those of a subchannel whose de-interleaving began anew less than 15 CIFs ago are erroneous whatever they are (R154) and are left out of the second clause. -/
def Obligations.DecoderStatesFollowTable : Prop :=
  (∀ (s : State) (d : DecId) (codec : Nat), (s.decs[d]).state = .wait → s.decFound (s.decSource d) = some (codec, false) → codec ≠ 0 →
    ((s.decSource d).codec = 0 ∨ (s.decSource d).codec = codec) →
    ∃ t, exec (.decSourceReady d) s = .next t ∧ t.decs[d] = { s.decs[d] with state := .sync, found := codec, mismatch := false, ca := false } ∧
      t = { s with decs := t.decs } ∧ SameBut s.decs t.decs d) ∧
  (∀ (s : State) (d : DecId) (f : AudioFrame), (s.decs[d]).state = .sync → f.bad = false → s.decStarved d = false →
    ∃ t, exec (.decFrame d f) s = .next t ∧ (t.decs[d]).state = .run ∧ Raised t pgDec evDecRun ∧ Counts s t pgDec (decGood.nth d.val) ∧
      (t.decs[d]).lastGood = (f.pcm.map (placeChannels f.chmode (s.get pgDec (decDualSel.nth d.val)))).map (fun x => (clamp24 x.1, clamp24 x.2)) ∧
      t = { s with decs := t.decs, regs := t.regs, q := t.q } ∧ SameBut s.decs t.decs d ∧ SamePages s t [pgDec]) ∧
  (∀ (s : State) (d : DecId) (f : AudioFrame), (s.decs[d]).state = .run → f.bad = true →
    ∃ t, exec (.decFrame d f) s = .next t ∧ (t.decs[d]).state = .conceal ∧ (t.decs[d]).concealMs = f.ms ∧ Raised t pgDec evDecConceal ∧ Counts s t pgDec (decBad.nth d.val) ∧
      (t.decs[d]).lastGood = (s.decs[d]).lastGood ∧
      t = { s with decs := t.decs, regs := t.regs, q := t.q } ∧ SameBut s.decs t.decs d ∧ SamePages s t [pgDec]) ∧
  (∀ (s : State) (d : DecId), (s.decs[d]).state = .conceal → s.concealMax d ≤ (s.decs[d]).concealMs →
    ∃ t, exec (.decConcealTimeout d false) s = .next t ∧ (t.decs[d]).state = .sync ∧ (t.decs[d]).concealMs = 0 ∧ Raised t pgDec evDecMute ∧
      Counts s t pgDec (decMute.nth d.val) ∧
      t = { s with decs := t.decs, regs := t.regs, q := t.q } ∧ SameBut s.decs t.decs d ∧ SamePages s t [pgDec])


/-- COMMIT. On a page of a sieve frame, sieve epoch, slice block or BED boundary an accepted commit captures what its role has staged, with the instant and the boundary at which it is due, and empties the staging copy; no register but those of the two-wire bus changes yet (R370, R371, Table 13.4). On the DEC page, which has none, every staged register takes its staged bits at the response and COMMIT_SEQ moves on. -/
def Obligations.CommitCapturesOrApplies : Prop :=
  (∀ (s : State) (src : Src) (page : Nat) (s1 : State) (c : Caller), CommitRuns s src page s1 c → 1 ≤ kindCode page → kindCode page ≤ 4 →
    ∃ t, exec (.commit src page) s = .next t ∧
      t.captured = s1.captured ++ [⟨page, stageRole page (roleCode c.role), s1.time.grid, commitDue s1.time (kindCode page), s1.stagedOf page (stageRole page (roleCode c.role))⟩] ∧
      t.stagedOf page (stageRole page (roleCode c.role)) = [] ∧ t.lastStatusOf page (stageRole page (roleCode c.role)) = .ok ∧
      t = { s1 with captured := t.captured, staged := t.staged, lastStatus := t.lastStatus, slices := t.slices, beds := t.beds, cal := t.cal, rseq := t.rseq, q := t.q, sec := t.sec,
                    twb := t.twb, regs := t.regs } ∧ SameMain s1 t [pgTwb]) ∧
  (∀ (s : State) (src : Src) (s1 : State) (c : Caller), CommitRuns s src pgDec s1 c →
    ∃ t, exec (.commit src pgDec) s = .next t ∧
      (∀ k, k / 0x400 = pgDec → k ≠ keyOf pgDec pgCommitSeq → t.reg k = match s1.staged? (roleCode c.role) k with
        | some w => merge (s1.reg k) w (rsMask k)
        | none => s1.reg k) ∧
      t.get pgDec pgCommitSeq = (s1.get pgDec pgCommitSeq + 1) % 2 ^ 31 ∧ t.stagedOf pgDec (roleCode c.role) = [] ∧ t.captured = s1.captured ∧ SameMain s1 t [pgDec, pgStrm, pgTwb] ∧
      t = { s1 with decs := t.decs, strms := t.strms, staged := t.staged, lastStatus := t.lastStatus, regs := t.regs, rseq := t.rseq, q := t.q, sec := t.sec, twb := t.twb })

/-- A commit of a page whose PENDING bit is 1 completes NOT_READY, and its staged values stay staged. A commit that is refused for any status changes nothing in force, and LAST_STATUS records its status (R372); of the page's registers only its event bits may change, where the refusal is a resource conflict (R16). -/
def Obligations.RefusedCommitKeepsStaged : Prop :=
  (∀ (s : State) (src : Src) (page : Nat) (s1 : State) (c : Caller), Runs s src writeOps 1 s1 c → s1.writeRefusal c.role (page * 0x400 + 0x02C) 1 = .ok →
      s1.pendingCommit page (stageRole page (roleCode c.role)) = true →
    ∃ t, exec (.commit src page) s = .next t ∧ t.staged = s1.staged ∧ t.captured = s1.captured ∧ t.lastStatusOf page (stageRole page (roleCode c.role)) = .notReady ∧
      (c.q.isSome = true → Answered s1 t c .notReady)) ∧
  (∀ (s : State) (src : Src) (page : Nat) (s1 : State) (c : Caller) (st : Status), Runs s src writeOps 1 s1 c →
      s1.writeRefusal c.role (page * 0x400 + 0x02C) 1 = .ok → s1.commitStatus (roleCode c.role) page = st → st ≠ .ok →
    ∃ t, exec (.commit src page) s = .next t ∧ t.lastStatusOf page (stageRole page (roleCode c.role)) = st ∧ t.staged = s1.staged ∧ t.captured = s1.captured ∧
      (c.q.isSome = true → Answered s1 t c st) ∧ (∀ k, k / 0x400 ≠ pgTwb → k ≠ page * 0x400 + 0x010 → k ≠ page * 0x400 + 0x018 → t.reg k = s1.reg k) ∧
      t = { s1 with regs := t.regs, lastStatus := t.lastStatus, rseq := t.rseq, q := t.q, sec := t.sec, twb := t.twb })

/-- SNAP_ARM, SNAP_READ and SNAP_DISCARD: an accepted commit with ARM staged leaves its channel ARMED, held by the role, with the bytes of its frames claimed, 256 a frame or 128 at half rate, and nothing stored; with DISCARD, IDLE with its memory released; with READ, READING from its first word (R86, R87, R89, Table 3.4). A channel for which nothing is staged is as it was. Where the manual leaves a point of it open, it rests on the model's own readings: logs 30 and 41. -/
def Obligations.ChannelCommitsTakeEffect : Prop :=
  (∀ (s : State) (src : Src) (ch : SnapCh) (s1 : State) (c : Caller), CommitRuns s src pgAln s1 c → s.snapStages (roleCode c.role) ch alnArm = true →
    ∃ t, exec (.snapArm src ch) s = .next t ∧ (t.snaps[ch]).state = .armed ∧ (t.snaps[ch]).owner = roleCode c.role ∧ (t.snaps[ch]).frames = [] ∧
      (t.snaps[ch]).bytes = snapBytes (t.get pgAln (alnFrames.nth ch.val)) (s1.inputs[inpOf (t.get pgAln (alnInput.nth ch.val))]).half ∧
      (∀ j, s.snapStages (roleCode c.role) j alnArm = false → s.snapStages (roleCode c.role) j alnDiscard = false → s.snapStages (roleCode c.role) j alnRead = false →
        t.snaps[j] = s.snaps[j]) ∧
      t = { s1 with snaps := t.snaps, regs := t.regs, staged := t.staged, lastStatus := t.lastStatus, rseq := t.rseq, q := t.q, sec := t.sec, twb := t.twb } ∧
      SameMain s1 t [pgAln, pgTwb]) ∧
  (∀ (s : State) (src : Src) (ch : SnapCh) (s1 : State) (c : Caller), CommitRuns s src pgAln s1 c → s.snapStages (roleCode c.role) ch alnDiscard = true →
      s.snapStages (roleCode c.role) ch alnArm = false →
    ∃ t, exec (.snapDiscard src ch) s = .next t ∧ (t.snaps[ch]).state = .idle ∧ (t.snaps[ch]).bytes = 0 ∧ (t.snaps[ch]).owner = 0 ∧
      t = { s1 with snaps := t.snaps, regs := t.regs, staged := t.staged, lastStatus := t.lastStatus, rseq := t.rseq, q := t.q, sec := t.sec, twb := t.twb } ∧
      SameMain s1 t [pgAln, pgTwb]) ∧
  (∀ (s : State) (src : Src) (ch : SnapCh) (s1 : State) (c : Caller), CommitRuns s src pgAln s1 c → s.snapStages (roleCode c.role) ch alnRead = true →
      s.snapStages (roleCode c.role) ch alnArm = false → s.snapStages (roleCode c.role) ch alnDiscard = false →
    ∃ t, exec (.snapRead src ch) s = .next t ∧ t.snaps[ch] = { s.snaps[ch] with state := .reading, sent := 0 } ∧
      t = { s1 with snaps := t.snaps, regs := t.regs, staged := t.staged, lastStatus := t.lastStatus, rseq := t.rseq, q := t.q, sec := t.sec, twb := t.twb } ∧
      SameMain s1 t [pgAln, pgTwb])

/-- DEC_ENABLE and DEC_DISABLE: an accepted commit of the DEC page with EN = 1 staged claims a free decoder for the role, in WAIT; with EN = 0 it releases the decoder (R152, Table 5.3). A decoder for which nothing is staged is as it was. Where the manual leaves a point of it open, it rests on the model's own readings: logs 30 and 45. -/
def Obligations.DecoderCommitsTakeEffect : Prop :=
  (∀ (s : State) (src : Src) (d : DecId) (s1 : State) (c : Caller), CommitRuns s src pgDec s1 c → s.decStaged (roleCode c.role) d = true →
      (s.decWanted (roleCode c.role) d).1 = true → (s.decs[d]).state = .idle →
    ∃ t, exec (.decEnable src d) s = .next t ∧ (t.decs[d]).state = .wait ∧ (t.decs[d]).owner = roleCode c.role ∧
      (∀ e, s.decStaged (roleCode c.role) e = false → t.decs[e] = s.decs[e]) ∧
      t = { s1 with decs := t.decs, strms := t.strms, regs := t.regs, staged := t.staged, lastStatus := t.lastStatus, rseq := t.rseq, q := t.q, sec := t.sec, twb := t.twb } ∧
      SameMain s1 t [pgDec, pgStrm, pgTwb]) ∧
  (∀ (s : State) (src : Src) (d : DecId) (s1 : State) (c : Caller), CommitRuns s src pgDec s1 c → s.decStaged (roleCode c.role) d = true →
      (s.decWanted (roleCode c.role) d).1 = false →
    ∃ t, exec (.decDisable src d) s = .next t ∧ ((s.decs[d]).state ≠ .idle → t.decs[d] = Dec.fresh) ∧ ((s.decs[d]).state = .idle → t.decs[d] = s.decs[d]) ∧
      t = { s1 with decs := t.decs, strms := t.strms, regs := t.regs, staged := t.staged, lastStatus := t.lastStatus, rseq := t.rseq, q := t.q, sec := t.sec, twb := t.twb } ∧
      SameMain s1 t [pgDec, pgStrm, pgTwb])

/-- SVC_ENABLE, SVC_DISABLE and CAND_WRITE: an accepted commit that enables a slot leaves it ACQUIRING for its owner; one that disables it leaves the slot as at reset: OFF, without candidates, offers or standby (R173); a candidate entry written and committed is offered to the slot for its next tick, to be added or blocked where VALID is 1, to be removed where it is 0 (R184); a commit that also disables the slot is the form of the second clause. Other slots are as they were. Where the manual leaves a point of it open, it rests on the model's own readings: log 30. -/
def Obligations.SlotCommitsTakeEffect : Prop :=
  (∀ (s : State) (src : Src) (v : SvcId) (s1 : State) (c : Caller), CommitRuns s src (pgSvc v) s1 c → s.svcEnables v = true →
    ∃ t, exec (.svcEnable src v) s = .next t ∧ (t.slots[v]).state = .acquiring ∧ (t.slots[v]).owner = s1.svcOwner v ∧ t.flag (pgSvc v) pgEn = true ∧
      t = { s1 with slots := t.slots, regs := t.regs, staged := t.staged, lastStatus := t.lastStatus, rseq := t.rseq, q := t.q, sec := t.sec, twb := t.twb } ∧
      SameBut s.slots t.slots v ∧ SameMain s1 t [pgSvc v, pgTwb]) ∧
  (∀ (s : State) (src : Src) (v : SvcId) (s1 : State) (c : Caller), CommitRuns s src (pgSvc v) s1 c → s.stgGet 0 (pgSvc v) pgEn = 0 → (s.slots[v]).state ≠ .off →
    ∃ t, exec (.svcDisable src v) s = .next t ∧ t.slots[v] = Slot.fresh ∧
      t = { s1 with slots := t.slots, slices := t.slices, demods := t.demods, planGen := t.planGen, decs := t.decs, strms := t.strms, regs := t.regs, staged := t.staged,
                    lastStatus := t.lastStatus, rseq := t.rseq, q := t.q, sec := t.sec, twb := t.twb } ∧ SameBut s.slots t.slots v) ∧
  (∀ (s : State) (src : Src) (v : SvcId) (n : CandId) (w : Word) (s1 : State) (c : Caller), WriteRuns s src [⟨candKey v n, w, BitVec.allOnes 32⟩] s1 c →
      (s1.writeReg (roleCode c.role) ⟨candKey v n, w, BitVec.allOnes 32⟩).commitStatus (roleCode c.role) (pgSvc v) = .ok →
      ((s1.slots[v]).state = .off ∨ s1.stgGet 0 (pgSvc v) pgEn = 1) →
    ∃ t, exec (.candWrite src v n w) s = .next t ∧
      (∀ d, entryValid w = true → stdOf (fieldOf w 28 26) = some d → Offer.write n d (fieldOf w 17 0) (decide (fieldOf w 29 29 = 1)) ∈ (t.slots[v]).offers) ∧
      (entryValid w = false → Offer.remove n ∈ (t.slots[v]).offers) ∧
      t = { s1 with slots := t.slots, regs := t.regs, staged := t.staged, lastStatus := t.lastStatus, rseq := t.rseq, q := t.q, sec := t.sec, twb := t.twb } ∧
      SameBut s.slots t.slots v ∧ SameMain s1 t [pgSvc v, pgTwb])

/-- STREAM_COMMIT, BUNDLE_COMMIT and QUEUE_RESET: an accepted commit defines the stream that the role selects, which a free stream's owner then is, or frees it where KIND is 0 (R222); defines the bundle that the role selects, or frees it (R227); discards the packets of a queue whose QRESET is staged as 1 (R224). Where the manual leaves a point of it open, it rests on the model's own readings: log 30. -/
def Obligations.StreamCommitsTakeEffect : Prop :=
  (∀ (s : State) (src : Src) (s1 : State) (c : Caller), CommitRuns s src pgStrm s1 c → s.strmStaged (roleCode c.role) = true →
    ∃ t, exec (.streamCommit src) s = .next t ∧
      ((s1.strmWanted (roleCode c.role)).kind = 0 → (t.strms[s1.selStream (roleCode c.role)]).owner = 0) ∧
      ((s1.strmWanted (roleCode c.role)).kind ≠ 0 → (t.strms[s1.selStream (roleCode c.role)]).en = (s1.strmWanted (roleCode c.role)).en ∧
        ((s1.strms[s1.selStream (roleCode c.role)]).owner = 0 → (t.strms[s1.selStream (roleCode c.role)]).owner = roleCode c.role)) ∧
      t = { s1 with strms := t.strms, bunds := t.bunds, squeues := t.squeues, regs := t.regs, staged := t.staged, lastStatus := t.lastStatus, rseq := t.rseq,
                    q := t.q, sec := t.sec, twb := t.twb } ∧ SameMain s1 t [pgStrm, pgTwb]) ∧
  (∀ (s : State) (src : Src) (s1 : State) (c : Caller), CommitRuns s src pgStrm s1 c → s.bundStaged (roleCode c.role) = true →
    ∃ t, exec (.bundleCommit src) s = .next t ∧
      ((s1.bundWanted (roleCode c.role)).1 = false → (t.bunds[s1.selBundle (roleCode c.role)]).owner = 0) ∧
      ((s1.bundWanted (roleCode c.role)).1 = true → (s1.bunds[s1.selBundle (roleCode c.role)]).owner = 0 → (t.bunds[s1.selBundle (roleCode c.role)]).owner = roleCode c.role) ∧
      t = { s1 with strms := t.strms, bunds := t.bunds, squeues := t.squeues, regs := t.regs, staged := t.staged, lastStatus := t.lastStatus, rseq := t.rseq,
                    q := t.q, sec := t.sec, twb := t.twb } ∧ SameMain s1 t [pgStrm, pgTwb]) ∧
  (∀ (s : State) (src : Src) (q : SQueue) (w : Word) (s1 : State) (c : Caller), CommitRuns s src pgStrm s1 c →
      s.staged? (roleCode c.role) (keyOf pgStrm (strmTc.nth q.val)) = some w → fieldOf w 8 8 = 1 →
    ∃ t, exec (.queueReset src q) s = .next t ∧ (t.squeues[q]).packets = [] ∧ (t.squeues[q]).gone = 0 ∧
      t = { s1 with strms := t.strms, bunds := t.bunds, squeues := t.squeues, regs := t.regs, staged := t.staged, lastStatus := t.lastStatus, rseq := t.rseq,
                    q := t.q, sec := t.sec, twb := t.twb } ∧ SameMain s1 t [pgStrm, pgTwb])

/-- CAL_RUN, CAL_LOAD and CAL_ABORT: an accepted commit of CAL_CMD waits for its epoch boundary with what it has captured; a load waits as one from its response on (R257, R260, R264). At the boundary OP reads 0 again; a captured RUN starts a run on its inputs, which go on REFIN; a LOAD is no longer waiting, and LOAD_DONE is raised; an ABORT ends the run under way, with ABORTED. Where the manual leaves a point of it open, it rests on the model's own readings: logs 30 and 52. -/
def Obligations.CalibrationCommandsTakeEffect : Prop :=
  (∀ (s : State) (src : Src) (s1 : State) (c : Caller), CommitRuns s src pgCal s1 c → s.stgGet 0 pgCal calOp = 1 →
    ∃ t, exec (.calRun src) s = .next t ∧ t.captured = s1.captured ++ [⟨pgCal, 0, s1.time.grid, commitDue s1.time 2, s1.stagedOf pgCal 0⟩] ∧ t.cal = s1.cal ∧ SameMain s1 t [pgTwb] ∧
      t = { s1 with captured := t.captured, staged := t.staged, lastStatus := t.lastStatus, cal := t.cal, rseq := t.rseq, q := t.q, sec := t.sec, twb := t.twb, regs := t.regs }) ∧
  (∀ (s : State) (src : Src) (s1 : State) (c : Caller), CommitRuns s src pgCal s1 c → s.stgGet 0 pgCal calOp = 2 →
    ∃ t, exec (.calLoad src) s = .next t ∧ t.captured = s1.captured ++ [⟨pgCal, 0, s1.time.grid, commitDue s1.time 2, s1.stagedOf pgCal 0⟩] ∧ t.cal.load = true ∧ SameMain s1 t [pgTwb] ∧
      t = { s1 with captured := t.captured, staged := t.staged, lastStatus := t.lastStatus, cal := t.cal, rseq := t.rseq, q := t.q, sec := t.sec, twb := t.twb, regs := t.regs }) ∧
  (∀ (s : State) (src : Src) (s1 : State) (c : Caller), CommitRuns s src pgCal s1 c → s.stgGet 0 pgCal calOp = 3 →
    ∃ t, exec (.calAbort src) s = .next t ∧ t.captured = s1.captured ++ [⟨pgCal, 0, s1.time.grid, commitDue s1.time 2, s1.stagedOf pgCal 0⟩] ∧ t.cal = s1.cal ∧ SameMain s1 t [pgTwb] ∧
      t = { s1 with captured := t.captured, staged := t.staged, lastStatus := t.lastStatus, cal := t.cal, rseq := t.rseq, q := t.q, sec := t.sec, twb := t.twb, regs := t.regs }) ∧
  (∀ (s : State) (ws : List (Nat × Word)), (s.applyWords ws).get pgCal calOp = 1 →
    ∃ r, (s.calApply ws).cal.run = some r ∧ r.inputs = (s.applyWords ws).get pgCal calInputs ∧ r.step = .settle ∧ (s.calApply ws).get pgCal calOp = 0 ∧
      ∀ i ∈ inputsOf r.inputs, ((s.calApply ws).inputs[i]).onRefin = true) ∧
  (∀ (s : State) (ws : List (Nat × Word)), (s.applyWords ws).get pgCal calOp = 2 →
    (s.calApply ws).cal.load = false ∧ (s.calApply ws).get pgCal calOp = 0 ∧ Raised (s.calApply ws) pgCal evCalLoadDone) ∧
  (∀ (s : State) (ws : List (Nat × Word)), (s.applyWords ws).get pgCal calOp = 3 →
    (s.calApply ws).cal.run = none ∧ (s.calApply ws).get pgCal calOp = 0 ∧ (s.cal.run.isSome = true → Raised (s.calApply ws) pgCal evCalAborted))

/-- SND_DESIGNATE, PROFILE_COMMIT and TX_REQUEST: an accepted commit designates the slice of SND_SLICE, or none, and a new one is on its way to the sounder (R290); the registers of a staged profile take their staged values, and a change of them raises PROFILE_CHANGED (R286); a request that nothing refuses and nothing defers is accepted: the transmitter holds it and leaves OFF (R282, R283). Where the manual leaves a point of it open, it rests on the model's own readings: logs 30 and 53. -/
def Obligations.SoundingCommitsTakeEffect : Prop :=
  (∀ (s : State) (src : Src) (s1 : State) (c : Caller), CommitRuns s src pgSnd s1 c → s1.goStaged = false → (s.staged? 0 (keyOf pgSnd sndDesig)).isSome = true →
    ∃ t, exec (.sndDesignate src) s = .next t ∧ t.snd.desig = (if s.stgGet 0 pgSnd sndDesig = 1 then slcOf (s.stgGet 0 pgSnd sndSlice) else none) ∧
      (∀ i, t.snd.desig = some i → s1.snd.desig ≠ some i → (t.slices[i]).move = .claimSound) ∧
      t = { s1 with snd := t.snd, slices := t.slices, loam := t.loam, regs := t.regs, staged := t.staged, lastStatus := t.lastStatus, rseq := t.rseq, q := t.q, sec := t.sec, twb := t.twb } ∧
      SameMain s1 t [pgSnd, pgLoam, pgTwb]) ∧
  (∀ (s : State) (src : Src) (s1 : State) (c : Caller), CommitRuns s src pgSnd s1 c → s1.goStaged = false → s.profileStaged = true →
    ∃ t, exec (.profileCommit src) s = .next t ∧ t.staged = (s1.unstage pgSnd 0).staged ∧ (∀ k, profileLo ≤ k → k < profileLo + 0x88 → t.reg k = s1.stg 0 k) ∧
      ((s1.applyStaged pgSnd 0).profileBytes ≠ s1.profileBytes → Raised t pgSnd evSndProfileChanged) ∧
      t = { s1 with snd := t.snd, slices := t.slices, loam := t.loam, regs := t.regs, staged := t.staged, lastStatus := t.lastStatus, rseq := t.rseq, q := t.q, sec := t.sec, twb := t.twb } ∧
      SameMain s1 t [pgSnd, pgLoam, pgTwb]) ∧
  (∀ (s : State) (src : Src) (s1 : State) (c : Caller), CommitRuns s src pgSnd s1 c → s.goStaged = true → s1.sndApply.txRefused s1.sndApply.txFields = none →
      s1.sndApply.txDeferred = false →
    ∃ t, exec (.txRequest src) s = .next t ∧ t.snd.req.isSome = true ∧ t.snd.deferred = none ∧ t.snd.state ≠ .off ∧
      t = { s1 with snd := t.snd, slices := t.slices, loam := t.loam, regs := t.regs, staged := t.staged, lastStatus := t.lastStatus, rseq := t.rseq, q := t.q, sec := t.sec, twb := t.twb } ∧
      SameMain s1 t [pgSnd, pgLoam, pgTwb])

/-- SEC_ROW_COMMIT: an accepted commit of the SEC page gives the tenants the rows staged for them (R457): every register of the page takes its staged bits, and COMMIT_SEQ moves on. Where the manual leaves a point of it open, it rests on the model's own readings: log 30. -/
def Obligations.RowCommitTakesEffect : Prop :=
  ∀ (s : State) (src : Src) (s1 : State) (c : Caller), CommitRuns s src pgSec s1 c → s.stagedOf pgSec 0 ≠ [] →
    ∃ t, exec (.secRowCommit src) s = .next t ∧ t.stagedOf pgSec 0 = [] ∧ t.captured = s1.captured ∧
      t.get pgSec pgCommitSeq = (s1.get pgSec pgCommitSeq + 1) % 2 ^ 31 ∧
      (∀ k, k / 0x400 = pgSec → k ≠ keyOf pgSec pgCommitSeq → t.reg k = match s1.staged? 0 k with
        | some w => merge (s1.reg k) w (rsMask k)
        | none => s1.reg k) ∧
      t = { s1 with afdb := t.afdb, loam := t.loam, regs := t.regs, staged := t.staged, lastStatus := t.lastStatus, rseq := t.rseq, q := t.q, sec := t.sec, twb := t.twb } ∧
      SameMain s1 t [pgSec, pgLoam, pgTwb]

/-- A register write on a page whose registers do nothing besides takes effect by the access class of each bit (R369): RW bits take the value in force, W1C bits written 1 are cleared, RS bits are staged, the rest stay; no other register changes. -/
def Obligations.PlainWriteFollowsClasses : Prop :=
  ∀ (s : State) (src : Src) (addr : Nat) (w : Word) (s1 : State) (c : Caller) (key : Nat) (r : RegRow) (k : PageKind),
    WriteRuns s src [⟨addr, w, BitVec.allOnes 32⟩] s1 c → s1.writeKey (roleCode c.role) addr = some key → rowOf key = some r → kindOfPage (key / 0x400) = some k →
    k ∉ [PageKind.pwr, .pmb, .twb, .flt, .prt, .cal, .snd] → key % 0x400 ≠ 0x008 → addr % 0x400 ≠ 0x02C →
    ∃ t, exec (.plainRegisterWrite src addr w) s = .next t ∧
      t.reg key = merge (s1.reg key) w (BitVec.ofNat 32 r.rw) &&& ~~~(w &&& BitVec.ofNat 32 r.w1c) ∧
      (stageMask key ≠ 0 → t.staged? (stageRole (homePage key) (roleCode c.role)) key = some w ∨
        (w ^^^ s1.base (stageRole (homePage key) (roleCode c.role)) key) &&& stageMask key = 0) ∧
      (stageMask key = 0 → t.staged = s1.staged) ∧
      (∀ k', k' ≠ key → k' / 0x400 ≠ pgTwb → t.reg k' = s1.reg k') ∧
      t = { s1 with regs := t.regs, staged := t.staged, rseq := t.rseq, q := t.q, sec := t.sec, twb := t.twb }

/-- REG_WRITE writes COUNT registers from ADDR, each by the access class of its bits: RW bits take the value, W1C bits written 1 are cleared, RS bits are staged (R369, R377); here block registers of a page without windows whose registers do nothing besides. With COMMIT it commits the page in the same command, which here waits for its boundary: sieve frame, slice block or BED commit boundary (R371, R377). REG_MODIFY writes the bits of MASK of one register and leaves the others (R377); here a register that stages nothing, on a page without windows whose registers do nothing besides. Where the manual leaves a point of it open, it rests on the model's own readings: log 24. -/
def Obligations.WriteCommandsTakeEffect : Prop :=
  (∀ (s : State) (q : CQueue) (addr count : Nat) (words : List Word) (s1 : State) (c : Caller) (k : PageKind), Runs s (.cmd q) [0x02] (dataWords count) s1 c →
    1 ≤ count → count ≤ 256 → s1.writeRefusal c.role addr count = .ok →
    s1.valueStatus (roleCode c.role) (addr / 0x400) ((List.range count).map (fun i => ⟨addr + 4 * i, words.getD i 0, BitVec.allOnes 32⟩)) = .ok →
    kindOfPage (addr / 0x400) = some k → k ∉ [PageKind.pwr, .pmb, .twb, .flt, .prt, .cal, .snd, .slc, .strm] → 0x040 ≤ addr % 0x400 →
    ∃ t, exec (.regWrite q addr count words false) s = .next t ∧
      (∀ i r, i < count → rowOf (addr + 4 * i) = some r →
        t.reg (addr + 4 * i) = merge (s1.reg (addr + 4 * i)) (words.getD i 0) (BitVec.ofNat 32 r.rw) &&& ~~~(words.getD i 0 &&& BitVec.ofNat 32 r.w1c)) ∧
      (∀ i, i < count → stageMask (addr + 4 * i) ≠ 0 →
        t.staged? (stageRole (addr / 0x400) (roleCode c.role)) (addr + 4 * i) = some (words.getD i 0) ∨
          (words.getD i 0 ^^^ s1.base (stageRole (addr / 0x400) (roleCode c.role)) (addr + 4 * i)) &&& stageMask (addr + 4 * i) = 0) ∧
      (∀ k', (∀ i, i < count → k' ≠ addr + 4 * i) → k' / 0x400 ≠ pgTwb → t.reg k' = s1.reg k') ∧
      t = { s1 with regs := t.regs, staged := t.staged, rseq := t.rseq, q := t.q, sec := t.sec, twb := t.twb }) ∧
  (∀ (s : State) (q : CQueue) (addr count : Nat) (words : List Word) (s1 s2 : State) (c : Caller), Runs s (.cmd q) [0x02] (dataWords count) s1 c →
    1 ≤ count → count ≤ 256 → s1.writeRefusal c.role addr count = .ok →
    s1.valueStatus (roleCode c.role) (addr / 0x400) ((List.range count).map (fun i => ⟨addr + 4 * i, words.getD i 0, BitVec.allOnes 32⟩)) = .ok →
    s2 = ((List.range count).map (fun i => (⟨addr + 4 * i, words.getD i 0, BitVec.allOnes 32⟩ : RegWrite))).foldl (fun s w => s.writeReg (roleCode c.role) w) s1 →
    kindCode (addr / 0x400) = 1 ∨ kindCode (addr / 0x400) = 3 ∨ kindCode (addr / 0x400) = 4 → s2.commitStatus (roleCode c.role) (addr / 0x400) = .ok →
    ∃ t, exec (.regWrite q addr count words true) s = .next t ∧
      t.captured = s2.captured ++ [⟨addr / 0x400, 0, s2.time.grid, commitDue s2.time (kindCode (addr / 0x400)), s2.stagedOf (addr / 0x400) 0⟩] ∧
      t.stagedOf (addr / 0x400) 0 = [] ∧ SameMain s2 t [pgTwb] ∧
      t = { s2 with captured := t.captured, staged := t.staged, lastStatus := t.lastStatus, slices := t.slices, beds := t.beds, cal := t.cal, rseq := t.rseq, q := t.q, sec := t.sec,
                    twb := t.twb, regs := t.regs }) ∧
  (∀ (s : State) (q : CQueue) (addr : Nat) (mask value : Word) (s1 : State) (c : Caller) (r : RegRow) (k : PageKind), Runs s (.cmd q) [0x03] 1 s1 c →
    s1.writeRefusal c.role addr 1 = .ok → s1.valueStatus (roleCode c.role) (addr / 0x400) [⟨addr, value, mask⟩] = .ok →
    rowOf addr = some r → stageMask addr = 0 → isCandKey addr = false → kindOfPage (addr / 0x400) = some k → k ∉ [PageKind.pwr, .pmb, .twb, .flt, .prt, .cal, .snd, .slc, .strm] →
    addr % 0x400 ≠ 0x008 → addr % 0x400 ≠ 0x02C →
    ∃ t, exec (.regModify q addr mask value false) s = .next t ∧
      t.reg addr = merge (s1.reg addr) value (mask &&& BitVec.ofNat 32 r.rw) &&& ~~~(value &&& mask &&& BitVec.ofNat 32 r.w1c) ∧
      (∀ k', k' ≠ addr → k' / 0x400 ≠ pgTwb → t.reg k' = s1.reg k') ∧
      t = { s1 with regs := t.regs, rseq := t.rseq, q := t.q, sec := t.sec, twb := t.twb })



/-- REG_READ of a queue answers OK with COUNT in RESULT and the words of its registers, all of one instant, under the next RSEQ (R17, R377, R378); a read that is refused answers its status with zeros and RESULT 0, and changes nothing else (R365, R373). The first two clauses are for commands without session words, on the ring. In any session, or on the bus, a register read on a page without a table window is answered OK and has its RC bits back at their reset value (R369). Where the manual leaves a point of it open, it rests on the model's own readings: log 31. -/
def Obligations.ReadsAnswerAndClear : Prop :=
  (∀ (s : State) (q : CQueue) (addr count : Nat) (s1 : State) (c : Caller), Runs s (.cmd q) [0x01] 0 s1 c → c.ses = none → c.w.bus = false →
    s1.readRefusal c.role addr count = .ok →
    ∃ t, exec (.regRead q addr count) s = .next t ∧ t.rseq = s1.rseq + 1 ∧
      t.q.q4 = s1.q.q4 ++ [⟨c.w.head.op, c.w.head.tag, .ok, c.w.head.tenant, s1.rseq, BitVec.ofNat 32 count, quadsOf (s1.readWords (roleCode c.role) addr count), none⟩] ∧
      t = { s1 with regs := t.regs, rseq := t.rseq, q := t.q, twb := t.twb }) ∧
  (∀ (s : State) (q : CQueue) (addr count : Nat) (s1 : State) (c : Caller) (st : Status), Runs s (.cmd q) [0x01] 0 s1 c → c.ses = none → c.w.bus = false →
    s1.readRefusal c.role addr count = st → st ≠ .ok →
    ∃ t, exec (.regRead q addr count) s = .next t ∧
      t.q.q4 = s1.q.q4 ++ [⟨c.w.head.op, c.w.head.tag, st, c.w.head.tenant, s1.rseq, 0, quadsOf (zerosFor count), none⟩] ∧
      t = { s1 with rseq := t.rseq, q := t.q }) ∧
  (∀ (s : State) (q : CQueue) (addr : Nat) (s1 : State) (c : Caller) (key : Nat) (r : RegRow) (k : PageKind), Runs s (.cmd q) [0x01] 0 s1 c →
    s1.readRefusal c.role addr 1 = .ok → s1.present (addr / 0x400) = true → s1.resolve (roleCode c.role) false addr = some key → rowOf key = some r →
    kindOfPage (key / 0x400) = some k → k ∉ [PageKind.twb, .cal, .snd] →
    ∃ t, exec (.regRead q addr 1) s = .next t ∧ t.reg key = merge (s1.reg key) (resetOf key) (BitVec.ofNat 32 r.rc) ∧ Answered s1 t c .ok ∧
      (∀ k', k' ≠ key → k' / 0x400 ≠ pgTwb → t.reg k' = s1.reg k') ∧
      t = { s1 with regs := t.regs, rseq := t.rseq, q := t.q, sec := t.sec, twb := t.twb })

/-- Header registers: SRESET empties the role's staging copy of the page, clears PG_EVT_RAW and PG_EVT_PEND and stops injection (Table 13.2); a write of PG_EVT_PEND clears the bits written 1 (R376); PG_INJ and PG_INJ_CNT take what arms an injection, by one command of a queue or by two writes of the direct window (R499, R500). Where the manual leaves a point of it open, it rests on the model's own readings: logs 27 and 28. -/
def Obligations.HeaderWritesTakeEffect : Prop :=
  (∀ (s : State) (src : Src) (page : Nat) (s1 : State) (c : Caller), WriteRuns s src [⟨page * 0x400 + 0x008, 2, 2⟩] s1 c →
      (rowOf (page * 0x400 + 0x008)).isSome = true → page ≠ pgTwb →
    ∃ t, exec (.sreset src page) s = .next t ∧ t.reg (page * 0x400 + 0x010) = 0 ∧ t.reg (page * 0x400 + 0x018) = 0 ∧ t.get page pgMode = 0 ∧ t.get page pgInjCnt = 0 ∧
      t.stagedOf page (stageRole page (roleCode c.role)) = [] ∧ t.captured = s1.captured ∧ SamePages s1 t [page, pgTwb] ∧
      t = { s1 with staged := t.staged, regs := t.regs, rseq := t.rseq, q := t.q, sec := t.sec, twb := t.twb }) ∧
  (∀ (s : State) (src : Src) (page : Nat) (w : Word) (s1 : State) (c : Caller), WriteRuns s src [⟨page * 0x400 + 0x018, w, BitVec.allOnes 32⟩] s1 c →
      (rowOf (page * 0x400 + 0x018)).isSome = true → page ≠ pgTwb →
    ∃ t, exec (.evtPendClear src page w) s = .next t ∧ t.reg (page * 0x400 + 0x018) = s1.reg (page * 0x400 + 0x018) &&& ~~~w ∧
      (∀ k', k' ≠ page * 0x400 + 0x018 → k' / 0x400 ≠ pgTwb → t.reg k' = s1.reg k') ∧
      t = { s1 with regs := t.regs, rseq := t.rseq, q := t.q, sec := t.sec, twb := t.twb }) ∧
  (∀ (s : State) (q : CQueue) (page mode det count : Nat) (s1 : State) (c : Caller),
      WriteRuns s (.cmd q) [⟨page * 0x400 + 0x020, place 31 30 mode ||| place 7 0 det, BitVec.allOnes 32⟩, ⟨page * 0x400 + 0x024, place 31 0 count, BitVec.allOnes 32⟩] s1 c →
      (rowOf (page * 0x400 + 0x020)).isSome = true → page ≠ pgTwb →
    ∃ t, exec (.injectArm (.cmd q) page mode det count) s = .next t ∧ t.get page pgMode = mode % 4 ∧ t.get page pgDet = det % 256 ∧ t.get page pgInjCnt = count % 2 ^ 32 ∧
      SamePages s1 t [page, pgTwb] ∧ t = { s1 with regs := t.regs, rseq := t.rseq, q := t.q, sec := t.sec, twb := t.twb }) ∧
  (∀ (s : State) (page mode det count : Nat) (c1 c2 : Caller) (s2 : State),
      WriteRuns s .window [⟨page * 0x400 + 0x024, place 31 0 count, BitVec.allOnes 32⟩] s c1 → s2 = s.writeOne .window (page * 0x400 + 0x024) (place 31 0 count) →
      WriteRuns s2 .window [⟨page * 0x400 + 0x020, place 31 30 mode ||| place 7 0 det, BitVec.allOnes 32⟩] s2 c2 →
      (rowOf (page * 0x400 + 0x020)).isSome = true → page ≠ pgTwb →
    ∃ t, exec (.injectArm .window page mode det count) s = .next t ∧ t.get page pgMode = mode % 4 ∧ t.get page pgDet = det % 256 ∧ t.get page pgInjCnt = count % 2 ^ 32 ∧
      SamePages s t [page, pgTwb] ∧ t = { s with regs := t.regs, rseq := t.rseq, q := t.q, sec := t.sec, twb := t.twb })

/-- Registers whose write does something besides: a write of PWR_RUNG takes TARGET and, where no step is under way and the target is another rung, begins a step toward it, unless it lies above SLEEP or DORMANT, which an address match alone leaves (R442, R443); a write of PWR_HRCFG ends a suspension of restores (R440); MASK_CLEAR ends the mask lock (R275); SND_RETURN warms the transmitter or turns it off (R289, Table 10.3); EN = 0 takes a port down (R342, Table 12.6); FLT_LOG_ACK retires the entries up to its SEQ (R505); a changed ADDR of a PMBus slot probes it: answered, the slot is present; unanswered, absent (R435, Table 16.3). Where the manual leaves a point of it open, it rests on the model's own readings: log 59. -/
def Obligations.SystemRegisterWrites : Prop :=
  (∀ (s : State) (src : Src) (w : Word) (s1 : State) (c : Caller), WriteRuns s src [⟨keyOf pgPwr pwrTarget, w, BitVec.allOnes 32⟩] s1 c → s1.temps.shutdown = false →
      (s1.pwr.busy = true ∨ fieldOf w 2 0 = s1.pwr.rung →
        ∃ t, exec (.rungTargetWrite src w) s = .next t ∧ t.get pgPwr pwrTarget = fieldOf w 2 0 ∧
          SamePages s1 t [pgPwr, pgTwb] ∧ t = { s1 with regs := t.regs, rseq := t.rseq, q := t.q, sec := t.sec, twb := t.twb }) ∧
      (s1.pwr.busy = false → 4 ≤ s1.pwr.rung → fieldOf w 2 0 < s1.pwr.rung →
        ∃ t, exec (.rungTargetWrite src w) s = .next t ∧ t.get pgPwr pwrTarget = fieldOf w 2 0 ∧
          SamePages s1 t [pgPwr, pgTwb] ∧ t = { s1 with regs := t.regs, rseq := t.rseq, q := t.q, sec := t.sec, twb := t.twb }) ∧
      (s1.pwr.busy = false → fieldOf w 2 0 ≠ s1.pwr.rung → (4 ≤ s1.pwr.rung → s1.pwr.rung < fieldOf w 2 0) →
        ∃ t, exec (.rungTargetWrite src w) s = .next t ∧ (s1.pwr.rung ≤ 2 → t.get pgPwr pwrTarget = fieldOf w 2 0) ∧ t.pwr.busy = true ∧ t.pwr.rising = decide (fieldOf w 2 0 < s1.pwr.rung) ∧ t.pwr.rung = s1.pwr.rung ∧
          t = { t with fuse := s1.fuse, pending := s1.pending, pmb := s1.pmb })) ∧
  (∀ (s : State) (src : Src) (w : Word) (s1 : State) (c : Caller), WriteRuns s src [⟨pgPwr * 0x400 + 0x048, w, BitVec.allOnes 32⟩] s1 c →
    ∃ t, exec (.hrcfgWrite src w) s = .next t ∧ t.pwr.suspended = false ∧ t.reg (pgPwr * 0x400 + 0x048) = merge (s1.reg (pgPwr * 0x400 + 0x048)) w 0xFFFFFFFE ∧
      t = { s1 with regs := t.regs, pwr := t.pwr, rseq := t.rseq, q := t.q, sec := t.sec, twb := t.twb }) ∧
  (∀ (s : State) (src : Src) (s1 : State) (c : Caller), WriteRuns s src [⟨keyOf pgSnd sndMaskClear, place 31 31 1, maskOf 31 31⟩] s1 c →
    ∃ t, exec (.maskClear src) s = .next t ∧ t.snd = { s1.snd with maskLock := false } ∧ SamePages s1 t [pgTwb] ∧
      t = { s1 with regs := t.regs, snd := t.snd, rseq := t.rseq, q := t.q, sec := t.sec, twb := t.twb }) ∧
  (∀ (s : State) (src : Src) (ret : Nat) (s1 : State) (c : Caller), WriteRuns s src [⟨keyOf pgSnd sndReturn, place 1 0 ret, maskOf 1 0⟩] s1 c → ret ≤ 2 →
    ∃ t, exec (.txReturnWrite src ret) s = .next t ∧ t.get pgSnd sndReturn = ret ∧
      (ret = 1 → s1.snd.state = .off → s1.pwr.rung = 0 → t.snd.state = .warm) ∧
      (ret ≠ 1 → s1.snd.state = .warm → s1.snd.req = none → s1.snd.deferred = none → t.snd.state = .off) ∧
      t = { s1 with regs := t.regs, snd := t.snd, rseq := t.rseq, q := t.q, sec := t.sec, twb := t.twb }) ∧
  (∀ (s : State) (src : Src) (p : Port) (s1 : State) (c : Caller), WriteRuns s src [⟨keyOf (pgPort p) prtEn, place 31 31 0, maskOf 31 31⟩] s1 c →
    ∃ t, exec (.portDisable src p) s = .next t ∧ t.get (pgPort p) prtEn = 0 ∧ (s1.get (pgPort p) prtEn = 1 → (t.ports[p]).state = .down) ∧
      t = { s1 with regs := t.regs, ports := t.ports, ring := t.ring, clk := t.clk, rseq := t.rseq, q := t.q, sec := t.sec, twb := t.twb }) ∧
  (∀ (s : State) (src : Src) (seq : Nat) (s1 : State) (c : Caller), WriteRuns s src [⟨keyOf pgFlt fltLogAck, place 15 0 seq, BitVec.allOnes 32⟩] s1 c →
    ∃ t, exec (.fltLogAck src seq) s = .next t ∧
      t.log.entries = s1.log.entries.filter (fun e => !decide ((seq % 65536 + 65536 - e.seq) % 65536 < 32768)) ∧
      t = { s1 with regs := t.regs, log := t.log, rseq := t.rseq, q := t.q, sec := t.sec, twb := t.twb } ∧ SamePages s1 t [pgTwb]) ∧
  (∀ (s : State) (src : Src) (k : Fin 4) (w : Word) (mode : Option (BitVec 8)) (s1 : State) (c : Caller),
      WriteRuns s src [⟨keyOf pgPmb (pmbAddr.nth k.val), w, BitVec.allOnes 32⟩] s1 c → fieldOf w 22 16 ≠ s1.get pgPmb (pmbAddr.nth k.val) →
    ∃ t, exec (.pmbAddrWrite src k w mode) s = .next t ∧ t.get pgPmb (pmbAddr.nth k.val) = fieldOf w 22 16 ∧
      (mode = none → (t.pmb[k]).present = false) ∧ (∀ m, mode = some m → (t.pmb[k]).present = decide (m.toNat / 32 = 0)) ∧ SameBut s1.pmb t.pmb k ∧
      t = { s1 with regs := t.regs, pmb := t.pmb, pmbSent := t.pmbSent, rseq := t.rseq, q := t.q, sec := t.sec, twb := t.twb })

/-- Table windows and the mailbox: CAL_WIN_DATA written in the load bank gives the word that IDX points to, and any access moves IDX on (R263); SND_FIR_DATA gives a tap, and any access moves its index on (R273); a word written to TWB_MBOX_IN that completes no packet waits with those before it, one that completes a packet puts it on the queue that QUEUE selects, and a read of TWB_MBOX_OUT takes its word away (R387). -/
def Obligations.WindowAccessesMoveOn : Prop :=
  (∀ (s : State) (src : Src) (w : Word) (s1 : State) (c : Caller), WriteRuns s src [⟨keyOf pgCal calWinData, w, BitVec.allOnes 32⟩] s1 c →
    ∃ t, exec (.calWinAccess src (some w)) s = .next t ∧ t.get pgCal calIdx = (s1.get pgCal calIdx + 1) % 512 ∧
      (s1.get pgCal calBank = 1 → t.reg (calKey 1 (s1.get pgCal calIdx)) = w) ∧ SameMain s1 t [pgCal, pgTwb] ∧
      t = { s1 with regs := t.regs, rseq := t.rseq, q := t.q, sec := t.sec, twb := t.twb }) ∧
  (∀ (s : State), s.windowOpen = true → s.readRefusal s.windowRole (keyOf pgCal calWinData) 1 = .ok →
    ∃ t, exec (.calWinAccess .window none) s = .next t ∧ t.get pgCal calIdx = (s.get pgCal calIdx + 1) % 512 ∧ SamePages s t [pgCal, pgTwb] ∧
      t = { s with regs := t.regs, twb := t.twb }) ∧
  (∀ (s : State) (q : CQueue) (s1 : State) (c : Caller), Runs s (.cmd q) [0x01] 0 s1 c → s1.readRefusal c.role (keyOf pgCal calWinData) 1 = .ok →
    ∃ t, exec (.calWinAccess (.cmd q) none) s = .next t ∧ t.get pgCal calIdx = (s1.get pgCal calIdx + 1) % 512 ∧ SamePages s1 t [pgCal, pgTwb] ∧
      t = { s1 with regs := t.regs, rseq := t.rseq, q := t.q, sec := t.sec, twb := t.twb }) ∧
  (∀ (s : State) (src : Src) (w : Word) (s1 : State) (c : Caller), WriteRuns s src [⟨keyOf pgSnd sndFirData, w, BitVec.allOnes 32⟩] s1 c →
    ∃ t, exec (.firTapAccess src (some w)) s = .next t ∧ t.get pgSnd sndFirIdx = (s1.get pgSnd sndFirIdx + 1) % 64 ∧
      t.reg (firKey (s1.get pgSnd sndFirIdx)) = w &&& 0xFFFF ∧ SameMain s1 t [pgSnd, pgTwb] ∧
      t = { s1 with regs := t.regs, rseq := t.rseq, q := t.q, sec := t.sec, twb := t.twb }) ∧
  (∀ (s : State), s.windowOpen = true → s.readRefusal s.windowRole (keyOf pgSnd sndFirData) 1 = .ok → s.fuse.variant.sounding = true →
    ∃ t, exec (.firTapAccess .window none) s = .next t ∧ t.get pgSnd sndFirIdx = (s.get pgSnd sndFirIdx + 1) % 64 ∧ SamePages s t [pgSnd, pgTwb] ∧
      t = { s with regs := t.regs, twb := t.twb }) ∧
  (∀ (s : State) (q : CQueue) (s1 : State) (c : Caller), Runs s (.cmd q) [0x01] 0 s1 c → s1.readRefusal c.role (keyOf pgSnd sndFirData) 1 = .ok →
      s1.fuse.variant.sounding = true →
    ∃ t, exec (.firTapAccess (.cmd q) none) s = .next t ∧ t.get pgSnd sndFirIdx = (s1.get pgSnd sndFirIdx + 1) % 64 ∧ SamePages s1 t [pgSnd, pgTwb] ∧
      t = { s1 with regs := t.regs, rseq := t.rseq, q := t.q, sec := t.sec, twb := t.twb }) ∧
  (∀ (s : State) (src : Src) (w : Word) (tagOk : Bool) (s1 : State) (c : Caller), WriteRuns s src [⟨keyOf pgTwb twbMboxIn, w, BitVec.allOnes 32⟩] s1 c →
      (s1.twb.inWords.length + 1 < 4 ∨ s1.twb.inWords.length + 1 ≠ 4 * ((headOf (quadsOf (s1.twb.inWords ++ [w])) tagOk).len + 1)) →
    ∃ t, exec (.mboxInWord src w tagOk) s = .next t ∧ t.twb.inWords = s1.twb.inWords ++ [w] ∧
      t = { s1 with regs := t.regs, rseq := t.rseq, q := t.q, sec := t.sec, twb := t.twb } ∧ SamePages s1 t [pgTwb]) ∧
  (∀ (s : State) (src : Src) (w : Word) (tagOk : Bool) (s1 : State) (c : Caller) (h : CmdHead) (q : CQueue),
      WriteRuns s src [⟨keyOf pgTwb twbMboxIn, w, BitVec.allOnes 32⟩] s1 c → h = headOf (quadsOf (s1.twb.inWords ++ [w])) tagOk → q = s1.mboxQueue →
      4 ≤ s1.twb.inWords.length + 1 → s1.twb.inWords.length + 1 = 4 * (h.len + 1) → s1.servesOp h.op = true →
      (s1.recentTags q).any (fun t => t.tag = h.tag) = false → (s1.q.cmd[q]).length < 32 →
      (∀ x, (s1.q.cmd[q] ++ [(⟨h, true⟩ : Waiting)]).head? = some x → queueOps q x.head.op = true) →
    ∃ t, exec (.mboxInWord src w tagOk) s = .next t ∧ t.twb.inWords = [] ∧ t.q.cmd[q] = s1.q.cmd[q] ++ [⟨h, true⟩] ∧
      t = { s1 with regs := t.regs, rseq := t.rseq, q := t.q, sec := t.sec, twb := t.twb } ∧ SamePages s1 t [pgTwb]) ∧
  (∀ (s : State), s.windowOpen = true → s.readRefusal s.windowRole (keyOf pgTwb twbMboxOut) 1 = .ok →
    ∃ t, exec (.mboxOutRead .window) s = .next t ∧ t.twb.out = s.twb.out.tail ∧ SamePages s t [pgTwb] ∧ t = { s with regs := t.regs, twb := t.twb }) ∧
  (∀ (s : State) (q : CQueue) (s1 : State) (c : Caller), Runs s (.cmd q) [0x01] 0 s1 c → c.w.bus = false → s1.readRefusal c.role (keyOf pgTwb twbMboxOut) 1 = .ok →
    ∃ t, exec (.mboxOutRead (.cmd q)) s = .next t ∧ t.twb.out = s1.twb.out.tail ∧ SamePages s1 t [pgTwb] ∧
      t = { s1 with regs := t.regs, rseq := t.rseq, q := t.q, sec := t.sec, twb := t.twb })

/-- RESET: asserted, the part is held, every register outside the cloche partition at its reset value, nothing staged, no command waiting, no session open, no page's commit waiting; fuses, the Loam store and the sealed registers stay (R446, R516). Released, it samples its straps, opens the service window, and the claim window where it holds no Site key (R384, R473), and boots: from the firmware slot that is selected where that passes, from the other with FW_REJECTED where only that passes; where neither does it waits for the bank commands alone (R471). The end of boot opens the register file with the setpoint at VMIN, confirmed where slot 0 of the PMBus answers, and every PMBus slot as its probe finds it (R397, R434, R519). Where the manual leaves a point of it open, it rests on the model's own readings: logs 7 and 33. -/
def Obligations.ResetAndBoot : Prop :=
  (∀ (s : State), ∃ t, exec .resetAssert s = .next t ∧ t.boot = .held ∧ t.staged = [] ∧ t.captured = [] ∧ t.fuse = s.fuse ∧
    t.loam = { s.loam with restart := false } ∧ (∀ q : CQueue, t.q.cmd[q] = []) ∧ (∀ k : KeySlot, t.sec.sess[k] = none ∧ t.sec.csess[k] = none) ∧
    (∀ k, sealedKey k = false → t.reg k = resetOf k) ∧ (∀ k, sealedKey k = true → t.reg k = s.reg k)) ∧
  (∀ (s s0 : State) (strap : BitVec 6) (k o : Fin 2), s.boot = .held → s0 = { s with sec := { s.sec with svnMin := ((s.stored 0x50 0).map natOfBE).getD 0 } } →
    k = s.fwSelected → o ≠ k →
    ∃ t, exec (.resetRelease strap) s = .next t ∧ t.twb.strap = strap ∧ t.clk.state = .qualifying ∧ t.sec.serviceOpen = true ∧
      t.sec.claimOpen = t.sec.siteKey.isNone ∧ t.sec.siteKey = (s.stored 0x40 0).map keyOfBytes ∧
      (s0.fwHolds s.loam.slots[k] = true → t.boot = .booting ∧ t.loam.active = k) ∧
      (s0.fwHolds s.loam.slots[k] = false → Raised t pgSec evSecFwRejected) ∧
      (s0.fwHolds s.loam.slots[k] = false → s0.fwHolds s.loam.slots[o] = true → t.boot = .booting ∧ t.loam.active = o) ∧
      (s0.fwHolds s.loam.slots[k] = false → s0.fwHolds s.loam.slots[o] = false → t.boot = .bankOnly) ∧
      t = { s with boot := t.boot, regs := t.regs, q := t.q, afdb := t.afdb, clk := t.clk, sec := t.sec, log := t.log, temps := t.temps, twb := t.twb, loam := t.loam }) ∧
  (∀ (s : State) (modes : Vector (Option (BitVec 8)) 4), s.boot = .booting →
    ∃ t, exec (.bootComplete modes) s = .next t ∧ t.boot = .complete ∧ t.pwr.setpoint = s.get pgPwr pwrVmin ∧
      (∀ k : Fin 4, modes[k] = none → (t.pmb[k]).present = false) ∧
      (∀ (k : Fin 4) (m : BitVec 8), modes[k] = some m → (t.pmb[k]).present = decide (m.toNat / 32 = 0) ∧ (t.pmb[k]).modeBad = decide (m.toNat / 32 ≠ 0)) ∧
      t.pwr.confirmed = (t.pmb[0]).present ∧
      t = { s with boot := t.boot, freeCtr := t.freeCtr, regs := t.regs, q := t.q, pwr := t.pwr, pmb := t.pmb, pmbSent := t.pmbSent, sec := t.sec, smc := t.smc })

/-- COMMAND_ARRIVAL on the ring, once boot is complete, in RUN and IDLE: a packet whose TAG was accepted in the last 10 ms is discarded; at a full queue it is answered NOT_READY and counted; else it waits behind the others and its TAG is remembered (R341). EVENT_PACKET_SEND: the words gathered for an owner leave in one packet, as many as it takes, and the rest stay; without room they are given up and their pages marked for LOST (R376). Where the manual leaves a point of it open, it rests on the model's own readings: logs 37 and 38. -/
def Obligations.PacketsArriveAndLeave : Prop :=
  (∀ (s : State) (q : CQueue) (h : CmdHead), s.boot = .complete → s.pwr.rung ≤ 1 → (s.recentTags q).any (fun t => t.tag = h.tag) = true →
    exec (.commandArrival q h) s = .next s) ∧
  (∀ (s : State) (q : CQueue) (h : CmdHead), s.boot = .complete → s.pwr.rung ≤ 1 → (s.recentTags q).any (fun t => t.tag = h.tag) = false → 32 ≤ (s.q.cmd[q]).length →
    ∃ t, exec (.commandArrival q h) s = .next t ∧ t.q.cmd = s.q.cmd ∧ Counts s t pgLnk lnkCmdDrop ∧
      (q.val ≠ 2 ∨ s.fuse.variant.cloche = false → t.q.q4 = s.q.q4 ++ [⟨h.op, h.tag, .notReady, h.tenant, s.rseq, 0, [], none⟩]) ∧
      (q.val = 2 → s.fuse.variant.cloche = true → t.q.q6 = s.q.q6 ++ [.answer ⟨h.op, h.tag, .notReady, h.tenant, s.rseq, 0, [], none⟩]) ∧ t.rseq = s.rseq + 1 ∧ SamePages s t [pgLnk] ∧
      t = { s with regs := t.regs, rseq := t.rseq, q := t.q }) ∧
  (∀ (s : State) (q : CQueue) (h : CmdHead), s.boot = .complete → s.pwr.rung ≤ 1 → (s.recentTags q).any (fun t => t.tag = h.tag) = false → (s.q.cmd[q]).length < 32 →
      (∀ x, (s.q.cmd[q] ++ [(⟨h, false⟩ : Waiting)]).head? = some x → queueOps q x.head.op = true) →
    ∃ t, exec (.commandArrival q h) s = .next t ∧ t.q.cmd[q] = s.q.cmd[q] ++ [⟨h, false⟩] ∧ (∀ p : CQueue, p ≠ q → t.q.cmd[p] = s.q.cmd[p]) ∧
      (t.q.seen[q]).head? = some ⟨h.tag, s.time.mono⟩ ∧ t = { s with q := t.q }) ∧
  (∀ (s : State) (owner : Nat) (e : EvtWord) (rest : List EvtWord), s.q.gather.filter (fun e => e.to_ = owner) = e :: rest →
    ∃ t, exec (.eventPacketSend owner true) s = .next t ∧ (∃ p, t.q.q5 = s.q.q5 ++ [p] ∧ p.to_ = owner ∧ p.words = ((e :: rest).take (eventRoom (s.eventSession owner))).map (·.word)) ∧
      t.q.gather.filter (fun e => e.to_ = owner) = (e :: rest).drop (eventRoom (s.eventSession owner)) ∧
      t = { s with q := t.q, sec := t.sec }) ∧
  (∀ (s : State) (owner : Nat) (e : EvtWord) (rest : List EvtWord), s.q.gather.filter (fun e => e.to_ = owner) = e :: rest →
    ∃ t, exec (.eventPacketSend owner false) s = .next t ∧ t.q.q5 = s.q.q5 ∧ (∀ x, x ∈ t.q.gather → x.to_ ≠ owner) ∧ e.page ∈ t.q.lostPages ∧ t = { s with q := t.q })

/-- The moves of a candidate that its own timers make: its give-up time of Table 6.3, or the 30 s of R198 while it is admitted to correlation, fails it with CAND_FAILED, unless its identity is met at that instant, which counts a race (R189, R379); FAIL_RETRY seconds later a retry receives a failed entry again, unless it is blocked (Table 6.4); 3 s after ALIGNED its loudness is valid, and is the difference measured then (R203); a delay line that is full makes it FILLED, and one that replaces the standby takes its place (R200). Where the manual leaves a point of it open, it rests on the model's own readings: log 3. -/
def Obligations.CandidateTimersMove : Prop :=
  (∀ (s : State) (v : SvcId) (n : CandId), (s.slots[v]).state ≠ .off → ((s.slots[v]).cands[n]).state = .watched → s.come (s.giveUpAt v n) = true →
    ∃ t, exec (.candGiveUp v n false) s = .next t ∧ ((t.slots[v]).cands[n]).state = .failed ∧ ((t.slots[v]).cands[n]).failedAt = s.time.mono ∧
      ((t.slots[v]).cands[n]).reason = (if s.byAudio v n then .noAudioMatch else .noSignal) ∧
      Raised t (pgSvc v) evSvcCandFailed ∧
      t = { s with slots := t.slots, slices := t.slices, demods := t.demods, planGen := t.planGen, decs := t.decs, strms := t.strms, regs := t.regs, q := t.q } ∧ SameBut s.slots t.slots v) ∧
  (∀ (s : State) (v : SvcId) (n : CandId), (s.slots[v]).state ≠ .off → ((s.slots[v]).cands[n]).state = .watched → s.come (s.giveUpAt v n) = true →
    ∃ t, exec (.candGiveUp v n true) s = .next t ∧ ((t.slots[v]).cands[n]).state = .verified ∧
      Counts s t (pgSvc v) pgRaceCnt ∧
      t = { s with slots := t.slots, regs := t.regs, afNext := t.afNext } ∧ SameBut s.slots t.slots v ∧ SamePages s t [pgSvc v]) ∧
  (∀ (s : State) (v : SvcId) (n : CandId), ((s.slots[v]).cands[n]).state = .failed → ((s.slots[v]).cands[n]).block = false →
      ((s.slots[v]).cands[n]).failedAt + s.get (pgSvc v) svcFailRetry * secTicks ≤ s.time.mono →
    ∃ t, exec (.candFailRetry v n) s = .next t ∧ ((t.slots[v]).cands[n]).state = .unwatched ∧ t = { s with slots := t.slots } ∧ SameBut s.slots t.slots v) ∧
  (∀ (s : State) (v : SvcId) (n : CandId), s.flag (pgSvc v) svcLoudEn = true → (((s.slots[v]).cands[n]).state = .aligned ∨ ((s.slots[v]).cands[n]).state = .standby) →
      ((s.slots[v]).cands[n]).alignedAt + 3 * secTicks ≤ s.time.mono →
    ∃ t, exec (.loudnessValid v n) s = .next t ∧ ((t.slots[v]).cands[n]).loudValid = true ∧ ((t.slots[v]).cands[n]).loudDiff = ((s.slots[v]).cands[n]).loudNow ∧ t = { s with slots := t.slots } ∧ SameBut s.slots t.slots v) ∧
  (∀ (s : State) (v : SvcId) (f : CandId), (s.slots[v]).filling = some f → s.lineFull v f = true →
    ∃ t, exec (.standbyFilled v) s = .next t ∧ (t.slots[v]).standby = some f ∧ (t.slots[v]).filling = none ∧ ((t.slots[v]).cands[f]).filled = true ∧
      t = { s with slots := t.slots } ∧ SameBut s.slots t.slots v) ∧
  (∀ (s : State) (v : SvcId) (m : CandId), (s.slots[v]).filling = none → (s.slots[v]).standby = some m → s.lineFull v m = true →
    ∃ t, exec (.standbyFilled v) s = .next t ∧ ((t.slots[v]).cands[m]).filled = true ∧ (t.slots[v]).standby = some m ∧
      t = { s with slots := t.slots } ∧ SameBut s.slots t.slots v)

/-- A switch of a slot: at the splice the output takes the gain of the loudness difference, held within 12 dB, or 0 dB without LOUD_EN, and the target begins to play (R202, R204); at the end of the blend the target is the active, the old active its FILLED standby, the slot FOLLOWING, SVC_SWITCH raised and counted (R202, R206, Table 6.4). A gap longer than 50 ms of what the slot plays leaves the slot in NO_SOURCE with its event and count, unless samples come at that instant, which counts a race (R207, R208, R379). Where the manual leaves a point of it open, it rests on the model's own readings: log 47. -/
def Obligations.SwitchesComplete : Prop :=
  (∀ (s : State) (v : SvcId) (z : Splice), (s.slots[v]).splice = some z → z.started = false → z.at_ ≤ s.time.mono + 1280000 →
    ∃ t, exec (.switchSplice v) s = .next t ∧ (t.slots[v]).splice = some { z with started := true } ∧
      (t.slots[v]).gain = 100 * clampInt (if s.flag (pgSvc v) svcLoudEn then ((s.slots[v]).cands[z.target]).loudDiff else 0) (-120) 120 ∧
      (∃ y ∈ (t.slots[v]).voices, y.cand = some z.target ∧ y.from_ = some z.at_) ∧
      t = { s with slots := t.slots } ∧ SameBut s.slots t.slots v) ∧
  (∀ (s : State) (v : SvcId) (z : Splice), (s.slots[v]).splice = some z → z.started = true → z.at_ + z.blend ≤ s.time.mono + 1280000 →
    ∃ t, exec (.blendEnd v) s = .next t ∧ (t.slots[v]).state = .following ∧ (t.slots[v]).active = some z.target ∧ ((t.slots[v]).cands[z.target]).state = .active ∧
      (t.slots[v]).standby = (s.slots[v]).active ∧ (t.slots[v]).splice = none ∧
      (∀ a : CandId, (s.slots[v]).active = some a → a ≠ z.target → ((t.slots[v]).cands[a]).state = .standby ∧ ((t.slots[v]).cands[a]).filled = true) ∧
      Raised t (pgSvc v) evSvcSwitch ∧ Counts s t (pgSvc v) svcSwitchCnt ∧ t = { s with slots := t.slots, regs := t.regs, q := t.q } ∧ SameBut s.slots t.slots v ∧ SamePages s t [pgSvc v]) ∧
  (∀ (s : State) (v : SvcId) (at_ : Nat) (n : CandId), (s.slots[v]).concealFrom = some at_ → (s.slots[v]).playing = some n → at_ + 48 * msTicks ≤ s.time.mono →
    ∃ t, exec (.mulchConcealExpiry v false) s = .next t ∧ (t.slots[v]).state = .noSource ∧ (t.slots[v]).active = none ∧ ((t.slots[v]).cands[n]).state = .unwatched ∧
      Raised t (pgSvc v) evSvcNoSource ∧ Counts s t (pgSvc v) svcNosrcCnt ∧
      t = { s with slots := t.slots, slices := t.slices, demods := t.demods, planGen := t.planGen, decs := t.decs, strms := t.strms, regs := t.regs, q := t.q } ∧ SameBut s.slots t.slots v) ∧
  (∀ (s : State) (v : SvcId) (at_ : Nat) (n : CandId), (s.slots[v]).concealFrom = some at_ → (s.slots[v]).playing = some n → at_ + 48 * msTicks ≤ s.time.mono →
    ∃ t, exec (.mulchConcealExpiry v true) s = .next t ∧ t.slots[v] = { s.slots[v] with concealFrom := none } ∧
      Counts s t (pgSvc v) pgRaceCnt ∧
      t = { s with slots := t.slots, regs := t.regs } ∧ SameBut s.slots t.slots v ∧ SamePages s t [pgSvc v])

/-- After 30 s the trial decoder leaves its candidate for the next in rank, which waits with it (R188); five seconds after a linkage is gone its learned identities are dropped, and a candidate past WATCHED that only they verified, the active apart, is WATCHED again (R190). -/
def Obligations.LearnedAndTrialMove : Prop :=
  (∀ (s : State) (v : SvcId) (n m : CandId) (d : DecId), (s.slots[v]).trial = some n → (((s.trialList v).dropWhile (fun x => x ≠ n)).drop 1 ++ s.trialList v).head? = some m →
      m ≠ n → ((s.slots[v]).cands[n]).dec = some d → ((s.slots[v]).cands[n]).state = .verified → (((s.slots[v]).cands[m]).decSrc).isSome = true →
      (s.slots[v]).trialSince + 300 ≤ (s.slots[v]).ticks →
    ∃ t, exec (.trialDecoderMove v) s = .next t ∧ (t.slots[v]).trial = some m ∧ ((t.slots[v]).cands[m]).dec = some d ∧ ((t.slots[v]).cands[n]).dec = none ∧
      (t.decs[d]).state = .wait ∧ (t.decs[d]).slot = some v ∧
      t = { s with slots := t.slots, decs := t.decs, strms := t.strms, regs := t.regs, q := t.q } ∧ SameBut s.slots t.slots v ∧
      SameBut s.decs t.decs d ∧ SamePages s t [pgDec, pgStrm]) ∧
  (∀ (s : State) (v : SvcId) (m : Nat), (s.slots[v]).linkLost = some m → m + 5 * secTicks ≤ s.time.mono →
    ∃ t, exec (.learnedIdDrop v) s = .next t ∧ (t.slots[v]).learned = 0 ∧ (t.slots[v]).learnedPi = 0 ∧ (t.slots[v]).learnedDrm = 0 ∧ (t.slots[v]).linkLost = none ∧
      (∀ n : CandId, ((s.slots[v]).cands[n]).byLearned = true → ((s.slots[v]).cands[n]).past = true → ((s.slots[v]).cands[n]).state ≠ .active →
        ((t.slots[v]).cands[n]).state = .watched) ∧
      t = { s with slots := t.slots, slices := t.slices, demods := t.demods, planGen := t.planGen, decs := t.decs, strms := t.strms, regs := t.regs, q := t.q } ∧ SameBut s.slots t.slots v)

/-- PACKET_PERIOD: at the end of each period (for a slot PRESENT later) a stream of samples that is enabled, or was for that period, moves to its next period (R218, R223), and a packet that has room stands in its place, with the next SEQ, the DEVTIME of its period, LEN of Table 7.2 and one word more for a tenant's; mulch where its source is not there; an I/Q packet of the samples, on the scale of its shift, where the source has them (R67, R73, R138, R215, R216, R219, R469). A late packet whose place mulch has taken is discarded (R215); before its period is over a packet is not formed; a stream past its last period ends (R223). A MEASURE stream moves on by its interval; a unit of a DRM stream, and the next packet of a readout, take the next SEQ (R89, R157). No other stream changes. Where the manual leaves a point of it open, it rests on the model's own readings: log 49. -/
def Obligations.PacketPeriodsForm : Prop :=
  (∀ (s : State) (i : StrmId) (m : PktMeas) (x : Strm) (d : StrmDef), s.strms[i] = x → s.strmDef i = d → s.time.set = true → x.owner ≠ 0 →
      sampledKind d.kind = true → x.late = 0 → x.formsAt x.nextPeriod = true → s.periodDue d x.nextPeriod ≤ s.time.mono →
    ∃ t, exec (.packetPeriod i m) s = .next t ∧ (t.strms[i]).nextPeriod = x.nextPeriod + kindPeriod d.kind ∧ (t.strms[i]).mulchNext = false ∧
      (s.keyless x.owner = false → (t.strms[i]).seq = (x.seq + 1) % 65536) ∧
      (d.kind ≠ 1 → t.slices = s.slices) ∧ (∀ n, slcOf d.src = some n → SameBut s.slices t.slices n) ∧
      (d.kind ≠ 2 → t.beds = s.beds) ∧ (∀ k, bedOf d.src = some k → SameBut s.beds t.beds k) ∧
      (d.kind ≠ 3 → t.inputs = s.inputs) ∧ SameBut s.inputs t.inputs (inpOf d.src) ∧
      t = { s with strms := t.strms, bunds := t.bunds, squeues := t.squeues, regs := t.regs, q := t.q, slices := t.slices, beds := t.beds, inputs := t.inputs } ∧
      SameBut s.strms t.strms i ∧ SameMain s t (pgStrm :: sourcePages d)) ∧
  (∀ (s : State) (i : StrmId) (m : PktMeas) (x : Strm) (d : StrmDef), s.strms[i] = x → s.strmDef i = d → s.time.set = true → x.owner ≠ 0 →
      sampledKind d.kind = true → x.late = 0 → x.formsAt x.nextPeriod = true → s.periodDue d x.nextPeriod ≤ s.time.mono →
      KeyHeld s x.owner x.nextPeriod → HasPlace s d (kindLen d.kind + bit (tenantOwned x.owner)) →
    ∃ t p, exec (.packetPeriod i m) s = .next t ∧ Placed s t d p ∧ p.stream = i ∧ p.kind = d.kind ∧ p.seq = x.seq ∧ p.devtime = s.time.devAt x.nextPeriod ∧
      p.len = kindLen d.kind + bit (tenantOwned x.owner) ∧ p.encrypted = tenantOwned x.owner ∧
      ((s.sourceThere d = false ∨ x.mulchNext = true) → p.mulch = true ∧ p.kflags = 0) ∧
      (d.kind ≠ 4 → s.sourceThere d = true → s.iqThere d x.nextPeriod = true → x.mulchNext = false →
        p.mulch = false ∧ (tenantOwned x.owner = false → p.payload = exactly (kindLen d.kind) (iqPayload (s.iqShape d).1 (s.iqShape d).2 m.iq))) ∧
      (p.mulch = true → tenantOwned x.owner = false → p.payload = List.replicate (kindLen d.kind) 0)) ∧
  (∀ (s : State) (i : StrmId) (m : PktMeas), s.time.set = true → (s.strms[i]).owner ≠ 0 → sampledKind (s.strmDef i).kind = true → 0 < (s.strms[i]).late →
    ∃ t, exec (.packetPeriod i m) s = .next t ∧ t.strms[i] = { s.strms[i] with late := (s.strms[i]).late - 1 } ∧ t = { s with strms := t.strms } ∧ SameBut s.strms t.strms i) ∧
  (∀ (s : State) (i : StrmId) (m : PktMeas), sampledKind (s.strmDef i).kind = true → (s.strms[i]).late = 0 → (s.strms[i]).formsAt (s.strms[i]).nextPeriod = true →
      s.time.mono < s.periodDue (s.strmDef i) (s.strms[i]).nextPeriod → exec (.packetPeriod i m) s = .next s) ∧
  (∀ (s : State) (i : StrmId) (m : PktMeas), s.time.set = true → (s.strms[i]).owner ≠ 0 → (sampledKind (s.strmDef i).kind = true ∨ (s.strmDef i).kind = 7) →
      (s.strms[i]).late = 0 → (s.strms[i]).formsAt (s.strms[i]).nextPeriod = false →
    ∃ t, exec (.packetPeriod i m) s = .next t ∧ t.strms[i] = { s.strms[i] with ending := none } ∧ t = { s with strms := t.strms } ∧ SameBut s.strms t.strms i) ∧
  (∀ (s : State) (i : StrmId) (m : PktMeas) (x : Strm) (d : StrmDef), s.strms[i] = x → s.strmDef i = d → s.time.set = true → x.owner ≠ 0 → d.kind = 7 →
      x.formsAt x.nextPeriod = true → x.nextPeriod + d.sub * 1280000 ≤ s.time.mono →
    ∃ t, exec (.packetPeriod i m) s = .next t ∧ (t.strms[i]).nextPeriod = x.nextPeriod + d.sub * 1280000 ∧ (∀ v ∈ (t.strms[i]).meas, x.nextPeriod + d.sub * 1280000 ≤ v.1) ∧
      (s.keyless x.owner = false → (t.strms[i]).seq = (x.seq + 1) % 65536) ∧
      t = { s with strms := t.strms, bunds := t.bunds, squeues := t.squeues, regs := t.regs, q := t.q } ∧ SameBut s.strms t.strms i ∧ SameMain s t [pgStrm]) ∧
  (∀ (s : State) (i : StrmId) (m : PktMeas) (x : Strm) (d : StrmDef) (n : Slc) (u : Unit_), s.strms[i] = x → s.strmDef i = d → s.time.set = true → x.owner ≠ 0 →
      d.kind = 5 → d.srcKind = 2 → (x.en = true ∨ x.ending.isSome = true) → m.unit_ = some u → slcOf d.src = some n → s.get (pgDrm n) (drmValid_0e0.nth d.sub) = 1 →
    ∃ t, exec (.packetPeriod i m) s = .next t ∧ (s.keyless x.owner = false → (t.strms[i]).seq = (x.seq + 1) % 65536) ∧
      (KeyHeld s x.owner (s.time.mono - u.ago) → HasPlace s d ((s.unitSpec 2 d.src (s.sourceInput d) { u with subch := d.sub }).len + bit (tenantOwned x.owner)) →
        ∃ p, Placed s t d p ∧ p.stream = i ∧ p.seq = x.seq ∧ p.devtime = s.time.devAt (s.time.mono - u.ago) ∧ p.mulch = false) ∧
      t = { s with strms := t.strms, bunds := t.bunds, squeues := t.squeues, regs := t.regs, q := t.q } ∧ SameBut s.strms t.strms i ∧ SameMain s t [pgStrm]) ∧
  (∀ (s : State) (i : StrmId) (m : PktMeas) (x : Strm) (d : StrmDef) (c : SnapCh) (q : SQueue), s.strms[i] = x → s.strmDef i = d → s.time.set = true → x.owner ≠ 0 →
      d.kind = 8 → d.src = c.val → (s.snaps[c]).state = .reading → s.snapStream c = some i → queueOf d.queue = some q → (s.snaps[c]).sent < (s.snaps[c]).words →
      s.roomFor q (min 128 ((s.snaps[c]).words - (s.snaps[c]).sent) + 2) = true →
    ∃ t, exec (.packetPeriod i m) s = .next t ∧ (t.snaps[c]).sent = min ((s.snaps[c]).sent + 128) (s.snaps[c]).words ∧ (t.snaps[c]).state = .reading ∧
      (t.snaps[c]).frames = (s.snaps[c]).frames ∧ (s.keyless x.owner = false → (t.strms[i]).seq = (x.seq + 1) % 65536) ∧
      t = { s with snaps := t.snaps, strms := t.strms, bunds := t.bunds, squeues := t.squeues, regs := t.regs, q := t.q, log := t.log, temps := t.temps } ∧
      SameBut s.strms t.strms i ∧ SameBut s.snaps t.snaps c ∧ SameMain s t [pgStrm, pgAln, pgFlt])

/-- BUNDLE_RELEASE, once the period is over and every sampled member has formed its packets of it, and BUNDLE_DEADLINE: the period is released and the next begins; what the bundle holds of later periods stays (R229, R230, R231). At the deadline, HOLD after the end of the period, a late member is mulch and raises BUNDLE_LATE, once a block; where every packet has come by then, or is seen at that instant, a race is counted (R229, R379); before it nothing happens. Where the manual leaves a point of it open, it rests on the model's own readings: log 3. No other bundle changes. -/
def Obligations.BundlesRelease : Prop :=
  (∀ (s : State) (b : BundId), (s.bunds[b]).owner ≠ 0 → (s.bunds[b]).period + 1280000 ≤ s.time.mono → (s.sampledMembers b).all (s.memberReady b) = true →
    ∃ t, exec (.bundleRelease b) s = .next t ∧ (t.bunds[b]).period = (s.bunds[b]).period + 1280000 ∧
      (t.bunds[b]).held = (s.bunds[b]).held.filter (fun p => !decide (p.at_ < (s.bunds[b]).period + 1280000)) ∧ SameBut s.bunds t.bunds b ∧
      t = { s with strms := t.strms, bunds := t.bunds, squeues := t.squeues, regs := t.regs, q := t.q } ∧ SameMain s t [pgStrm]) ∧
  (∀ (s : State) (b : BundId) (seen : Bool), (s.bunds[b]).owner ≠ 0 → s.bundleDeadline b ≤ s.time.mono → (s.sampledMembers b).all (s.memberReady b) = true →
    ∃ t, exec (.bundleDeadline b seen) s = .next t ∧ (t.bunds[b]).period = (s.bunds[b]).period + 1280000 ∧
      (t.bunds[b]).held = (s.bunds[b]).held.filter (fun p => !decide (p.at_ < (s.bunds[b]).period + 1280000)) ∧
      Counts s t pgStrm pgRaceCnt ∧ SameBut s.bunds t.bunds b ∧
      t = { s with strms := t.strms, bunds := t.bunds, squeues := t.squeues, regs := t.regs, q := t.q } ∧ SameMain s t [pgStrm]) ∧
  (∀ (s : State) (b : BundId), (s.bunds[b]).owner ≠ 0 → s.bundleDeadline b ≤ s.time.mono → (s.sampledMembers b).all (s.memberReady b) = false →
    ∃ t, exec (.bundleDeadline b true) s = .next t ∧ Counts s t pgStrm pgRaceCnt ∧ t = { s with regs := t.regs } ∧ SamePages s t [pgStrm]) ∧
  (∀ (s : State) (b : BundId), (s.bunds[b]).owner ≠ 0 → s.bundleDeadline b ≤ s.time.mono → (s.sampledMembers b).all (s.memberReady b) = false →
    ∃ t, exec (.bundleDeadline b false) s = .next t ∧ (t.bunds[b]).period = (s.bunds[b]).period + 1280000 ∧ (t.bunds[b]).lateRaised = true ∧
      ((s.bunds[b]).lateRaised = false → Raised t pgStrm evStrmBundleLate) ∧ SameBut s.bunds t.bunds b ∧
      t = { s with strms := t.strms, bunds := t.bunds, squeues := t.squeues, regs := t.regs, q := t.q } ∧ SameMain s t [pgStrm]) ∧
  (∀ (s : State) (b : BundId) (seen : Bool), s.time.mono < s.bundleDeadline b → exec (.bundleDeadline b seen) s = .next s)

/-- Stream keys: a packet whose DEVTIME is at or after a switch instant takes the key of that switch, an earlier one the key before it; at the switch the key that waited applies and the one before it is kept; 90 s later that one is dropped (R470). Other tenants' keys stay. -/
def Obligations.StreamKeysSwitch : Prop :=
  (∀ (s : State) (n : TenId) (k : BitVec 256), (s.skeys[n]).next = some k → (s.skeys[n]).switchAt ≤ s.time.devtime →
    ∃ t, exec (.streamKeySwitch n) s = .next t ∧
      t.skeys[n] = { s.skeys[n] with current := some k, previous := (s.skeys[n]).current, next := none, from_ := (s.skeys[n]).switchAt, switchedMono := s.time.mono } ∧
      (∀ dev, (s.skeys[n]).switchAt ≤ dev → t.streamKey (0x21 + n.val) dev = some k) ∧
      (∀ dev, dev < (s.skeys[n]).switchAt → t.streamKey (0x21 + n.val) dev = (s.skeys[n]).current) ∧
      t = { s with skeys := t.skeys } ∧ SameBut s.skeys t.skeys n) ∧
  (∀ (s : State) (n : TenId) (k : BitVec 256) (dev : Nat), (s.skeys[n]).next = some k → (s.skeys[n]).switchAt ≤ dev → s.streamKey (0x21 + n.val) dev = some k) ∧
  (∀ (s : State) (n : TenId), (s.skeys[n]).switchedMono + 90 * secTicks ≤ s.time.mono →
    ∃ t, exec (.oldStreamKeyExpiry n) s = .next t ∧ t.skeys[n] = { s.skeys[n] with previous := none } ∧
      t = { s with skeys := t.skeys } ∧ SameBut s.skeys t.skeys n)

/-- The audio port's clock: the end of the 10 ms ramp closes the stop gate, the outputs silent (Table 8.2); the first edge of the new clock writes AUD_GAP and begins qualification, and what was committed meanwhile takes effect (R248); 64 good frames qualify it with PORT_CLK_BACK (R247); a lost clock, a wrong rate or a third wrong frame in a row stops it with PORT_CLK_LOST, silencing the outputs, unless an edge is seen at that instant, which counts a race (R246, R379). The outputs of the audio port: a converter that locks shows its ratio and LOCK and is no longer muted, and the first after a switch raises SWITCH_DONE (R242); one that underruns is muted for 20 ms at least, with the finding of its detector (R245). Where the manual leaves a point of it open, it rests on the model's own readings: log 51. -/
def Obligations.AudioPortFollowsTable : Prop :=
  (∀ (s : State), s.aud.clk = .switching → s.aud.ramping = true → s.aud.rampAt + 10 * msTicks ≤ s.time.mono → s.get pgAud audMode ≠ 0 →
    ∃ t, exec .audMuteRampEnd s = .next t ∧ t.aud = { s.aud with ramping := false, outs := t.aud.outs } ∧
      (∀ o : OutId, t.get pgAud (audMuted.nth o.val) = 1 ∧ t.get pgAud (audLock.nth o.val) = 0 ∧ (t.aud.outs[o]).left = 0 ∧ (t.aud.outs[o]).right = 0) ∧
      t = { s with aud := t.aud, regs := t.regs } ∧ SamePages s t [pgAud]) ∧
  (∀ (s : State), s.aud.clk = .switching → s.aud.ramping = true → s.aud.rampAt + 10 * msTicks ≤ s.time.mono → s.get pgAud audMode = 0 → s.captured.filter (fun c => c.page = pgAud) = [] →
    ∃ t, exec .audMuteRampEnd s = .next t ∧ t.aud = { s.aud with clk := .stopped, ramping := false, switchDue := false, outs := t.aud.outs } ∧
      (∀ o : OutId, t.get pgAud (audMuted.nth o.val) = 1 ∧ t.get pgAud (audLock.nth o.val) = 0 ∧ (t.aud.outs[o]).left = 0 ∧ (t.aud.outs[o]).right = 0) ∧
      t = { s with aud := t.aud, regs := t.regs } ∧ SamePages s t [pgAud]) ∧
  (∀ (s : State) (gap : Nat), s.aud.clk = .switching → s.aud.ramping = false → s.captured.filter (fun c => c.page = pgAud) = [] →
    ∃ t, exec (.audNewClockEdge gap) s = .next t ∧ t.aud = { s.aud with clk := .qualifying } ∧ t.get pgAud audGap = min gap (2 ^ 32 - 1) ∧
      t = { s with aud := t.aud, regs := t.regs } ∧ SamePages s t [pgAud]) ∧
  (∀ (s : State) (i : Instr) (gap : Nat), s.aud.clk = .switching →
      ((i = .audNewClockEdge gap ∧ s.aud.ramping = false) ∨ (i = .audMuteRampEnd ∧ s.aud.ramping = true ∧ s.aud.rampAt + 10 * msTicks ≤ s.time.mono ∧ s.get pgAud audMode = 0)) →
    ∃ t, exec i s = .next t ∧ t.captured = s.captured.filter (fun c => c.page ≠ pgAud) ∧
      t = { s with aud := t.aud, regs := t.regs, captured := t.captured }) ∧
  (∀ (s : State) (gap : Nat), s.aud.clk = .stopped → s.aud.fault = true →
    ∃ t, exec (.audNewClockEdge gap) s = .next t ∧ t.aud = { s.aud with clk := .qualifying } ∧ t = { s with aud := t.aud }) ∧
  (∀ (s : State), (s.aud.clk = .qualifying ∨ (s.aud.clk = .stopped ∧ s.aud.fault = true)) →
    ∃ t, exec .audClockQualified s = .next t ∧ t.aud = { s.aud with clk := .running, fault := false, glitches := 0 } ∧ Raised t pgAud evAudPortClkBack ∧
      t = { s with aud := t.aud, regs := t.regs, q := t.q } ∧ SamePages s t [pgAud]) ∧
  (∀ (s : State), s.audWatches = true →
    ∃ t, exec (.audClockStop false) s = .next t ∧ t.aud = { s.aud with clk := .stopped, fault := true, ramping := false, glitches := 0, outs := t.aud.outs } ∧
      Raised t pgAud evAudPortClkLost ∧ Counts s t pgAud audLostCnt ∧
      (∀ o : OutId, t.get pgAud (audMuted.nth o.val) = 1 ∧ t.get pgAud (audLock.nth o.val) = 0 ∧ (t.aud.outs[o]).left = 0 ∧ (t.aud.outs[o]).right = 0) ∧
      t = { s with aud := t.aud, regs := t.regs, q := t.q, log := t.log, temps := t.temps } ∧ SamePages s t [pgAud, pgFlt]) ∧
  (∀ (s : State), s.audWatches = true →
    ∃ t, exec (.audClockStop true) s = .next t ∧ Counts s t pgAud pgRaceCnt ∧ t = { s with regs := t.regs } ∧ SamePages s t [pgAud]) ∧
  (∀ (s : State), s.audWatches = true → s.aud.glitches < 2 →
    ∃ t, exec .audFrameGlitch s = .next t ∧ t.aud = { s.aud with glitches := s.aud.glitches + 1, frameErrAt := t.aud.frameErrAt } ∧
      Counts s t pgAud audFrameErr ∧ (s.aud.frameErrAt = none → Raised t pgAud evAudFrameErr) ∧
      t = { s with aud := t.aud, regs := t.regs, q := t.q } ∧ SamePages s t [pgAud]) ∧
  (∀ (s : State), s.audWatches = true → 2 ≤ s.aud.glitches →
    ∃ t, exec .audFrameGlitch s = .next t ∧ t.aud.clk = .stopped ∧ t.aud.fault = true ∧ Raised t pgAud evAudPortClkLost ∧ Counts s t pgAud audFrameErr ∧
      (∀ o : OutId, t.get pgAud (audLock.nth o.val) = 0) ∧
      t = { s with aud := t.aud, regs := t.regs, q := t.q, log := t.log, temps := t.temps } ∧ SamePages s t [pgAud, pgFlt]) ∧
  (∀ (s : State), s.audWatches = true →
    ∃ t, exec .audRateWrong s = .next t ∧ t.aud.clk = .stopped ∧ t.aud.fault = true ∧ Raised t pgAud evAudClkWrong ∧ Raised t pgAud evAudPortClkLost ∧
      (∀ o : OutId, t.get pgAud (audLock.nth o.val) = 0) ∧
      t = { s with aud := t.aud, regs := t.regs, q := t.q, log := t.log, temps := t.temps } ∧ SamePages s t [pgAud, pgFlt]) ∧
  (∀ (s : State) (o : OutId) (ratio : Nat), s.outEn o = true → s.aud.clk = .running → s.flag pgAud (audLock.nth o.val) = false →
    ∃ t, exec (.asrcLock o ratio) s = .next t ∧ t.get pgAud (audLock.nth o.val) = 1 ∧ t.get pgAud (audMuted.nth o.val) = 0 ∧
      t.get pgAud (audRatio.nth o.val) = ratio % 2 ^ (audRatio.hi + 1 - audRatio.lo) ∧ t.aud.switchDue = false ∧
      (s.aud.switchDue = true → Raised t pgAud evAudSwitchDone) ∧ SameBut s.aud.outs t.aud.outs o ∧
      t = { s with aud := { s.aud with switchDue := t.aud.switchDue, outs := t.aud.outs }, regs := t.regs, q := t.q } ∧ SamePages s t [pgAud]) ∧
  (∀ (s : State) (o : OutId), s.outEn o = true → s.flag pgAud (audLock.nth o.val) = true →
    ∃ t, exec (.audUnderrun o) s = .next t ∧ t.get pgAud (audMuted.nth o.val) = 1 ∧ (o, s.time.mono + 20 * msTicks) ∈ t.aud.unmuteAt ∧ Raised t pgAud evAudUnderrun ∧
      t = { s with aud := { s.aud with unmuteAt := t.aud.unmuteAt, outs := t.aud.outs }, regs := t.regs, q := t.q, log := t.log, temps := t.temps } ∧
      SameBut s.aud.outs t.aud.outs o ∧ SamePages s t [pgAud, pgFlt])

/-- A calibration run: each step's end begins the next, in the order and at the epochs of Table 9.2, the gains of its inputs driven until alignment has ended; then the inputs still in the run have the gain they had, and at the end of the last step are back on their balls (R257); the PROBE step ends beside them. The run's end latches which sections passed, by the limits of Table 9.3, raises CAL_DONE, and CAL_FAIL when one failed; a section that passed takes effect, which sets CHAIN_ALTERED and starts a rebuild (R84, R258, R261, R267). A reference check: without a cloche ABSENT_UNIT, whoever asks (R6); allowed to the Site and to a tenant that owns a point on every input it names, it puts the inputs on REFIN at GAIN_CODE 40 and waits with its answer; after the 20 epochs of the tone they are back on their balls with the gain they had, CHAIN_ALTERED is cleared of those whose tone lies within the sealed tolerance, and the answer goes out (R268). Where the manual leaves a point of it open, it rests on the model's own readings: logs 17 and 52. -/
def Obligations.CalibrationRunsInSteps : Prop :=
  (∀ (s : State) (r : CalRun), s.cal.run = some r → r.inputs ≠ 0 → r.step ≠ .align → r.step ≠ .back →
      r.e0 + r.step.ends * epochTicks ≤ s.time.mono →
    ∃ t next, exec (.calStepComplete false) s = .next t ∧ t.cal = { s.cal with run := some { r with step := next } } ∧
      ((r.step, next) = (.settle, .offsets) ∨ (r.step, next) = (.offsets, .skew) ∨ (r.step, next) = (.skew, .gain) ∨ (r.step, next) = (.gain, .align)) ∧
      (∀ i : Inp, bitAt r.live i.val = true → (t.inputs[i]).gain < 85 ∧
        t.inputs[i] = { s.inputs[i] with step := (t.inputs[i]).step, gain := (t.inputs[i]).gain }) ∧
      (∀ i : Inp, bitAt r.live i.val = false → t.inputs[i] = s.inputs[i]) ∧
      t = { s with cal := t.cal, inputs := t.inputs, freeCtr := t.freeCtr }) ∧
  (∀ (s : State) (r : CalRun), s.cal.run = some r → r.inputs ≠ 0 → r.step = .align → r.e0 + r.step.ends * epochTicks ≤ s.time.mono →
    ∃ t, exec (.calStepComplete false) s = .next t ∧ t.cal = { s.cal with run := some { r with step := .back } } ∧
      (∀ i : Inp, bitAt r.live i.val = true → (t.inputs[i]).gain = r.gains[i] ∧
        t.inputs[i] = { s.inputs[i] with step := (t.inputs[i]).step, gain := (t.inputs[i]).gain }) ∧
      (∀ i : Inp, bitAt r.live i.val = false → t.inputs[i] = s.inputs[i]) ∧ t = { s with cal := t.cal, inputs := t.inputs }) ∧
  (∀ (s : State) (r : CalRun), s.cal.run = some r → r.inputs ≠ 0 → r.step = .back → r.e0 + r.step.ends * epochTicks ≤ s.time.mono →
    ∃ t, exec (.calStepComplete false) s = .next t ∧ t.cal = { s.cal with run := some { r with returned := true } } ∧
      (∀ i : Inp, bitAt r.live i.val = true → t.inputs[i] = { s.inputs[i] with onRefin := false }) ∧
      (∀ i : Inp, bitAt r.live i.val = false → t.inputs[i] = s.inputs[i]) ∧ t = { s with cal := t.cal, inputs := t.inputs }) ∧
  (∀ (s : State) (r : CalRun), s.cal.run = some r → r.probeLive = true → r.probeDone = false → r.probeWait = false → r.probeEnd ≤ s.time.mono →
    ∃ t, exec (.calStepComplete true) s = .next t ∧ t.cal = { s.cal with run := some { r with probeDone := true } } ∧ t = { s with cal := t.cal }) ∧
  (∀ (s : State) (inputs : Vector SectionResult 4) (probe : ProbeResult) (words : List (Nat × Word)) (r : CalRun), s.cal.run = some r →
      (r.step = .back ∨ (r.inputs = 0 ∧ r.step ≠ .settle)) → (r.probeLive = false ∨ r.probeDone = true) → r.doneAt ≤ s.time.mono →
    ∃ t, exec (.calRunDone inputs probe words) s = .next t ∧ t.cal.run = none ∧ Raised t pgCal evCalDone ∧
      (∀ i : Inp, bitAt (t.get pgCal calPass) i.val = (bitAt r.live i.val && sectionPasses inputs[i])) ∧
      t.get pgCal calProbePass = bit (r.probeLive && probePasses probe) ∧
      ((r.probeLive = true ∧ probePasses probe = false) ∨ (∃ i : Inp, bitAt r.live i.val = true ∧ sectionPasses inputs[i] = false) → Raised t pgCal evCalFail) ∧
      (∀ i : Inp, bitAt r.live i.val = true → (t.inputs[i]).onRefin = false) ∧
      (∀ i : Inp, bitAt r.live i.val = true → sectionPasses inputs[i] = true →
        (t.inputs[i]).rebuild = some s.time.epochNo ∧ bitAt (t.get pgCal calChainAltered) i.val = true) ∧
      (∀ i : Inp, bitAt r.live i.val = false → t.inputs[i] = s.inputs[i]) ∧
      t = { s with regs := t.regs, q := t.q, inputs := t.inputs, smc := t.smc, cal := { s.cal with run := none, trackRun := t.cal.trackRun, advised := t.cal.advised } }) ∧
  (∀ (s : State) (q : CQueue) (mask n : Nat) (s1 : State) (c : Caller), q.val ≠ 2 → FrontRuns s q unassignedOps n s1 c → s1.fuse.variant.cloche = false →
    ∃ t, exec (.refCheck q mask) s = .next t ∧ Answered s1 t c .absentUnit ∧ SamePages s1 t [pgTwb] ∧
      t = { s1 with regs := t.regs, rseq := t.rseq, q := t.q, sec := t.sec, twb := t.twb }) ∧
  (∀ (s : State) (q : CQueue) (mask n : Nat) (s1 : State) (c : Caller), q.val ≠ 2 → FrontRuns s q unassignedOps n s1 c → 0 < mask → mask < 16 →
      ((c.role = .site ∧ q.val = 0) ∨ (∃ k : TenId, c.role = .tenant k ∧ q.val = 1 ∧ (inputsOf mask).all (fun i => s1.ownsPointOn (0x21 + k.val) i) = true)) →
      s1.fuse.variant.cloche = true → s1.cal.run = none → s1.cal.load = false → s1.cal.check = none →
      (∀ i : Inp, bitAt mask i.val = true → (s1.inputs[i]).conv = .run ∧ (∀ m, s1.cal.checkedAt[i] = some m → m + 60 * secTicks ≤ s1.time.mono)) →
    ∃ t, exec (.refCheck q mask) s = .next t ∧ t.cal = { s1.cal with check := some ⟨mask, s1.time.mono, c, s1.inputs.map (fun x => x.gain)⟩, checkedAt := t.cal.checkedAt } ∧
      (∀ i : Inp, bitAt mask i.val = true → (t.inputs[i]).onRefin = true ∧ (t.inputs[i]).gain = 40 ∧ t.cal.checkedAt[i] = some s1.time.mono) ∧
      (∀ i : Inp, bitAt mask i.val = false → t.inputs[i] = s1.inputs[i] ∧ t.cal.checkedAt[i] = s1.cal.checkedAt[i]) ∧
      t = { s1 with inputs := t.inputs, cal := t.cal }) ∧
  (∀ (s : State) (tones : Vector Int 4) (x : RefCheck), s.cal.check = some x → x.caller.q.isSome = true → x.at_ + 20 * epochTicks ≤ s.time.mono →
    ∃ t, exec (.refCheckDone tones) s = .next t ∧ t.cal = { s.cal with check := none } ∧ Answered s t x.caller .ok ∧
      (∀ i : Inp, bitAt (t.get pgCal calChainAltered) i.val = (bitAt (s.get pgCal calChainAltered) i.val && !(bitAt x.mask i.val && s.tonePasses i tones[i]))) ∧
      (∀ i : Inp, bitAt x.mask i.val = true → (s.inputs[i]).onRefin = true →
        t.inputs[i] = { s.inputs[i] with onRefin := false, step := (t.inputs[i]).step, gain := x.gains[i] }) ∧
      (∀ i : Inp, (bitAt x.mask i.val = false ∨ (s.inputs[i]).onRefin = false) → t.inputs[i] = s.inputs[i]) ∧
      SamePages s t [pgCal, pgSmc 0, pgTwb] ∧
      t = { s with regs := t.regs, q := t.q, inputs := t.inputs, cal := t.cal, smc := t.smc, freeCtr := t.freeCtr, rseq := t.rseq, sec := t.sec, twb := t.twb })

/-- A sounding request that waits: it is accepted when its condition clears, with its first chip planned and CX_REQ and CX_PRI asserted, and answered OK; at TX_DEFER_MAX it is answered TX_NOT_READY, which LAST_STATUS keeps, unless the clearing is seen at that instant (R283, R287, R288, R379). The transmitter of Table 10.3: at its instant the ramp starts where the grant is held, its taps latched, else the packet waits for it; a grant held starts the ramp at a chip instant; the ramp's end is the first chip, the last chip and a grant that drops begin the ramp down, with SENT or GRANT_LOST; the ramp down, after its 16 µs, ends the packet with its outcome and TX_DONE, its airtime counted: that of R281 for a packet sent whole, else what has passed since the ramp up; a grant that never comes ends it GRANT_TIMEOUT (R273, R285, R287, R289, R379). What ends a packet early: a bin over the mask in two windows, or an injection, locks the mask and begins the ramp down with MASK_ABORT and the finding of the detector (R275); a DAC that runs empty turns the transmitter off at once, with CLOCK_ABORT and TX_DONE (R425). Where the manual leaves a point of it open, it rests on the model's own readings: log 53. -/
def Obligations.TransmitterFollowsTable : Prop :=
  (∀ (s : State) (r : TxReq) (c : Caller), s.snd.deferred = some (r, c) → s.txDeferred = false → s.pwr.rung = 0 →
    ∃ t, exec .txDeferClear s = .next t ∧ (c.q.isSome = true → Answered s t c .ok) ∧ (∃ d, t.snd.req = some { r with g := s.plannedChip, data := d }) ∧
      t.snd = { s.snd with state := (if s.snd.state = .off then .warm else s.snd.state), req := t.snd.req, deferred := none,
                           cxReq := s.flag pgSnd sndCxEn, cxPri := s.flag pgSnd sndCxEn && r.prio } ∧
      t = { s with snd := t.snd, regs := t.regs, rseq := t.rseq, q := t.q, sec := t.sec, twb := t.twb } ∧ SamePages s t [pgTwb]) ∧
  (∀ (s : State) (r : TxReq) (c : Caller), s.snd.deferred = some (r, c) → s.txDeferred = true →
      s.snd.waitAt + s.get pgSnd sndTxDeferMax * msTicks ≤ s.time.mono →
    ∃ t, exec (.txDeferTimeout false) s = .next t ∧ (c.q.isSome = true → Answered s t c .txNotReady) ∧ t.snd = { s.snd with deferred := none } ∧
      t.lastStatusOf pgSnd 0 = .txNotReady ∧
      t = { s with snd := t.snd, regs := t.regs, lastStatus := t.lastStatus, rseq := t.rseq, q := t.q, sec := t.sec, twb := t.twb } ∧ SamePages s t [pgTwb]) ∧
  (∀ (s : State) (r : TxReq) (c : Caller) (seen : Bool), s.snd.deferred = some (r, c) → s.pwr.rung = 0 →
      (seen = true ∨ s.txDeferred = false) → s.snd.waitAt + s.get pgSnd sndTxDeferMax * msTicks ≤ s.time.mono →
    ∃ t, exec (.txDeferTimeout seen) s = .next t ∧ (c.q.isSome = true → Answered s t c .ok) ∧ (∃ d, t.snd.req = some { r with g := s.plannedChip, data := d }) ∧
      t.snd = { s.snd with state := (if s.snd.state = .off then .warm else s.snd.state), req := t.snd.req, deferred := none,
                           cxReq := s.flag pgSnd sndCxEn, cxPri := s.flag pgSnd sndCxEn && r.prio } ∧ Counts s t pgSnd pgRaceCnt ∧
      t = { s with snd := t.snd, regs := t.regs, rseq := t.rseq, q := t.q, sec := t.sec, twb := t.twb } ∧ SamePages s t [pgSnd, pgTwb]) ∧
  (∀ (s : State) (r : TxReq) (gnt : Bool), s.snd.req = some r → s.snd.state = .warm → r.g ≤ s.time.devtime + 16 * usTicks → s.grant gnt = true →
    ∃ t, exec (.txRampUpStart gnt) s = .next t ∧ t.snd = { s.snd with gnt := gnt, state := .rampUp, req := some { r with data := r.payload, upAt := s.time.mono } } ∧
      (∀ n, n < 64 → t.reg (airKey n) = s.reg (firKey n)) ∧ (∀ b : Fin 4, (s.mfp[b]).func = 2 → (t.mfp[b]).high = true) ∧
      t = { s with snd := t.snd, regs := t.regs, mfp := t.mfp } ∧ SameMain s t []) ∧
  (∀ (s : State) (r : TxReq) (gnt : Bool), s.snd.req = some r → s.snd.state = .warm → r.g ≤ s.time.devtime + 16 * usTicks → s.grant gnt = false →
    ∃ t, exec (.txRampUpStart gnt) s = .next t ∧ t = { s with snd := { s.snd with gnt := gnt, state := .waitGrant, waitAt := s.time.mono } }) ∧
  (∀ (s : State) (r : TxReq) (g : Nat), s.snd.req = some r → s.snd.state = .waitGrant → g = s.rampChip → g ≤ s.time.devtime + 16 * usTicks →
    ∃ t, exec .grantHeld s = .next t ∧ s.grant t.snd.gnt = true ∧
      t.snd = { s.snd with gnt := t.snd.gnt, state := .rampUp, req := some { r with g := g, data := ({ r with g := g } : TxReq).payload, upAt := s.time.mono } } ∧
      (∀ n, n < 64 → t.reg (airKey n) = s.reg (firKey n)) ∧ t = { s with snd := t.snd, regs := t.regs, mfp := t.mfp } ∧ SameMain s t []) ∧
  (∀ (s : State) (r : TxReq), s.snd.req = some r → s.snd.state = .waitGrant → s.snd.waitAt + s.get pgSnd sndGrantWait * msTicks ≤ s.time.mono →
    ∃ t, exec (.grantWaitExpiry false) s = .next t ∧ t.snd = { s.snd with state := s.txIdle, req := none, outcome := .grantTimeout, cxReq := false, cxPri := false } ∧
      Raised t pgSnd evSndTxDone ∧
      t = { s with snd := t.snd, regs := t.regs, q := t.q, strms := t.strms, bunds := t.bunds, squeues := t.squeues, mfp := t.mfp } ∧ SameMain s t [pgSnd, pgStrm]) ∧
  (∀ (s : State) (r : TxReq) (g : Nat), s.snd.req = some r → s.snd.state = .waitGrant → g = chipInstant (s.time.devtime + 16 * usTicks) →
      s.snd.waitAt + s.get pgSnd sndGrantWait * msTicks ≤ s.time.mono →
    ∃ t, exec (.grantWaitExpiry true) s = .next t ∧ Counts s t pgSnd pgRaceCnt ∧ s.grant t.snd.gnt = true ∧
      t.snd = { s.snd with gnt := t.snd.gnt, state := .rampUp, req := some { r with g := g, data := ({ r with g := g } : TxReq).payload, upAt := s.time.mono + (g - (s.time.devtime + 16 * usTicks)) } } ∧
      t = { s with snd := t.snd, regs := t.regs, mfp := t.mfp } ∧ SameMain s t [pgSnd]) ∧
  (∀ (s : State) (r : TxReq), s.snd.req = some r → s.snd.state = .rampUp → r.upAt + 16 * usTicks ≤ s.time.mono → ∃ t, exec .rampUpEnd s = .next t ∧ t = { s with snd := { s.snd with state := .tx } }) ∧
  (∀ (s : State) (r : TxReq), s.snd.req = some r → s.snd.state = .tx → r.upAt + (airtime r.sf r.len - 16) * usTicks ≤ s.time.mono →
    ∃ t, exec .txLastChip s = .next t ∧ t = { s with snd := { s.snd with state := .rampDown, req := some { r with outcome := some .sent, downAt := s.time.mono } } }) ∧
  (∀ (s : State) (r : TxReq), s.snd.req = some r → s.flag pgSnd sndCxEn = true → (s.snd.state = .rampUp ∨ s.snd.state = .tx) →
    ∃ t, exec (.grantDrop false) s = .next t ∧ s.grant t.snd.gnt = false ∧
      t = { s with snd := { s.snd with gnt := t.snd.gnt, state := .rampDown, req := some { r with outcome := some .grantLost, downAt := s.time.mono } } }) ∧
  (∀ (s : State) (r : TxReq), s.snd.req = some r → s.flag pgSnd sndCxEn = true → s.snd.state = .tx →
    ∃ t, exec (.grantDrop true) s = .next t ∧ s.grant t.snd.gnt = false ∧
      t.snd = { s.snd with gnt := t.snd.gnt, state := .rampDown, req := some { r with outcome := some .sent, downAt := s.time.mono } } ∧ Counts s t pgSnd pgRaceCnt ∧
      t = { s with snd := t.snd, regs := t.regs } ∧ SamePages s t [pgSnd]) ∧
  (∀ (s : State) (r : TxReq), s.snd.req = some r → s.snd.state = .rampDown → r.downAt + 16 * usTicks ≤ s.time.mono →
    ∃ t, exec (.rampDownEnd ()) s = .next t ∧
      t.snd = { s.snd with state := s.txIdle, req := none, outcome := r.outcome.getD .sent, cxReq := false, cxPri := false, spent := t.snd.spent } ∧
      (r.outcome.getD .sent = .sent → t.snd.spent = s.snd.spent ++ [(r.upAt, airtime r.sf r.len)] ∧ Counts s t pgSnd sndTxCnt) ∧
      (r.outcome.getD .sent ≠ .sent → t.snd.spent = (if s.airSince r = 0 then s.snd.spent else s.snd.spent ++ [(r.upAt, s.airSince r)])) ∧
      t.cal = { s.cal with run := s.cal.run.map (fun x =>
        if x.probeWait then { x with probeWait := false, probeAt := max s.time.mono (x.e0 + 4 * epochTicks) } else x) } ∧ Raised t pgSnd evSndTxDone ∧
      t = { s with snd := t.snd, regs := t.regs, q := t.q, strms := t.strms, bunds := t.bunds, squeues := t.squeues, mfp := t.mfp, cal := t.cal } ∧
      SameMain s t [pgSnd, pgStrm]) ∧
  (∀ (s : State) (r : TxReq) (bins : List MaskBin), s.snd.req = some r → (s.snd.state = .rampUp ∨ s.snd.state = .tx) →
      (bins.any (fun x => s.maskOver x) = true ∨ s.injected pgSnd 1 = true) →
    ∃ t, exec (.maskViolation bins) s = .next t ∧ t.snd = { s.snd with maskLock := true, state := .rampDown, req := some { r with outcome := some .maskAbort, downAt := s.time.mono } } ∧
      Raised t pgSnd evSndTxMask ∧ t = { s with snd := t.snd, regs := t.regs, q := t.q, log := t.log, temps := t.temps } ∧ SamePages s t [pgSnd, pgFlt]) ∧
  (∀ (s : State) (bins : List MaskBin), bins.any (fun x => s.maskOver x) = false → s.injected pgSnd 1 = false → exec (.maskViolation bins) s = .next s) ∧
  (∀ (s : State) (r : TxReq), s.snd.req = some r → s.snd.state = .tx →
    ∃ t, exec .dacFifoUnderflow s = .next t ∧
      t.snd = { s.snd with state := .off, req := none, outcome := .clockAbort, cxReq := false, cxPri := false, spent := t.snd.spent } ∧ Raised t pgSnd evSndTxDone ∧
      t = { s with snd := t.snd, regs := t.regs, q := t.q, strms := t.strms, bunds := t.bunds, squeues := t.squeues, mfp := t.mfp, cal := t.cal, log := t.log, temps := t.temps } ∧
      SameMain s t [pgSnd, pgStrm, pgFlt])

/-- The sounding receiver: a preamble within 2 kHz of RX_FREQ takes the receiver, and captures it from a packet whose header has not passed or that is weaker by CAPT_MARGIN, which is abandoned and counted (R290 to R292); a header of the right CRC is held, a wrong one counts and ends the packet (R277); a good packet counts, raises RX_PACKET and is remembered as its sender's last, with the DEVTIME at which it began; a bad one counts (R293 to R295); mulch abandons the packet (R293). -/
def Obligations.ReceiverFollowsPackets : Prop :=
  (∀ (s : State) (k : Fin 4) (m : Preamble), s.rxHears = true → m.cfo.natAbs ≤ 2000 → s.snd.held = none →
    ∃ t, exec (.preambleDetect k m) s = .next t ∧
      t = { s with snd := { s.snd with rx := .delimiter, held := some ⟨s.time.mono, s.get pgSnd (searcherSf k), m.power, false, none⟩ } }) ∧
  (∀ (s : State) (k : Fin 4) (m : Preamble) (h : RxHeld), s.rxHears = true → m.cfo.natAbs ≤ 2000 → s.snd.held = some h →
      (h.hdr = none ∨ h.power + (s.get pgSnd sndCaptMargin : Int) * 50 ≤ m.power) →
    ∃ t, exec (.preambleDetect k m) s = .next t ∧
      t.snd = { s.snd with rx := .delimiter, held := some ⟨s.time.mono, s.get pgSnd (searcherSf k), m.power, true, none⟩ } ∧
      Raised t pgSnd evSndRxAbandoned ∧ Counts s t pgSnd sndRxAbandon ∧
      t = { s with snd := t.snd, regs := t.regs, q := t.q, strms := t.strms, bunds := t.bunds, squeues := t.squeues } ∧ SameMain s t [pgSnd, pgStrm]) ∧
  (∀ (s : State) (hdr crc : Nat) (h : RxHeld), s.snd.held = some h → s.rxRuns = true → s.snd.rx ≠ .search → h.hdr = none →
      crcBytes 16 0x1021 0xFFFF (bytesBE 6 hdr) = crc →
    ∃ t, exec (.rxHeader hdr crc) s = .next t ∧
      t = { s with snd := { s.snd with rx := (if hdr / 2 ^ 26 % 128 = 0 then .header else .payload), held := some { h with hdr := some (hdr % 2 ^ 48) } } }) ∧
  (∀ (s : State) (hdr crc : Nat) (h : RxHeld), s.snd.held = some h → s.rxRuns = true → s.snd.rx ≠ .search → h.hdr = none →
      crcBytes 16 0x1021 0xFFFF (bytesBE 6 hdr) ≠ crc →
    ∃ t, exec (.rxHeader hdr crc) s = .next t ∧ t.snd = { s.snd with rx := .search, held := none } ∧ Counts s t pgSnd sndRxBad ∧
      t = { s with snd := t.snd, regs := t.regs, q := t.q, strms := t.strms, bunds := t.bunds, squeues := t.squeues } ∧ SameMain s t [pgSnd, pgStrm]) ∧
  (∀ (s : State) (m : RxMeas) (h : RxHeld) (hd : Nat), s.snd.held = some h → h.hdr = some hd → s.rxRuns = true →
      (hd / 2 ^ 26 % 128 = 0 ∨ crc32 (m.payload.take (hd / 2 ^ 26 % 128)) = m.crc) →
    ∃ t, exec (.rxPacketEnd m) s = .next t ∧ t.snd = { s.snd with rx := .search, held := none, lastRx := t.snd.lastRx } ∧
      (hd / 2 ^ 42, s.time.devAgo m.ago) ∈ t.snd.lastRx ∧ (∀ x ∈ t.snd.lastRx, x.1 = hd / 2 ^ 42 → x.2 = s.time.devAgo m.ago) ∧
      (∀ x : Nat × Nat, x.1 ≠ hd / 2 ^ 42 → (x ∈ t.snd.lastRx ↔ x ∈ s.snd.lastRx)) ∧ Raised t pgSnd evSndRxPacket ∧ Counts s t pgSnd sndRxOk ∧
      t.smc = { s.smc with corr := t.smc.corr } ∧
      t = { s with snd := t.snd, smc := t.smc, regs := t.regs, q := t.q, strms := t.strms, bunds := t.bunds, squeues := t.squeues } ∧ SameMain s t [pgSnd, pgStrm]) ∧
  (∀ (s : State) (m : RxMeas) (h : RxHeld) (hd : Nat), s.snd.held = some h → h.hdr = some hd → s.rxRuns = true →
      hd / 2 ^ 26 % 128 ≠ 0 → crc32 (m.payload.take (hd / 2 ^ 26 % 128)) ≠ m.crc →
    ∃ t, exec (.rxPacketEnd m) s = .next t ∧ t.snd = { s.snd with rx := .search, held := none } ∧ Counts s t pgSnd sndRxBad ∧
      t = { s with snd := t.snd, regs := t.regs, q := t.q, strms := t.strms, bunds := t.bunds, squeues := t.squeues } ∧ SameMain s t [pgSnd, pgStrm]) ∧
  (∀ (s : State) (h : RxHeld), s.snd.held = some h →
    ∃ t, exec .rxInterrupted s = .next t ∧ t.snd = { s.snd with rx := .search, held := none } ∧ Counts s t pgSnd sndRxAbandon ∧
      t = { s with snd := t.snd, regs := t.regs, q := t.q, strms := t.strms, bunds := t.bunds, squeues := t.squeues } ∧ SameMain s t [pgSnd, pgStrm])

/-- The mailbox commands of a point owner: PT_SET binds a point of its own partition or a free one, waiting for its next boundary in RUN and paused otherwise (R303 to R305); PT_DELETE frees it, an open interval leaving a last record (R305); REC_READ places the owner's records of a range on Q6 again (R314); REC_RECEIPT with the digest of a sent record deletes the owner's sent records up to it (R315), and ends a suspension once 1,382 or fewer are held (R316); GET_CERT gives the certificate chain to any session (R313). Where the manual leaves a point of it open, it rests on the model's own readings: logs 19 and 54. -/
def Obligations.PointAndRecordCommands : Prop :=
  (∀ (s : State) (p : PtId) (srcKind src det std khz n : Nat) (s1 : State) (c : Caller) (code : Nat), FrontRuns s 2 [0x01] n s1 c → holderOf c.role = some code →
      ((srcKind = 1 ∧ (slcOf src).isSome = true) ∨ (srcKind = 2 ∧ (bedOf src).isSome = true)) → det < 16 → std < 5 → khz < 2 ^ 18 →
      ((s1.smc.points[p]).state = .free ∨ (s1.smc.points[p]).owner = code) → s1.sourcePartition srcKind src = (if code = 0x30 then 0x10 else code) →
      s1.detSuits srcKind det std = true → s1.afCovers { Point.fresh with srcKind := srcKind, src := src, det := det, khz := khz } = true →
    ∃ t, exec (.ptSet p srcKind src det std khz) s = .next t ∧
      t.smc.points[p] = { Point.fresh with owner := code, state := if s1.inRun then .waiting else .paused, srcKind := srcKind, src := src, det := det, std := std,
                                           khz := khz, startGrid := s1.time.grid } ∧ Answered s1 t c .ok ∧
      ((s1.smc.points[p]).state ≠ .integrating → SameBut s1.smc.points t.smc.points p ∧ t.smc = { s1.smc with points := t.smc.points } ∧
        t = { s1 with smc := t.smc, regs := t.regs, rseq := t.rseq, q := t.q, sec := t.sec, twb := t.twb } ∧ SamePages s1 t [pgTwb]) ∧
      t = { s1 with smc := t.smc, freeCtr := t.freeCtr, regs := t.regs, rseq := t.rseq, q := t.q, sec := t.sec, twb := t.twb } ∧ SamePages s1 t [pgSmc 0, pgTwb]) ∧
  (∀ (s : State) (p : PtId) (n : Nat) (s1 : State) (c : Caller), FrontRuns s 2 [0x02] n s1 c → (s1.smc.points[p]).state ≠ .free →
      holderOf c.role = some (s1.smc.points[p]).owner → s1.smc.log.length < 1382 →
    ∃ t, exec (.ptDelete p ()) s = .next t ∧ t.smc.points[p] = Point.fresh ∧ SameBut s1.smc.points t.smc.points p ∧ Answered s1 t c .ok ∧ SamePages s1 t [pgTwb] ∧
      ((s1.smc.points[p]).state = .integrating → s1.smc.failed = false →
        ∃ r, t.smc.log.getLast? = some r ∧ r.owner = recOwner (s1.smc.points[p]).owner + 1 ∧ t.smc.log.length = s1.smc.log.length + 1) ∧
      ((s1.smc.points[p]).state ≠ .integrating → t.smc = { s1.smc with points := t.smc.points }) ∧
      t = { s1 with smc := t.smc, freeCtr := t.freeCtr, regs := t.regs, rseq := t.rseq, q := t.q, sec := t.sec, twb := t.twb }) ∧
  (∀ (s : State) (first count n : Nat) (s1 : State) (c : Caller) (code : Nat), FrontRuns s 2 [0x03] n s1 c → holderOf c.role = some code → 1 ≤ count → count ≤ 64 →
    ∃ t, exec (.recRead first count) s = .next t ∧ Answered s1 t c .ok ∧
      (∀ r, r ∈ s1.smc.log → r.owner = recOwner code + 1 → first ≤ r.seq → r.seq < first + count → (s1.recSession r.owner).isSome = true →
        ∃ x, SmcOut.record r.owner r.seq r.bytes x ∈ t.q.q6) ∧
      t.smc = { s1.smc with log := t.smc.log } ∧ t.smc.log.map (fun r => (r.owner, r.seq, r.bytes)) = s1.smc.log.map (fun r => (r.owner, r.seq, r.bytes)) ∧
      t = { s1 with smc := t.smc, regs := t.regs, rseq := t.rseq, q := t.q, sec := t.sec, twb := t.twb } ∧ SamePages s1 t [pgTwb]) ∧
  (∀ (s : State) (seq : Nat) (digest : BitVec 256) (n : Nat) (s1 : State) (c : Caller) (code : Nat) (r : Rec), FrontRuns s 2 [0x04] n s1 c →
      holderOf c.role = some code → r ∈ s1.smc.log → r.owner = recOwner code + 1 → r.seq = seq → r.sent = true → Config.sha256 r.bytes = digest →
    ∃ t, exec (.recReceipt seq digest) s = .next t ∧ Answered s1 t c .ok ∧
      (s1.smc.suspended = false → t.smc.log = s1.smc.log.filter (fun x => !(decide (x.owner = r.owner) && decide (x.seq ≤ seq) && x.sent)) ∧
        t.smc = { s1.smc with log := t.smc.log, highRaised := t.smc.highRaised } ∧
        t = { s1 with smc := t.smc, regs := t.regs, rseq := t.rseq, q := t.q, sec := t.sec, twb := t.twb } ∧ SamePages s1 t [pgTwb]) ∧
      (s1.smc.suspended = true → (s1.smc.log.filter (fun x => !(decide (x.owner = r.owner) && decide (x.seq ≤ seq) && x.sent))).length ≤ 1382 →
        Raised t (pgSmc 0) evSmcLogResumed)) ∧
  (∀ (s : State) (n : Nat) (s1 : State) (c : Caller), FrontRuns s 2 [0x05] n s1 c → c.ses.isSome = true →
    ∃ t, exec .getCert s = .next t ∧ Answered s1 t c .ok ∧
      (c.w.bus = false → ∃ a, t.q.q6 = s1.q.q6 ++ [SmcOut.answer a] ∧ a.data = packBytes Config.clocheChain ∧ a.op = c.w.head.op) ∧
      t = { s1 with regs := t.regs, rseq := t.rseq, q := t.q, sec := t.sec, twb := t.twb } ∧ SamePages s1 t [pgTwb])

/-- The Verifier's mailbox commands, each of which the audit trail counts but MARK_SET's slot bound (R322, R544): SEAL_BREAK and SEAL_RESTORE move the seal, a restore counting SEAL_GEN (R318, R319, Table 11.4); SX_WRITE sets a sealed value while the seal is not SEALED (R319); REVERIFY clears CHAIN_ALTERED of the named inputs (R267, R326); MARK_SET sets a mark (R323); FW_INSTALL takes signed firmware while the seal is not SEALED (R472). Where the manual leaves a point of it open, it rests on the model's own readings: logs 20 and 55. -/
def Obligations.VerifierCommands : Prop :=
  (∀ (s : State) (n : Nat) (s1 : State) (c : Caller) (v : Fin 3), FrontRuns s 2 [0x10] n s1 c → c.role = .verifier v → s1.smc.sealSt = .sealed →
    ∃ t, exec .sealBreak s = .next t ∧ t.smc.sealSt = .brokenVerifier ∧ t.smc.auditCnt = min (s1.smc.auditCnt + 1) (2 ^ 32 - 1) ∧ t.smc.sealGen = s1.smc.sealGen ∧
      Raised t (pgSmc 0) evSmcSealBroken ∧ Answered s1 t c .ok ∧ SamePages s1 t [pgSmc 0, pgTwb] ∧
      t = { s1 with smc := t.smc, freeCtr := t.freeCtr, regs := t.regs, rseq := t.rseq, q := t.q, sec := t.sec, twb := t.twb }) ∧
  (∀ (s : State) (n : Nat) (s1 : State) (c : Caller) (v : Fin 3), FrontRuns s 2 [0x11] n s1 c → c.role = .verifier v → s1.smc.sealSt ≠ .sealed → s1.smc.sealSt ≠ .absent →
      sealedSet.all (fun k => s1.smc.given.contains k) = true →
    ∃ t, exec (.sealRestore true false) s = .next t ∧ t.smc.sealSt = .sealed ∧ t.smc.sealGen = (s1.smc.sealGen + 1) % 2 ^ 16 ∧
      t.smc.auditCnt = min (s1.smc.auditCnt + 1) (2 ^ 32 - 1) ∧ Raised t (pgSmc 0) evSmcSealed ∧ Answered s1 t c .ok ∧ SamePages s1 t [pgSmc 0, pgTwb] ∧
      t = { s1 with smc := t.smc, freeCtr := t.freeCtr, regs := t.regs, rseq := t.rseq, q := t.q, sec := t.sec, twb := t.twb }) ∧
  (∀ (s : State) (v : SxVal) (n : Nat) (s1 : State) (c : Caller), FrontRuns s 2 [0x12] n s1 c → mayWriteSx c.role v = true → s1.smc.sealSt ≠ .sealed → sxInRange v = true →
      (∀ i w0 w1 w2, v = .distribution i w0 w1 w2 → fieldOf w0 31 31 = 1 → s1.fuse.variant.sounding = true) →
    ∃ t, exec (.sxWrite v) s = .next t ∧ SxHolds t v ∧ t.smc.auditCnt = min (s1.smc.auditCnt + 1) (2 ^ 32 - 1) ∧ t.smc.sealSt = s1.smc.sealSt ∧ Answered s1 t c .ok ∧
      (∀ k, sealedKey k = false → k / 0x400 ∉ [pgSmc 0, pgSec, pgTwb] → t.reg k = s1.reg k) ∧
      t = { s1 with smc := t.smc, freeCtr := t.freeCtr, regs := t.regs, rseq := t.rseq, q := t.q, sec := t.sec, twb := t.twb }) ∧
  (∀ (s : State) (mask n : Nat) (s1 : State) (c : Caller) (v : Fin 3), FrontRuns s 2 [0x13] n s1 c → c.role = .verifier v →
    ∃ t, exec (.reverify mask) s = .next t ∧ (∀ i : Inp, bitAt (t.get pgCal calChainAltered) i.val = (bitAt (s1.get pgCal calChainAltered) i.val && !bitAt mask i.val)) ∧
      t.smc.auditCnt = min (s1.smc.auditCnt + 1) (2 ^ 32 - 1) ∧ Answered s1 t c .ok ∧ SamePages s1 t [pgCal, pgSmc 0, pgTwb] ∧
      t = { s1 with smc := t.smc, freeCtr := t.freeCtr, regs := t.regs, rseq := t.rseq, q := t.q, sec := t.sec, twb := t.twb }) ∧
  (∀ (s : State) (slot : Fin 4) (mark : Word) (n : Nat) (s1 : State) (c : Caller) (v : Fin 3), FrontRuns s 2 [0x14] n s1 c → c.role = .verifier v →
    ∃ t, exec (.markSet slot.val mark) s = .next t ∧ (t.smc.marks[slot]).mark = mark ∧ (t.smc.marks[slot]).slot = v.val + 1 ∧ SameBut s1.smc.marks t.smc.marks slot ∧
      t.smc.auditCnt = min (s1.smc.auditCnt + 1) (2 ^ 32 - 1) ∧ Answered s1 t c .ok ∧ SamePages s1 t [pgTwb] ∧
      t = { s1 with smc := t.smc, regs := t.regs, rseq := t.rseq, q := t.q, sec := t.sec, twb := t.twb }) ∧
  (∀ (s : State) (image : List Byte) (n : Nat) (s1 : State) (c : Caller) (v : Fin 3), FrontRuns s 2 [0x15] n s1 c → c.role = .verifier v → s1.smc.sealSt ≠ .sealed →
    ∃ t, exec (.fwInstall image) s = .next t ∧
      (imageOk s1.fuse.fwKeyHash 1 s1.smc.svnMin image = true → t.smc.fwVer = BitVec.ofNat 32 (imageNat image 8 4) ∧ t.smc.fwName = imageField image 48 16 ∧
        t.smc.fwCrc = BitVec.ofNat 32 (crc32 (image.take (256 + imageNat image 12 4))) ∧ t.smc.svnMin = max s1.smc.svnMin (imageNat image 6 2) ∧ t.smc.auditCnt = min (s1.smc.auditCnt + 1) (2 ^ 32 - 1) ∧ Answered s1 t c .ok) ∧
      (imageOk s1.fuse.fwKeyHash 1 s1.smc.svnMin image = false → t.smc = s1.smc ∧ Answered s1 t c .badArg) ∧ SamePages s1 t [pgSmc 0, pgTwb] ∧
      t = { s1 with smc := t.smc, freeCtr := t.freeCtr, regs := t.regs, rseq := t.rseq, q := t.q, sec := t.sec, twb := t.twb })

/-- What the cloche does by itself: at a point's boundary its open interval leaves a record and the next opens (R305, R310); a checkpoint keeps the accumulators of every open interval (R324); a failed self-test, or an injection, enters FAILED with SMC_FAIL and abandons open intervals (R325); TAMPER_N low for 1 ms breaks the seal, recorded at once where the cloche is powered, at its next power-up where it is not, and does nothing on a part without a cloche (R8, R318, R320); on the return of its supply no interval stays open (R324). Where the manual leaves a point of it open, it rests on the model's own readings: log 54. -/
def Obligations.ClocheEventsTakeEffect : Prop :=
  (∀ (s : State) (p : PtId), (s.smc.points[p]).state = .integrating → s.smc.failed = false → s.smc.log.length < 1382 →
    ∃ t, exec (.intervalBoundary p ()) s = .next t ∧ t.time = s.time.advance (s.pointBoundary p - s.time.grid) ∧
      (∃ r, t.smc.log.getLast? = some r ∧ r.owner = recOwner (s.smc.points[p]).owner + 1) ∧ t.smc.log.length = s.smc.log.length + 1 ∧
      (t.smc.points[p]).state = (if s.mayOpen then .integrating else .waiting) ∧ SameBut s.smc.points t.smc.points p ∧
      t = { s with smc := t.smc, freeCtr := t.freeCtr, q := t.q, time := t.time, conds := t.conds, sec := t.sec }) ∧
  (∀ (s : State) (p : PtId), (s.smc.points[p]).state = .waiting → s.mayOpen = true → s.smc.log.length < 1383 →
    ∃ t, exec (.intervalBoundary p ()) s = .next t ∧ t.time = s.time.advance (s.pointBoundary p - s.time.grid) ∧ (t.smc.points[p]).state = .integrating ∧
      (t.smc.points[p]).start = t.time.devtime ∧ (t.smc.points[p]).startAt = t.time.mono ∧ (t.smc.points[p]).flags = t.flagsNow (s.smc.points[p]) ∧
      (t.smc.points[p]).acc = { PtAcc.fresh with mpx := (t.smc.points[p]).acc.mpx } ∧ (t.smc.points[p]).ckpt = none ∧ SameBut s.smc.points t.smc.points p ∧
      t = { s with smc := { s.smc with points := t.smc.points }, time := t.time, conds := t.conds }) ∧
  (∀ (s : State), s.smcWorks = true →
    ∃ t, exec (.clocheCheckpoint ()) s = .next t ∧ t.time = s.time.advance (s.smc.lastCkpt + secTicks - s.time.mono) ∧ t.smc.lastCkpt = t.time.mono ∧ SamePages s t [pgSmc 0] ∧
      t = { s with smc := t.smc, time := t.time, conds := t.conds, freeCtr := t.freeCtr, regs := t.regs, q := t.q, sec := t.sec }) ∧
  (∀ (s : State), s.smcWorks = true → s.clk.convClosedAt = none → s.smc.pauseReason ≠ 2 →
    ∃ t, exec (.clocheCheckpoint ()) s = .next t ∧
      (∀ p : PtId, (s.smc.points[p]).state = .integrating →
        t.smc.points[p] = { s.smc.points[p] with ckpt := some ⟨t.time.devtime, t.time.mono, (s.smc.points[p]).acc⟩ }) ∧
      (∀ p : PtId, (s.smc.points[p]).state ≠ .integrating → t.smc.points[p] = s.smc.points[p]) ∧ t.smc = { s.smc with points := t.smc.points, lastCkpt := t.time.mono } ∧
      t = { s with smc := t.smc, time := t.time, conds := t.conds }) ∧
  (∀ (s : State) (test : Fin 3), s.injected (pgSmc 0) (2 + test.val) = false → exec (.clocheSelftest test false) s = .next s) ∧
  (∀ (s : State) (test : Fin 3) (fail : Bool), s.smcWorks = true → (fail = true ∨ s.injected (pgSmc 0) (2 + test.val) = true) →
    ∃ t, exec (.clocheSelftest test fail) s = .next t ∧ t.smc.failed = true ∧ Raised t (pgSmc 0) evSmcFail ∧
      (∀ p : PtId, (t.smc.points[p]).state ≠ .integrating) ∧ t.smc = { s.smc with failed := true, points := t.smc.points } ∧ SamePages s t [pgSmc 0, pgFlt] ∧
      t = { s with smc := t.smc, regs := t.regs, q := t.q, log := t.log, temps := t.temps }) ∧
  (∀ (s : State), s.fuse.variant.cloche = true → s.smcUp = true → (s.smc.sealSt = .sealed ∨ s.smc.sealSt = .brokenVerifier) →
    ∃ t, exec .tamper s = .next t ∧ t.smc.sealSt = .brokenTamper ∧ t.smc.tamperLow = true ∧ t.smc.auditCnt = min (s.smc.auditCnt + 1) (2 ^ 32 - 1) ∧
      Raised t (pgSmc 0) evSmcTamper ∧ SamePages s t [pgSmc 0, pgFlt] ∧
      t = { s with smc := t.smc, freeCtr := t.freeCtr, regs := t.regs, q := t.q, sec := t.sec, log := t.log, temps := t.temps }) ∧
  (∀ (s : State), s.fuse.variant.cloche = true → s.smcUp = true → s.smc.sealSt ≠ .sealed → s.smc.sealSt ≠ .brokenVerifier →
    ∃ t, exec .tamper s = .next t ∧ t.smc = { s.smc with tamperLow := true } ∧ SamePages s t [pgSmc 0, pgFlt] ∧
      t = { s with smc := t.smc, regs := t.regs, q := t.q, log := t.log, temps := t.temps }) ∧
  (∀ (s : State), s.fuse.variant.cloche = true → s.smcUp = false → (s.smc.sealSt = .sealed ∨ s.smc.sealSt = .brokenVerifier) →
    ∃ t, exec .tamper s = .next t ∧ t.smc.sealSt = .brokenTamper ∧ t.smc.tamperLow = true ∧ t.smc.lateTamper = true ∧ t.smc.auditCnt = s.smc.auditCnt ∧ t = { s with smc := t.smc }) ∧
  (∀ (s : State), s.fuse.variant.cloche = false → exec .tamper s = .next s) ∧
  (∀ (s : State) (secs : Nat), s.fuse.variant.cloche = true → s.smc.failed = false →
    ∃ t, exec (.clochePowerRestore secs) s = .next t ∧ (∀ p : PtId, (t.smc.points[p]).state ≠ .integrating) ∧ t.smc.lateTamper = false ∧ t.smc.lastCkpt = s.time.mono ∧
      SamePages s t [pgSmc 0] ∧ t = { s with smc := t.smc, freeCtr := t.freeCtr, regs := t.regs, q := t.q, sec := t.sec })

/-- Training of a ring port by Table 12.6: a DOWN port that may train sees its clock, when it is enabled or RETRAIN ms after it fell (R358), and once that is qualified sends TS1; bit lock and block lock take it on; TS1 of the other port letter on both lanes gives DELAY and TS2; TS2 starts the delay exchange; a delay request of a port that trains or is UP is answered; eight responses that agree take the port UP with PORT_UP and its hop delay (R342); 100 µs without UP take it DOWN. -/
def Obligations.TrainingFollowsTable : Prop :=
  (∀ (s : State) (p : Port), (s.ports[p]).state = .down → s.mayTrain p = true →
    ∃ t, exec (.portEnable p) s = .next t ∧
      ((s.ports[p]).downAt + s.get pgLnk lnkRetrain * msTicks ≤ s.time.mono → exec (.retrainTimer p) s = .next t) ∧ SameBut s.ports t.ports p ∧ t = { s with ports := t.ports } ∧
      ((s.clk.ports[p]).qual = false → t.ports[p] = { s.ports[p] with state := .clock, trainAt := s.time.mono }) ∧
      ((s.clk.ports[p]).qual = true → t.ports[p] = { s.ports[p] with state := .bitlock, trainAt := s.time.mono, out := (s.ports[p]).out ++
        [ctlBlock 0 0x10 (p.val * 2 ^ 119 + s.fuse.serial.toNat), ctlBlock 1 0x10 (p.val * 2 ^ 119 + 2 ^ 118 + s.fuse.serial.toNat)] })) ∧
  (∀ (s : State) (p : Port), (s.ports[p]).state = .bitlock →
    ∃ t, exec (.bitLock p) s = .next t ∧ t.ports[p] = { s.ports[p] with state := .blocklock } ∧ SameBut s.ports t.ports p ∧ t = { s with ports := t.ports }) ∧
  (∀ (s : State) (p : Port), (s.ports[p]).state = .blocklock →
    ∃ t, exec (.blockLock p) s = .next t ∧ t.ports[p] = { s.ports[p] with state := .deskew } ∧ SameBut s.ports t.ports p ∧ t = { s with ports := t.ports }) ∧
  (∀ (s : State) (p : Port) (lane peerLane : Fin 2) (serial : BitVec 64) (inv : Bool), (s.ports[p]).state = .deskew →
    ∃ t, exec (.ts1 p lane (!decide (p = 1)) peerLane serial inv) s = .next t ∧ t.get (pgPort p) prtLaneSwap = bit (decide (peerLane ≠ lane)) ∧
      bitAt (t.get (pgPort p) prtPolInv) lane.val = inv ∧
      (((s.ports[p]).ts1)[(1 - lane : Fin 2)] = false → t.ports[p] = { s.ports[p] with ts1 := (s.ports[p]).ts1.set lane true }) ∧
      (((s.ports[p]).ts1)[(1 - lane : Fin 2)] = true → (t.ports[p]).state = .delay ∧ (t.ports[p]).ts2 = false ∧ (t.ports[p]).agree = 0 ∧
        (t.ports[p]).out = (s.ports[p]).out ++ [ctlBlock 0 0x11 (p.val * 2 ^ 119 + s.fuse.serial.toNat), ctlBlock 1 0x11 (p.val * 2 ^ 119 + 2 ^ 118 + s.fuse.serial.toNat)]) ∧
      SameBut s.ports t.ports p ∧ SamePages s t [pgPort p] ∧ t = { s with regs := t.regs, ports := t.ports }) ∧
  (∀ (s : State) (p : Port), (s.ports[p]).state = .delay →
    ∃ t, exec (.ts2 p) s = .next t ∧ t.ports[p] = { s.ports[p] with ts2 := true, out := (s.ports[p]).out ++ [ctlBlock 0 0x20 (s.time.mono * 256 % 2 ^ 64)] } ∧
      SameBut s.ports t.ports p ∧ t = { s with ports := t.ports }) ∧
  (∀ (s : State) (p : Port) (a b c : Nat), ((s.ports[p]).state = .delay ∨ (s.ports[p]).state = .up) →
    ∃ t, exec (.delayReq p a b c) s = .next t ∧ t.ports[p] = { s.ports[p] with out := (s.ports[p]).out ++ [ctlBlock 0 0x21 (b % 2 ^ 56 * 2 ^ 64 + c % 2 ^ 56)] } ∧
      SameBut s.ports t.ports p ∧ t = { s with ports := t.ports }) ∧
  (∀ (s : State) (p : Port) (t1 t2 t3 t4 : Nat), (s.ports[p]).state = .delay → (s.ports[p]).ts2 = true → s.time.retained = none →
      0 < (s.ports[p]).agree → (s.ports[p]).agree < 7 → (hopDelay t1 t2 t3 t4 - (s.ports[p]).agreeDelay).natAbs ≤ 4 →
    ∃ t, exec (.delayResp p t1 t2 t3 t4) s = .next t ∧ (t.ports[p]).agree = (s.ports[p]).agree + 1 ∧ (t.ports[p]).agreeDelay = (s.ports[p]).agreeDelay ∧
      (t.ports[p]).state = .delay ∧ SameBut s.ports t.ports p ∧ t = { s with ports := t.ports }) ∧
  (∀ (s : State) (p : Port) (t1 t2 t3 t4 : Nat), (s.ports[p]).state = .delay → (s.ports[p]).ts2 = true →
      ((s.ports[p]).agree = 0 ∨ 4 < (hopDelay t1 t2 t3 t4 - (s.ports[p]).agreeDelay).natAbs) →
    ∃ t, exec (.delayResp p t1 t2 t3 t4) s = .next t ∧ (t.ports[p]).agree = 1 ∧ (t.ports[p]).agreeDelay = hopDelay t1 t2 t3 t4 ∧ (t.ports[p]).state = .delay ∧
      (s.time.retained = none → t = { s with ports := t.ports }) ∧ SameBut s.ports t.ports p ∧
      t = { s with regs := t.regs, captured := t.captured, q := t.q, time := t.time, inputs := t.inputs, strms := t.strms, bunds := t.bunds, clk := t.clk, ports := t.ports }) ∧
  (∀ (s : State) (p : Port) (t1 t2 t3 t4 : Nat), (s.ports[p]).state = .delay → (s.ports[p]).ts2 = true → 7 ≤ (s.ports[p]).agree →
      (hopDelay t1 t2 t3 t4 - (s.ports[p]).agreeDelay).natAbs ≤ 4 →
    ∃ t, exec (.delayResp p t1 t2 t3 t4) s = .next t ∧ (t.ports[p]).state = .up ∧ (t.ports[p]).healed = false ∧ Raised t (pgPort p) evPrtPortUp ∧
      t.get (pgPort p) prtDelay = twos 32 (hopDelay t1 t2 t3 t4) ∧ SameBut s.ports t.ports p ∧
      t = { s with regs := t.regs, captured := t.captured, q := t.q, time := t.time, inputs := t.inputs, strms := t.strms, bunds := t.bunds, clk := t.clk, ports := t.ports,
                   ring := t.ring }) ∧
  (∀ (s : State) (p : Port), (s.ports[p]).state ≠ .down → (s.ports[p]).state ≠ .up → (s.ports[p]).trainAt + 100 * usTicks ≤ s.time.mono →
    ∃ t, exec (.trainingTimeout p) s = .next t ∧ (t.ports[p]).state = .down ∧ (t.ports[p]).wait = [] ∧ OnlyFreed s t (otherPort p) ∧
      t.get (pgPort p) prtDownCnt = s.get (pgPort p) prtDownCnt ∧
      SamePages s t [pgPort p, pgLnk] ∧ t = { s with regs := t.regs, q := t.q, clk := t.clk, ports := t.ports, ring := t.ring })

/-- An UP port falls on LINK_DOWN, on loss of block lock, on TS1, on lane errors in two alignment blocks in a row, each with PORT_DOWN, its count and LINK_DOWN into the hop; on LEAVE without LINK_DOWN (R355, R359); its waiting frames are lost (R357). A port UP that has not healed offers or answers the heal once it has run HEAL_CLEAN ms without an error, and carries traffic again when the offers have crossed (R358). A SKIP block changes nothing that the state holds (R333). Where the manual leaves a point of it open, it rests on the model's own readings: log 57. -/
def Obligations.PortsFallAndHeal : Prop :=
  (∀ (s : State) (p : Port) (lane peerLane : Fin 2) (peerB inv : Bool) (serial : BitVec 64), (s.ports[p]).state = .up →
    ∃ t, exec (.linkDown p) s = .next t ∧ exec (.blockLockLoss p) s = .next t ∧ exec (.ts1 p lane peerB peerLane serial inv) s = .next t ∧
      (t.ports[p]).state = .down ∧ (t.ports[p]).fell = true ∧ (t.ports[p]).wait = [] ∧
      (t.ports[p]).out = (s.ports[p]).out ++ [ctlBlock 0 0x30 0] ∧ Raised t (pgPort p) evPrtPortDown ∧ Counts s t (pgPort p) prtDownCnt ∧
      OnlyFreed s t (otherPort p) ∧ SamePages s t [pgPort p, pgLnk, pgClk] ∧
      t = { s with regs := t.regs, q := t.q, clk := t.clk, ports := t.ports, ring := t.ring }) ∧
  (∀ (s : State) (p : Port), (s.ports[p]).state = .up →
    ∃ t, exec (.leave p) s = .next t ∧ (t.ports[p]).state = .down ∧ (t.ports[p]).fell = true ∧ (t.ports[p]).wait = [] ∧ (t.ports[p]).out = (s.ports[p]).out ∧
      Raised t (pgPort p) evPrtPortDown ∧ Counts s t (pgPort p) prtDownCnt ∧ OnlyFreed s t (otherPort p) ∧ SamePages s t [pgPort p, pgLnk, pgClk] ∧
      t = { s with regs := t.regs, q := t.q, clk := t.clk, ports := t.ports, ring := t.ring }) ∧
  (∀ (s : State) (p : Port), (s.ports[p]).state = .up → (s.ports[p]).healed = false → (s.ports[p]).healSeen = false →
      (s.ports[p]).cleanFrom + s.get pgLnk lnkHealClean * msTicks ≤ s.time.mono →
    ∃ t, exec (.healCleanMet p) s = .next t ∧ t.ports[p] = { s.ports[p] with healSent := true, out := (s.ports[p]).out ++ [ctlBlock 0 0x32 0] } ∧
      SameBut s.ports t.ports p ∧ t = { s with ports := t.ports }) ∧
  (∀ (s : State) (p : Port), (s.ports[p]).state = .up → (s.ports[p]).healed = false → (s.ports[p]).healSeen = true →
      (s.ports[p]).cleanFrom + s.get pgLnk lnkHealClean * msTicks ≤ s.time.mono →
    ∃ t, exec (.healCleanMet p) s = .next t ∧
      t.ports[p] = { s.ports[p] with healed := true, healSent := false, healSeen := false, out := (s.ports[p]).out ++ [ctlBlock 0 0x33 0] } ∧
      (s.ring.wrapped[p] = true → Raised t pgLnk evLnkHeal) ∧
      SameBut s.ports t.ports p ∧ SamePages s t [pgLnk] ∧ t = { s with regs := t.regs, q := t.q, ports := t.ports, ring := t.ring }) ∧
  (∀ (s : State) (p : Port), (s.ports[p]).state = .up → (s.ports[p]).healed = false → (s.ports[p]).healSent = false →
    ∃ t, exec (.heal p) s = .next t ∧ t.ports[p] = { s.ports[p] with healSeen := true } ∧ SameBut s.ports t.ports p ∧ t = { s with ports := t.ports }) ∧
  (∀ (s : State) (p : Port), (s.ports[p]).state = .up → (s.ports[p]).healed = false → (s.ports[p]).healSent = true →
    ∃ t, exec (.heal p) s = .next t ∧ t.ports[p] = { s.ports[p] with healed := true, healSent := false, healSeen := false } ∧
      (s.ring.wrapped[p] = true → Raised t pgLnk evLnkHeal) ∧
      SameBut s.ports t.ports p ∧ SamePages s t [pgLnk] ∧ t = { s with regs := t.regs, q := t.q, ports := t.ports, ring := t.ring }) ∧
  (∀ (s : State) (p : Port), (s.ports[p]).state = .up → (s.ports[p]).healSent = true →
    ∃ t, exec (.healAck p) s = .next t ∧ t.ports[p] = { s.ports[p] with healed := true, healSent := false, healSeen := false } ∧
      (s.ring.wrapped[p] = true → Raised t pgLnk evLnkHeal) ∧ SameBut s.ports t.ports p ∧ SamePages s t [pgLnk] ∧
      t = { s with regs := t.regs, q := t.q, ports := t.ports, ring := t.ring }) ∧
  (∀ (s : State) (p : Port) (lane : Fin 2), 4 ≤ (s.ports[p]).state.code → (lane = 0 → s.injected (pgPort p) 1 = false) →
    ∃ t, exec (.align p lane true) s = .next t ∧ t.ports[p] = { s.ports[p] with laneBad := (s.ports[p]).laneBad.set lane false } ∧ SameBut s.ports t.ports p ∧
      t = { s with ports := t.ports }) ∧
  (∀ (s : State) (p : Port) (lane : Fin 2) (ok : Bool), 4 ≤ (s.ports[p]).state.code → (ok = false ∨ (lane = 0 ∧ s.injected (pgPort p) 1 = true)) →
    ∃ t, exec (.align p lane ok) s = .next t ∧ Counts s t (pgPort p) (if lane = 0 then prtLaneErr0 else prtLaneErr1) ∧
      (s.eventDue (s.ports[p]).laneAt = true → Raised t (pgPort p) evPrtLaneCrc) ∧
      (((s.ports[p]).laneBad[lane] = false ∨ (s.ports[p]).state ≠ .up) →
        t.ports[p] = { s.ports[p] with laneBad := (s.ports[p]).laneBad.set lane true, laneAt := (t.ports[p]).laneAt, cleanFrom := s.time.mono } ∧ SameBut s.ports t.ports p ∧
        t = { s with regs := t.regs, q := t.q, log := t.log, temps := t.temps, ports := t.ports }) ∧
      ((s.ports[p]).laneBad[lane] = true → (s.ports[p]).state = .up →
        (t.ports[p]).state = .down ∧ (t.ports[p]).out = (s.ports[p]).out ++ [ctlBlock 0 0x30 0] ∧ Raised t (pgPort p) evPrtPortDown ∧ Counts s t (pgPort p) prtDownCnt) ∧
      OnlyFreed s t (otherPort p) ∧ SamePages s t [pgPort p, pgLnk, pgClk, pgFlt] ∧
      t = { s with regs := t.regs, q := t.q, clk := t.clk, log := t.log, temps := t.temps, ports := t.ports, ring := t.ring }) ∧
  (∀ (s : State) (p : Port) (lane : Fin 2), exec (.skip p lane) s = .next s)

/-- A ring frame on an UP port: a frame that fails its CRC is discarded whole and counted, with FRAME_CRC at most once per 10 ms, and the fourth among sixteen is a fall (R336, R355); a sound frame tells the peer's clock quality and returns credit, a hop-local one its position (R337, R348, R354); frames missing before it are counted (R336); a frame for this part is absorbed and its credit freed (R338, R348); one whose TTL is used up is discarded and counted, any other frame goes on with one hop less (R338, R346). FRAME_SEND_TIMER places the oldest packet of Q4, Q5 or Q6 in TC0 frames, sent on both ports with DUAL, and forms one frame of a stream queue with 1 to 32 of its words; without a port that carries traffic nothing leaves (R335, R337, R339, R356). Where the manual leaves a point of it open, it rests on the model's own readings: logs 23 and 50. -/
def Obligations.FramesAreRouted : Prop :=
  (∀ (s : State) (p : Port) (f : RFrame), (s.ports[p]).state = .up → (f.crcOk = false ∨ s.injected (pgPort p) 2 = true) →
    ∃ t, exec (.frameReceive p f) s = .next t ∧ Counts s t (pgPort p) prtCrcErr ∧ (s.eventDue (s.ports[p]).crcAt = true → Raised t (pgPort p) evPrtFrameCrc) ∧
      ((((true :: (s.ports[p]).crcHist).take 16).filter id).length < 4 →
        t.ports[p] = { s.ports[p] with crcHist := (true :: (s.ports[p]).crcHist).take 16, crcAt := (t.ports[p]).crcAt, cleanFrom := s.time.mono } ∧
        SameBut s.ports t.ports p ∧ SamePages s t [pgPort p, pgFlt] ∧ t = { s with regs := t.regs, q := t.q, log := t.log, temps := t.temps, ports := t.ports }) ∧
      (4 ≤ (((true :: (s.ports[p]).crcHist).take 16).filter id).length →
        (t.ports[p]).state = .down ∧ (t.ports[p]).out = (s.ports[p]).out ++ [ctlBlock 0 0x30 0] ∧ Raised t (pgPort p) evPrtPortDown ∧ OnlyFreed s t (otherPort p) ∧
        SamePages s t [pgPort p, pgLnk, pgClk, pgFlt] ∧
        t = { s with regs := t.regs, q := t.q, clk := t.clk, log := t.log, temps := t.temps, ports := t.ports, ring := t.ring })) ∧
  (∀ (s : State) (p : Port) (f : RFrame), (s.ports[p]).state = .up → f.crcOk = true → s.injected (pgPort p) 2 = false → f.len = 0 →
    ∃ t, exec (.frameReceive p f) s = .next t ∧ t.get (pgPort p) prtPeerPos = (if f.src ≤ 64 then f.src else 0) ∧ (t.ports[p]).cqIn = f.cq ∧
      (t.ports[p]).chopsIn = f.chops ∧ (t.ports[p]).crcHist = (false :: (s.ports[p]).crcHist).take 16 ∧
      (t.ports[p]).credit = (s.ports[p]).credit.set (tcOf f.crTc) f.crCnt ∧ (t.ports[p]).state = .up ∧
      ((s.ports[p]).wait = [] → SameBut s.ports t.ports p ∧ (t.ports[p]).freed = (s.ports[p]).freed ∧ (t.ports[p]).out = (s.ports[p]).out) ∧ SamePages s t [pgPort p, pgClk] ∧
      t = { s with regs := t.regs, q := t.q, clk := t.clk, ports := t.ports, ring := t.ring }) ∧
  (∀ (s : State) (p : Port) (f : RFrame) (e : Nat), (s.ports[p]).state = .up → f.crcOk = true → s.injected (pgPort p) 2 = false → 0 < f.len →
      (s.ports[p]).hseqIn[tcOf f.tc] = some e →
    ∃ t, exec (.frameReceive p f) s = .next t ∧ (t.ports[p]).hseqIn[tcOf f.tc] = some ((f.hseq + 1) % 65536) ∧
      t.get (pgPort p) prtSeqGap = min (s.get (pgPort p) prtSeqGap + (f.hseq + 65536 - e) % 65536) (2 ^ (prtSeqGap.hi + 1 - prtSeqGap.lo) - 1) ∧
      SamePages s t [pgPort 0, pgPort 1, pgClk, pgFlt] ∧
      t = { s with regs := t.regs, q := t.q, clk := t.clk, log := t.log, temps := t.temps, ports := t.ports, ring := t.ring }) ∧
  (∀ (s : State) (p : Port) (f : RFrame), (s.ports[p]).state = .up → f.crcOk = true → s.injected (pgPort p) 2 = false → 0 < f.len →
      ((s.ports[p]).hseqIn[tcOf f.tc] = none ∨ (s.ports[p]).hseqIn[tcOf f.tc] = some (f.hseq % 65536)) → (some f.dst = s.ring.pos ∨ (f.dst = 0x7F ∧ f.queue = 3)) →
      (f.dst ≤ 64 ∨ f.dst = 0x7F) → (f.dst = 0x7F → f.queue = 3) → f.queue < 4 → f.src = 0 →
    ∃ t, exec (.frameReceive p f) s = .next t ∧ (t.ports[p]).hseqIn[tcOf f.tc] = some ((f.hseq + 1) % 65536) ∧ (t.ports[p]).state = .up ∧
      ((s.ports[p]).wait = [] → (t.ports[p]).freed[tcOf f.tc] = ((s.ports[p]).freed[tcOf f.tc] + 1) % 16384 ∧ SameBut s.ports t.ports p) ∧
      SamePages s t [pgPort p, pgClk] ∧ t = { s with regs := t.regs, q := t.q, clk := t.clk, ports := t.ports, ring := t.ring }) ∧
  (∀ (s : State) (p : Port) (f : RFrame), (s.ports[p]).state = .up → f.crcOk = true → s.injected (pgPort p) 2 = false → 0 < f.len →
      ((s.ports[p]).hseqIn[tcOf f.tc] = none ∨ (s.ports[p]).hseqIn[tcOf f.tc] = some (f.hseq % 65536)) → some f.dst ≠ s.ring.pos → f.dst ≤ 64 →
    ∃ t, exec (.frameReceive p f) s = .next t ∧ (f.ttl ≤ 1 → Counts s t (pgPort p) prtDiscard) ∧
      (f.ttl ≤ 1 → (s.ports[p]).wait = [] → (t.ports[p]).freed[tcOf f.tc] = ((s.ports[p]).freed[tcOf f.tc] + 1) % 16384 ∧ SameBut s.ports t.ports p) ∧
      (1 < f.ttl → s.carries (otherPort p) = true → OnPort t (otherPort p) { f with ttl := f.ttl - 1 }) ∧ SamePages s t [pgPort 0, pgPort 1, pgClk] ∧
      t = { s with regs := t.regs, q := t.q, clk := t.clk, ports := t.ports, ring := t.ring }) ∧
  (∀ (s : State) (q : SQueue) (p : Port) (ws : List Quad), s.get pgStrm (strmPorts.nth q.val) = p.val + 1 →
      ws = (s.squeues[q]).frameWords (if s.get pgStrm (strmPorts.nth q.val) = 2 then 1 else 0) → ws ≠ [] → s.carries p = true → (s.ports[p]).localWait < 2 →
    ∃ t, exec (.frameSendTimer (.strm q)) s = .next t ∧ 1 ≤ ws.length ∧ ws.length ≤ 32 ∧
      OnPort t p (s.localFrame (q.val + 7) (s.get pgStrm (strmTc.nth q.val)) false (firstHeader s.squeues[q]) ws) ∧
      SameBut s.squeues t.squeues q ∧ OnlyFreed s t (otherPort p) ∧ SamePages s t [pgPort p] ∧
      t = { s with regs := t.regs, squeues := t.squeues, ports := t.ports }) ∧
  (∀ (s : State) (oq : OutQueue) (k : Fin 3) (ws : List Quad), ((oq, k) = (.q4, 0) ∨ (oq, k) = (.q5, 1) ∨ (oq, k) = (.q6, 2)) → (s.carries 0 = true ∨ s.carries 1 = true) →
      s.nextOut k = some ws →
    ∃ t, exec (.frameSendTimer oq) s = .next t ∧ t.q = { s.q with framed := s.q.framed.set k (s.q.framed[k] + 1) } ∧
      (∀ f ∈ s.packetFrames k ws, ∀ p : Port, s.carries p = true → OnPort t p f) ∧ SamePages s t [pgPort 0, pgPort 1] ∧
      t = { s with q := t.q, regs := t.regs, ports := t.ports }) ∧
  (∀ (s : State) (oq : OutQueue), s.carries 0 = false → s.carries 1 = false → exec (.frameSendTimer oq) s = .next s)

/-- Positions and time on the ring: DISCOVER gives a device without a position its number, with POS_ASSIGNED and a HELLO, and unsets its DEVTIME (R343, R352); RING_SIZE shows N (R344); ASSIGN gives a position to the device of its serial number alone (R345); each goes on at the other port. A time word on the reference port is counted and shown, and leaves DEVTIME alone within TSTEP_TH; the third in a row beyond it plans a step of their mean; the first sets DEVTIME (R351 to R353, R417). A planned step takes effect at a sieve-frame boundary with TIME_STEP and its count (R417), and one of a second or more back erases the tenants' stream keys (R470). Where the manual leaves a point of it open, it rests on the model's own readings: logs 50 and 57. -/
def Obligations.PositionsAndTimeFollowRing : Prop :=
  (∀ (s : State) (p : Port) (count : Nat) (renumber : Bool) (n : Nat), (s.ports[p]).state = .up → (renumber = true ∨ s.ring.pos = none) →
      n = (if p = 1 then count + 1 else 64 - count) → 1 ≤ n → n ≤ 64 →
    ∃ t, exec (.discover p count renumber) s = .next t ∧ t.ring.pos = some n ∧ t.ring.aligned = false ∧ t.time.set = false ∧ Raised t pgLnk evLnkPosAssigned ∧
      (∃ a, t.q.q4 = s.q.q4 ++ [a] ∧ a.op = 0x71) ∧ SamePages s t [pgLnk] ∧
      (s.carries (otherPort p) = true → ∃ w, (t.ports[otherPort p]).out = (s.ports[otherPort p]).out ++ [.notice [w]]) ∧ SameBut s.ports t.ports (otherPort p) ∧
      t = { s with regs := t.regs, q := t.q, time := t.time, ports := t.ports, ring := t.ring }) ∧
  (∀ (s : State) (p : Port) (n : Nat), (s.ports[p]).state = .up →
    ∃ t, exec (.ringSize p n) s = .next t ∧ t.ring = { s.ring with ringN := n } ∧ SameBut s.ports t.ports (otherPort p) ∧ t = { s with ring := t.ring, ports := t.ports }) ∧
  (∀ (s : State) (p : Port) (serial : BitVec 64) (n : Nat), (s.ports[p]).state = .up →
    ∃ t, exec (.assign p serial n) s = .next t ∧ (serial = s.fuse.serial → t.ring.pos = some n ∧ (s.ring.pos ≠ some n → t.time.set = false ∧ Raised t pgLnk evLnkPosAssigned)) ∧
      (serial ≠ s.fuse.serial → t = { s with ports := t.ports }) ∧ SameBut s.ports t.ports (otherPort p) ∧ SamePages s t [pgLnk] ∧
      t = { s with regs := t.regs, q := t.q, time := t.time, ports := t.ports, ring := t.ring }) ∧
  (∀ (s : State) (p : Port) (hops corr tseq : Nat) (tr : Bool) (dev epoch arrival residence : Nat) (e : Int), (s.ports[p]).state = .up → s.clk.ref = some p →
      (s.clk.state = .locked ∨ s.clk.state = .holdover) → s.time.set = true → s.timeStale = false → s.ring.epoch = some epoch →
      e = (s.time.devtime * 256 + arrival : Nat) - ((dev * 256 + corr : Nat) + signedOf 32 (s.get (pgPort p) prtDelay)) →
    ∃ t, exec (.timeWord p hops corr tseq tr dev epoch arrival residence) s = .next t ∧ t.ring.aligned = true ∧ t.ring.traceable = tr ∧ t.ring.lastTw = some s.time.mono ∧
      Counts s t pgLnk lnkTwCnt ∧ t.get pgLnk lnkTimeErr = twos 32 e ∧
      (e.natAbs ≤ s.get pgLnk lnkTstepTh * 256 → t.ring.late = [] ∧ t.time = s.time) ∧
      (s.get pgLnk lnkTstepTh * 256 < e.natAbs → s.ring.late.length = 2 → t.ring.late = [] ∧ t.time = { s.time with step := some (roundDiv (s.ring.late ++ [e]).sum 768) }) ∧
      (s.get pgLnk lnkTstepTh * 256 < e.natAbs → s.ring.late.length < 2 → t.ring.late = s.ring.late ++ [e] ∧ t.time = s.time) ∧
      SameBut s.ports t.ports (otherPort p) ∧ SamePages s t [pgLnk] ∧ t = { s with regs := t.regs, ring := t.ring, time := t.time, ports := t.ports, smc := t.smc }) ∧
  (∀ (s : State) (p : Port) (hops corr tseq : Nat) (tr : Bool) (dev epoch arrival residence : Nat), (s.ports[p]).state = .up → s.clk.ref = some p →
      (s.clk.state = .locked ∨ s.clk.state = .holdover) → s.time.set = false → s.ring.newPos = false →
    ∃ t, exec (.timeWord p hops corr tseq tr dev epoch arrival residence) s = .next t ∧ t.time.set = true ∧ t.time.running = true ∧ t.ring.aligned = true ∧
      t.time.devtime = (roundDiv (((dev * 256 + corr : Nat) + signedOf 32 (s.get (pgPort p) prtDelay)) - arrival) 256).toNat ∧ t.ring.epoch = some epoch ∧
      t.ring.lastTw = some s.time.mono ∧ SameBut s.ports t.ports (otherPort p) ∧
      t = { s with regs := t.regs, captured := t.captured, q := t.q, time := t.time, inputs := t.inputs, strms := t.strms, bunds := t.bunds, skeys := t.skeys, sec := t.sec,
                   ports := t.ports, ring := t.ring, smc := t.smc }) ∧
  (∀ (s : State) (p : Port) (hops corr tseq : Nat) (tr : Bool) (dev epoch arrival residence : Nat) (e : Int), (s.ports[p]).state = .up → s.clk.ref = some p →
      (s.clk.state = .locked ∨ s.clk.state = .holdover) → s.time.set = false → s.ring.newPos = true →
      e = (s.time.devtime * 256 + arrival : Nat) - ((dev * 256 + corr : Nat) + signedOf 32 (s.get (pgPort p) prtDelay)) →
    ∃ t, exec (.timeWord p hops corr tseq tr dev epoch arrival residence) s = .next t ∧ t.time = { s.time with set := true, step := some (roundDiv e 256) } ∧
      t.ring.aligned = true ∧ t.ring.newPos = false ∧ t.ring.epoch = some epoch ∧ t.get pgLnk lnkTimeErr = twos 32 e ∧ t.inputs = s.inputs ∧
      t = { s with regs := t.regs, q := t.q, time := t.time, ports := t.ports, ring := t.ring, smc := t.smc }) ∧
  (∀ (s : State) (p : Port) (hops corr tseq : Nat) (tr : Bool) (dev epoch arrival residence : Nat), (s.ports[p]).state = .up →
      (s.clk.ref ≠ some p ∨ (s.clk.state ≠ .locked ∧ s.clk.state ≠ .holdover)) →
    ∃ t, exec (.timeWord p hops corr tseq tr dev epoch arrival residence) s = .next t ∧ SameBut s.ports t.ports (otherPort p) ∧ t = { s with ports := t.ports } ∧
      (s.carries (otherPort p) = true → ∃ w, (t.ports[otherPort p]).out = (s.ports[otherPort p]).out ++ [.notice [w, quadPack [(127, 64, dev), (63, 0, epoch)]]])) ∧
  (∀ (s : State) (d : Int), s.time.step = some d →
    ∃ t, exec .devtimeStep s = .next t ∧ t.time.step = none ∧ t.time.grid = s.time.next .frame ∧
      t.time.devtime = (((s.time.advance (s.time.next .frame - s.time.grid)).devtime : Int) - d).toNat ∧ Counts s t pgClk clkStepCnt ∧ Raised t pgClk evClkTimeStep ∧
      t.get pgClk clkStepLast = twos 32 d ∧ (∀ i : StrmId, t.strms[i] = { s.strms[i] with timeStep := some t.time.mono }) ∧
      ((secTicks : Int) ≤ d → ∀ n : TenId, t.skeys[n] = ⟨none, none, none, 0, 0, 0⟩) ∧
      (d < (secTicks : Int) → t.skeys = s.skeys ∧ t.sec = s.sec) ∧ SamePages s t [pgClk, pgSec] ∧
      t = { s with regs := t.regs, q := t.q, time := t.time, conds := t.conds, strms := t.strms, skeys := t.skeys, sec := t.sec, smc := t.smc })

/-- The synthesiser by Table 15.4: 10 µs at the learned word begin qualification (R416); a port whose clock passes every test qualifies and, before lock, is acquired (R406, R410); lock latches F_L, learns the word, clears CLK_DRIFT, and raises CLOCK_BACK after clockless safe (R407, R415), the part LOCKED where the reference is sound; an acquisition that runs out, 15 µs after it began, disqualifies its port (R407); a failing port is disqualified and, when UP, falls (R355, R406); a lock that is lost stops converters and ports and starts qualification again, with LOCK_LOST and its count (R421). -/
def Obligations.ClockIsAcquired : Prop :=
  (∀ (s : State), s.clk.state ≠ .off → s.clk.vcoAt + 10 * usTicks ≤ s.time.mono → ∃ t, exec .vcoSettle s = .next t ∧ t = { s with clk := { s.clk with settled := true } }) ∧
  (∀ (s : State) (p : Port) (freq : Int), s.clk.settled = true → s.clk.state ≠ .off → s.flag (pgPort p) prtEn = true → s.freqOk freq = true →
    ∃ t, exec (.clockQualify p freq) s = .next t ∧ (t.clk.ports[p]).qual = true ∧ t.get pgClk (freqFld p) = twos 32 freq ∧
      ((s.clk.state = .qualifying ∨ s.clk.state = .safe) → t.clk.state = .acquiring ∧ t.clk.ref = some p ∧ t.clk.acqAt = s.time.mono) ∧
      ((s.clk.state = .locked ∨ s.clk.state = .holdover) → t.clk.state = s.clk.state ∧ t.clk.ref = s.clk.ref) ∧
      (s.clk.state = .acquiring → t.clk.state = .acquiring ∧
        t.clk.ref = (if s.time.mono < s.clk.acqAt + 20 * usTicks ∧ s.clk.ref ≠ some p ∧ s.prefers p = true then some p else s.clk.ref)) ∧
      ((s.ports[p]).state = .clock → (t.ports[p]).state = .bitlock) ∧ SameBut s.ports t.ports p ∧ SameBut s.clk.ports t.clk.ports p ∧ SamePages s t [pgClk] ∧
      t = { s with regs := t.regs, clk := t.clk, ports := t.ports }) ∧
  (∀ (s : State) (fl : Int), s.clk.state = .acquiring →
    ∃ t, exec (.rootLock fl) s = .next t ∧ (t.clk.state = .locked ∨ t.clk.state = .holdover) ∧ t.clk.fl = fl ∧ t.clk.learned = true ∧ t.clk.cold = false ∧
      t.get pgClk clkDrift = 0 ∧ t.clk.ringClosedAt = none ∧ (s.clk.fromSafe = true → Raised t pgClk evClkClockBack) ∧
      (∀ p : Port, s.clk.ref = some p → s.refLost p = false → t.clk.state = .locked ∧ (((s.ports[p]).state = .up → (s.ports[p]).cqIn = 0) → t.clk.ref = some p)) ∧
      t = { s with regs := t.regs, captured := t.captured, q := t.q, time := t.time, inputs := t.inputs, strms := t.strms, bunds := t.bunds, clk := t.clk, ring := t.ring,
                   aud := t.aud, snd := t.snd }) ∧
  (∀ (s : State) (p : Port), s.clk.state = .acquiring → s.clk.ref = some p → s.clk.acqAt + 15 * usTicks ≤ s.time.mono →
    ∃ t, exec .acquisitionTimeout s = .next t ∧ t.clk.state = .qualifying ∧ t.clk.ref = none ∧ (t.clk.ports[p]).qual = false ∧ SameBut s.clk.ports t.clk.ports p ∧
      t = { s with clk := t.clk }) ∧
  (∀ (s : State) (p : Port) (edges : Bool), s.clk.state ≠ .off →
    ∃ t, exec (.portDisqual p edges) s = .next t ∧ (t.clk.ports[p]).qual = false ∧ (edges = true → Counts s t pgClk (if p = 0 then clkEdgeErrA else clkEdgeErrB)) ∧
      (s.eventDue (s.clk.ports[p]).disqualAt = true → Raised t pgClk evClkPortDisqual) ∧
      ((s.ports[p]).state = .up → (t.ports[p]).state = .down ∧ Raised t (pgPort p) evPrtPortDown) ∧ OnlyFreed s t (otherPort p) ∧
      ((s.ports[p]).state ≠ .up → t.ports = s.ports) ∧ SamePages s t [pgClk, pgPort p, pgLnk, pgFlt] ∧
      t = { s with regs := t.regs, q := t.q, clk := t.clk, log := t.log, temps := t.temps, ports := t.ports, ring := t.ring }) ∧
  (∀ (s : State), s.clk.state = .locked →
    ∃ t, exec .lockLost s = .next t ∧ t.clk.state = .qualifying ∧ t.clk.ref = none ∧ t.clk.settled = false ∧ (∀ p : Port, (t.clk.ports[p]).qual = false) ∧
      (∀ p : Port, (t.ports[p]).state = .down) ∧ (∀ i : Inp, (s.inputs[i]).conv = .run → (t.inputs[i]).conv = .stoppedUnlocked) ∧
      t.clk.ringClosedAt = some s.time.mono ∧ Raised t pgClk evClkLockLost ∧ Counts s t pgClk clkUnlockCnt ∧
      t = { s with regs := t.regs, q := t.q, inputs := t.inputs, snaps := t.snaps, strms := t.strms, bunds := t.bunds, squeues := t.squeues, clk := t.clk, log := t.log,
                   temps := t.temps, ports := t.ports, ring := t.ring, cal := t.cal, snd := t.snd, mfp := t.mfp })

/-- The reference of R411 to R415: lost with the other port eligible, it moves there hitlessly, with REF_SWITCH and its count; with none eligible the part holds over, with HOLDOVER and its count; a sound reference is left only for a port that PREF with REVERT, or CHOPS 2 lower under AUTO, calls for. Holdover ends on an eligible port within 5 ppm of the held frequency with HOLDOVER_END and its duration, converters in RUN going on, relocks on one beyond it, and at HOLD_MAX becomes clockless safe unless a port has become eligible, which wins. Where the manual leaves a point of it open, it rests on the model's own readings: logs 21 and 56. -/
def Obligations.ReferenceIsChosen : Prop :=
  (∀ (s : State) (p : Port), s.clk.state = .locked → s.clk.ref = some p → s.refLost p = true → (s.setCq 2).eligible (otherPort p) = true →
    ∃ t, exec .refSwitch s = .next t ∧ t.clk.state = .locked ∧ t.clk.ref = some (otherPort p) ∧ t.ring.cqOut = 0 ∧
      Raised t pgClk evClkRefSwitch ∧ Counts s t pgClk clkSwitchCnt ∧ SamePages s t [pgClk] ∧ t = { s with regs := t.regs, q := t.q, clk := t.clk, ring := t.ring }) ∧
  (∀ (s : State) (p : Port), s.clk.state = .locked → s.clk.ref = some p → s.refLost p = true → (s.setCq 2).eligible (otherPort p) = false →
    ∃ t, exec .refSwitch s = .next t ∧ t.clk.state = .holdover ∧ t.clk.holdFrom = s.time.mono ∧ t.ring.cqOut = 2 ∧ Raised t pgClk evClkHoldover ∧ Counts s t pgClk clkHoldCnt ∧
      SamePages s t [pgClk] ∧ t = { s with regs := t.regs, q := t.q, clk := t.clk, ring := t.ring }) ∧
  (∀ (s : State) (p : Port), s.clk.state = .locked → s.clk.ref = some p → s.refLost p = false → ((s.ports[p]).state = .up → (s.ports[p]).cqIn = 0) → s.ring.cqOut = 0 →
    ∃ t, exec .refSwitch s = .next t ∧ t.clk.state = .locked ∧ t.clk.ref = some (if s.wantsOther p then otherPort p else p) ∧
      (s.wantsOther p = true → Raised t pgClk evClkRefSwitch ∧ Counts s t pgClk clkSwitchCnt) ∧ (s.wantsOther p = false → t.regs = s.regs) ∧ t.ring.cqOut = 0 ∧
      t = { s with regs := t.regs, q := t.q, clk := t.clk, ring := t.ring }) ∧
  (∀ (s : State) (p : Port) (freq : Int), s.clk.state = .holdover → s.eligiblePort = some p → freq.natAbs ≤ 500 →
    ∃ t, exec (.holdoverReentry freq) s = .next t ∧ t.clk.state = .locked ∧ t.clk.ref = some p ∧ t.ring.cqOut = 0 ∧ Raised t pgClk evClkHoldoverEnd ∧
      t.get pgClk clkHoldLast = min ((s.time.mono - s.clk.holdFrom) / usTicks) (2 ^ 32 - 1) ∧ (s.clk.ref ≠ some p → Raised t pgClk evClkRefSwitch ∧ Counts s t pgClk clkSwitchCnt) ∧
      (∀ i : Inp, (s.inputs[i]).conv = .run → t.inputs[i] = s.inputs[i]) ∧ SamePages s t [pgClk, pgInp 0, pgInp 1, pgInp 2, pgInp 3] ∧
      t = { s with regs := t.regs, captured := t.captured, q := t.q, time := t.time, inputs := t.inputs, strms := t.strms, bunds := t.bunds, clk := t.clk, ring := t.ring }) ∧
  (∀ (s : State) (p : Port) (freq : Int), s.clk.state = .holdover → s.eligiblePort = some p → 500 < freq.natAbs →
    ∃ t, exec (.holdoverReentry freq) s = .next t ∧ t.clk.state = .acquiring ∧ t.clk.ref = some p ∧ (∀ q : Port, (t.ports[q]).state = .down) ∧
      (∀ i : Inp, (s.inputs[i]).conv = .run → (t.inputs[i]).conv = .stoppedUnlocked) ∧
      t = { s with regs := t.regs, q := t.q, inputs := t.inputs, snaps := t.snaps, strms := t.strms, bunds := t.bunds, squeues := t.squeues, clk := t.clk, ports := t.ports,
                   ring := t.ring, cal := t.cal, snd := t.snd, mfp := t.mfp }) ∧
  (∀ (s : State), s.clk.state = .holdover → s.eligiblePort = none → s.clk.holdFrom + s.get pgClk clkHoldMax * msTicks ≤ s.time.mono →
    ∃ t, exec .holdMaxExpiry s = .next t ∧ t.clk.state = .safe ∧ t.clk.ref = none ∧ t.time.running = false ∧ t.time.set = false ∧ t.ring.aligned = false ∧
      (∀ i : Inp, (s.inputs[i]).conv = .run → (t.inputs[i]).conv = .stoppedClock) ∧ (∀ p : Port, (t.ports[p]).state = .down ∧ (t.clk.ports[p]).qual = false) ∧
      Raised t pgClk evClkClocklessSafe ∧ Counts s t pgClk clkSafeCnt ∧
      t = { s with regs := t.regs, q := t.q, time := t.time, inputs := t.inputs, snaps := t.snaps, strms := t.strms, bunds := t.bunds, squeues := t.squeues, clk := t.clk,
                   ports := t.ports, ring := t.ring, aud := t.aud, cal := t.cal, snd := t.snd, mfp := t.mfp }) ∧
  (∀ (s : State) (p : Port), s.clk.state = .holdover → s.eligiblePort = some p → s.clk.holdFrom + s.get pgClk clkHoldMax * msTicks ≤ s.time.mono →
    ∃ t, exec .holdMaxExpiry s = .next t ∧ Counts s t pgClk pgRaceCnt ∧ SamePages s t [pgClk] ∧ t = { s with regs := t.regs })

/-- The core supply: the end of a ladder step reaches the next rung, and ends the transition with RUNG_DONE when that is the rung asked for or goes on (R442); a restore raises the setpoint by RESTORE_MARGIN once its conditions hold (R439); READ_VOUT within 10 mV confirms the setpoint (R433); at VSETTLE an unconfirmed one is a warning of slot 0, unless the confirmation is seen (R379, R433); a poll, POLL ms after the last, or PMB_ALERT_N, shows a slot's status word, ends a loss with PMB_BACK, and makes the third failure in a row a loss with PMB_LOST (R435, R436). Where the manual leaves a point of it open, it rests on the model's own readings: logs 58 and 59. -/
def Obligations.SupplyAndLadderMove : Prop :=
  (∀ (s : State), s.pwr.busy = true → s.rungGoal = nextRung s.pwr.rung s.pwr.rising →
    ∃ t, exec .rungStepDone s = .next t ∧ t.pwr.rung = nextRung s.pwr.rung s.pwr.rising ∧ t.pwr.busy = false ∧ t.pwr.rising = false ∧ Raised t pgPwr evPwrRungDone ∧
      (t.pwr.rung = 3 → 4 ≤ s.pwr.rung → Raised t pgTwb evTwbWake) ∧ SamePages s t [pgPwr, pgTwb, pgSmc 0] ∧
      t = { s with freeCtr := t.freeCtr, regs := t.regs, q := t.q, sec := t.sec, smc := t.smc, pwr := t.pwr }) ∧
  (∀ (s : State), s.pwr.busy = true → s.pwr.rising = false → s.pwr.rung + 1 < s.rungGoal → s.rungGoal ≤ 5 →
    ∃ t, exec .rungStepDone s = .next t ∧ t.pwr.rung = s.pwr.rung + 1 ∧ t.pwr.busy = true ∧ t.pwr.rising = false) ∧
  (∀ (s : State), s.pwr.busy = true → s.pwr.rising = true → s.rungGoal < nextRung s.pwr.rung true →
    ∃ t, exec .rungStepDone s = .next t ∧ t.pwr.rung = nextRung s.pwr.rung true ∧ t.pwr.busy = true ∧ t.pwr.rising = true) ∧
  (∀ (s : State) (v : Nat), s.inRun = true → s.pwr.restore = .none → s.nextRestore.isSome = true → s.get pgPwr pwrRestoreEpochs ≤ s.pwr.clearRun →
      s.get pgPwr pwrRestoreEpochs ≤ s.pwr.sinceChange → v = s.pwr.setpoint + s.get pgPwr pwrRestoreMargin → v ≤ s.get pgPwr pwrVmax → s.pwr.suspended = false →
      s.temps.crit = false → 64 ≤ s.temps.clearEpochs →
    ∃ t, exec .seqRestoreRaise s = .next t ∧ t.pwr.setpoint = v ∧ t.pwr.restore = .raising ∧ (0 < s.get pgPwr pwrRestoreMargin → t.pwr.confirmed = false) ∧
      SamePages s t [pgPwr] ∧ t = { s with regs := t.regs, q := t.q, pwr := t.pwr, pmbSent := t.pmbSent }) ∧
  (∀ (s : State) (mv : Nat), s.boot = .complete → s.pwr.confirmed = false → mv < 65536 → s.pwr.setAt + s.slewTicks ≤ s.time.mono →
    ∃ t, exec (.setpointConfirm mv) s = .next t ∧ t.get pgPmb pmbVout = mv ∧
      (mv ≤ 5 * s.pwr.setpoint + 10 → 5 * s.pwr.setpoint ≤ mv + 10 → t.pwr.confirmed = true ∧ t.pwr.unconfWarn = false ∧
        (s.pwr.restore = .raising → t.pwr.restore = .waiting)) ∧
      ((5 * s.pwr.setpoint + 10 < mv ∨ mv + 10 < 5 * s.pwr.setpoint) → t = { s with regs := t.regs } ∧ SamePages s t [pgPmb]) ∧ t.pwr.setpoint = s.pwr.setpoint ∧
      t = { s with regs := t.regs, captured := t.captured, q := t.q, time := t.time, inputs := t.inputs, strms := t.strms, bunds := t.bunds, pwr := t.pwr, pmb := t.pmb }) ∧
  (∀ (s : State), s.boot = .complete → s.pwr.confirmed = false → s.pwr.unconfWarn = false →
      s.pwr.setAt + s.get pgPmb pmbVsettle * 10 * usTicks ≤ s.time.mono →
    ∃ t, exec (.vsettleExpiry false) s = .next t ∧ t.pwr.unconfWarn = true ∧ t.pwr.confirmed = false ∧ (t.pmb[0]).warned = true ∧
      (s.pwr.restore = .raising → t.pwr.restore = .none) ∧ ((s.pmb[0]).warned = false → Raised t pgPmb evPmbRegWarn) ∧ SameBut s.pmb t.pmb 0 ∧ SamePages s t [pgPmb, pgFlt] ∧
      t = { s with regs := t.regs, q := t.q, pwr := t.pwr, pmb := t.pmb, log := t.log, temps := t.temps }) ∧
  (∀ (s : State), s.boot = .complete → s.pwr.confirmed = false → s.pwr.unconfWarn = false →
      s.pwr.setAt + s.get pgPmb pmbVsettle * 10 * usTicks ≤ s.time.mono →
    ∃ t, exec (.vsettleExpiry true) s = .next t ∧ t.pwr.confirmed = true ∧ t.pwr.unconfWarn = false ∧ Counts s t pgPmb pgRaceCnt ∧
      t = { s with regs := t.regs, captured := t.captured, q := t.q, time := t.time, inputs := t.inputs, strms := t.strms, bunds := t.bunds, pwr := t.pwr, pmb := t.pmb }) ∧
  (∀ (s : State) (k : Fin 4) (r : PmbRead) (v : Nat) (i : Instr), ((i = .pmbPoll [(k, r)] ∧ s.pwr.polledAt + s.get pgPmb pmbPoll * msTicks ≤ s.time.mono) ∨ i = .pmbAlert [(k, r)]) →
      s.boot = .complete → s.pwr.rung ≤ 3 → k ≠ 0 →
      s.flag pgPmb (pmbEn.nth k.val) = true → r.status = .ok v → v < 65536 → r.warn = false → r.fault = false →
    ∃ t, exec i s = .next t ∧ t.get pgPmb (pmbStatusWord.nth k.val) = v ∧
      (t.pmb[k]).lost = false ∧ (t.pmb[k]).failRun = 0 ∧ (t.pmb[k]).warned = false ∧ (t.pmb[k]).fault = false ∧
      ((s.pmb[k]).lost = true → Raised t pgPmb evPmbBack) ∧ ((s.pmb[k]).warned = true → Raised t pgPmb evPmbRegClear) ∧ SameBut s.pmb t.pmb k ∧ SamePages s t [pgPmb] ∧
      t.pwr = { s.pwr with polledAt := t.pwr.polledAt } ∧ (i = .pmbPoll [(k, r)] → t.pwr.polledAt = s.time.mono) ∧
      t = { s with regs := t.regs, q := t.q, pwr := t.pwr, pmb := t.pmb, pmbSent := t.pmbSent }) ∧
  (∀ (s : State) (r : PmbRead) (v mv ma : Nat) (i : Instr), ((i = .pmbPoll [(0, r)] ∧ s.pwr.polledAt + s.get pgPmb pmbPoll * msTicks ≤ s.time.mono) ∨ i = .pmbAlert [(0, r)]) →
      s.boot = .complete → s.pwr.rung ≤ 3 → s.pwr.confirmed = true → (∀ d, 1 ≤ d → d ≤ 3 → s.injected pgPmb d = false) →
      r.status = .ok v → r.vout = .ok mv → r.iout = .ok ma → v < 65536 → mv < 65536 → ma < 65536 → r.warn = false → r.fault = false →
    ∃ t, exec i s = .next t ∧ t.get pgPmb (pmbStatusWord.nth 0) = v ∧ t.get pgPmb pmbVout = mv ∧
      t.get pgPmb pmbIout = ma ∧ (t.pmb[0]).lost = false ∧ (t.pmb[0]).failRun = 0 ∧ (t.pmb[0]).fault = false ∧
      ((s.pmb[0]).lost = true → Raised t pgPmb evPmbBack) ∧ SameBut s.pmb t.pmb 0 ∧ SamePages s t [pgPmb] ∧
      t = { s with regs := t.regs, q := t.q, pwr := t.pwr, pmb := t.pmb, pmbSent := t.pmbSent }) ∧
  (∀ (s : State) (k : Fin 4) (r : PmbRead) (f : Fld) (i : Instr), ((i = .pmbPoll [(k, r)] ∧ s.pwr.polledAt + s.get pgPmb pmbPoll * msTicks ≤ s.time.mono) ∨ i = .pmbAlert [(k, r)]) →
      s.boot = .complete → s.pwr.rung ≤ 3 → k ≠ 0 → s.flag pgPmb (pmbEn.nth k.val) = true →
      ((r.status = .nack ∧ f = pmbNackCnt) ∨ (r.status = .pec ∧ f = pmbPecCnt)) →
    ∃ t, exec i s = .next t ∧ (t.pmb[k]).failRun = (s.pmb[k]).failRun + 1 ∧ Counts s t pgPmb f ∧
      ((s.pmb[k]).failRun = 2 → (t.pmb[k]).lost = true ∧ ((s.pmb[k]).lost = false → Raised t pgPmb evPmbLost)) ∧
      ((s.pmb[k]).failRun < 2 → (t.pmb[k]).lost = (s.pmb[k]).lost) ∧ SameBut s.pmb t.pmb k ∧ SamePages s t [pgPmb, pgFlt] ∧
      t.pwr = { s.pwr with polledAt := t.pwr.polledAt } ∧ (i = .pmbPoll [(k, r)] → t.pwr.polledAt = s.time.mono) ∧
      t = { s with regs := t.regs, q := t.q, pwr := t.pwr, pmb := t.pmb, log := t.log, temps := t.temps })

/-- The two-wire bus: an address match begins a transfer, another address does not; in SLEEP and DORMANT it begins a rise (R384, R392, R393). Three bytes set the pointer; four data bytes write the register there as the direct window does, and the pointer moves on by 4 (R386, R388); a read transfer drives the bytes of the register at the pointer (R388). A START or STOP in a transfer abandons it, and is counted (R390); SCL held low, or SDA held low without an edge, ends it with its flag and event, unless an edge is seen, which wins (R379, R394, R395); nine clocks release SDA after the byte under way (R396). Where the manual leaves a point of it open, it rests on the model's own readings: log 35. -/
def Obligations.TwoWireTransfersMove : Prop :=
  (∀ (s : State) (read : Bool), s.busOpen = true → s.pwr.rung ≤ 3 →
    ∃ t, exec (.twbAddressMatch (0x38 + s.twb.strap.toNat) read) s = .next t ∧ t.twb.state = (if read then .reading else .addressed) ∧
      t.twb.site = decide (s.windowRole = .site) ∧ t.twb.pointer = s.twb.pointer ∧
      (s.twb.state = .idle → SamePages s t []) ∧ (s.twb.state ≠ .idle → t.twb.part = [] ∧ Counts s t pgTwb twbAbandonCnt ∧ SamePages s t [pgTwb]) ∧
      t = { s with regs := t.regs, twb := t.twb }) ∧
  (∀ (s : State) (addr : Nat) (read : Bool), s.busOpen = true → s.twb.state = .idle → addr ≠ 0x38 + s.twb.strap.toNat →
    exec (.twbAddressMatch addr read) s = .next s) ∧
  (∀ (s : State) (addr : Nat) (read : Bool), s.busOpen = true → s.twb.state ≠ .idle → addr ≠ 0x38 + s.twb.strap.toNat →
    ∃ t, exec (.twbAddressMatch addr read) s = .next t ∧ t.twb = { s.twb with state := .idle, part := [] } ∧ Counts s t pgTwb twbAbandonCnt ∧ SamePages s t [pgTwb] ∧
      t = { s with regs := t.regs, twb := t.twb }) ∧
  (∀ (s : State) (read : Bool), s.busOpen = true → s.twb.state = .idle → s.pwr.busy = false → (s.pwr.rung = 4 ∨ s.pwr.rung = 5) →
    ∃ t, exec (.twbAddressMatch (0x38 + s.twb.strap.toNat) read) s = .next t ∧ t.pwr.busy = true ∧ t.pwr.rising = true ∧ t.pwr.riseAt = some s.time.mono ∧ t.pwr.rung = s.pwr.rung) ∧
  (∀ (s : State) (a b c : Byte), s.windowOpen = true → s.twb.state = .addressed → s.twb.part = [] →
    ∃ t, exec (.twbWriteTransfer [a, b, c] false) s = .next t ∧ t = { s with twb := { s.twb with state := .writing, pointer := natOfBE [a, b, c], left := [] } }) ∧
  (∀ (s : State) (a b c d : Byte) (c' : Caller), s.windowOpen = true → s.twb.state = .writing → s.twb.part = [] → s.twb.site = decide (s.windowRole = .site) →
      WriteRuns s .window [⟨s.twb.pointer, BitVec.ofNat 32 (natOfBE [a, b, c, d]), BitVec.allOnes 32⟩] s c' →
    ∃ t u, exec (.twbWriteTransfer [a, b, c, d] false) s = .next t ∧ exec (.plainRegisterWrite .window s.twb.pointer (BitVec.ofNat 32 (natOfBE [a, b, c, d]))) s = .next u ∧
      t = { u with twb := { u.twb with pointer := (s.twb.pointer + 4) % 2 ^ 24 } }) ∧
  (∀ (s : State), s.windowOpen = true → s.twb.state = .reading → s.twb.left = [] → s.readRefusal s.busCaller.role s.twb.pointer 1 = .ok →
    ∃ t, exec (.twbReadTransfer 4 false) s = .next t ∧
      t.twb.driven = s.twb.driven ++ wordBytes (s.readWord (roleCode s.busCaller.role) s.twb.pointer) ∧ t.twb.pointer = (s.twb.pointer + 4) % 2 ^ 24 ∧
      t.twb.state = .reading ∧ t.twb.left = [] ∧ t = { s with regs := t.regs, twb := t.twb }) ∧
  (∀ (s : State), s.windowOpen = true → s.twb.state = .reading →
    ∃ t, exec (.twbReadTransfer 0 true) s = .next t ∧ t.twb.state = .idle ∧ t.twb.pointer = s.twb.pointer ∧ SamePages s t [] ∧ t = { s with twb := t.twb }) ∧
  (∀ (s : State), s.busOpen = true → s.twb.state ≠ .idle →
    ∃ t, exec .twbStartAbandon s = .next t ∧ t.twb = { s.twb with state := .idle, part := [] } ∧ Counts s t pgTwb twbAbandonCnt ∧ SamePages s t [pgTwb] ∧
      t = { s with regs := t.regs, twb := t.twb }) ∧
  (∀ (s : State), s.busOpen = true → s.twb.state = .idle → exec .twbStartAbandon s = .next s) ∧
  (∀ (s : State), s.busTimed = true → s.injected pgTwb 1 = false →
    ∃ t, exec (.sclLowTimeout true) s = .next t ∧ Counts s t pgTwb pgRaceCnt ∧ SamePages s t [pgTwb] ∧ t = { s with regs := t.regs }) ∧
  (∀ (s : State) (seen : Bool), s.busTimed = true → (seen = false ∨ s.injected pgTwb 1 = true) →
    ∃ t, exec (.sclLowTimeout seen) s = .next t ∧ t.twb.state = .idle ∧ t.get pgTwb twbSclLow = 1 ∧ Raised t pgTwb evTwbSclLowTimeout ∧
      (s.twb.state ≠ .idle → Counts s t pgTwb twbAbandonCnt) ∧ SamePages s t [pgTwb, pgFlt] ∧
      t = { s with regs := t.regs, q := t.q, log := t.log, temps := t.temps, twb := t.twb }) ∧
  (∀ (s : State), s.busTimed = true → (s.twb.state = .addressed ∨ s.twb.state = .writing ∨ s.twb.state = .reading) → s.injected pgTwb 2 = false →
    ∃ t, exec (.sdaReleaseTimeout true) s = .next t ∧ Counts s t pgTwb pgRaceCnt ∧ SamePages s t [pgTwb] ∧ t = { s with regs := t.regs }) ∧
  (∀ (s : State) (seen : Bool), s.busTimed = true → (s.twb.state = .addressed ∨ s.twb.state = .writing ∨ s.twb.state = .reading) →
      (seen = false ∨ s.injected pgTwb 2 = true) →
    ∃ t, exec (.sdaReleaseTimeout seen) s = .next t ∧ t.twb.state = .idle ∧ t.get pgTwb twbSdaReleased = 1 ∧ Raised t pgTwb evTwbSdaReleased ∧
      SamePages s t [pgTwb, pgFlt] ∧ t = { s with regs := t.regs, q := t.q, log := t.log, temps := t.temps, twb := t.twb }) ∧
  (∀ (s : State) (b : Byte) (l : List Byte), s.windowOpen = true → s.twb.state = .reading → s.twb.left = b :: l →
    ∃ t, exec .nineClockRecovery s = .next t ∧ t.twb = { s.twb with state := .idle, part := [], left := l, driven := s.twb.driven ++ [b] } ∧ t = { s with twb := t.twb }) ∧
  (∀ (s : State), s.windowOpen = true → s.twb.state = .reading → s.twb.left = [] → s.readRefusal s.busCaller.role s.twb.pointer 1 = .ok →
    ∃ t, exec .nineClockRecovery s = .next t ∧ t.twb.state = .idle ∧ t.twb.pointer = (s.twb.pointer + 4) % 2 ^ 24 ∧
      t.twb.driven = s.twb.driven ++ (wordBytes (s.readWord (roleCode s.busCaller.role) s.twb.pointer)).take 1 ∧ t = { s with regs := t.regs, twb := t.twb })

/-- Sessions: SESS_OPEN of a role whose key the endpoint holds makes a pending open (R463, R464); SESS_CONFIRM with the role's signature opens the session under the keys derived from the exchange, and gives a tenant's session with the part its next stream key (R464, R465, R470), a wrong signature drops the pending open with ACCESS_DENIED; a pending open lapses after 10 s, unless a SESS_CONFIRM is seen, which wins (R379, R464); SESS_CLOSE ends the session that it came under, without an event (R468); DEV_CERT gives the device chain to any role (Table 17.5). Where the manual leaves a point of it open, it rests on the model's own readings: log 61. -/
def Obligations.SessionsOpenAndClose : Prop :=
  (∀ (s : State) (q : CQueue) (code : Nat) (key : BitVec 512) (nonce : Quad) (n : Nat) (s1 : State) (c : Caller) (r : Role) (k : KeySlot), FrontRuns s q [0xF0] n s1 c →
      c.ses = none → roleOfCode code = some r → opensOn r q c.w.head.tenant = true → (s1.keyOfRole (decide (q.val = 2)) r).isSome = true →
      (isVendor r = true → c.w.bus = true ∧ s1.sec.serviceOpen = true) → slotOfRole r = some k →
    ∃ t, exec (.sessOpen q code key nonce) s = .next t ∧ (∃ p, (t.pendings (decide (q.val = 2)))[k] = some p ∧ p.at_ = s1.time.mono) ∧
      SameBut (s1.pendings (decide (q.val = 2))) (t.pendings (decide (q.val = 2))) k ∧ t.pendings (!decide (q.val = 2)) = s1.pendings (!decide (q.val = 2)) ∧
      t.sec.sess = s1.sec.sess ∧ t.sec.csess = s1.sec.csess ∧ Answered s1 t c .ok ∧ SamePages s1 t [pgTwb] ∧
      t = { s1 with freeCtr := t.freeCtr, regs := t.regs, rseq := t.rseq, q := t.q, sec := t.sec, twb := t.twb }) ∧
  (∀ (s : State) (q : CQueue) (id : BitVec 16) (sig : BitVec 512) (n : Nat) (s1 : State) (c : Caller) (k : KeySlot) (p : PendingOpen) (key : BitVec 512),
      FrontRuns s q [0xF1] n s1 c → c.ses = none → s1.findPending (decide (q.val = 2)) id = some (k, p) → s1.time.mono ≤ p.at_ + 10 * secTicks →
      (∀ m : TenId, q.val ≠ 2 → roleOfSlot false k = .tenant m → s1.time.set = true) → s1.keyOfRole (decide (q.val = 2)) (roleOfSlot (decide (q.val = 2)) k) = some key →
      (isVendor (roleOfSlot (decide (q.val = 2)) k) = true → s1.sec.serviceOpen = true) →
    (Config.ecdsaVerify key (Config.sha256 (bytesBE 1 1 ++ bytesBE 32 p.transcript.toNat)) sig = true →
      ∃ t x, exec (.sessConfirm q id sig) s = .next t ∧ (t.sessions (decide (q.val = 2)))[k] = some x ∧ x.id = id ∧ x.ctrIn = 0 ∧
        x.keys = Config.hkdf p.shared p.salt (s1.hkdfInfo (codeOfRole (roleOfSlot (decide (q.val = 2)) k)) p.id) ∧ (t.pendings (decide (q.val = 2)))[k] = none ∧
        (∀ m : TenId, q.val ≠ 2 → roleOfSlot false k = .tenant m → (t.skeys[m]).next = some (x.keys.extractLsb' 64 256) ∧ (t.skeys[m]).switchAt = s1.keySwitchAt) ∧
        SameBut (s1.sessions (decide (q.val = 2))) (t.sessions (decide (q.val = 2))) k ∧ t.sessions (!decide (q.val = 2)) = s1.sessions (!decide (q.val = 2)) ∧
        (q.val ≠ 2 → Answered s1 t c .ok) ∧ t.rseq = s1.rseq + 1 ∧ SamePages s1 t [pgSec, pgTwb] ∧
        t = { s1 with regs := t.regs, rseq := t.rseq, q := t.q, skeys := t.skeys, sec := t.sec, twb := t.twb, smc := t.smc }) ∧
    (Config.ecdsaVerify key (Config.sha256 (bytesBE 1 1 ++ bytesBE 32 p.transcript.toNat)) sig = false →
      ∃ t, exec (.sessConfirm q id sig) s = .next t ∧ (t.pendings (decide (q.val = 2)))[k] = none ∧ t.sec.sess = s1.sec.sess ∧ t.sec.csess = s1.sec.csess ∧
        Answered s1 t c .accessDenied ∧ SamePages s1 t [pgTwb] ∧ t = { s1 with regs := t.regs, rseq := t.rseq, q := t.q, sec := t.sec, twb := t.twb })) ∧
  (∀ (s : State) (cl : Bool) (k : KeySlot) (p : PendingOpen), (s.pendings cl)[k] = some p → s.rootRanOut p.at_ (10 * secTicks) = true →
    (∃ t, exec (.sessPendingExpiry cl k false) s = .next t ∧ (t.pendings cl)[k] = none ∧ SameBut (s.pendings cl) (t.pendings cl) k ∧ t.pendings (!cl) = s.pendings (!cl) ∧
      t.sec.sess = s.sec.sess ∧ t.sec.csess = s.sec.csess ∧ t = { s with sec := t.sec }) ∧
    ∃ t, exec (.sessPendingExpiry cl k true) s = .next t ∧ (t.pendings cl)[k] = some { p with at_ := s.time.mono - 10 * secTicks } ∧ SameBut (s.pendings cl) (t.pendings cl) k ∧
      t.pendings (!cl) = s.pendings (!cl) ∧ t.sec.sess = s.sec.sess ∧ t.sec.csess = s.sec.csess ∧ Counts s t pgSec pgRaceCnt ∧ SamePages s t [pgSec] ∧ t = { s with regs := t.regs, sec := t.sec }) ∧
  (∀ (s : State) (q : CQueue) (n : Nat) (s1 : State) (c : Caller) (k : KeySlot), FrontRuns s q [0xF2] n s1 c → c.ses = some k →
    ∃ t, exec (.sessClose q) s = .next t ∧ (t.sessions (decide (q.val = 2)))[k] = none ∧ SameBut (s1.sessions (decide (q.val = 2))) (t.sessions (decide (q.val = 2))) k ∧
      Answered s1 t c .ok ∧ SamePages s1 t [pgTwb] ∧ t = { s1 with regs := t.regs, rseq := t.rseq, q := t.q, sec := t.sec, twb := t.twb }) ∧
  (∀ (s : State) (q : CQueue) (n : Nat) (s1 : State) (c : Caller), FrontRuns s q [0xF4] n s1 c →
    ∃ t, exec (.devCert q) s = .next t ∧ Answered s1 t c .ok ∧
      (c.w.bus = false → q.val ≠ 2 → ∃ a, t.q.q4 = s1.q.q4 ++ [a] ∧ a.data = packBytes Config.deviceChain) ∧ SamePages s1 t [pgTwb] ∧
      t = { s1 with regs := t.regs, rseq := t.rseq, q := t.q, sec := t.sec, twb := t.twb })

/-- The site key and tenants: CLAIM over the bus in its window enrols the site key and closes the window, with CLAIMED (R397, R398); the windows close at their time, unless a claim, a proof or an open is seen, which wins (R379, R398, R459, R473); TENANT_ENROLL makes a pending key, TENANT_PROVE with the tenant's proof enrols it, in the cloche too, and a wrong proof erases it (R459, R461); TENANT_REVOKE empties the slot, ends the tenant's sessions, erases its stream keys and takes its key from the cloche (R460, R461); SITE_RELEASE erases the site key and ends Site's session (Table 17.4). Where the manual leaves a point of it open, it rests on the model's own readings: log 62. -/
def Obligations.SiteAndTenantsEnrol : Prop :=
  (∀ (s : State) (key : BitVec 512) (n : Nat) (s1 : State) (c : Caller), FrontRuns s 0 [0xF3] n s1 c → c.w.bus = true → s1.sec.claimOpen = true → s1.sec.claimBlocked = false →
      0 < s1.loam.freeSegs →
    ∃ t, exec (.claim 0 key) s = .next t ∧ t.sec.siteKey = some key ∧ t.sec.claimOpen = false ∧ t.stored 0x40 0 = some (bytesBE 64 key.toNat) ∧ Raised t pgTwb evTwbClaimed ∧
      t.rseq = s1.rseq + 1 ∧ SamePages s1 t [pgTwb, pgLoam] ∧ t = { s1 with regs := t.regs, rseq := t.rseq, q := t.q, sec := t.sec, twb := t.twb, loam := t.loam }) ∧
  (∀ (s : State), s.sec.claimOpen = true → s.windowRanOut = true →
    (∃ t, exec (.claimWindowClose false) s = .next t ∧ t.sec = { s.sec with claimOpen := false } ∧ Raised t pgTwb evTwbClaimClosed ∧ SamePages s t [pgTwb] ∧
      t = { s with sec := t.sec, regs := t.regs, q := t.q }) ∧
    ∃ t, exec (.claimWindowClose true) s = .next t ∧ Counts s t pgTwb pgRaceCnt ∧ SamePages s t [pgTwb] ∧ t = { s with regs := t.regs }) ∧
  (∀ (s : State), s.sec.serviceOpen = true → s.windowRanOut = true →
    (∃ t, exec (.serviceWindowClose false) s = .next t ∧ t = { s with sec := { s.sec with serviceOpen := false } }) ∧
    ∃ t, exec (.serviceWindowClose true) s = .next t ∧ Counts s t pgSec pgRaceCnt ∧ SamePages s t [pgSec] ∧ t = { s with regs := t.regs }) ∧
  (∀ (s : State) (m : TenId) (key : BitVec 512) (n : Nat) (s1 : State) (c : Caller), FrontRuns s 0 [0x20] n s1 c → c.role = .site → (s1.sec.tenants[m]).state = .empty →
    ∃ t, exec (.tenantEnroll (m.val + 1) key) s = .next t ∧ (t.sec.tenants[m]).state = .enrolling ∧ (t.sec.tenants[m]).key = key ∧ (t.sec.tenants[m]).at_ = s1.time.mono ∧
      SameBut s1.sec.tenants t.sec.tenants m ∧ Answered s1 t c .ok ∧ SamePages s1 t [pgTwb] ∧
      t = { s1 with freeCtr := t.freeCtr, regs := t.regs, rseq := t.rseq, q := t.q, sec := t.sec, twb := t.twb }) ∧
  (∀ (s : State) (m : TenId) (sig : BitVec 512) (n : Nat) (s1 : State) (c : Caller), FrontRuns s 0 [0x21] n s1 c → c.role = .site → (s1.sec.tenants[m]).state = .enrolling →
    (Config.ecdsaVerify (s1.sec.tenants[m]).key (Config.sha256 (bytesBE 32 (s1.sec.tenants[m]).challenge.toNat ++ s1.serialBytes ++ bytesBE 1 (m.val + 1))) sig = true →
        0 < s1.loam.freeSegs →
      ∃ t, exec (.tenantProve (m.val + 1) sig) s = .next t ∧ (t.sec.tenants[m]).state = .enrolled ∧ (t.sec.tenants[m]).key = (s1.sec.tenants[m]).key ∧
        (s1.fuse.variant.cloche = true → t.smc.tenantKeys[m] = some (s1.sec.tenants[m]).key) ∧ Raised t pgSec evSecTenantEnrolled ∧ SameBut s1.sec.tenants t.sec.tenants m ∧
        Answered s1 t c .ok ∧ SamePages s1 t [pgSec, pgLoam, pgTwb] ∧
        t = { s1 with regs := t.regs, rseq := t.rseq, q := t.q, sec := t.sec, twb := t.twb, smc := t.smc, loam := t.loam }) ∧
    (Config.ecdsaVerify (s1.sec.tenants[m]).key (Config.sha256 (bytesBE 32 (s1.sec.tenants[m]).challenge.toNat ++ s1.serialBytes ++ bytesBE 1 (m.val + 1))) sig = false →
      ∃ t, exec (.tenantProve (m.val + 1) sig) s = .next t ∧ t.sec.tenants[m] = TenantSlot.fresh ∧ SameBut s1.sec.tenants t.sec.tenants m ∧ Answered s1 t c .accessDenied ∧
        SamePages s1 t [pgTwb] ∧ t = { s1 with regs := t.regs, rseq := t.rseq, q := t.q, sec := t.sec, twb := t.twb })) ∧
  (∀ (s : State) (m : TenId), (s.sec.tenants[m]).state = .enrolling → s.rootRanOut (s.sec.tenants[m]).at_ (60 * secTicks) = true →
    (∃ t, exec (.enrollTimeout m false) s = .next t ∧ t.sec.tenants[m] = TenantSlot.fresh ∧ SameBut s.sec.tenants t.sec.tenants m ∧
      t = { s with sec := { s.sec with tenants := t.sec.tenants } }) ∧
    ∃ t, exec (.enrollTimeout m true) s = .next t ∧ Counts s t pgSec pgRaceCnt ∧ SamePages s t [pgSec] ∧ t = { s with regs := t.regs }) ∧
  (∀ (s : State) (m : TenId) (k : KeySlot) (n : Nat) (s1 : State) (c : Caller), FrontRuns s 0 [0x22] n s1 c → c.role = .site → (s1.sec.tenants[m]).state = .enrolled →
      s1.clocheHolds m = false → k.val = m.val + 1 →
    ∃ t, exec (.tenantRevoke (m.val + 1)) s = .next t ∧ t.sec.tenants[m] = TenantSlot.fresh ∧ t.skeys[m] = ⟨none, none, none, 0, 0, 0⟩ ∧ t.sec.sess[k] = none ∧ t.sec.csess[k] = none ∧
      t.sec.pend[k] = none ∧ t.sec.cpend[k] = none ∧ (s1.fuse.variant.cloche = true → t.smc.tenantKeys[m] = none) ∧ (∀ x, x ∈ t.afdb → x.owner ≠ 0x21 + m.val) ∧
      (∀ i : StrmId, (t.strms[i]).owner ≠ 0x21 + m.val) ∧ (∀ b : BundId, (t.bunds[b]).owner ≠ 0x21 + m.val) ∧ (∀ j, j < 8 → t.reg (rowKey m + 4 * j) = resetOf (rowKey m + 4 * j)) ∧
      Raised t pgSec evSecTenantRevoked ∧ SameBut s1.sec.tenants t.sec.tenants m ∧ Answered s1 t c .ok ∧
      t = { s1 with rseq := t.rseq, regs := t.regs, captured := t.captured, q := t.q, slices := t.slices, demods := t.demods, planGen := t.planGen, snaps := t.snaps, decs := t.decs, slots := t.slots, afdb := t.afdb, afNext := t.afNext, survey := t.survey, strms := t.strms, bunds := t.bunds, skeys := t.skeys, sec := t.sec, twb := t.twb, smc := t.smc, aud := t.aud, loam := t.loam }) ∧
  (∀ (s : State) (n : Nat) (s1 : State) (c : Caller), FrontRuns s 0 [0x23] n s1 c → c.role = .site → s1.sec.siteKey.isSome = true →
      (∀ m : TenId, (s1.sec.tenants[m]).state = .empty) →
    ∃ t, exec .siteRelease s = .next t ∧ t.sec.siteKey = none ∧ t.sec.sess[(0 : KeySlot)] = none ∧ t.sec.pend[(0 : KeySlot)] = none ∧ Raised t pgSec evSecSiteReleased ∧
      Answered s1 t c .ok ∧ SamePages s1 t [pgSec, pgLoam, pgTwb] ∧ t = { s1 with regs := t.regs, rseq := t.rseq, q := t.q, sec := t.sec, twb := t.twb, loam := t.loam })

/-- Vendor service and stored profiles: VENDOR_PROFILE replaces the regulatory profile with PROFILE_CHANGED (R286, R474), and without the sounding link is ABSENT_UNIT to every role (R6, R7); VENDOR_ERASE empties every tenant slot, the site key and every session but the Vendor's (R474); DEBUG_UNLOCK opens debug on an unclaimed part, closes the claim window and counts (R475). PROF_SAVE stores Site's profile, PROF_ERASE deletes one, PROF_LOAD writes and commits each page that it names (R491). Where the manual leaves a point of it open, it rests on the model's own readings: logs 17, 62 and 63. -/
def Obligations.VendorAndProfileCommands : Prop :=
  (∀ (s : State) (words : List Word) (n : Nat) (s1 : State) (c : Caller), FrontRuns s 0 [0x30] n s1 c → c.role = .vendor → s1.fuse.variant.sounding = true → words.length = 34 →
      (∀ i, i < 34 → wordInRange (profileLo + 4 * i) (words.getD i 0) = true) → JournalFree s1 →
    ∃ t, exec (.vendorProfile words) s = .next t ∧
      (∀ i, i < 34 → t.reg (profileLo + 4 * i) = merge (resetOf (profileLo + 4 * i)) (words.getD i 0) (rsMask (profileLo + 4 * i))) ∧
      Raised t pgSnd evSndProfileChanged ∧ Answered s1 t c .ok ∧ SamePages s1 t [pgSnd, pgLoam, pgTwb] ∧
      t = { s1 with regs := t.regs, rseq := t.rseq, q := t.q, sec := t.sec, twb := t.twb, loam := t.loam }) ∧
  (∀ (s : State) (words : List Word) (n : Nat) (s1 : State) (c : Caller), FrontRuns s 0 [0x30] n s1 c → s1.fuse.variant.sounding = false →
    ∃ t, exec (.vendorProfile words) s = .next t ∧ Answered s1 t c .absentUnit ∧ SamePages s1 t [pgTwb] ∧ t = { s1 with regs := t.regs, rseq := t.rseq, q := t.q, sec := t.sec, twb := t.twb }) ∧
  (∀ (s : State) (n : Nat) (s1 : State) (c : Caller), FrontRuns s 0 [0x31] n s1 c → c.role = .vendor → (∀ m : TenId, s1.clocheHolds m = false) →
    ∃ t, exec .vendorErase s = .next t ∧ t.sec.siteKey = none ∧ (∀ m : TenId, t.sec.tenants[m] = TenantSlot.fresh) ∧ (∀ k : KeySlot, k.val < 5 → t.sec.sess[k] = none) ∧
      (∀ k : KeySlot, t.sec.csess[k] = none ∧ t.sec.pend[k] = none ∧ t.sec.cpend[k] = none) ∧ (∀ x, x ∈ t.afdb → tenantOwned x.owner = false) ∧
      Raised t pgSec evSecSiteReleased ∧ Answered s1 t c .ok ∧ SamePages s1 t [pgSec, pgLoam, pgTwb] ∧
      t = { s1 with rseq := t.rseq, regs := t.regs, q := t.q, afdb := t.afdb, afNext := t.afNext, survey := t.survey, sec := t.sec, twb := t.twb, loam := t.loam }) ∧
  (∀ (s : State) (n : Nat) (s1 : State) (c : Caller), FrontRuns s 0 [0x32] n s1 c → c.role = .vendor → s1.sec.siteKey = none →
      (∀ m : TenId, (s1.sec.tenants[m]).state = .empty) →
    ∃ t, exec .debugUnlock s = .next t ∧ t.sec.debugOpen = true ∧ t.sec.claimOpen = false ∧ t.sec.claimBlocked = true ∧ Counts s1 t pgSec secDebugCnt ∧
      Raised t pgSec evSecDebugUnlocked ∧ (s1.sec.claimOpen = true → Raised t pgTwb evTwbClaimClosed) ∧ Answered s1 t c .ok ∧
      SamePages s1 t [pgSec, pgLoam, pgTwb, pgFlt] ∧
      t = { s1 with rseq := t.rseq, regs := t.regs, q := t.q, sec := t.sec, log := t.log, temps := t.temps, twb := t.twb, loam := t.loam }) ∧
  (∀ (s : State) (p n : Nat) (s1 : State) (c : Caller), FrontRuns s 0 unassignedOps n s1 c → c.role = .site → p < 16 → JournalFree s1 → s1.profileData.length ≤ 6144 →
    ∃ t, exec (.profSave p) s = .next t ∧ t.stored 0x10 p = some s1.profileData ∧ (∀ type key, (type, key) ≠ (0x10, p) → t.stored type key = s1.stored type key) ∧
      Answered s1 t c .ok ∧ SamePages s1 t [pgLoam, pgTwb] ∧ t = { s1 with regs := t.regs, rseq := t.rseq, q := t.q, sec := t.sec, twb := t.twb, loam := t.loam }) ∧
  (∀ (s : State) (p n : Nat) (s1 : State) (c : Caller), FrontRuns s 0 unassignedOps n s1 c → c.role = .site → p < 16 → JournalFree s1 →
    ∃ t, exec (.profErase p) s = .next t ∧ t.stored 0x10 p = none ∧ (∀ type key, (type, key) ≠ (0x10, p) → t.stored type key = s1.stored type key) ∧
      Answered s1 t c .ok ∧ SamePages s1 t [pgLoam, pgTwb] ∧ t = { s1 with regs := t.regs, rseq := t.rseq, q := t.q, sec := t.sec, twb := t.twb, loam := t.loam }) ∧
  (∀ (s : State) (p n key : Nat) (w : Word) (s1 s2 : State) (c : Caller), FrontRuns s 0 unassignedOps n s1 c → c.role = .site → p < 16 → key < 2 ^ 32 →
      s1.stored 0x10 p = some (bytesBE 4 key ++ wordBytes w) → s1.writeRefusal .site key 1 = .ok →
      s1.valueStatus 0x10 (key / 0x400) [⟨key, w, BitVec.allOnes 32⟩] = .ok → s2 = s1.writeReg 0x10 ⟨key, w, BitVec.allOnes 32⟩ →
      (kindCode (key / 0x400) = 1 ∨ kindCode (key / 0x400) = 3 ∨ kindCode (key / 0x400) = 4) → s2.commitStatus 0x10 (key / 0x400) = .ok →
    ∃ t, exec (.profLoad p) s = .next t ∧ t.captured = s2.captured ++ [⟨key / 0x400, 0, s2.time.grid, commitDue s2.time (kindCode (key / 0x400)), s2.stagedOf (key / 0x400) 0⟩] ∧
      t.stagedOf (key / 0x400) 0 = [] ∧ Answered s1 t c .ok) ∧
  (∀ (s : State) (p n : Nat) (s1 : State) (c : Caller), FrontRuns s 0 unassignedOps n s1 c → c.role = .site → p < 16 → s1.stored 0x10 p = none →
    ∃ t, exec (.profLoad p) s = .next t ∧ Answered s1 t c .notReady ∧ SamePages s1 t [pgTwb] ∧ t = { s1 with regs := t.regs, rseq := t.rseq, q := t.q, sec := t.sec, twb := t.twb })

/-- The Loam store's engines and the firmware bank: raking retires a tail segment at a time and ends with RAKE_DONE (R487); the scrubber counts what it corrects, and an uncorrectable word in a firmware slot makes the slot BAD with LOAM_ECC (R490); FW_OPEN empties a slot that is not the active one, FW_WRITE puts words into it, FW_CHECK makes it VALID or BAD, FW_SWITCH records the slot to start from, and with RESTART a reset follows (R471, Table 18.5). Where the manual leaves a point of it open, it rests on the model's own readings: log 64. -/
def Obligations.StoreAndFirmwareCommands : Prop :=
  (∀ (s : State), s.loam.raking = true → s.loam.raked = false →
    ∃ t, exec .rakeSegment s = .next t ∧ t.loam.tail = (s.loam.tail + 1) % 46 ∧ t.loam.anchorGen = (s.loam.anchorGen + 1) % 2 ^ 32 ∧ Counts s t pgLoam loamRakeCnt ∧
      (t.loam.raking = false → Raised t pgLoam evLoamRakeDone) ∧ SamePages s t [pgLoam] ∧ t = { s with regs := t.regs, q := t.q, loam := t.loam }) ∧
  (∀ (s : State), s.loam.raking = true → s.loam.raked = true →
    ∃ t, exec .rakeSegment s = .next t ∧ t.loam.raking = false ∧ t.loam.recs = s.loam.recs ∧ Raised t pgLoam evLoamRakeDone ∧ SamePages s t [pgLoam] ∧
      t = { s with regs := t.regs, q := t.q, loam := t.loam }) ∧
  (∀ (s : State) (region addr : Nat), s.boot = .complete → s.injected pgLoam 1 = false →
    exec (.mramScrub region addr 0) s = .next s ∧
    ∃ t, exec (.mramScrub region addr 1) s = .next t ∧ Counts s t pgLoam loamEccCorr ∧ SamePages s t [pgLoam] ∧ t = { s with regs := t.regs }) ∧
  (∀ (s : State) (k : Fin 2) (addr bad : Nat), s.boot = .complete → 2 ≤ bad →
    ∃ t, exec (.mramScrub (5 + k.val) addr bad) s = .next t ∧ (t.loam.slots[k]).state = .bad ∧ SameBut s.loam.slots t.loam.slots k ∧ t.loam.recs = s.loam.recs ∧
      Counts s t pgLoam loamEccUncorr ∧ Raised t pgLoam evLoamEcc ∧ SamePages s t [pgLoam, pgFlt] ∧
      t = { s with regs := t.regs, q := t.q, log := t.log, temps := t.temps, loam := t.loam }) ∧
  (∀ (s : State) (k : Fin 2) (n : Nat) (s1 : State) (c : Caller), FrontRuns s 0 [0x40] n s1 c → (c.role = .site ∨ s1.boot = .bankOnly) → s1.fwActive k = false →
      (∀ j : Fin 2, (s1.loam.slots[j]).state ≠ .writing) →
    ∃ t, exec (.fwOpen k.val) s = .next t ∧ t.loam.slots[k] = ⟨.writing, 0, 0, []⟩ ∧ SameBut s1.loam.slots t.loam.slots k ∧ t.loam.recs = s1.loam.recs ∧ Answered s1 t c .ok ∧
      SamePages s1 t [pgTwb] ∧ t = { s1 with regs := t.regs, rseq := t.rseq, q := t.q, sec := t.sec, twb := t.twb, loam := t.loam }) ∧
  (∀ (s : State) (k : Fin 2) (off : Nat) (data : List Quad) (n : Nat) (s1 : State) (c : Caller), FrontRuns s 0 [0x41] n s1 c → (c.role = .site ∨ s1.boot = .bankOnly) →
      (∀ j : Fin 2, (s1.loam.slots[j]).state = .writing ↔ j = k) → off % 16 = 0 → data.length = n → off + 16 * data.length ≤ 1048576 →
    ∃ t, exec (.fwWrite off data) s = .next t ∧ (t.loam.slots[k]).state = .writing ∧
      (∀ i, (h : i < data.length) → (t.loam.slots[k]).word (off / 16 + i) = data[i]) ∧
      (∀ i, (i < off / 16 ∨ off / 16 + data.length ≤ i) → (t.loam.slots[k]).word i = (s1.loam.slots[k]).word i) ∧
      SameBut s1.loam.slots t.loam.slots k ∧ Answered s1 t c .ok ∧ SamePages s1 t [pgTwb] ∧
      t = { s1 with regs := t.regs, rseq := t.rseq, q := t.q, sec := t.sec, twb := t.twb, loam := t.loam }) ∧
  (∀ (s : State) (k : Fin 2) (n : Nat) (s1 : State) (c : Caller), FrontRuns s 0 [0x42] n s1 c → (c.role = .site ∨ s1.boot = .bankOnly) →
    ∃ t, exec (.fwCheck k.val) s = .next t ∧
      (∀ v svn, s1.fwCheck s1.loam.slots[k] = some (v, svn) → t.loam.slots[k] = { s1.loam.slots[k] with state := .valid, version := v, svn := svn } ∧
        Raised t pgLoam evLoamFwSlotValid ∧ Answered s1 t c .ok) ∧
      (s1.fwCheck s1.loam.slots[k] = none → t.loam.slots[k] = { s1.loam.slots[k] with state := .bad } ∧ Answered s1 t c .badArg) ∧
      SameBut s1.loam.slots t.loam.slots k ∧ SamePages s1 t [pgLoam, pgTwb] ∧
      t = { s1 with regs := t.regs, rseq := t.rseq, q := t.q, sec := t.sec, twb := t.twb, loam := t.loam }) ∧
  (∀ (s : State) (k : Fin 2) (restart : Bool) (n : Nat) (s1 : State) (c : Caller), FrontRuns s 0 [0x43] n s1 c → (c.role = .site ∨ s1.boot = .bankOnly) →
      (s1.loam.slots[k]).state = .valid → 0 < s1.loam.freeSegs →
    ∃ t, exec (.fwSwitch (k.val + 256 * bit restart)) s = .next t ∧ t.stored 0x52 0 = some (bytesBE 4 k.val) ∧ t.loam.restart = (s1.loam.restart || restart) ∧
      (restart = true → s1.loam.restart = false → t.loam.restartAt = s1.time.mono) ∧
      t.loam.slots = s1.loam.slots ∧ Answered s1 t c .ok ∧ SamePages s1 t [pgLoam, pgTwb] ∧
      t = { s1 with regs := t.regs, rseq := t.rseq, q := t.q, sec := t.sec, twb := t.twb, loam := t.loam }) ∧
  (∀ (s : State), s.loam.restart = true → s.loam.restartAt + 10 * msTicks ≤ s.time.mono →
    ∃ t, exec .fwSwitchRestart s = .next t ∧ exec .resetAssert s = .next t ∧ t.boot = .held ∧ t.loam = { s.loam with restart := false } ∧ t.fuse = s.fuse)

/-- Fault detection: a scrubbed word raises the event of its memory and depth of error, one of two control copies lost loses nothing, and both lost call for a reset (R27, R501, Table 19.1); a stage stalled for 1 ms raises STALL and restarts its unit, unless progress is seen, which wins (R379, R497); the tail copy of a waiting entry is written to the Loam store (R506). Where the manual leaves a point of it open, it rests on the model's own readings: log 65. -/
def Obligations.FaultsAreFound : Prop :=
  (∀ (s : State) (w : ScrubWord), s.boot = .complete → w.bad = 0 → (∀ d, 1 ≤ d → d ≤ 5 → s.injected pgFlt d = false) → exec (.sramScrub w) s = .next s) ∧
  (∀ (s : State) (w : ScrubWord), s.boot = .complete → w.bad = 1 → (∀ d, 1 ≤ d → d ≤ 5 → s.injected pgFlt d = false) →
    ∃ t, exec (.sramScrub w) s = .next t ∧ Raised t pgFlt evFltSramSec ∧ SamePages s t [pgFlt] ∧ t = { s with regs := t.regs, q := t.q, log := t.log, temps := t.temps }) ∧
  (∀ (s : State) (w : ScrubWord), s.boot = .complete → w.mem < 3 → 2 ≤ w.bad →
    ∃ t, exec (.sramScrub w) s = .next t ∧ Raised t pgFlt evFltSramDed ∧ t.log.resetDue = s.log.resetDue ∧
      t = { s with freeCtr := t.freeCtr, regs := t.regs, q := t.q, slots := t.slots, strms := t.strms, bunds := t.bunds, squeues := t.squeues, log := t.log, temps := t.temps }) ∧
  (∀ (s : State) (w : ScrubWord), s.boot = .complete → 3 ≤ w.mem → w.bad = 2 → (∀ d, 1 ≤ d → d ≤ 5 → s.injected pgFlt d = false) →
    ∃ t, exec (.sramScrub w) s = .next t ∧ Raised t pgFlt evFltSramDed ∧ t.log.resetDue = s.log.resetDue ∧ SamePages s t [pgFlt] ∧
      t = { s with regs := t.regs, q := t.q, log := t.log, temps := t.temps }) ∧
  (∀ (s : State) (w : ScrubWord), s.boot = .complete → 3 ≤ w.mem → 3 ≤ w.bad →
    ∃ t, exec (.sramScrub w) s = .next t ∧ Raised t pgFlt evFltSramDedCtl ∧ t.log.resetDue = true ∧ SamePages s t [pgFlt] ∧
      t = { s with regs := t.regs, q := t.q, log := t.log, temps := t.temps }) ∧
  (∀ (s : State) (page unit : Nat), s.unitRuns page unit = true →
    (∃ t, exec (.stallWatchdog page unit false) s = .next t ∧ Counts s t page pgRaceCnt ∧ SamePages s t [page] ∧ t = { s with regs := t.regs }) ∧
    ∃ t, exec (.stallWatchdog page unit true) s = .next t ∧ Raised t pgFlt evFltStall ∧
      (∀ d : DecId, page = pgDec → unit = d.val → (t.decs[d]).state = .wait) ∧
      (page = pgStrm → ∀ i : StrmId, (s.strms[i]).en = true → (t.strms[i]).mulchNext = true) ∧
      (∀ i : Inp, page = pgSieve → unit = i.val → (t.inputs[i]).conv = .starting) ∧
      t = { s with regs := t.regs, q := t.q, inputs := t.inputs, slices := t.slices, demods := t.demods, snaps := t.snaps, beds := t.beds, decs := t.decs, strms := t.strms,
                   log := t.log, temps := t.temps, cal := t.cal }) ∧
  (∀ (s : State) (e : LogEntry) (rest : List LogEntry), s.boot = .complete → s.log.waiting = e :: rest → s.log.resetDue = false → 0 < s.loam.freeSegs →
    ∃ t, exec .logTailCopy s = .next t ∧ t.log.waiting = rest ∧ (∃ d, t.stored 0x60 (e.seq % 64) = some d) ∧ (∃ x, t.log.tail.getLast? = some x ∧ x.seq % 64 = e.seq % 64) ∧
      t.log.entries.map (·.seq) = s.log.entries.map (·.seq) ∧ SamePages s t [pgLoam] ∧ t = { s with regs := t.regs, q := t.q, log := t.log, loam := t.loam })

/-- Telemetry and board signals: a telemetry period, PERIOD ms after the last, shows the eye margins and uses up the new log entries (R28, R510); a sensor reading shows the six temperatures, raises TEMP_HIGH on entry above its threshold and TEMP_CRIT above its own, and at 125 °C shuts the part down (R511); a rail outside its band shows it and raises RAIL_WARN on entry, RAIL_OK on return (R511); BALL_FUNC claims a ball once, answers a query without a change and, for TX_ACTIVE without the sounding link, is ABSENT_UNIT to every role (R6, R7), and PPS drives the balls that show it (R530). Where the manual leaves a point of it open, it rests on the model's own readings: logs 66 and 67. -/
def Obligations.TelemetryAndBallsFollow : Prop :=
  (∀ (s : State) (eyes : Vector EyeMeas 2), s.boot = .complete → s.temps.telAt + s.get pgTel telPeriod * msTicks ≤ s.time.mono →
    ∃ t, exec (.telemetryPeriod eyes) s = .next t ∧ t.temps = { s.temps with newEntries := [], telAt := s.time.mono, held := t.temps.held } ∧
      (∀ p : Port, t.get (pgPort p) prtEyeH0 = min (eyes[p]).h0 255 ∧ t.get (pgPort p) prtEyeV0 = min (eyes[p]).v0 255 ∧
        t.get (pgPort p) prtEyeH1 = min (eyes[p]).h1 255 ∧ t.get (pgPort p) prtEyeV1 = min (eyes[p]).v1 255) ∧
      t = { s with regs := t.regs, q := t.q, strms := t.strms, bunds := t.bunds, squeues := t.squeues, temps := t.temps }) ∧
  (∀ (s : State) (v : Vector Int 6), s.boot = .complete → s.pwr.rung ≤ 3 → (∀ k : Fin 6, v[k] < 12500) → s.injected pgTel 1 = false →
    ∃ t, exec (.sensorRead v) s = .next t ∧ (∀ k : Fin 6, t.get pgTel (telTemp.nth k.val) = twos 16 v[k] ∧ t.get pgTel (telValid.nth k.val) = 1) ∧
      ((∃ k : Fin 6, (s.get pgTel telTempWarn * 100 : Int) < v[k]) → t.temps.high = true ∧ (s.temps.high = false → Raised t pgTel evTelTempHigh)) ∧
      ((∃ k : Fin 6, (s.get pgTel telTempCrit * 100 : Int) < v[k]) → t.temps.crit = true ∧ (s.temps.crit = false → Raised t pgTel evTelTempCrit)) ∧
      ((∀ k : Fin 6, v[k] ≤ (s.get pgTel telTempWarn : Int) * 100 - 500) → t.temps.high = false ∧ (s.temps.high = true → Raised t pgTel evTelTempOk)) ∧
      t.temps.shutdown = s.temps.shutdown ∧ SamePages s t [pgTel, pgFlt] ∧ t = { s with regs := t.regs, q := t.q, log := t.log, temps := t.temps }) ∧
  (∀ (s : State) (v : Vector Int 6) (k : Fin 6), s.boot = .complete → s.pwr.rung = 0 → s.pwr.busy = false → 12500 ≤ v[k] → s.temps.shutdown = false →
    ∃ t, exec (.sensorRead v) s = .next t ∧ t.temps.shutdown = true ∧ Raised t pgTel evTelTempShutdown ∧ t.pwr.busy = true ∧ t.pwr.rising = false ∧ t.pwr.rung = 0 ∧
      t = { t with fuse := s.fuse, pending := s.pending, rseq := s.rseq, pmb := s.pmb }) ∧
  (∀ (s : State) (rail : Fin 6) (mv : Nat) (low high : Bool), s.boot = .complete → mv < 65536 → s.injected pgTel 2 = false →
    ∃ t, exec (.railWarn rail mv low high) s = .next t ∧ t.get pgTel (telRail.nth rail.val) = mv ∧ t.flag pgTel (telLow.nth rail.val) = low ∧
      t.flag pgTel (telHigh.nth rail.val) = high ∧
      ((low || high) = true → s.flag pgTel (telLow.nth rail.val) = false → s.flag pgTel (telHigh.nth rail.val) = false → Raised t pgTel evTelRailWarn) ∧
      ((low || high) = false → (s.flag pgTel (telLow.nth rail.val) || s.flag pgTel (telHigh.nth rail.val)) = true → Raised t pgTel evTelRailOk) ∧
      SamePages s t [pgTel, pgFlt] ∧ t = { s with regs := t.regs, q := t.q, log := t.log, temps := t.temps }) ∧
  (∀ (s : State) (b : Fin 4) (f n : Nat) (s1 : State) (c : Caller), FrontRuns s 0 [0x50] n s1 c → c.role = .site → f < 5 → (f = 2 → s1.fuse.variant.sounding = true) →
      (s1.mfp[b]).locked = false →
    ∃ t, exec (.ballFunc (b.val + 256 * f)) s = .next t ∧ (t.mfp[b]).func = f ∧ (t.mfp[b]).locked = true ∧ SameBut s1.mfp t.mfp b ∧ Answered s1 t c .ok ∧
      SamePages s1 t [pgTwb] ∧ t = { s1 with regs := t.regs, rseq := t.rseq, q := t.q, sec := t.sec, twb := t.twb, mfp := t.mfp }) ∧
  (∀ (s : State) (b : Fin 4) (f n : Nat) (s1 : State) (c : Caller), FrontRuns s 0 [0x50] n s1 c → c.role = .site → f < 5 → (f = 2 → s1.fuse.variant.sounding = true) →
      (s1.mfp[b]).locked = true →
    ∃ t, exec (.ballFunc (b.val + 256 * f)) s = .next t ∧ t.mfp = s1.mfp ∧ Answered s1 t c .resourceBusy ∧ SamePages s1 t [pgTwb] ∧
      t = { s1 with regs := t.regs, rseq := t.rseq, q := t.q, sec := t.sec, twb := t.twb }) ∧
  (∀ (s : State) (b : Fin 4) (f n : Nat) (s1 : State) (c : Caller), FrontRuns s 0 [0x50] n s1 c → c.role = .site → f < 5 →
    ∃ t, exec (.ballFunc (b.val + 256 * f + 32768)) s = .next t ∧ t.mfp = s1.mfp ∧ Answered s1 t c .ok ∧ SamePages s1 t [pgTwb] ∧
      t = { s1 with regs := t.regs, rseq := t.rseq, q := t.q, sec := t.sec, twb := t.twb }) ∧
  (∀ (s : State) (b : Fin 4) (n : Nat) (s1 : State) (c : Caller), FrontRuns s 0 [0x50] n s1 c → s1.fuse.variant.sounding = false →
    ∃ t, exec (.ballFunc (b.val + 512)) s = .next t ∧ t.mfp = s1.mfp ∧ Answered s1 t c .absentUnit ∧ SamePages s1 t [pgTwb] ∧
      t = { s1 with regs := t.regs, rseq := t.rseq, q := t.q, sec := t.sec, twb := t.twb }) ∧
  (∀ (s : State) (high : Bool), ∃ t, exec (.ppsEdge high) s = .next t ∧ (∀ b : Fin 4, (s.mfp[b]).func ≠ 1 → t.mfp[b] = s.mfp[b]) ∧
    (∀ b : Fin 4, (s.mfp[b]).func = 1 → t.mfp[b] = { s.mfp[b] with high := high && s.ring.aligned }) ∧ t = { s with mfp := t.mfp })

/-- A commit of an INP, BED or DEC page in which a staged field holds a value outside its stated range completes BAD_ARG; none of the staged values takes effect, and they stay staged (R58, R164). A commit that waits already, or one before the part has a DEVTIME, is refused before (R372, R61). -/
def Obligations.RangeRuleRefusesCommit : Prop :=
  ∀ (s : State) (src : Src) (page : Nat) (s1 : State) (c : Caller) (x : Nat × Word), Runs s src writeOps 1 s1 c →
    s1.writeRefusal c.role (page * 0x400 + 0x02C) 1 = .ok → (kindOfPage page = some .inp ∨ kindOfPage page = some .bed ∨ kindOfPage page = some .dec) →
    x ∈ s1.stagedOf page (stageRole page (roleCode c.role)) → wordInRange x.1 x.2 = false →
    s1.pendingCommit page (stageRole page (roleCode c.role)) = false → (kindCode page = 0 ∨ s1.time.set = true) →
    ∃ t, exec (.commit src page) s = .next t ∧ t.lastStatusOf page (stageRole page (roleCode c.role)) = .badArg ∧ t.staged = s1.staged ∧ t.captured = s1.captured ∧
      (c.q.isSome = true → Answered s1 t c .badArg) ∧ SamePages s1 t [pgTwb] ∧
      t = { s1 with regs := t.regs, lastStatus := t.lastStatus, rseq := t.rseq, q := t.q, sec := t.sec, twb := t.twb }

/-- The page of an absent unit reads PG_ID = 0, PG_CAP.PRESENT = 0 and 0 at every other offset, whatever the role, and a read of it completes OK (R4). A write to any of its offsets is ignored and raises ABSENT_WRITE, whose word names page type 0x19 for SND and 0x20 for SMC (R5). -/
def Obligations.AbsentPagesReadZeroAndIgnoreWrites : Prop :=
  (∀ (s : State) (role page off : Nat), s.present page = false → off < 0x400 → s.readWord role (page * 0x400 + off) = 0) ∧
  (∀ (s : State) (q : CQueue) (page off count : Nat) (s1 : State) (c : Caller), Runs s (.cmd q) [0x01] 0 s1 c → c.ses = none → c.w.bus = false → s1.present page = false →
      off < 0x400 → badAccess (page * 0x400 + off) count = false → s1.pageAnswers page = true →
    ∃ t, exec (.regRead q (page * 0x400 + off) count) s = .next t ∧
      t.q.q4 = s1.q.q4 ++ [⟨c.w.head.op, c.w.head.tag, .ok, c.w.head.tenant, s1.rseq, BitVec.ofNat 32 count, quadsOf (List.replicate count 0), none⟩]) ∧
  (∀ (s : State) (src : Src) (page off : Nat) (w : Word) (s1 : State) (c : Caller), Runs s src writeOps 1 s1 c → s1.present page = false → off < 0x400 →
      badAccess (page * 0x400 + off) 1 = false → s1.pageAnswers page = true → s1.hearsEvents (roleCode c.role) = true →
    ∃ t e, exec (.plainRegisterWrite src (page * 0x400 + off) w) s = .next t ∧ e ∈ t.q.gather ∧ e.to_ = roleCode c.role ∧ e.page = page ∧
      fieldOf e.word 31 24 = (if page = pgSnd then 0x19 else 0x20) ∧ fieldOf e.word 15 8 = 0x3F ∧ t.staged = s1.staged ∧ SamePages s1 t [pgTwb] ∧
      t = { s1 with regs := t.regs, rseq := t.rseq, q := t.q, sec := t.sec, twb := t.twb }) ∧
  (∀ (s : State) (q : CQueue) (page off count : Nat) (words : List Word) (commit : Bool) (s1 : State) (c : Caller), Runs s (.cmd q) [0x02] (dataWords count) s1 c →
      s1.present page = false → off < 0x400 → 1 ≤ count → badAccess (page * 0x400 + off) count = false → s1.pageAnswers page = true → s1.hearsEvents (roleCode c.role) = true →
    ∃ t e, exec (.regWrite q (page * 0x400 + off) count words commit) s = .next t ∧ e ∈ t.q.gather ∧ e.to_ = roleCode c.role ∧ e.page = page ∧
      t.staged = s1.staged ∧ t.captured = s1.captured ∧ SamePages s1 t [pgTwb]) ∧
  (∀ (s : State) (q : CQueue) (page off : Nat) (mask value : Word) (commit : Bool) (s1 : State) (c : Caller), Runs s (.cmd q) [0x03] 1 s1 c →
      s1.present page = false → off < 0x400 → badAccess (page * 0x400 + off) 1 = false → s1.pageAnswers page = true → s1.hearsEvents (roleCode c.role) = true →
    ∃ t e, exec (.regModify q (page * 0x400 + off) mask value commit) s = .next t ∧ e ∈ t.q.gather ∧ e.to_ = roleCode c.role ∧ e.page = page ∧
      t.staged = s1.staged ∧ t.captured = s1.captured ∧ SamePages s1 t [pgTwb])

/-- Refusals change nothing but what answers them: a register write that R378 refuses for its form, for its owner or for a seal (R373, R378); a Verifier's command from any other role (R326); a mailbox command on a part without a cloche, which is answered ABSENT_UNIT on Q4 (R6, log 13). -/
def Obligations.RefusalsChangeNothing : Prop :=
  (∀ (s : State) (src : Src) (addr : Nat) (w : Word) (s1 : State) (c : Caller) (st : Status), Runs s src writeOps 1 s1 c → s1.writeRefusal c.role addr 1 = st →
      (st = .badArg ∨ st = .notReady ∨ st = .accessDenied ∨ st = .sealed) →
    ∃ t, exec (.plainRegisterWrite src addr w) s = .next t ∧ t.staged = s1.staged ∧ (c.q.isSome = true → Answered s1 t c st) ∧ SamePages s1 t [pgTwb] ∧
      t = { s1 with regs := t.regs, rseq := t.rseq, q := t.q, sec := t.sec, twb := t.twb }) ∧
  (∀ (s : State) (i : Instr) (op n : Nat) (tamperN seen : Bool) (mask slot : Nat) (mark : Word) (image : List Byte) (s1 : State) (c : Caller), FrontRuns s 2 [op] n s1 c →
      ((i = .sealBreak ∧ op = 0x10) ∨ (i = .sealRestore tamperN seen ∧ op = 0x11) ∨ (i = .reverify mask ∧ op = 0x13) ∨ (i = .markSet slot mark ∧ op = 0x14) ∨
        (i = .fwInstall image ∧ op = 0x15)) → verifierSlot c.role = none →
    ∃ t, exec i s = .next t ∧ t.smc = s1.smc ∧ Answered s1 t c .accessDenied ∧ SamePages s1 t [pgTwb] ∧
      t = { s1 with regs := t.regs, rseq := t.rseq, q := t.q, sec := t.sec, twb := t.twb }) ∧
  (∀ (s : State) (i : Instr) (op : Nat) (tamperN seen : Bool) (mask slot : Nat) (mark : Word) (image : List Byte) (p : PtId) (a b d e f : Nat) (digest : BitVec 256)
      (v : SxVal) (w : Waiting), s.q.cmd[(2 : CQueue)] = [w] → w.head.op = op → s.servesOp op = true → s.fuse.variant.cloche = false → w.bus = false →
      ((i = .ptSet p a b d e f ∧ op = 0x01) ∨ (i = .ptDelete p () ∧ op = 0x02) ∨ (i = .recRead a b ∧ op = 0x03) ∨ (i = .recReceipt a digest ∧ op = 0x04) ∨
        (i = .getCert ∧ op = 0x05) ∨ (i = .sealBreak ∧ op = 0x10) ∨ (i = .sealRestore tamperN seen ∧ op = 0x11) ∨ (i = .sxWrite v ∧ op = 0x12) ∨
        (i = .reverify mask ∧ op = 0x13) ∨ (i = .markSet slot mark ∧ op = 0x14) ∨ (i = .fwInstall image ∧ op = 0x15)) →
    ∃ t, exec i s = .next t ∧ t.q.q4 = s.q.q4 ++ [⟨op, w.head.tag, .absentUnit, w.head.tenant, s.rseq, 0, [], none⟩] ∧ t.q.q6 = s.q.q6 ∧
      t.rseq = s.rseq + 1 ∧ t = { s with rseq := t.rseq, q := t.q })

/-- A step with a command in front of the queue of commands is that command on the queue's rest. -/
def Obligations.StepRunsFront : Prop :=
  ∀ (s : State) (c : Instr) (rest : List Instr), s.pending = c :: rest → step s = exec c { s with pending := rest }

/-- Every command completes, whatever its operands and the state it finds, and no command changes the fuses or the queue of commands (R1, R380). Where the manual leaves a point of it open, it rests on the model's own readings: log 3. -/
def Obligations.EveryCommandCompletes : Prop :=
  ∀ (i : Instr) (s : State), ∃ t, exec i s = .next t ∧ FuseKept s t ∧ t.pending = s.pending

/-- The register file of the part after reset is in its canonical form. -/
def Obligations.ResetCanonical : Prop := RegsCanonical State.reset

/-- Every step keeps the canonical form of the register file: keys strictly rising, and no entry for a register at its reset value, so that equal register files are equal data. -/
def Obligations.StepKeepsCanonical : Prop :=
  ∀ s t : State, RegsCanonical s → step s = .next t → RegsCanonical t
end

