-- ==== Sys2Proof/Laws/Registers.lean ====
section
/-! SUPPORT. Laws of the register file: what a read gives after a write, the canonical form and the operations that keep it, fields of a word. -/

namespace Sys2Proof.Machine

set_option Elab.async false

theorem lookup_insert (l : List (Nat × Word)) (k k' : Nat) (w : Word) :
    lookupReg (insertReg l k w) k' = if k' = k then some w else lookupReg l k' := by
  induction l with
  | nil => simp [insertReg, lookupReg]
  | cons x l ih =>
    obtain ⟨a, v⟩ := x
    simp only [insertReg]
    split
    · simp [lookupReg]
    · split
      · rename_i h1 h2
        subst h2
        by_cases h : k' = k <;> simp [lookupReg, h]
      · rename_i h1 h2
        by_cases h : k' = a
        · subst h
          have : ¬ k' = k := fun e => h2 e.symm
          simp [lookupReg, this]
        · simp [lookupReg, h, ih]

theorem lookup_erase (l : List (Nat × Word)) (k k' : Nat) :
    lookupReg (eraseReg l k) k' = if k' = k then none else lookupReg l k' := by
  induction l with
  | nil => simp [eraseReg, lookupReg]
  | cons x l ih =>
    obtain ⟨a, v⟩ := x
    simp only [eraseReg] at ih
    by_cases h : a = k
    · subst h
      by_cases h' : k' = a
      · subst h'; simpa [eraseReg, lookupReg] using ih
      · simp [eraseReg, lookupReg, h', ih]
    · by_cases h' : k' = a
      · subst h'; simp [eraseReg, lookupReg, h]
      · simp [eraseReg, lookupReg, h, h', ih]

/-- A read after a write: the word written at its key, every other key as before. -/
theorem getReg_putReg (l : List (Nat × Word)) (k k' : Nat) (w : Word) :
    getReg (putReg l k w) k' = if k' = k then w else getReg l k' := by
  unfold putReg getReg
  split
  · rename_i h
    rw [lookup_erase]
    split
    · rename_i e; subst e; simp [h]
    · rfl
  · rw [lookup_insert]
    split <;> rfl

@[simp] theorem reg_setReg (s : State) (k k' : Nat) (w : Word) : (s.setReg k w).reg k' = if k' = k then w else s.reg k' :=
  getReg_putReg s.regs k k' w

theorem reg_setReg_self (s : State) (k : Nat) (w : Word) : (s.setReg k w).reg k = w := by simp

theorem reg_setReg_ne (s : State) (k k' : Nat) (w : Word) (h : k' ≠ k) : (s.setReg k w).reg k' = s.reg k' := by simp [h]

/-! ### The canonical form -/

/-- The canonical form said with list predicates. -/
theorem regsWf_iff (l : List (Nat × Word)) :
    regsWf l = true ↔ (∀ x ∈ l, x.2 ≠ resetOf x.1) ∧ l.Pairwise (fun a b => a.1 < b.1) := by
  induction l with
  | nil => simp [regsWf]
  | cons x l ih =>
    obtain ⟨k, w⟩ := x
    cases l with
    | nil => simp [regsWf]
    | cons y l =>
      obtain ⟨k', w'⟩ := y
      simp only [regsWf, Bool.and_eq_true, decide_eq_true_eq, ih]
      constructor
      · rintro ⟨⟨h1, h2⟩, h3, h4⟩
        refine ⟨?_, ?_⟩
        · intro x hx
          rcases List.mem_cons.1 hx with rfl | hx
          · simpa using h1
          · exact h3 x hx
        · refine List.pairwise_cons.2 ⟨?_, h4⟩
          intro b hb
          rcases List.mem_cons.1 hb with rfl | hb
          · exact h2
          · exact Nat.lt_trans h2 ((List.pairwise_cons.1 h4).1 b hb)
      · rintro ⟨h1, h2⟩
        refine ⟨⟨?_, ?_⟩, ?_, ?_⟩
        · simpa using h1 (k, w) (by simp)
        · exact (List.pairwise_cons.1 h2).1 (k', w') (by simp)
        · exact fun x hx => h1 x (List.mem_cons_of_mem _ hx)
        · exact (List.pairwise_cons.1 h2).2

theorem regsWf_filter (l : List (Nat × Word)) (p : Nat × Word → Bool) (h : regsWf l = true) : regsWf (l.filter p) = true := by
  rw [regsWf_iff] at h ⊢
  exact ⟨fun x hx => h.1 x (List.mem_filter.1 hx).1, h.2.filter p⟩

theorem mem_insert (l : List (Nat × Word)) (k : Nat) (w : Word) (x : Nat × Word) (h : x ∈ insertReg l k w) : x = (k, w) ∨ x ∈ l := by
  induction l with
  | nil => simpa [insertReg] using h
  | cons y l ih =>
    obtain ⟨a, v⟩ := y
    simp only [insertReg] at h
    split at h
    · simpa using h
    · split at h
      · rcases List.mem_cons.1 h with rfl | h
        · exact Or.inl rfl
        · exact Or.inr (List.mem_cons_of_mem _ h)
      · rcases List.mem_cons.1 h with rfl | h
        · exact Or.inr (by simp)
        · rcases ih h with e | e
          · exact Or.inl e
          · exact Or.inr (List.mem_cons_of_mem _ e)

theorem pairwise_insert (l : List (Nat × Word)) (k : Nat) (w : Word) (h : l.Pairwise (fun a b => a.1 < b.1)) :
    (insertReg l k w).Pairwise (fun a b => a.1 < b.1) := by
  induction l with
  | nil => simp [insertReg]
  | cons y l ih =>
    obtain ⟨a, v⟩ := y
    have hl := (List.pairwise_cons.1 h).2
    have ha := (List.pairwise_cons.1 h).1
    simp only [insertReg]
    split
    · rename_i hk
      refine List.pairwise_cons.2 ⟨?_, h⟩
      intro b hb
      rcases List.mem_cons.1 hb with rfl | hb
      · exact hk
      · exact Nat.lt_trans hk (ha b hb)
    · split
      · rename_i e
        subst e
        exact List.pairwise_cons.2 ⟨fun b hb => ha b hb, hl⟩
      · rename_i h1 h2
        refine List.pairwise_cons.2 ⟨?_, ih hl⟩
        intro b hb
        rcases mem_insert l k w b hb with rfl | hb
        · show a < k
          omega
        · exact ha b hb

/-- Every register write keeps the canonical form. -/
theorem regsWf_putReg (l : List (Nat × Word)) (k : Nat) (w : Word) (h : regsWf l = true) : regsWf (putReg l k w) = true := by
  unfold putReg
  split
  · exact regsWf_filter l _ h
  · rename_i hw
    rw [regsWf_iff] at h ⊢
    refine ⟨?_, pairwise_insert l k w h.2⟩
    intro x hx
    rcases mem_insert l k w x hx with rfl | hx
    · exact hw
    · exact h.1 x hx

end Sys2Proof.Machine
end

