-- ==== Sys2Proof/Laws/Kept.lean ====
section
/-! SUPPORT. The relation that every operation of the part keeps: fuses and queue as they were, the register file canonical if it was, and every field of the state outside a set of fields as it was. The lemmas named kept_ say it of each operation, with the fields it may touch, in the form that lets them chain. -/

namespace Sys2Proof.Machine

set_option Elab.async false

/-- From the first state to the second the fuses and the queue are as they were, the register file is canonical if it was, and each field whose bit is not in the set m is as it was; the bits number the fields in the order in which they stand here; the last is the commands waiting on the queues alone. -/
structure Kept (m : Nat) (s0 s : State) : Prop where
  fuse : s.fuse = s0.fuse
  pending : s.pending = s0.pending
  wf : regsWf s0.regs = true → regsWf s.regs = true
  boot : m.testBit 0 = false → s.boot = s0.boot
  rseq : m.testBit 1 = false → s.rseq = s0.rseq
  freeCtr : m.testBit 2 = false → s.freeCtr = s0.freeCtr
  regs : m.testBit 3 = false → s.regs = s0.regs
  staged : m.testBit 4 = false → s.staged = s0.staged
  captured : m.testBit 5 = false → s.captured = s0.captured
  lastStatus : m.testBit 6 = false → s.lastStatus = s0.lastStatus
  q : m.testBit 7 = false → s.q = s0.q
  time : m.testBit 8 = false → s.time = s0.time
  conds : m.testBit 9 = false → s.conds = s0.conds
  inputs : m.testBit 10 = false → s.inputs = s0.inputs
  slices : m.testBit 11 = false → s.slices = s0.slices
  demods : m.testBit 12 = false → s.demods = s0.demods
  planGen : m.testBit 13 = false → s.planGen = s0.planGen
  snaps : m.testBit 14 = false → s.snaps = s0.snaps
  beds : m.testBit 15 = false → s.beds = s0.beds
  decs : m.testBit 16 = false → s.decs = s0.decs
  slots : m.testBit 17 = false → s.slots = s0.slots
  afdb : m.testBit 18 = false → s.afdb = s0.afdb
  afNext : m.testBit 19 = false → s.afNext = s0.afNext
  survey : m.testBit 20 = false → s.survey = s0.survey
  strms : m.testBit 21 = false → s.strms = s0.strms
  bunds : m.testBit 22 = false → s.bunds = s0.bunds
  squeues : m.testBit 23 = false → s.squeues = s0.squeues
  skeys : m.testBit 24 = false → s.skeys = s0.skeys
  clk : m.testBit 25 = false → s.clk = s0.clk
  pwr : m.testBit 26 = false → s.pwr = s0.pwr
  pmb : m.testBit 27 = false → s.pmb = s0.pmb
  pmbSent : m.testBit 28 = false → s.pmbSent = s0.pmbSent
  sec : m.testBit 29 = false → s.sec = s0.sec
  log : m.testBit 30 = false → s.log = s0.log
  temps : m.testBit 31 = false → s.temps = s0.temps
  ports : m.testBit 32 = false → s.ports = s0.ports
  ring : m.testBit 33 = false → s.ring = s0.ring
  twb : m.testBit 34 = false → s.twb = s0.twb
  smc : m.testBit 35 = false → s.smc = s0.smc
  aud : m.testBit 36 = false → s.aud = s0.aud
  cal : m.testBit 37 = false → s.cal = s0.cal
  snd : m.testBit 38 = false → s.snd = s0.snd
  loam : m.testBit 39 = false → s.loam = s0.loam
  mfp : m.testBit 40 = false → s.mfp = s0.mfp
  cmd : m.testBit 41 = false → s.q.cmd = s0.q.cmd

/-- The relation of an outcome: it speaks of the next state, if there is one. -/
def KeptOut (m : Nat) (s0 : State) : Host.Outcome State Fault Refusal → Prop
  | .next s => Kept m s0 s
  | _ => True

theorem Kept.refl (m : Nat) (s : State) : Kept m s s :=
  ⟨rfl, rfl, id, fun _ => rfl, fun _ => rfl, fun _ => rfl, fun _ => rfl, fun _ => rfl, fun _ => rfl, fun _ => rfl, fun _ => rfl, fun _ => rfl, fun _ => rfl, fun _ => rfl, fun _ => rfl, fun _ => rfl, fun _ => rfl, fun _ => rfl, fun _ => rfl, fun _ => rfl, fun _ => rfl, fun _ => rfl, fun _ => rfl, fun _ => rfl, fun _ => rfl, fun _ => rfl, fun _ => rfl, fun _ => rfl, fun _ => rfl, fun _ => rfl, fun _ => rfl, fun _ => rfl, fun _ => rfl, fun _ => rfl, fun _ => rfl, fun _ => rfl, fun _ => rfl, fun _ => rfl, fun _ => rfl, fun _ => rfl, fun _ => rfl, fun _ => rfl, fun _ => rfl, fun _ => rfl, fun _ => rfl⟩

theorem Kept.trans {m : Nat} {a b c : State} (h : Kept m a b) (g : Kept m b c) : Kept m a c :=
  ⟨g.fuse.trans h.fuse, g.pending.trans h.pending, fun x => g.wf (h.wf x), fun x => (g.boot x).trans (h.boot x), fun x => (g.rseq x).trans (h.rseq x), fun x => (g.freeCtr x).trans (h.freeCtr x), fun x => (g.regs x).trans (h.regs x), fun x => (g.staged x).trans (h.staged x), fun x => (g.captured x).trans (h.captured x), fun x => (g.lastStatus x).trans (h.lastStatus x), fun x => (g.q x).trans (h.q x), fun x => (g.time x).trans (h.time x), fun x => (g.conds x).trans (h.conds x), fun x => (g.inputs x).trans (h.inputs x), fun x => (g.slices x).trans (h.slices x), fun x => (g.demods x).trans (h.demods x), fun x => (g.planGen x).trans (h.planGen x), fun x => (g.snaps x).trans (h.snaps x), fun x => (g.beds x).trans (h.beds x), fun x => (g.decs x).trans (h.decs x), fun x => (g.slots x).trans (h.slots x), fun x => (g.afdb x).trans (h.afdb x), fun x => (g.afNext x).trans (h.afNext x), fun x => (g.survey x).trans (h.survey x), fun x => (g.strms x).trans (h.strms x), fun x => (g.bunds x).trans (h.bunds x), fun x => (g.squeues x).trans (h.squeues x), fun x => (g.skeys x).trans (h.skeys x), fun x => (g.clk x).trans (h.clk x), fun x => (g.pwr x).trans (h.pwr x), fun x => (g.pmb x).trans (h.pmb x), fun x => (g.pmbSent x).trans (h.pmbSent x), fun x => (g.sec x).trans (h.sec x), fun x => (g.log x).trans (h.log x), fun x => (g.temps x).trans (h.temps x), fun x => (g.ports x).trans (h.ports x), fun x => (g.ring x).trans (h.ring x), fun x => (g.twb x).trans (h.twb x), fun x => (g.smc x).trans (h.smc x), fun x => (g.aud x).trans (h.aud x), fun x => (g.cal x).trans (h.cal x), fun x => (g.snd x).trans (h.snd x), fun x => (g.loam x).trans (h.loam x), fun x => (g.mfp x).trans (h.mfp x), fun x => (g.cmd x).trans (h.cmd x)⟩

theorem mask_trans {a b c : Nat} (h : a &&& b = a) (g : b &&& c = b) : a &&& c = a := by
  rw [← h, Nat.and_assoc, g]

theorem mask_bit {a b i : Nat} (h : a &&& b = a) (g : b.testBit i = false) : a.testBit i = false := by
  rw [← h, Nat.testBit_and, g, Bool.and_false]

theorem Kept.mono {n m : Nat} {a b : State} (hm : n &&& m = n) (h : Kept n a b) : Kept m a b :=
  ⟨h.fuse, h.pending, h.wf, fun x => h.boot (mask_bit hm x), fun x => h.rseq (mask_bit hm x), fun x => h.freeCtr (mask_bit hm x), fun x => h.regs (mask_bit hm x), fun x => h.staged (mask_bit hm x), fun x => h.captured (mask_bit hm x), fun x => h.lastStatus (mask_bit hm x), fun x => h.q (mask_bit hm x), fun x => h.time (mask_bit hm x), fun x => h.conds (mask_bit hm x), fun x => h.inputs (mask_bit hm x), fun x => h.slices (mask_bit hm x), fun x => h.demods (mask_bit hm x), fun x => h.planGen (mask_bit hm x), fun x => h.snaps (mask_bit hm x), fun x => h.beds (mask_bit hm x), fun x => h.decs (mask_bit hm x), fun x => h.slots (mask_bit hm x), fun x => h.afdb (mask_bit hm x), fun x => h.afNext (mask_bit hm x), fun x => h.survey (mask_bit hm x), fun x => h.strms (mask_bit hm x), fun x => h.bunds (mask_bit hm x), fun x => h.squeues (mask_bit hm x), fun x => h.skeys (mask_bit hm x), fun x => h.clk (mask_bit hm x), fun x => h.pwr (mask_bit hm x), fun x => h.pmb (mask_bit hm x), fun x => h.pmbSent (mask_bit hm x), fun x => h.sec (mask_bit hm x), fun x => h.log (mask_bit hm x), fun x => h.temps (mask_bit hm x), fun x => h.ports (mask_bit hm x), fun x => h.ring (mask_bit hm x), fun x => h.twb (mask_bit hm x), fun x => h.smc (mask_bit hm x), fun x => h.aud (mask_bit hm x), fun x => h.cal (mask_bit hm x), fun x => h.snd (mask_bit hm x), fun x => h.loam (mask_bit hm x), fun x => h.mfp (mask_bit hm x), fun x => h.cmd (mask_bit hm x)⟩

theorem Kept.into {n m : Nat} {a b c : State} (h : Kept m a b) (hm : n &&& m = n) (g : Kept n b c) : Kept m a c :=
  h.trans (g.mono hm)

theorem Kept.into0 {m : Nat} {a b c : State} (h : Kept m a b) (g : Kept 0x0 b c) : Kept m a c :=
  h.into (Nat.zero_and m) g

theorem KeptOut.next {m : Nat} {s0 s : State} (h : Kept m s0 s) : KeptOut m s0 (.next s) := h

theorem Kept.out {n m : Nat} {a b : State} {o : Host.Outcome State Fault Refusal} (h : Kept m a b) (hm : n &&& m = n) (g : KeptOut n b o) : KeptOut m a o := by
  cases o with
  | next s => exact h.into hm g
  | fault => exact g
  | refused => exact g

theorem Kept.out0 {m : Nat} {a b : State} {o : Host.Outcome State Fault Refusal} (h : Kept m a b) (g : KeptOut 0x0 b o) : KeptOut m a o :=
  h.out (Nat.zero_and m) g

theorem KeptOut.ite {m : Nat} {c : Prop} [Decidable c] {s0 : State} {a b : Host.Outcome State Fault Refusal} (ha : KeptOut m s0 a) (hb : KeptOut m s0 b) :
    KeptOut m s0 (if c then a else b) := by
  by_cases h : c
  · rw [if_pos h]; exact ha
  · rw [if_neg h]; exact hb

theorem Kept.foldl {α : Type} {m : Nat} {s0 : State} {f : State → α → State} (hf : ∀ s a, Kept m s0 s → Kept m s0 (f s a)) :
    ∀ (l : List α) {s : State}, Kept m s0 s → Kept m s0 (l.foldl f s)
  | [], _, h => h
  | a :: l, _, h => Kept.foldl hf l (hf _ a h)

theorem Kept.foldl_fst {α β : Type} {m : Nat} {s0 : State} {f : State × β → α → State × β} (hf : ∀ x a, Kept m s0 x.1 → Kept m s0 (f x a).1) :
    ∀ (l : List α) {x : State × β}, Kept m s0 x.1 → Kept m s0 (l.foldl f x).1
  | [], _, h => h
  | a :: l, _, h => Kept.foldl_fst hf l (hf _ a h)

/-- The relation said of a state written out, so that a proof can tell that form apart. -/
def KeptMk (m : Nat) (s0 : State) (fuse_ : Fuse) (boot_ : Boot) (rseq_ : Word) (freeCtr_ : Nat) (pending_ : List Instr) (regs_ : List (Nat × Word)) (staged_ : List Staged) (captured_ : List Captured) (lastStatus_ : List LastStatus) (q_ : Queues) (time_ : Time) (conds_ : List CondSpan) (inputs_ : Vector Input 4) (slices_ : Vector SliceSt 96) (demods_ : Vector Demod 96) (planGen_ : Nat) (snaps_ : Vector Snap 4) (beds_ : Vector Bed 12) (decs_ : Vector Dec 24) (slots_ : Vector Slot 32) (afdb_ : List AfIdentity) (afNext_ : List AfNews) (survey_ : List SurveyVisit) (strms_ : Vector Strm 512) (bunds_ : Vector Bund 64) (squeues_ : Vector StrmQueue 9) (skeys_ : Vector StreamKeys 4) (clk_ : Clk) (pwr_ : Pwr) (pmb_ : Vector PmbSlot 4) (pmbSent_ : List PmbCmd) (sec_ : Sec) (log_ : ErrLog) (temps_ : Temps) (ports_ : Vector Prt 2) (ring_ : Ring) (twb_ : Twb) (smc_ : Smc) (aud_ : Aud) (cal_ : Cal) (snd_ : Snd) (loam_ : Loam) (mfp_ : Vector Mfp 4) : Prop :=
  Kept m s0 (State.mk fuse_ boot_ rseq_ freeCtr_ pending_ regs_ staged_ captured_ lastStatus_ q_ time_ conds_ inputs_ slices_ demods_ planGen_ snaps_ beds_ decs_ slots_ afdb_ afNext_ survey_ strms_ bunds_ squeues_ skeys_ clk_ pwr_ pmb_ pmbSent_ sec_ log_ temps_ ports_ ring_ twb_ smc_ aud_ cal_ snd_ loam_ mfp_)

theorem kept_is_mk {m : Nat} {s0 : State} {fuse_ : Fuse} {boot_ : Boot} {rseq_ : Word} {freeCtr_ : Nat} {pending_ : List Instr} {regs_ : List (Nat × Word)} {staged_ : List Staged} {captured_ : List Captured} {lastStatus_ : List LastStatus} {q_ : Queues} {time_ : Time} {conds_ : List CondSpan} {inputs_ : Vector Input 4} {slices_ : Vector SliceSt 96} {demods_ : Vector Demod 96} {planGen_ : Nat} {snaps_ : Vector Snap 4} {beds_ : Vector Bed 12} {decs_ : Vector Dec 24} {slots_ : Vector Slot 32} {afdb_ : List AfIdentity} {afNext_ : List AfNews} {survey_ : List SurveyVisit} {strms_ : Vector Strm 512} {bunds_ : Vector Bund 64} {squeues_ : Vector StrmQueue 9} {skeys_ : Vector StreamKeys 4} {clk_ : Clk} {pwr_ : Pwr} {pmb_ : Vector PmbSlot 4} {pmbSent_ : List PmbCmd} {sec_ : Sec} {log_ : ErrLog} {temps_ : Temps} {ports_ : Vector Prt 2} {ring_ : Ring} {twb_ : Twb} {smc_ : Smc} {aud_ : Aud} {cal_ : Cal} {snd_ : Snd} {loam_ : Loam} {mfp_ : Vector Mfp 4} :
    Kept m s0 (State.mk fuse_ boot_ rseq_ freeCtr_ pending_ regs_ staged_ captured_ lastStatus_ q_ time_ conds_ inputs_ slices_ demods_ planGen_ snaps_ beds_ decs_ slots_ afdb_ afNext_ survey_ strms_ bunds_ squeues_ skeys_ clk_ pwr_ pmb_ pmbSent_ sec_ log_ temps_ ports_ ring_ twb_ smc_ aud_ cal_ snd_ loam_ mfp_) ↔ KeptMk m s0 fuse_ boot_ rseq_ freeCtr_ pending_ regs_ staged_ captured_ lastStatus_ q_ time_ conds_ inputs_ slices_ demods_ planGen_ snaps_ beds_ decs_ slots_ afdb_ afNext_ survey_ strms_ bunds_ squeues_ skeys_ clk_ pwr_ pmb_ pmbSent_ sec_ log_ temps_ ports_ ring_ twb_ smc_ aud_ cal_ snd_ loam_ mfp_ := Iff.rfl

/-- An update of fields in the set. -/
theorem kept_mk {m : Nat} {s0 s : State} {boot_ : Boot} {rseq_ : Word} {freeCtr_ : Nat} {staged_ : List Staged} {captured_ : List Captured} {lastStatus_ : List LastStatus} {q_ : Queues} {time_ : Time} {conds_ : List CondSpan} {inputs_ : Vector Input 4} {slices_ : Vector SliceSt 96} {demods_ : Vector Demod 96} {planGen_ : Nat} {snaps_ : Vector Snap 4} {beds_ : Vector Bed 12} {decs_ : Vector Dec 24} {slots_ : Vector Slot 32} {afdb_ : List AfIdentity} {afNext_ : List AfNews} {survey_ : List SurveyVisit} {strms_ : Vector Strm 512} {bunds_ : Vector Bund 64} {squeues_ : Vector StrmQueue 9} {skeys_ : Vector StreamKeys 4} {clk_ : Clk} {pwr_ : Pwr} {pmb_ : Vector PmbSlot 4} {pmbSent_ : List PmbCmd} {sec_ : Sec} {log_ : ErrLog} {temps_ : Temps} {ports_ : Vector Prt 2} {ring_ : Ring} {twb_ : Twb} {smc_ : Smc} {aud_ : Aud} {cal_ : Cal} {snd_ : Snd} {loam_ : Loam} {mfp_ : Vector Mfp 4} (h : Kept m s0 s)
    (h_boot : m.testBit 0 = true ∨ boot_ = s.boot := by first | exact .inl (by decide) | exact .inr rfl)
    (h_rseq : m.testBit 1 = true ∨ rseq_ = s.rseq := by first | exact .inl (by decide) | exact .inr rfl)
    (h_freeCtr : m.testBit 2 = true ∨ freeCtr_ = s.freeCtr := by first | exact .inl (by decide) | exact .inr rfl)
    (h_staged : m.testBit 4 = true ∨ staged_ = s.staged := by first | exact .inl (by decide) | exact .inr rfl)
    (h_captured : m.testBit 5 = true ∨ captured_ = s.captured := by first | exact .inl (by decide) | exact .inr rfl)
    (h_lastStatus : m.testBit 6 = true ∨ lastStatus_ = s.lastStatus := by first | exact .inl (by decide) | exact .inr rfl)
    (h_q : m.testBit 7 = true ∨ q_ = s.q := by first | exact .inl (by decide) | exact .inr rfl)
    (h_time : m.testBit 8 = true ∨ time_ = s.time := by first | exact .inl (by decide) | exact .inr rfl)
    (h_conds : m.testBit 9 = true ∨ conds_ = s.conds := by first | exact .inl (by decide) | exact .inr rfl)
    (h_inputs : m.testBit 10 = true ∨ inputs_ = s.inputs := by first | exact .inl (by decide) | exact .inr rfl)
    (h_slices : m.testBit 11 = true ∨ slices_ = s.slices := by first | exact .inl (by decide) | exact .inr rfl)
    (h_demods : m.testBit 12 = true ∨ demods_ = s.demods := by first | exact .inl (by decide) | exact .inr rfl)
    (h_planGen : m.testBit 13 = true ∨ planGen_ = s.planGen := by first | exact .inl (by decide) | exact .inr rfl)
    (h_snaps : m.testBit 14 = true ∨ snaps_ = s.snaps := by first | exact .inl (by decide) | exact .inr rfl)
    (h_beds : m.testBit 15 = true ∨ beds_ = s.beds := by first | exact .inl (by decide) | exact .inr rfl)
    (h_decs : m.testBit 16 = true ∨ decs_ = s.decs := by first | exact .inl (by decide) | exact .inr rfl)
    (h_slots : m.testBit 17 = true ∨ slots_ = s.slots := by first | exact .inl (by decide) | exact .inr rfl)
    (h_afdb : m.testBit 18 = true ∨ afdb_ = s.afdb := by first | exact .inl (by decide) | exact .inr rfl)
    (h_afNext : m.testBit 19 = true ∨ afNext_ = s.afNext := by first | exact .inl (by decide) | exact .inr rfl)
    (h_survey : m.testBit 20 = true ∨ survey_ = s.survey := by first | exact .inl (by decide) | exact .inr rfl)
    (h_strms : m.testBit 21 = true ∨ strms_ = s.strms := by first | exact .inl (by decide) | exact .inr rfl)
    (h_bunds : m.testBit 22 = true ∨ bunds_ = s.bunds := by first | exact .inl (by decide) | exact .inr rfl)
    (h_squeues : m.testBit 23 = true ∨ squeues_ = s.squeues := by first | exact .inl (by decide) | exact .inr rfl)
    (h_skeys : m.testBit 24 = true ∨ skeys_ = s.skeys := by first | exact .inl (by decide) | exact .inr rfl)
    (h_clk : m.testBit 25 = true ∨ clk_ = s.clk := by first | exact .inl (by decide) | exact .inr rfl)
    (h_pwr : m.testBit 26 = true ∨ pwr_ = s.pwr := by first | exact .inl (by decide) | exact .inr rfl)
    (h_pmb : m.testBit 27 = true ∨ pmb_ = s.pmb := by first | exact .inl (by decide) | exact .inr rfl)
    (h_pmbSent : m.testBit 28 = true ∨ pmbSent_ = s.pmbSent := by first | exact .inl (by decide) | exact .inr rfl)
    (h_sec : m.testBit 29 = true ∨ sec_ = s.sec := by first | exact .inl (by decide) | exact .inr rfl)
    (h_log : m.testBit 30 = true ∨ log_ = s.log := by first | exact .inl (by decide) | exact .inr rfl)
    (h_temps : m.testBit 31 = true ∨ temps_ = s.temps := by first | exact .inl (by decide) | exact .inr rfl)
    (h_ports : m.testBit 32 = true ∨ ports_ = s.ports := by first | exact .inl (by decide) | exact .inr rfl)
    (h_ring : m.testBit 33 = true ∨ ring_ = s.ring := by first | exact .inl (by decide) | exact .inr rfl)
    (h_twb : m.testBit 34 = true ∨ twb_ = s.twb := by first | exact .inl (by decide) | exact .inr rfl)
    (h_smc : m.testBit 35 = true ∨ smc_ = s.smc := by first | exact .inl (by decide) | exact .inr rfl)
    (h_aud : m.testBit 36 = true ∨ aud_ = s.aud := by first | exact .inl (by decide) | exact .inr rfl)
    (h_cal : m.testBit 37 = true ∨ cal_ = s.cal := by first | exact .inl (by decide) | exact .inr rfl)
    (h_snd : m.testBit 38 = true ∨ snd_ = s.snd := by first | exact .inl (by decide) | exact .inr rfl)
    (h_loam : m.testBit 39 = true ∨ loam_ = s.loam := by first | exact .inl (by decide) | exact .inr rfl)
    (h_mfp : m.testBit 40 = true ∨ mfp_ = s.mfp := by first | exact .inl (by decide) | exact .inr rfl)
    (h_cmd : m.testBit 41 = true ∨ q_.cmd = s.q.cmd := by first | exact .inl (by decide) | exact .inr rfl) :
    KeptMk m s0 s.fuse boot_ rseq_ freeCtr_ s.pending s.regs staged_ captured_ lastStatus_ q_ time_ conds_ inputs_ slices_ demods_ planGen_ snaps_ beds_ decs_ slots_ afdb_ afNext_ survey_ strms_ bunds_ squeues_ skeys_ clk_ pwr_ pmb_ pmbSent_ sec_ log_ temps_ ports_ ring_ twb_ smc_ aud_ cal_ snd_ loam_ mfp_ :=
  ⟨h.fuse, h.pending, h.wf, fun x => (h_boot.resolve_left (by rw [x]; decide)).trans (h.boot x), fun x => (h_rseq.resolve_left (by rw [x]; decide)).trans (h.rseq x), fun x => (h_freeCtr.resolve_left (by rw [x]; decide)).trans (h.freeCtr x), h.regs, fun x => (h_staged.resolve_left (by rw [x]; decide)).trans (h.staged x), fun x => (h_captured.resolve_left (by rw [x]; decide)).trans (h.captured x), fun x => (h_lastStatus.resolve_left (by rw [x]; decide)).trans (h.lastStatus x), fun x => (h_q.resolve_left (by rw [x]; decide)).trans (h.q x), fun x => (h_time.resolve_left (by rw [x]; decide)).trans (h.time x), fun x => (h_conds.resolve_left (by rw [x]; decide)).trans (h.conds x), fun x => (h_inputs.resolve_left (by rw [x]; decide)).trans (h.inputs x), fun x => (h_slices.resolve_left (by rw [x]; decide)).trans (h.slices x), fun x => (h_demods.resolve_left (by rw [x]; decide)).trans (h.demods x), fun x => (h_planGen.resolve_left (by rw [x]; decide)).trans (h.planGen x), fun x => (h_snaps.resolve_left (by rw [x]; decide)).trans (h.snaps x), fun x => (h_beds.resolve_left (by rw [x]; decide)).trans (h.beds x), fun x => (h_decs.resolve_left (by rw [x]; decide)).trans (h.decs x), fun x => (h_slots.resolve_left (by rw [x]; decide)).trans (h.slots x), fun x => (h_afdb.resolve_left (by rw [x]; decide)).trans (h.afdb x), fun x => (h_afNext.resolve_left (by rw [x]; decide)).trans (h.afNext x), fun x => (h_survey.resolve_left (by rw [x]; decide)).trans (h.survey x), fun x => (h_strms.resolve_left (by rw [x]; decide)).trans (h.strms x), fun x => (h_bunds.resolve_left (by rw [x]; decide)).trans (h.bunds x), fun x => (h_squeues.resolve_left (by rw [x]; decide)).trans (h.squeues x), fun x => (h_skeys.resolve_left (by rw [x]; decide)).trans (h.skeys x), fun x => (h_clk.resolve_left (by rw [x]; decide)).trans (h.clk x), fun x => (h_pwr.resolve_left (by rw [x]; decide)).trans (h.pwr x), fun x => (h_pmb.resolve_left (by rw [x]; decide)).trans (h.pmb x), fun x => (h_pmbSent.resolve_left (by rw [x]; decide)).trans (h.pmbSent x), fun x => (h_sec.resolve_left (by rw [x]; decide)).trans (h.sec x), fun x => (h_log.resolve_left (by rw [x]; decide)).trans (h.log x), fun x => (h_temps.resolve_left (by rw [x]; decide)).trans (h.temps x), fun x => (h_ports.resolve_left (by rw [x]; decide)).trans (h.ports x), fun x => (h_ring.resolve_left (by rw [x]; decide)).trans (h.ring x), fun x => (h_twb.resolve_left (by rw [x]; decide)).trans (h.twb x), fun x => (h_smc.resolve_left (by rw [x]; decide)).trans (h.smc x), fun x => (h_aud.resolve_left (by rw [x]; decide)).trans (h.aud x), fun x => (h_cal.resolve_left (by rw [x]; decide)).trans (h.cal x), fun x => (h_snd.resolve_left (by rw [x]; decide)).trans (h.snd x), fun x => (h_loam.resolve_left (by rw [x]; decide)).trans (h.loam x), fun x => (h_mfp.resolve_left (by rw [x]; decide)).trans (h.mfp x), fun x => (h_cmd.resolve_left (by rw [x]; decide)).trans (h.cmd x)⟩

/-- An update that also drops registers. -/
theorem kept_mk_filter {m : Nat} {s0 s : State} {boot_ : Boot} {rseq_ : Word} {freeCtr_ : Nat} {staged_ : List Staged} {captured_ : List Captured} {lastStatus_ : List LastStatus} {q_ : Queues} {time_ : Time} {conds_ : List CondSpan} {inputs_ : Vector Input 4} {slices_ : Vector SliceSt 96} {demods_ : Vector Demod 96} {planGen_ : Nat} {snaps_ : Vector Snap 4} {beds_ : Vector Bed 12} {decs_ : Vector Dec 24} {slots_ : Vector Slot 32} {afdb_ : List AfIdentity} {afNext_ : List AfNews} {survey_ : List SurveyVisit} {strms_ : Vector Strm 512} {bunds_ : Vector Bund 64} {squeues_ : Vector StrmQueue 9} {skeys_ : Vector StreamKeys 4} {clk_ : Clk} {pwr_ : Pwr} {pmb_ : Vector PmbSlot 4} {pmbSent_ : List PmbCmd} {sec_ : Sec} {log_ : ErrLog} {temps_ : Temps} {ports_ : Vector Prt 2} {ring_ : Ring} {twb_ : Twb} {smc_ : Smc} {aud_ : Aud} {cal_ : Cal} {snd_ : Snd} {loam_ : Loam} {mfp_ : Vector Mfp 4} {p : Nat × Word → Bool} (h : Kept m s0 s) (hr : m.testBit 3 = true)
    (h_boot : m.testBit 0 = true ∨ boot_ = s.boot := by first | exact .inl (by decide) | exact .inr rfl)
    (h_rseq : m.testBit 1 = true ∨ rseq_ = s.rseq := by first | exact .inl (by decide) | exact .inr rfl)
    (h_freeCtr : m.testBit 2 = true ∨ freeCtr_ = s.freeCtr := by first | exact .inl (by decide) | exact .inr rfl)
    (h_staged : m.testBit 4 = true ∨ staged_ = s.staged := by first | exact .inl (by decide) | exact .inr rfl)
    (h_captured : m.testBit 5 = true ∨ captured_ = s.captured := by first | exact .inl (by decide) | exact .inr rfl)
    (h_lastStatus : m.testBit 6 = true ∨ lastStatus_ = s.lastStatus := by first | exact .inl (by decide) | exact .inr rfl)
    (h_q : m.testBit 7 = true ∨ q_ = s.q := by first | exact .inl (by decide) | exact .inr rfl)
    (h_time : m.testBit 8 = true ∨ time_ = s.time := by first | exact .inl (by decide) | exact .inr rfl)
    (h_conds : m.testBit 9 = true ∨ conds_ = s.conds := by first | exact .inl (by decide) | exact .inr rfl)
    (h_inputs : m.testBit 10 = true ∨ inputs_ = s.inputs := by first | exact .inl (by decide) | exact .inr rfl)
    (h_slices : m.testBit 11 = true ∨ slices_ = s.slices := by first | exact .inl (by decide) | exact .inr rfl)
    (h_demods : m.testBit 12 = true ∨ demods_ = s.demods := by first | exact .inl (by decide) | exact .inr rfl)
    (h_planGen : m.testBit 13 = true ∨ planGen_ = s.planGen := by first | exact .inl (by decide) | exact .inr rfl)
    (h_snaps : m.testBit 14 = true ∨ snaps_ = s.snaps := by first | exact .inl (by decide) | exact .inr rfl)
    (h_beds : m.testBit 15 = true ∨ beds_ = s.beds := by first | exact .inl (by decide) | exact .inr rfl)
    (h_decs : m.testBit 16 = true ∨ decs_ = s.decs := by first | exact .inl (by decide) | exact .inr rfl)
    (h_slots : m.testBit 17 = true ∨ slots_ = s.slots := by first | exact .inl (by decide) | exact .inr rfl)
    (h_afdb : m.testBit 18 = true ∨ afdb_ = s.afdb := by first | exact .inl (by decide) | exact .inr rfl)
    (h_afNext : m.testBit 19 = true ∨ afNext_ = s.afNext := by first | exact .inl (by decide) | exact .inr rfl)
    (h_survey : m.testBit 20 = true ∨ survey_ = s.survey := by first | exact .inl (by decide) | exact .inr rfl)
    (h_strms : m.testBit 21 = true ∨ strms_ = s.strms := by first | exact .inl (by decide) | exact .inr rfl)
    (h_bunds : m.testBit 22 = true ∨ bunds_ = s.bunds := by first | exact .inl (by decide) | exact .inr rfl)
    (h_squeues : m.testBit 23 = true ∨ squeues_ = s.squeues := by first | exact .inl (by decide) | exact .inr rfl)
    (h_skeys : m.testBit 24 = true ∨ skeys_ = s.skeys := by first | exact .inl (by decide) | exact .inr rfl)
    (h_clk : m.testBit 25 = true ∨ clk_ = s.clk := by first | exact .inl (by decide) | exact .inr rfl)
    (h_pwr : m.testBit 26 = true ∨ pwr_ = s.pwr := by first | exact .inl (by decide) | exact .inr rfl)
    (h_pmb : m.testBit 27 = true ∨ pmb_ = s.pmb := by first | exact .inl (by decide) | exact .inr rfl)
    (h_pmbSent : m.testBit 28 = true ∨ pmbSent_ = s.pmbSent := by first | exact .inl (by decide) | exact .inr rfl)
    (h_sec : m.testBit 29 = true ∨ sec_ = s.sec := by first | exact .inl (by decide) | exact .inr rfl)
    (h_log : m.testBit 30 = true ∨ log_ = s.log := by first | exact .inl (by decide) | exact .inr rfl)
    (h_temps : m.testBit 31 = true ∨ temps_ = s.temps := by first | exact .inl (by decide) | exact .inr rfl)
    (h_ports : m.testBit 32 = true ∨ ports_ = s.ports := by first | exact .inl (by decide) | exact .inr rfl)
    (h_ring : m.testBit 33 = true ∨ ring_ = s.ring := by first | exact .inl (by decide) | exact .inr rfl)
    (h_twb : m.testBit 34 = true ∨ twb_ = s.twb := by first | exact .inl (by decide) | exact .inr rfl)
    (h_smc : m.testBit 35 = true ∨ smc_ = s.smc := by first | exact .inl (by decide) | exact .inr rfl)
    (h_aud : m.testBit 36 = true ∨ aud_ = s.aud := by first | exact .inl (by decide) | exact .inr rfl)
    (h_cal : m.testBit 37 = true ∨ cal_ = s.cal := by first | exact .inl (by decide) | exact .inr rfl)
    (h_snd : m.testBit 38 = true ∨ snd_ = s.snd := by first | exact .inl (by decide) | exact .inr rfl)
    (h_loam : m.testBit 39 = true ∨ loam_ = s.loam := by first | exact .inl (by decide) | exact .inr rfl)
    (h_mfp : m.testBit 40 = true ∨ mfp_ = s.mfp := by first | exact .inl (by decide) | exact .inr rfl)
    (h_cmd : m.testBit 41 = true ∨ q_.cmd = s.q.cmd := by first | exact .inl (by decide) | exact .inr rfl) :
    KeptMk m s0 s.fuse boot_ rseq_ freeCtr_ s.pending (s.regs.filter p) staged_ captured_ lastStatus_ q_ time_ conds_ inputs_ slices_ demods_ planGen_ snaps_ beds_ decs_ slots_ afdb_ afNext_ survey_ strms_ bunds_ squeues_ skeys_ clk_ pwr_ pmb_ pmbSent_ sec_ log_ temps_ ports_ ring_ twb_ smc_ aud_ cal_ snd_ loam_ mfp_ :=
  ⟨h.fuse, h.pending, fun x => regsWf_filter _ _ (h.wf x), fun x => (h_boot.resolve_left (by rw [x]; decide)).trans (h.boot x), fun x => (h_rseq.resolve_left (by rw [x]; decide)).trans (h.rseq x), fun x => (h_freeCtr.resolve_left (by rw [x]; decide)).trans (h.freeCtr x), fun x => absurd (hr.symm.trans x) (by decide), fun x => (h_staged.resolve_left (by rw [x]; decide)).trans (h.staged x), fun x => (h_captured.resolve_left (by rw [x]; decide)).trans (h.captured x), fun x => (h_lastStatus.resolve_left (by rw [x]; decide)).trans (h.lastStatus x), fun x => (h_q.resolve_left (by rw [x]; decide)).trans (h.q x), fun x => (h_time.resolve_left (by rw [x]; decide)).trans (h.time x), fun x => (h_conds.resolve_left (by rw [x]; decide)).trans (h.conds x), fun x => (h_inputs.resolve_left (by rw [x]; decide)).trans (h.inputs x), fun x => (h_slices.resolve_left (by rw [x]; decide)).trans (h.slices x), fun x => (h_demods.resolve_left (by rw [x]; decide)).trans (h.demods x), fun x => (h_planGen.resolve_left (by rw [x]; decide)).trans (h.planGen x), fun x => (h_snaps.resolve_left (by rw [x]; decide)).trans (h.snaps x), fun x => (h_beds.resolve_left (by rw [x]; decide)).trans (h.beds x), fun x => (h_decs.resolve_left (by rw [x]; decide)).trans (h.decs x), fun x => (h_slots.resolve_left (by rw [x]; decide)).trans (h.slots x), fun x => (h_afdb.resolve_left (by rw [x]; decide)).trans (h.afdb x), fun x => (h_afNext.resolve_left (by rw [x]; decide)).trans (h.afNext x), fun x => (h_survey.resolve_left (by rw [x]; decide)).trans (h.survey x), fun x => (h_strms.resolve_left (by rw [x]; decide)).trans (h.strms x), fun x => (h_bunds.resolve_left (by rw [x]; decide)).trans (h.bunds x), fun x => (h_squeues.resolve_left (by rw [x]; decide)).trans (h.squeues x), fun x => (h_skeys.resolve_left (by rw [x]; decide)).trans (h.skeys x), fun x => (h_clk.resolve_left (by rw [x]; decide)).trans (h.clk x), fun x => (h_pwr.resolve_left (by rw [x]; decide)).trans (h.pwr x), fun x => (h_pmb.resolve_left (by rw [x]; decide)).trans (h.pmb x), fun x => (h_pmbSent.resolve_left (by rw [x]; decide)).trans (h.pmbSent x), fun x => (h_sec.resolve_left (by rw [x]; decide)).trans (h.sec x), fun x => (h_log.resolve_left (by rw [x]; decide)).trans (h.log x), fun x => (h_temps.resolve_left (by rw [x]; decide)).trans (h.temps x), fun x => (h_ports.resolve_left (by rw [x]; decide)).trans (h.ports x), fun x => (h_ring.resolve_left (by rw [x]; decide)).trans (h.ring x), fun x => (h_twb.resolve_left (by rw [x]; decide)).trans (h.twb x), fun x => (h_smc.resolve_left (by rw [x]; decide)).trans (h.smc x), fun x => (h_aud.resolve_left (by rw [x]; decide)).trans (h.aud x), fun x => (h_cal.resolve_left (by rw [x]; decide)).trans (h.cal x), fun x => (h_snd.resolve_left (by rw [x]; decide)).trans (h.snd x), fun x => (h_loam.resolve_left (by rw [x]; decide)).trans (h.loam x), fun x => (h_mfp.resolve_left (by rw [x]; decide)).trans (h.mfp x), fun x => (h_cmd.resolve_left (by rw [x]; decide)).trans (h.cmd x)⟩

theorem Kept.of_fst {β : Type} {m : Nat} {s0 t : State} {x : State × β} {b : β} (e : x = (t, b)) (h : Kept m s0 x.1) : Kept m s0 t := by
  subst e; exact h

theorem Kept.of_snd {β : Type} {m : Nat} {s0 t : State} {x : β × State} {b : β} (e : x = (b, t)) (h : Kept m s0 x.2) : Kept m s0 t := by
  subst e; exact h

end Sys2Proof.Machine
end

