-- ==== Sys2Proof/Laws/KeptRegs.lean ====
section
/-! SUPPORT. What every operation of Regs.lean keeps. -/

namespace Sys2Proof.Machine

set_option Elab.async false

set_option linter.unusedSimpArgs false

theorem kept_setReg {K : Nat} {s0 s : State} (h : Kept K s0 s) (key : Nat) (w : Word) (hm : 0x8 &&& K = 0x8 := by decide) : Kept K s0 (State.setReg s key w) := by
  refine h.into hm ?_
  have g := Kept.refl 0x8 s
  exact { g with wf := fun x => regsWf_putReg _ _ _ x, regs := fun x => absurd x (by decide) }

theorem kept_put {K : Nat} {s0 s : State} (hk : Kept K s0 s) (page : Nat) (f : Fld) (v : Nat) (hm : 0x8 &&& K = 0x8 := by decide) : Kept K s0 (State.put s page f v) := by
  refine hk.into hm ?_
  have hk := Kept.refl 0x8 s
  unfold State.put
  repeat' first | with_reducible assumption | with_reducible refine kept_setReg ?_ _ _ (by decide) | dsimp only | split

theorem kept_count {K : Nat} {s0 s : State} (hk : Kept K s0 s) (page : Nat) (f : Fld) (n : Nat) (hm : 0x8 &&& K = 0x8 := by decide) : Kept K s0 (State.count s page f n) := by
  refine hk.into hm ?_
  have hk := Kept.refl 0x8 s
  unfold State.count
  repeat' first | with_reducible assumption | with_reducible refine kept_put ?_ _ _ _ (by decide) | dsimp only | split

theorem kept_putPair {K : Nat} {s0 s : State} (hk : Kept K s0 s) (page : Nat) (lo : Fld) (hi : Fld) (v : Nat) (hm : 0x8 &&& K = 0x8 := by decide) : Kept K s0 (State.putPair s page lo hi v) := by
  refine hk.into hm ?_
  have hk := Kept.refl 0x8 s
  unfold State.putPair
  repeat' first | with_reducible assumption | with_reducible refine kept_put ?_ _ _ _ (by decide) | dsimp only | split

theorem kept_puts {K : Nat} {s0 s : State} (hk : Kept K s0 s) (page : Nat) (l : List (Fld × Nat)) (hm : 0x8 &&& K = 0x8 := by decide) : Kept K s0 (State.puts s page l) := by
  refine hk.into hm ?_
  have hk := Kept.refl 0x8 s
  unfold State.puts
  repeat' first | with_reducible assumption | with_reducible refine kept_put ?_ _ _ _ (by decide) | with_reducible refine Kept.foldl (fun _ _ h => ?_) _ ?_ | with_reducible refine Kept.foldl_fst (fun _ _ h => ?_) _ ?_ | dsimp only | split

theorem kept_clearRegs {K : Nat} {s0 s : State} (hk : Kept K s0 s) (page : Nat) (lo : Nat) (hi : Nat) (hm : 0x8 &&& K = 0x8 := by decide) : Kept K s0 (State.clearRegs s page lo hi) := by
  refine hk.into hm ?_
  have hk := Kept.refl 0x8 s
  unfold State.clearRegs
  repeat' first | with_reducible assumption | simp only [kept_is_mk] | with_reducible refine kept_mk ?_ | with_reducible refine kept_mk_filter ?_ (by decide) | dsimp only | split

end Sys2Proof.Machine
end

