-- ==== Sys2Proof/Laws/KeptFlags.lean ====
section
/-! SUPPORT. What every operation of Flags.lean keeps. -/

namespace Sys2Proof.Machine

set_option Elab.async false

set_option linter.unusedSimpArgs false

theorem kept_gather {K : Nat} {s0 s : State} (hk : Kept K s0 s) (page : Nat) (ev : Ev) (owner : Nat) (hm : 0x80 &&& K = 0x80 := by decide) : Kept K s0 (State.gather s page ev owner) := by
  refine hk.into hm ?_
  have hk := Kept.refl 0x80 s
  unfold State.gather
  repeat' first | with_reducible assumption | simp only [kept_is_mk] | with_reducible refine kept_mk ?_ | dsimp only | split

theorem kept_setBit {K : Nat} {s0 s : State} (hk : Kept K s0 s) (page : Nat) (off : Nat) (b : Nat) (hm : 0x8 &&& K = 0x8 := by decide) : Kept K s0 (State.setBit s page off b) := by
  refine hk.into hm ?_
  have hk := Kept.refl 0x8 s
  unfold State.setBit
  repeat' first | with_reducible assumption | with_reducible refine kept_setReg ?_ _ _ (by decide) | dsimp only | split

theorem kept_raiseTo {K : Nat} {s0 s : State} (hk : Kept K s0 s) (page : Nat) (ev : Ev) (owner : Nat) (hm : 0x88 &&& K = 0x88 := by decide) : Kept K s0 (State.raiseTo s page ev owner) := by
  refine hk.into hm ?_
  have hk := Kept.refl 0x88 s
  unfold State.raiseTo
  repeat' first | with_reducible assumption | with_reducible refine kept_setBit ?_ _ _ _ (by decide) | with_reducible refine kept_gather ?_ _ _ _ (by decide) | dsimp only | split

theorem kept_raise {K : Nat} {s0 s : State} (hk : Kept K s0 s) (page : Nat) (ev : Ev) (hm : 0x88 &&& K = 0x88 := by decide) : Kept K s0 (State.raise s page ev) := by
  refine hk.into hm ?_
  have hk := Kept.refl 0x88 s
  unfold State.raise
  repeat' first | with_reducible assumption | with_reducible refine kept_raiseTo ?_ _ _ _ (by decide) | dsimp only | split

theorem kept_raiseAbsent {K : Nat} {s0 s : State} (hk : Kept K s0 s) (page : Nat) (writer : Nat) (hm : 0x80 &&& K = 0x80 := by decide) : Kept K s0 (State.raiseAbsent s page writer) := by
  refine hk.into hm ?_
  have hk := Kept.refl 0x80 s
  unfold State.raiseAbsent
  repeat' first | with_reducible assumption | with_reducible refine kept_gather ?_ _ _ _ (by decide) | dsimp only | split

theorem kept_logOverflow {K : Nat} {s0 s : State} (hk : Kept K s0 s) (sev : Nat) (hm : 0x40000088 &&& K = 0x40000088 := by decide) : Kept K s0 (State.logOverflow s sev) := by
  refine hk.into hm ?_
  have hk := Kept.refl 0x40000088 s
  unfold State.logOverflow
  repeat' first | with_reducible assumption | with_reducible refine kept_raise ?_ _ _ (by decide) | with_reducible refine kept_count ?_ _ _ _ (by decide) | simp only [kept_is_mk] | with_reducible refine kept_mk ?_ | dsimp only | split

theorem kept_logNew {K : Nat} {s0 s : State} (hk : Kept K s0 s) (e : LogEntry) (hm : 0xc0000088 &&& K = 0xc0000088 := by decide) : Kept K s0 (State.logNew s e) := by
  refine hk.into hm ?_
  have hk := Kept.refl 0xc0000088 s
  unfold State.logNew
  repeat' first | with_reducible assumption | with_reducible refine kept_raise ?_ _ _ (by decide) | with_reducible refine kept_count ?_ _ _ _ (by decide) | simp only [kept_is_mk] | with_reducible refine kept_mk ?_ | dsimp only | split

theorem kept_logFinding {K : Nat} {s0 s : State} (hk : Kept K s0 s) (event : Word) (page : Nat) (det : Nat) (src : Nat) (detail : Word) (hm : 0xc0000088 &&& K = 0xc0000088 := by decide) : Kept K s0 (State.logFinding s event page det src detail) := by
  refine hk.into hm ?_
  have hk := Kept.refl 0xc0000088 s
  unfold State.logFinding
  repeat' first | with_reducible assumption | with_reducible refine kept_logOverflow ?_ _ (by decide) | with_reducible refine kept_logNew ?_ _ (by decide) | with_reducible refine kept_count ?_ _ _ _ (by decide) | simp only [kept_is_mk] | with_reducible refine kept_mk ?_ | dsimp only | split

theorem kept_consumeInj {K : Nat} {s0 s : State} (hk : Kept K s0 s) (page : Nat) (hm : 0x8 &&& K = 0x8 := by decide) : Kept K s0 (State.consumeInj s page) := by
  refine hk.into hm ?_
  have hk := Kept.refl 0x8 s
  unfold State.consumeInj
  repeat' first | with_reducible assumption | with_reducible refine kept_put ?_ _ _ _ (by decide) | dsimp only | split

theorem kept_evaluate {K : Nat} {s0 s : State} (hk : Kept K s0 s) (page : Nat) (det : Nat) (real : Bool) (hm : 0x8 &&& K = 0x8 := by decide) : Kept K s0 (State.evaluate s page det real).2 := by
  refine hk.into hm ?_
  have hk := Kept.refl 0x8 s
  unfold State.evaluate
  repeat' first | with_reducible assumption | with_reducible refine kept_consumeInj ?_ _ (by decide) | dsimp only | split

theorem kept_finding {K : Nat} {s0 s : State} (hk : Kept K s0 s) (page : Nat) (det : Nat) (evPage : Nat) (ev : Ev) (owner : Nat) (src : Nat) (detail : Word) (hm : 0xc0000088 &&& K = 0xc0000088 := by decide) : Kept K s0 (State.finding s page det evPage ev owner src detail) := by
  refine hk.into hm ?_
  have hk := Kept.refl 0xc0000088 s
  unfold State.finding
  repeat' first | with_reducible assumption | with_reducible refine kept_raiseTo ?_ _ _ _ (by decide) | with_reducible refine kept_logFinding ?_ _ _ _ _ _ (by decide) | dsimp only | split

theorem kept_race {K : Nat} {s0 s : State} (hk : Kept K s0 s) (page : Nat) (hm : 0x8 &&& K = 0x8 := by decide) : Kept K s0 (State.race s page) := by
  refine hk.into hm ?_
  have hk := Kept.refl 0x8 s
  unfold State.race
  repeat' first | with_reducible assumption | with_reducible refine kept_count ?_ _ _ _ (by decide) | dsimp only | split

end Sys2Proof.Machine
end

