-- ==== Sys2Proof/Laws/KeptOps.lean ====
section
/-! SUPPORT. What every operation of Ops.lean keeps. -/

namespace Sys2Proof.Machine

set_option Elab.async false

set_option linter.unusedSimpArgs false

theorem kept_after {K : Nat} {s0 s : State} (hk : Kept K s0 s) (d : Nat) (hm : 0x300 &&& K = 0x300 := by decide) : Kept K s0 (State.after s d) := by
  refine hk.into hm ?_
  have hk := Kept.refl 0x300 s
  unfold State.after
  repeat' first | with_reducible assumption | simp only [kept_is_mk] | with_reducible refine kept_mk ?_ | dsimp only | split

theorem kept_advance {K : Nat} {s0 s : State} (hk : Kept K s0 s) (b : Bound) (hm : 0x300 &&& K = 0x300 := by decide) : Kept K s0 (State.advance s b) := by
  refine hk.into hm ?_
  have hk := Kept.refl 0x300 s
  unfold State.advance
  repeat' first | with_reducible assumption | simp only [kept_is_mk] | with_reducible refine kept_mk ?_ | dsimp only | split

theorem kept_draw {K : Nat} {s0 s : State} (hk : Kept K s0 s) (hm : 0x4 &&& K = 0x4 := by decide) : Kept K s0 (State.draw s).2 := by
  refine hk.into hm ?_
  have hk := Kept.refl 0x4 s
  unfold State.draw
  repeat' first | with_reducible assumption | simp only [kept_is_mk] | with_reducible refine kept_mk ?_ | dsimp only | split

theorem kept_stage {K : Nat} {s0 s : State} (hk : Kept K s0 s) (role : Nat) (key : Nat) (w : Word) (hm : 0x10 &&& K = 0x10 := by decide) : Kept K s0 (State.stage s role key w) := by
  refine hk.into hm ?_
  have hk := Kept.refl 0x10 s
  unfold State.stage
  repeat' first | with_reducible assumption | simp only [kept_is_mk] | with_reducible refine kept_mk ?_ | dsimp only | split

theorem kept_stagePut {K : Nat} {s0 s : State} (hk : Kept K s0 s) (role : Nat) (page : Nat) (f : Fld) (v : Nat) (hm : 0x10 &&& K = 0x10 := by decide) : Kept K s0 (State.stagePut s role page f v) := by
  refine hk.into hm ?_
  have hk := Kept.refl 0x10 s
  unfold State.stagePut
  repeat' first | with_reducible assumption | with_reducible refine kept_stage ?_ _ _ _ (by decide) | dsimp only | split

theorem kept_unstage {K : Nat} {s0 s : State} (hk : Kept K s0 s) (page : Nat) (role : Nat) (hm : 0x10 &&& K = 0x10 := by decide) : Kept K s0 (State.unstage s page role) := by
  refine hk.into hm ?_
  have hk := Kept.refl 0x10 s
  unfold State.unstage
  repeat' first | with_reducible assumption | simp only [kept_is_mk] | with_reducible refine kept_mk ?_ | dsimp only | split

theorem kept_setLast {K : Nat} {s0 s : State} (hk : Kept K s0 s) (page : Nat) (role : Nat) (st : Status) (hm : 0x40 &&& K = 0x40 := by decide) : Kept K s0 (State.setLast s page role st) := by
  refine hk.into hm ?_
  have hk := Kept.refl 0x40 s
  unfold State.setLast
  repeat' first | with_reducible assumption | simp only [kept_is_mk] | with_reducible refine kept_mk ?_ | dsimp only | split

theorem kept_bumpSeq {K : Nat} {s0 s : State} (hk : Kept K s0 s) (page : Nat) (hm : 0x8 &&& K = 0x8 := by decide) : Kept K s0 (State.bumpSeq s page) := by
  refine hk.into hm ?_
  have hk := Kept.refl 0x8 s
  unfold State.bumpSeq
  repeat' first | with_reducible assumption | with_reducible refine kept_put ?_ _ _ _ (by decide) | dsimp only | split

theorem kept_applyWords {K : Nat} {s0 s : State} (hk : Kept K s0 s) (ws : List (Nat × Word)) (hm : 0x8 &&& K = 0x8 := by decide) : Kept K s0 (State.applyWords s ws) := by
  refine hk.into hm ?_
  have hk := Kept.refl 0x8 s
  unfold State.applyWords
  repeat' first | with_reducible assumption | with_reducible refine kept_setReg ?_ _ _ (by decide) | with_reducible refine Kept.foldl (fun _ _ h => ?_) _ ?_ | with_reducible refine Kept.foldl_fst (fun _ _ h => ?_) _ ?_ | dsimp only | split

theorem kept_applyStaged {K : Nat} {s0 s : State} (hk : Kept K s0 s) (page : Nat) (role : Nat) (hm : 0x18 &&& K = 0x18 := by decide) : Kept K s0 (State.applyStaged s page role) := by
  refine hk.into hm ?_
  have hk := Kept.refl 0x18 s
  unfold State.applyStaged
  repeat' first | with_reducible assumption | with_reducible refine kept_applyWords ?_ _ (by decide) | with_reducible refine kept_bumpSeq ?_ _ (by decide) | with_reducible refine kept_unstage ?_ _ _ (by decide) | dsimp only | split

theorem kept_capture {K : Nat} {s0 s : State} (hk : Kept K s0 s) (page : Nat) (role : Nat) (hm : 0x30 &&& K = 0x30 := by decide) : Kept K s0 (State.capture s page role) := by
  refine hk.into hm ?_
  have hk := Kept.refl 0x30 s
  unfold State.capture
  repeat' first | with_reducible assumption | with_reducible refine kept_unstage ?_ _ _ (by decide) | simp only [kept_is_mk] | with_reducible refine kept_mk ?_ | dsimp only | split

theorem kept_updInp {K : Nat} {s0 s : State} (hk : Kept K s0 s) (i : Inp) (f : Input → Input) (hm : 0x400 &&& K = 0x400 := by decide) : Kept K s0 (State.updInp s i f) := by
  refine hk.into hm ?_
  have hk := Kept.refl 0x400 s
  unfold State.updInp
  repeat' first | with_reducible assumption | simp only [kept_is_mk] | with_reducible refine kept_mk ?_ | dsimp only | split

theorem kept_updSlc {K : Nat} {s0 s : State} (hk : Kept K s0 s) (i : Slc) (f : SliceSt → SliceSt) (hm : 0x800 &&& K = 0x800 := by decide) : Kept K s0 (State.updSlc s i f) := by
  refine hk.into hm ?_
  have hk := Kept.refl 0x800 s
  unfold State.updSlc
  repeat' first | with_reducible assumption | simp only [kept_is_mk] | with_reducible refine kept_mk ?_ | dsimp only | split

theorem kept_updDemod {K : Nat} {s0 s : State} (hk : Kept K s0 s) (i : Slc) (f : Demod → Demod) (hm : 0x1000 &&& K = 0x1000 := by decide) : Kept K s0 (State.updDemod s i f) := by
  refine hk.into hm ?_
  have hk := Kept.refl 0x1000 s
  unfold State.updDemod
  repeat' first | with_reducible assumption | simp only [kept_is_mk] | with_reducible refine kept_mk ?_ | dsimp only | split

theorem kept_updSnap {K : Nat} {s0 s : State} (hk : Kept K s0 s) (c : SnapCh) (f : Snap → Snap) (hm : 0x4000 &&& K = 0x4000 := by decide) : Kept K s0 (State.updSnap s c f) := by
  refine hk.into hm ?_
  have hk := Kept.refl 0x4000 s
  unfold State.updSnap
  repeat' first | with_reducible assumption | simp only [kept_is_mk] | with_reducible refine kept_mk ?_ | dsimp only | split

theorem kept_updBed {K : Nat} {s0 s : State} (hk : Kept K s0 s) (k : BedId) (f : Bed → Bed) (hm : 0x8000 &&& K = 0x8000 := by decide) : Kept K s0 (State.updBed s k f) := by
  refine hk.into hm ?_
  have hk := Kept.refl 0x8000 s
  unfold State.updBed
  repeat' first | with_reducible assumption | simp only [kept_is_mk] | with_reducible refine kept_mk ?_ | dsimp only | split

theorem kept_updDec {K : Nat} {s0 s : State} (hk : Kept K s0 s) (d : DecId) (f : Dec → Dec) (hm : 0x10000 &&& K = 0x10000 := by decide) : Kept K s0 (State.updDec s d f) := by
  refine hk.into hm ?_
  have hk := Kept.refl 0x10000 s
  unfold State.updDec
  repeat' first | with_reducible assumption | simp only [kept_is_mk] | with_reducible refine kept_mk ?_ | dsimp only | split

theorem kept_updSlot {K : Nat} {s0 s : State} (hk : Kept K s0 s) (v : SvcId) (f : Slot → Slot) (hm : 0x20000 &&& K = 0x20000 := by decide) : Kept K s0 (State.updSlot s v f) := by
  refine hk.into hm ?_
  have hk := Kept.refl 0x20000 s
  unfold State.updSlot
  repeat' first | with_reducible assumption | simp only [kept_is_mk] | with_reducible refine kept_mk ?_ | dsimp only | split

theorem kept_updCand {K : Nat} {s0 s : State} (hk : Kept K s0 s) (v : SvcId) (n : CandId) (f : Cand → Cand) (hm : 0x20000 &&& K = 0x20000 := by decide) : Kept K s0 (State.updCand s v n f) := by
  refine hk.into hm ?_
  have hk := Kept.refl 0x20000 s
  unfold State.updCand
  repeat' first | with_reducible assumption | with_reducible refine kept_updSlot ?_ _ _ (by decide) | simp only [kept_is_mk] | with_reducible refine kept_mk ?_ | dsimp only | split

theorem kept_updStrm {K : Nat} {s0 s : State} (hk : Kept K s0 s) (i : StrmId) (f : Strm → Strm) (hm : 0x200000 &&& K = 0x200000 := by decide) : Kept K s0 (State.updStrm s i f) := by
  refine hk.into hm ?_
  have hk := Kept.refl 0x200000 s
  unfold State.updStrm
  repeat' first | with_reducible assumption | simp only [kept_is_mk] | with_reducible refine kept_mk ?_ | dsimp only | split

theorem kept_updBund {K : Nat} {s0 s : State} (hk : Kept K s0 s) (b : BundId) (f : Bund → Bund) (hm : 0x400000 &&& K = 0x400000 := by decide) : Kept K s0 (State.updBund s b f) := by
  refine hk.into hm ?_
  have hk := Kept.refl 0x400000 s
  unfold State.updBund
  repeat' first | with_reducible assumption | simp only [kept_is_mk] | with_reducible refine kept_mk ?_ | dsimp only | split

theorem kept_updQueue {K : Nat} {s0 s : State} (hk : Kept K s0 s) (q : SQueue) (f : StrmQueue → StrmQueue) (hm : 0x800000 &&& K = 0x800000 := by decide) : Kept K s0 (State.updQueue s q f) := by
  refine hk.into hm ?_
  have hk := Kept.refl 0x800000 s
  unfold State.updQueue
  repeat' first | with_reducible assumption | simp only [kept_is_mk] | with_reducible refine kept_mk ?_ | dsimp only | split

end Sys2Proof.Machine
end

