-- ==== Sys2Proof/Laws/KeptStreams.lean ====
section
/-! SUPPORT. What every operation of Streams.lean keeps. -/

namespace Sys2Proof.Machine

set_option Elab.async false

set_option linter.unusedSimpArgs false

theorem kept_freeStream {K : Nat} {s0 s : State} (hk : Kept K s0 s) (i : StrmId) (hm : 0x200008 &&& K = 0x200008 := by decide) : Kept K s0 (State.freeStream s i) := by
  refine hk.into hm ?_
  have hk := Kept.refl 0x200008 s
  unfold State.freeStream
  repeat' first | with_reducible assumption | with_reducible refine kept_clearRegs ?_ _ _ _ (by decide) | with_reducible refine kept_updStrm ?_ _ _ (by decide) | dsimp only | split

theorem kept_reserve {K : Nat} {s0 s : State} (hk : Kept K s0 s) (b : BundId) (hm : 0x400000 &&& K = 0x400000 := by decide) : Kept K s0 (State.reserve s b) := by
  refine hk.into hm ?_
  have hk := Kept.refl 0x400000 s
  unfold State.reserve
  repeat' first | with_reducible assumption | with_reducible refine kept_updBund ?_ _ _ (by decide) | simp only [kept_is_mk] | with_reducible refine kept_mk ?_ | dsimp only | split

theorem kept_applyStream {K : Nat} {s0 s : State} (hk : Kept K s0 s) (role : Nat) (hm : 0x600008 &&& K = 0x600008 := by decide) : Kept K s0 (State.applyStream s role) := by
  refine hk.into hm ?_
  have hk := Kept.refl 0x600008 s
  unfold State.applyStream
  repeat' first | with_reducible assumption | with_reducible refine kept_setReg ?_ _ _ (by decide) | with_reducible refine kept_reserve ?_ _ (by decide) | with_reducible refine kept_freeStream ?_ _ (by decide) | with_reducible refine kept_updStrm ?_ _ _ (by decide) | simp only [kept_is_mk] | with_reducible refine kept_mk ?_ | dsimp only | split

theorem kept_applyBundle {K : Nat} {s0 s : State} (hk : Kept K s0 s) (role : Nat) (hm : 0x400008 &&& K = 0x400008 := by decide) : Kept K s0 (State.applyBundle s role) := by
  refine hk.into hm ?_
  have hk := Kept.refl 0x400008 s
  unfold State.applyBundle
  repeat' first | with_reducible assumption | with_reducible refine kept_setReg ?_ _ _ (by decide) | with_reducible refine kept_reserve ?_ _ (by decide) | with_reducible refine kept_updBund ?_ _ _ (by decide) | with_reducible refine kept_clearRegs ?_ _ _ _ (by decide) | simp only [kept_is_mk] | with_reducible refine kept_mk ?_ | dsimp only | split

theorem kept_resetQueue {K : Nat} {s0 s : State} (hk : Kept K s0 s) (q : SQueue) (hm : 0xa00000 &&& K = 0xa00000 := by decide) : Kept K s0 (State.resetQueue s q) := by
  refine hk.into hm ?_
  have hk := Kept.refl 0xa00000 s
  unfold State.resetQueue
  repeat' first | with_reducible assumption | with_reducible refine kept_updQueue ?_ _ _ (by decide) | with_reducible refine kept_updStrm ?_ _ _ (by decide) | simp only [kept_is_mk] | with_reducible refine kept_mk ?_ | with_reducible refine Kept.foldl (fun _ _ h => ?_) _ ?_ | dsimp only | split

theorem kept_applyQueues {K : Nat} {s0 s : State} (hk : Kept K s0 s) (role : Nat) (hm : 0xa00008 &&& K = 0xa00008 := by decide) : Kept K s0 (State.applyQueues s role) := by
  refine hk.into hm ?_
  have hk := Kept.refl 0xa00008 s
  unfold State.applyQueues
  repeat' first | with_reducible assumption | with_reducible refine kept_setReg ?_ _ _ (by decide) | with_reducible refine kept_resetQueue ?_ _ (by decide) | with_reducible refine Kept.foldl (fun _ _ h => ?_) _ ?_ | dsimp only | split

theorem kept_applyStrmPage {K : Nat} {s0 s : State} (hk : Kept K s0 s) (role : Nat) (hm : 0xe00018 &&& K = 0xe00018 := by decide) : Kept K s0 (State.applyStrmPage s role) := by
  refine hk.into hm ?_
  have hk := Kept.refl 0xe00018 s
  unfold State.applyStrmPage
  repeat' first | with_reducible assumption | with_reducible refine kept_applyStream ?_ _ (by decide) | with_reducible refine kept_applyBundle ?_ _ (by decide) | with_reducible refine kept_bumpSeq ?_ _ (by decide) | with_reducible refine kept_unstage ?_ _ _ (by decide) | with_reducible refine kept_applyQueues ?_ _ (by decide) | dsimp only | split

theorem kept_dropPacket {K : Nat} {s0 s : State} (hk : Kept K s0 s) (i : StrmId) (hm : 0x200008 &&& K = 0x200008 := by decide) : Kept K s0 (State.dropPacket s i) := by
  refine hk.into hm ?_
  have hk := Kept.refl 0x200008 s
  unfold State.dropPacket
  repeat' first | with_reducible assumption | with_reducible refine kept_count ?_ _ _ _ (by decide) | with_reducible refine kept_updStrm ?_ _ _ (by decide) | simp only [kept_is_mk] | with_reducible refine kept_mk ?_ | dsimp only | split

theorem kept_deliver {K : Nat} {s0 s : State} (hk : Kept K s0 s) (q : SQueue) (p : Packet) (hm : 0xa00008 &&& K = 0xa00008 := by decide) : Kept K s0 (State.deliver s q p) := by
  refine hk.into hm ?_
  have hk := Kept.refl 0xa00008 s
  unfold State.deliver
  repeat' first | with_reducible assumption | with_reducible refine kept_dropPacket ?_ _ (by decide) | with_reducible refine kept_updQueue ?_ _ _ (by decide) | with_reducible refine kept_count ?_ _ _ _ (by decide) | with_reducible refine kept_updStrm ?_ _ _ (by decide) | simp only [kept_is_mk] | with_reducible refine kept_mk ?_ | dsimp only | split

theorem kept_enqueue {K : Nat} {s0 s : State} (hk : Kept K s0 s) (q : SQueue) (p : Packet) (hm : 0xa00088 &&& K = 0xa00088 := by decide) : Kept K s0 (State.enqueue s q p) := by
  refine hk.into hm ?_
  have hk := Kept.refl 0xa00088 s
  unfold State.enqueue
  repeat' first | with_reducible assumption | with_reducible refine kept_dropPacket ?_ _ (by decide) | with_reducible refine kept_raiseTo ?_ _ _ _ (by decide) | with_reducible refine kept_updQueue ?_ _ _ (by decide) | with_reducible refine kept_deliver ?_ _ _ (by decide) | with_reducible refine kept_count ?_ _ _ _ (by decide) | simp only [kept_is_mk] | with_reducible refine kept_mk ?_ | dsimp only | split

theorem kept_formPacket {K : Nat} {s0 s : State} (hk : Kept K s0 s) (i : StrmId) (x : PacketSpec) (hm : 0xe00088 &&& K = 0xe00088 := by decide) : Kept K s0 (State.formPacket s i x) := by
  refine hk.into hm ?_
  have hk := Kept.refl 0xe00088 s
  unfold State.formPacket
  repeat' first | with_reducible assumption | with_reducible refine kept_dropPacket ?_ _ (by decide) | with_reducible refine kept_enqueue ?_ _ _ (by decide) | with_reducible refine kept_updBund ?_ _ _ (by decide) | with_reducible refine kept_updStrm ?_ _ _ (by decide) | simp only [kept_is_mk] | with_reducible refine kept_mk ?_ | dsimp only | split

theorem kept_releaseBundle {K : Nat} {s0 s : State} (hk : Kept K s0 s) (b : BundId) (hm : 0xe00088 &&& K = 0xe00088 := by decide) : Kept K s0 (State.releaseBundle s b) := by
  refine hk.into hm ?_
  have hk := Kept.refl 0xe00088 s
  unfold State.releaseBundle
  repeat' first | with_reducible assumption | with_reducible refine kept_dropPacket ?_ _ (by decide) | with_reducible refine kept_raiseTo ?_ _ _ _ (by decide) | with_reducible refine kept_deliver ?_ _ _ (by decide) | with_reducible refine kept_count ?_ _ _ _ (by decide) | with_reducible refine kept_updBund ?_ _ _ (by decide) | with_reducible refine kept_updStrm ?_ _ _ (by decide) | simp only [kept_is_mk] | with_reducible refine kept_mk ?_ | with_reducible refine Kept.foldl (fun _ _ h => ?_) _ ?_ | dsimp only | split

theorem kept_execBundleRelease {K : Nat} {s0 s : State} (hk : Kept K s0 s) (b : BundId) (hm : 0xe00088 &&& K = 0xe00088 := by decide) : KeptOut K s0 (execBundleRelease b s) := by
  refine hk.out hm ?_
  have hk := Kept.refl 0xe00088 s
  unfold execBundleRelease
  repeat' first | with_reducible assumption | with_reducible refine kept_releaseBundle ?_ _ (by decide) | with_reducible apply KeptOut.next | dsimp only | split

theorem kept_replaceOne {K : Nat} {s0 s : State} (hk : Kept K s0 s) (b : BundId) (i : StrmId) (hm : 0xe00088 &&& K = 0xe00088 := by decide) : Kept K s0 (State.replaceOne s b i) := by
  refine hk.into hm ?_
  have hk := Kept.refl 0xe00088 s
  unfold State.replaceOne
  repeat' first | with_reducible assumption | with_reducible refine kept_formPacket ?_ _ _ (by decide) | with_reducible refine kept_count ?_ _ _ _ (by decide) | with_reducible refine kept_updStrm ?_ _ _ (by decide) | simp only [kept_is_mk] | with_reducible refine kept_mk ?_ | dsimp only | split

theorem kept_replaceLate {K : Nat} {s0 s : State} (hk : Kept K s0 s) (b : BundId) (i : StrmId) (hm : 0xe00088 &&& K = 0xe00088 := by decide) : Kept K s0 (State.replaceLate s b i) := by
  refine hk.into hm ?_
  have hk := Kept.refl 0xe00088 s
  unfold State.replaceLate
  repeat' first | with_reducible assumption | with_reducible refine kept_replaceOne ?_ _ _ (by decide) | with_reducible refine Kept.foldl (fun _ _ h => ?_) _ ?_ | dsimp only | split

theorem kept_execBundleDeadline {K : Nat} {s0 s : State} (h : Kept K s0 s) (b : BundId) (seen : Bool) (hm : 0xe00088 &&& K = 0xe00088 := by decide) : KeptOut K s0 (execBundleDeadline b seen s) := by
  unfold execBundleDeadline
  refine KeptOut.ite h ?_
  generalize (s.sampledMembers b).filter (fun i => !s.memberReady b i) = late
  refine KeptOut.ite ?_ (KeptOut.ite ?_ ?_)
  · exact KeptOut.next (kept_releaseBundle (kept_race h _ (mask_trans (by decide) hm)) _ (mask_trans (by decide) hm))
  · exact KeptOut.next (kept_race h _ (mask_trans (by decide) hm))
  · refine KeptOut.next (kept_releaseBundle ?_ _ (mask_trans (by decide) hm))
    have h1 := Kept.foldl (f := fun s i => s.replaceLate b i) (fun _ _ h => kept_replaceLate h b _ (mask_trans (by decide) hm)) late h
    split
    · exact h1
    · exact kept_updBund (kept_raiseTo h1 _ _ _ (mask_trans (by decide) hm)) _ _ (mask_trans (by decide) hm)

theorem kept_streamsBlock {K : Nat} {s0 s : State} (hk : Kept K s0 s) (hm : 0xe00000 &&& K = 0xe00000 := by decide) : Kept K s0 (State.streamsBlock s) := by
  refine hk.into hm ?_
  have hk := Kept.refl 0xe00000 s
  unfold State.streamsBlock
  repeat' first | with_reducible assumption | simp only [kept_is_mk] | with_reducible refine kept_mk ?_ | dsimp only | split

theorem kept_strmsGone {K : Nat} {s0 s : State} (hk : Kept K s0 s) (p : StrmDef → Bool) (hm : 0x200088 &&& K = 0x200088 := by decide) : Kept K s0 (State.strmsGone s p) := by
  refine hk.into hm ?_
  have hk := Kept.refl 0x200088 s
  unfold State.strmsGone
  repeat' first | with_reducible assumption | with_reducible refine kept_raiseTo ?_ _ _ _ (by decide) | with_reducible refine kept_updStrm ?_ _ _ (by decide) | simp only [kept_is_mk] | with_reducible refine kept_mk ?_ | with_reducible refine Kept.foldl (fun _ _ h => ?_) _ ?_ | dsimp only | split

theorem kept_emitReport {K : Nat} {s0 s : State} (hk : Kept K s0 s) (p : StrmDef → Bool) (at_ : Nat) (cond : Cond) (kflags : Nat) (words : List Quad) (hm : 0xe00088 &&& K = 0xe00088 := by decide) : Kept K s0 (State.emitReport s p at_ cond kflags words) := by
  refine hk.into hm ?_
  have hk := Kept.refl 0xe00088 s
  unfold State.emitReport
  repeat' first | with_reducible assumption | with_reducible refine kept_formPacket ?_ _ _ (by decide) | with_reducible refine Kept.foldl (fun _ _ h => ?_) _ ?_ | dsimp only | split

theorem kept_unitPackets {K : Nat} {s0 s : State} (hk : Kept K s0 s) (p : StrmDef → Bool) (srcKind : Nat) (src : Nat) (i : Option Inp) (u : Unit_) (hm : 0xe00088 &&& K = 0xe00088 := by decide) : Kept K s0 (State.unitPackets s p srcKind src i u) := by
  refine hk.into hm ?_
  have hk := Kept.refl 0xe00088 s
  unfold State.unitPackets
  repeat' first | with_reducible assumption | with_reducible refine kept_formPacket ?_ _ _ (by decide) | with_reducible refine Kept.foldl (fun _ _ h => ?_) _ ?_ | dsimp only | split

theorem kept_closeSide {K : Nat} {s0 s : State} (hk : Kept K s0 s) (i : StrmId) (hm : 0xe00088 &&& K = 0xe00088 := by decide) : Kept K s0 (State.closeSide s i) := by
  refine hk.into hm ?_
  have hk := Kept.refl 0xe00088 s
  unfold State.closeSide
  repeat' first | with_reducible assumption | with_reducible refine kept_formPacket ?_ _ _ (by decide) | with_reducible refine kept_updStrm ?_ _ _ (by decide) | simp only [kept_is_mk] | with_reducible refine kept_mk ?_ | dsimp only | split

theorem kept_sideRecord {K : Nat} {s0 s : State} (hk : Kept K s0 s) (srcKind : Nat) (src : Nat) (words : List Quad) (ovr : Bool) (ago : Nat) (hm : 0xe00088 &&& K = 0xe00088 := by decide) : Kept K s0 (State.sideRecord s srcKind src words ovr ago) := by
  refine hk.into hm ?_
  have hk := Kept.refl 0xe00088 s
  unfold State.sideRecord
  repeat' first | with_reducible assumption | with_reducible refine kept_closeSide ?_ _ (by decide) | with_reducible refine kept_updStrm ?_ _ _ (by decide) | simp only [kept_is_mk] | with_reducible refine kept_mk ?_ | with_reducible refine Kept.foldl (fun _ _ h => ?_) _ ?_ | dsimp only | split

theorem kept_closeSides {K : Nat} {s0 s : State} (hk : Kept K s0 s) (hm : 0xe00088 &&& K = 0xe00088 := by decide) : Kept K s0 (State.closeSides s) := by
  refine hk.into hm ?_
  have hk := Kept.refl 0xe00088 s
  unfold State.closeSides
  repeat' first | with_reducible assumption | with_reducible refine kept_closeSide ?_ _ (by decide) | with_reducible refine Kept.foldl (fun _ _ h => ?_) _ ?_ | dsimp only | split

theorem kept_execStreamKeySwitch {K : Nat} {s0 s : State} (hk : Kept K s0 s) (n : TenId) (hm : 0x1000000 &&& K = 0x1000000 := by decide) : KeptOut K s0 (execStreamKeySwitch n s) := by
  refine hk.out hm ?_
  have hk := Kept.refl 0x1000000 s
  unfold execStreamKeySwitch
  repeat' first | with_reducible assumption | simp only [kept_is_mk] | with_reducible refine kept_mk ?_ | with_reducible apply KeptOut.next | dsimp only | split

theorem kept_execOldStreamKeyExpiry {K : Nat} {s0 s : State} (hk : Kept K s0 s) (n : TenId) (hm : 0x1000000 &&& K = 0x1000000 := by decide) : KeptOut K s0 (execOldStreamKeyExpiry n s) := by
  refine hk.out hm ?_
  have hk := Kept.refl 0x1000000 s
  unfold execOldStreamKeyExpiry
  repeat' first | with_reducible assumption | simp only [kept_is_mk] | with_reducible refine kept_mk ?_ | with_reducible apply KeptOut.next | dsimp only | split

end Sys2Proof.Machine
end

