-- ==== Sys2Proof/Laws/KeptDecoders.lean ====
section
/-! SUPPORT. What every operation of Decoders.lean keeps. -/

namespace Sys2Proof.Machine

set_option Elab.async false

set_option linter.unusedSimpArgs false

theorem kept_decClaim {K : Nat} {s0 s : State} (hk : Kept K s0 s) (d : DecId) (owner : Nat) (slot : Option SvcId) (hm : 0x10000 &&& K = 0x10000 := by decide) : Kept K s0 (State.decClaim s d owner slot) := by
  refine hk.into hm ?_
  have hk := Kept.refl 0x10000 s
  unfold State.decClaim
  repeat' first | with_reducible assumption | with_reducible refine kept_updDec ?_ _ _ (by decide) | simp only [kept_is_mk] | with_reducible refine kept_mk ?_ | dsimp only | split

theorem kept_decRelease {K : Nat} {s0 s : State} (hk : Kept K s0 s) (d : DecId) (hm : 0x210088 &&& K = 0x210088 := by decide) : Kept K s0 (State.decRelease s d) := by
  refine hk.into hm ?_
  have hk := Kept.refl 0x210088 s
  unfold State.decRelease
  repeat' first | with_reducible assumption | with_reducible refine kept_strmsGone ?_ _ (by decide) | with_reducible refine kept_updDec ?_ _ _ (by decide) | dsimp only | split

theorem kept_decMuted {K : Nat} {s0 s : State} (hk : Kept K s0 s) (d : DecId) (hm : 0x10000 &&& K = 0x10000 := by decide) : Kept K s0 (State.decMuted s d) := by
  refine hk.into hm ?_
  have hk := Kept.refl 0x10000 s
  unfold State.decMuted
  repeat' first | with_reducible assumption | with_reducible refine kept_updDec ?_ _ _ (by decide) | dsimp only | split

theorem kept_decGone {K : Nat} {s0 s : State} (hk : Kept K s0 s) (d : DecId) (hm : 0x10088 &&& K = 0x10088 := by decide) : Kept K s0 (State.decGone s d) := by
  refine hk.into hm ?_
  have hk := Kept.refl 0x10088 s
  unfold State.decGone
  repeat' first | with_reducible assumption | with_reducible refine kept_raiseTo ?_ _ _ _ (by decide) | with_reducible refine kept_decMuted ?_ _ (by decide) | with_reducible refine kept_updDec ?_ _ _ (by decide) | simp only [kept_is_mk] | with_reducible refine kept_mk ?_ | dsimp only | split

theorem kept_decsGone {K : Nat} {s0 s : State} (hk : Kept K s0 s) (p : DecSrc → Bool) (hm : 0x10088 &&& K = 0x10088 := by decide) : Kept K s0 (State.decsGone s p) := by
  refine hk.into hm ?_
  have hk := Kept.refl 0x10088 s
  unfold State.decsGone
  repeat' first | with_reducible assumption | with_reducible refine kept_decGone ?_ _ (by decide) | with_reducible refine Kept.foldl (fun _ _ h => ?_) _ ?_ | dsimp only | split

theorem kept_bedDecsGone {K : Nat} {s0 s : State} (hk : Kept K s0 s) (k : BedId) (hm : 0x10088 &&& K = 0x10088 := by decide) : Kept K s0 (State.bedDecsGone s k) := by
  refine hk.into hm ?_
  have hk := Kept.refl 0x10088 s
  unfold State.bedDecsGone
  repeat' first | with_reducible assumption | with_reducible refine kept_decsGone ?_ _ (by decide) | dsimp only | split

theorem kept_slcDecsGone {K : Nat} {s0 s : State} (hk : Kept K s0 s) (i : Slc) (hm : 0x10088 &&& K = 0x10088 := by decide) : Kept K s0 (State.slcDecsGone s i) := by
  refine hk.into hm ?_
  have hk := Kept.refl 0x10088 s
  unfold State.slcDecsGone
  repeat' first | with_reducible assumption | with_reducible refine kept_decsGone ?_ _ (by decide) | dsimp only | split

theorem kept_execDecSourceReady {K : Nat} {s0 s : State} (hk : Kept K s0 s) (d : DecId) (hm : 0x10088 &&& K = 0x10088 := by decide) : KeptOut K s0 (execDecSourceReady d s) := by
  refine hk.out hm ?_
  have hk := Kept.refl 0x10088 s
  unfold execDecSourceReady
  repeat' first | with_reducible assumption | with_reducible refine kept_raiseTo ?_ _ _ _ (by decide) | with_reducible refine kept_updDec ?_ _ _ (by decide) | simp only [kept_is_mk] | with_reducible refine kept_mk ?_ | with_reducible apply KeptOut.next | dsimp only | split

theorem kept_decCount {K : Nat} {s0 s : State} (hk : Kept K s0 s) (d : DecId) (f : AudioFrame) (hm : 0x8 &&& K = 0x8 := by decide) : Kept K s0 (State.decCount s d f) := by
  refine hk.into hm ?_
  have hk := Kept.refl 0x8 s
  unfold State.decCount
  repeat' first | with_reducible assumption | with_reducible refine kept_puts ?_ _ _ (by decide) | with_reducible refine kept_count ?_ _ _ _ (by decide) | dsimp only | split

theorem kept_decPlay {K : Nat} {s0 s : State} (hk : Kept K s0 s) (d : DecId) (f : AudioFrame) (hm : 0x10000 &&& K = 0x10000 := by decide) : Kept K s0 (State.decPlay s d f) := by
  refine hk.into hm ?_
  have hk := Kept.refl 0x10000 s
  unfold State.decPlay
  repeat' first | with_reducible assumption | with_reducible refine kept_updDec ?_ _ _ (by decide) | simp only [kept_is_mk] | with_reducible refine kept_mk ?_ | dsimp only | split

theorem kept_decConceal {K : Nat} {s0 s : State} (hk : Kept K s0 s) (d : DecId) (f : AudioFrame) (hm : 0x10000 &&& K = 0x10000 := by decide) : Kept K s0 (State.decConceal s d f) := by
  refine hk.into hm ?_
  have hk := Kept.refl 0x10000 s
  unfold State.decConceal
  repeat' first | with_reducible assumption | with_reducible refine kept_updDec ?_ _ _ (by decide) | simp only [kept_is_mk] | with_reducible refine kept_mk ?_ | dsimp only | split

theorem kept_decMutes {K : Nat} {s0 s : State} (hk : Kept K s0 s) (d : DecId) (hm : 0x10088 &&& K = 0x10088 := by decide) : Kept K s0 (State.decMutes s d) := by
  refine hk.into hm ?_
  have hk := Kept.refl 0x10088 s
  unfold State.decMutes
  repeat' first | with_reducible assumption | with_reducible refine kept_raiseTo ?_ _ _ _ (by decide) | with_reducible refine kept_decMuted ?_ _ (by decide) | with_reducible refine kept_updDec ?_ _ _ (by decide) | with_reducible refine kept_count ?_ _ _ _ (by decide) | simp only [kept_is_mk] | with_reducible refine kept_mk ?_ | dsimp only | split

theorem kept_decConceals {K : Nat} {s0 s : State} (hk : Kept K s0 s) (d : DecId) (hm : 0x10088 &&& K = 0x10088 := by decide) : Kept K s0 (State.decConceals s d) := by
  refine hk.into hm ?_
  have hk := Kept.refl 0x10088 s
  unfold State.decConceals
  repeat' first | with_reducible assumption | with_reducible refine kept_raiseTo ?_ _ _ _ (by decide) | with_reducible refine kept_updDec ?_ _ _ (by decide) | simp only [kept_is_mk] | with_reducible refine kept_mk ?_ | dsimp only | split

theorem kept_decRuns {K : Nat} {s0 s : State} (hk : Kept K s0 s) (d : DecId) (hm : 0x10088 &&& K = 0x10088 := by decide) : Kept K s0 (State.decRuns s d) := by
  refine hk.into hm ?_
  have hk := Kept.refl 0x10088 s
  unfold State.decRuns
  repeat' first | with_reducible assumption | with_reducible refine kept_raiseTo ?_ _ _ _ (by decide) | with_reducible refine kept_updDec ?_ _ _ (by decide) | simp only [kept_is_mk] | with_reducible refine kept_mk ?_ | dsimp only | split

theorem kept_execDecFrame {K : Nat} {s0 s : State} (hk : Kept K s0 s) (d : DecId) (f : AudioFrame) (hm : 0x10088 &&& K = 0x10088 := by decide) : KeptOut K s0 (execDecFrame d f s) := by
  refine hk.out hm ?_
  have hk := Kept.refl 0x10088 s
  unfold execDecFrame
  repeat' first | with_reducible assumption | with_reducible refine kept_decCount ?_ _ _ (by decide) | with_reducible refine kept_decMutes ?_ _ (by decide) | with_reducible refine kept_decRuns ?_ _ (by decide) | with_reducible refine kept_decConceal ?_ _ _ (by decide) | with_reducible refine kept_updDec ?_ _ _ (by decide) | with_reducible refine kept_decPlay ?_ _ _ (by decide) | with_reducible refine kept_decConceals ?_ _ (by decide) | simp only [kept_is_mk] | with_reducible refine kept_mk ?_ | with_reducible apply KeptOut.next | dsimp only | split

theorem kept_execDecConcealTimeout {K : Nat} {s0 s : State} (hk : Kept K s0 s) (d : DecId) (seen : Bool) (hm : 0x10088 &&& K = 0x10088 := by decide) : KeptOut K s0 (execDecConcealTimeout d seen s) := by
  refine hk.out hm ?_
  have hk := Kept.refl 0x10088 s
  unfold execDecConcealTimeout
  repeat' first | with_reducible assumption | with_reducible refine kept_decMutes ?_ _ (by decide) | with_reducible refine kept_race ?_ _ (by decide) | with_reducible refine kept_updDec ?_ _ _ (by decide) | simp only [kept_is_mk] | with_reducible refine kept_mk ?_ | with_reducible apply KeptOut.next | dsimp only | split

theorem kept_decChange {K : Nat} {s0 s : State} (hk : Kept K s0 s) (old : State) (role : Nat) (d : DecId) (hm : 0x210088 &&& K = 0x210088 := by decide) : Kept K s0 (State.decChange old s role d) := by
  refine hk.into hm ?_
  have hk := Kept.refl 0x210088 s
  unfold State.decChange
  repeat' first | with_reducible assumption | with_reducible refine kept_decRelease ?_ _ (by decide) | with_reducible refine kept_strmsGone ?_ _ (by decide) | with_reducible refine kept_decClaim ?_ _ _ _ (by decide) | dsimp only | split

theorem kept_decApply {K : Nat} {s0 s : State} (hk : Kept K s0 s) (role : Nat) (hm : 0x210098 &&& K = 0x210098 := by decide) : Kept K s0 (State.decApply s role) := by
  refine hk.into hm ?_
  have hk := Kept.refl 0x210098 s
  unfold State.decApply
  repeat' first | with_reducible assumption | with_reducible refine kept_decChange ?_ _ _ _ (by decide) | with_reducible refine kept_applyStaged ?_ _ _ (by decide) | with_reducible refine Kept.foldl (fun _ _ h => ?_) _ ?_ | dsimp only | split

end Sys2Proof.Machine
end

