-- ==== Sys2Proof/Laws/KeptBeds.lean ====
section
/-! SUPPORT. What every operation of Beds.lean keeps. -/

namespace Sys2Proof.Machine

set_option Elab.async false

set_option linter.unusedSimpArgs false

theorem kept_bedClaim {K : Nat} {s0 s : State} (hk : Kept K s0 s) (k : BedId) (hm : 0x8800 &&& K = 0x8800 := by decide) : Kept K s0 (State.bedClaim s k) := by
  refine hk.into hm ?_
  have hk := Kept.refl 0x8800 s
  unfold State.bedClaim
  repeat' first | with_reducible assumption | with_reducible refine kept_updSlc ?_ _ _ (by decide) | with_reducible refine kept_updBed ?_ _ _ (by decide) | simp only [kept_is_mk] | with_reducible refine kept_mk ?_ | with_reducible refine Kept.foldl (fun _ _ h => ?_) _ ?_ | dsimp only | split

theorem kept_bedClear {K : Nat} {s0 s : State} (hk : Kept K s0 s) (k : BedId) (whole : Bool) (hm : 0x8 &&& K = 0x8 := by decide) : Kept K s0 (State.bedClear s k whole) := by
  refine hk.into hm ?_
  have hk := Kept.refl 0x8 s
  unfold State.bedClear
  repeat' first | with_reducible assumption | with_reducible refine kept_put ?_ _ _ _ (by decide) | with_reducible refine kept_clearRegs ?_ _ _ _ (by decide) | dsimp only | split

theorem kept_bedSearch {K : Nat} {s0 s : State} (hk : Kept K s0 s) (k : BedId) (hm : 0x8008 &&& K = 0x8008 := by decide) : Kept K s0 (State.bedSearch s k) := by
  refine hk.into hm ?_
  have hk := Kept.refl 0x8008 s
  unfold State.bedSearch
  repeat' first | with_reducible assumption | with_reducible refine kept_updBed ?_ _ _ (by decide) | with_reducible refine kept_bedClear ?_ _ _ (by decide) | simp only [kept_is_mk] | with_reducible refine kept_mk ?_ | dsimp only | split

theorem kept_bedRetune {K : Nat} {s0 s : State} (hk : Kept K s0 s) (k : BedId) (hm : 0x218088 &&& K = 0x218088 := by decide) : Kept K s0 (State.bedRetune s k) := by
  refine hk.into hm ?_
  have hk := Kept.refl 0x218088 s
  unfold State.bedRetune
  repeat' first | with_reducible assumption | with_reducible refine kept_bedSearch ?_ _ (by decide) | with_reducible refine kept_strmsGone ?_ _ (by decide) | with_reducible refine kept_bedDecsGone ?_ _ (by decide) | with_reducible refine kept_count ?_ _ _ _ (by decide) | dsimp only | split

theorem kept_bedFall {K : Nat} {s0 s : State} (hk : Kept K s0 s) (k : BedId) (hm : 0x18088 &&& K = 0x18088 := by decide) : Kept K s0 (State.bedFall s k) := by
  refine hk.into hm ?_
  have hk := Kept.refl 0x18088 s
  unfold State.bedFall
  repeat' first | with_reducible assumption | with_reducible refine kept_updBed ?_ _ _ (by decide) | with_reducible refine kept_bedClear ?_ _ _ (by decide) | with_reducible refine kept_raise ?_ _ _ (by decide) | with_reducible refine kept_bedDecsGone ?_ _ (by decide) | with_reducible refine kept_count ?_ _ _ _ (by decide) | simp only [kept_is_mk] | with_reducible refine kept_mk ?_ | dsimp only | split

theorem kept_bedOff {K : Nat} {s0 s : State} (hk : Kept K s0 s) (k : BedId) (hm : 0x218888 &&& K = 0x218888 := by decide) : Kept K s0 (State.bedOff s k) := by
  refine hk.into hm ?_
  have hk := Kept.refl 0x218888 s
  unfold State.bedOff
  repeat' first | with_reducible assumption | with_reducible refine kept_strmsGone ?_ _ (by decide) | with_reducible refine kept_updSlc ?_ _ _ (by decide) | with_reducible refine kept_updBed ?_ _ _ (by decide) | with_reducible refine kept_bedDecsGone ?_ _ (by decide) | simp only [kept_is_mk] | with_reducible refine kept_mk ?_ | with_reducible refine Kept.foldl (fun _ _ h => ?_) _ ?_ | dsimp only | split

theorem kept_bedApply {K : Nat} {s0 s : State} (hk : Kept K s0 s) (k : BedId) (ws : List (Nat × Word)) (hm : 0x218888 &&& K = 0x218888 := by decide) : Kept K s0 (State.bedApply s k ws) := by
  refine hk.into hm ?_
  have hk := Kept.refl 0x218888 s
  unfold State.bedApply
  repeat' first | with_reducible assumption | with_reducible refine kept_bedSearch ?_ _ (by decide) | with_reducible refine kept_applyWords ?_ _ (by decide) | with_reducible refine kept_bedOff ?_ _ (by decide) | with_reducible refine kept_updSlc ?_ _ _ (by decide) | with_reducible refine kept_updBed ?_ _ _ (by decide) | with_reducible refine kept_bumpSeq ?_ _ (by decide) | with_reducible refine kept_raise ?_ _ _ (by decide) | with_reducible refine kept_bedRetune ?_ _ (by decide) | simp only [kept_is_mk] | with_reducible refine kept_mk ?_ | with_reducible refine Kept.foldl (fun _ _ h => ?_) _ ?_ | dsimp only | split

theorem kept_bedCommits {K : Nat} {s0 s : State} (hk : Kept K s0 s) (hm : 0x21a8a8 &&& K = 0x21a8a8 := by decide) : Kept K s0 (State.bedCommits s) := by
  refine hk.into hm ?_
  have hk := Kept.refl 0x21a8a8 s
  unfold State.bedCommits
  repeat' first | with_reducible assumption | with_reducible refine kept_bedApply ?_ _ _ (by decide) | simp only [kept_is_mk] | with_reducible refine kept_mk ?_ | with_reducible refine Kept.foldl (fun _ _ h => ?_) _ ?_ | dsimp only | split

theorem kept_bedsDown {K : Nat} {s0 s : State} (hk : Kept K s0 s) (hm : 0x18088 &&& K = 0x18088 := by decide) : Kept K s0 (State.bedsDown s) := by
  refine hk.into hm ?_
  have hk := Kept.refl 0x18088 s
  unfold State.bedsDown
  repeat' first | with_reducible assumption | with_reducible refine kept_updBed ?_ _ _ (by decide) | with_reducible refine kept_bedDecsGone ?_ _ (by decide) | simp only [kept_is_mk] | with_reducible refine kept_mk ?_ | with_reducible refine Kept.foldl (fun _ _ h => ?_) _ ?_ | dsimp only | split

theorem kept_bedsWake {K : Nat} {s0 s : State} (hk : Kept K s0 s) (hm : 0x8008 &&& K = 0x8008 := by decide) : Kept K s0 (State.bedsWake s) := by
  refine hk.into hm ?_
  have hk := Kept.refl 0x8008 s
  unfold State.bedsWake
  repeat' first | with_reducible assumption | with_reducible refine kept_bedSearch ?_ _ (by decide) | with_reducible refine Kept.foldl (fun _ _ h => ?_) _ ?_ | dsimp only | split

theorem kept_bedFrameAt {K : Nat} {s0 s : State} (hk : Kept K s0 s) (k : BedId) (dev : Nat) (hm : 0x8 &&& K = 0x8 := by decide) : Kept K s0 (State.bedFrameAt s k dev) := by
  refine hk.into hm ?_
  have hk := Kept.refl 0x8 s
  unfold State.bedFrameAt
  repeat' first | with_reducible assumption | with_reducible refine kept_putPair ?_ _ _ _ _ (by decide) | dsimp only | split

theorem kept_execBedNullSync {K : Nat} {s0 s : State} (hk : Kept K s0 s) (k : BedId) (nullAgo : Nat) (hm : 0x8088 &&& K = 0x8088 := by decide) : KeptOut K s0 (execBedNullSync k nullAgo s) := by
  refine hk.out hm ?_
  have hk := Kept.refl 0x8088 s
  unfold execBedNullSync
  repeat' first | with_reducible assumption | with_reducible refine kept_bedFrameAt ?_ _ _ (by decide) | with_reducible refine kept_updBed ?_ _ _ (by decide) | with_reducible refine kept_raise ?_ _ _ (by decide) | simp only [kept_is_mk] | with_reducible refine kept_mk ?_ | with_reducible apply KeptOut.next | dsimp only | split

theorem kept_subchGone {K : Nat} {s0 s : State} (hk : Kept K s0 s) (k : BedId) (old : List SubchDef) (hm : 0x10088 &&& K = 0x10088 := by decide) : Kept K s0 (State.subchGone s k old) := by
  refine hk.into hm ?_
  have hk := Kept.refl 0x10088 s
  unfold State.subchGone
  repeat' first | with_reducible assumption | with_reducible refine kept_decsGone ?_ _ (by decide) | dsimp only | split

theorem kept_figEnsemble {K : Nat} {s0 s : State} (hk : Kept K s0 s) (k : BedId) (eid : Nat) (change : Option Nat) (hm : 0x18088 &&& K = 0x18088 := by decide) : Kept K s0 (State.figEnsemble s k eid change) := by
  refine hk.into hm ?_
  have hk := Kept.refl 0x18088 s
  unfold State.figEnsemble
  repeat' first | with_reducible assumption | with_reducible refine kept_subchGone ?_ _ _ (by decide) | with_reducible refine kept_puts ?_ _ _ (by decide) | with_reducible refine kept_updBed ?_ _ _ (by decide) | with_reducible refine kept_raise ?_ _ _ (by decide) | with_reducible refine kept_put ?_ _ _ _ (by decide) | with_reducible refine kept_clearRegs ?_ _ _ _ (by decide) | simp only [kept_is_mk] | with_reducible refine kept_mk ?_ | dsimp only | split

theorem kept_figSubch {K : Nat} {s0 s : State} (hk : Kept K s0 s) (k : BedId) (next : Bool) (d : SubchDef) (hm : 0x8000 &&& K = 0x8000 := by decide) : Kept K s0 (State.figSubch s k next d) := by
  refine hk.into hm ?_
  have hk := Kept.refl 0x8000 s
  unfold State.figSubch
  repeat' first | with_reducible assumption | with_reducible refine kept_updBed ?_ _ _ (by decide) | simp only [kept_is_mk] | with_reducible refine kept_mk ?_ | dsimp only | split

theorem kept_figService {K : Nat} {s0 s : State} (hk : Kept K s0 s) (k : BedId) (next : Bool) (v : SvcDef) (hm : 0x8008 &&& K = 0x8008 := by decide) : Kept K s0 (State.figService s k next v) := by
  refine hk.into hm ?_
  have hk := Kept.refl 0x8008 s
  unfold State.figService
  repeat' first | with_reducible assumption | with_reducible refine kept_updBed ?_ _ _ (by decide) | with_reducible refine kept_put ?_ _ _ _ (by decide) | simp only [kept_is_mk] | with_reducible refine kept_mk ?_ | dsimp only | split

theorem kept_figLabel {K : Nat} {s0 s : State} (hk : Kept K s0 s) (k : BedId) (chars : List Byte) (charset : Nat) (hm : 0x8008 &&& K = 0x8008 := by decide) : Kept K s0 (State.figLabel s k chars charset) := by
  refine hk.into hm ?_
  have hk := Kept.refl 0x8008 s
  unfold State.figLabel
  repeat' first | with_reducible assumption | with_reducible refine kept_puts ?_ _ _ (by decide) | with_reducible refine kept_updBed ?_ _ _ (by decide) | with_reducible refine kept_put ?_ _ _ _ (by decide) | simp only [kept_is_mk] | with_reducible refine kept_mk ?_ | with_reducible refine Kept.foldl (fun _ _ h => ?_) _ ?_ | dsimp only | split

theorem kept_parseFig {K : Nat} {s0 s : State} (hk : Kept K s0 s) (k : BedId) (x2 : Fig) (hm : 0x18088 &&& K = 0x18088 := by decide) : Kept K s0 (State.parseFig s k x2) := by
  refine hk.into hm ?_
  have hk := Kept.refl 0x18088 s
  unfold State.parseFig
  repeat' first | with_reducible assumption | with_reducible refine kept_figService ?_ _ _ _ (by decide) | with_reducible refine kept_updBed ?_ _ _ (by decide) | with_reducible refine kept_figSubch ?_ _ _ _ (by decide) | with_reducible refine kept_figLabel ?_ _ _ _ (by decide) | with_reducible refine kept_figEnsemble ?_ _ _ _ (by decide) | simp only [kept_is_mk] | with_reducible refine kept_mk ?_ | dsimp only | split

theorem kept_fibRecord {K : Nat} {s0 s : State} (hk : Kept K s0 s) (k : BedId) (f : Fib) (hm : 0xe00088 &&& K = 0xe00088 := by decide) : Kept K s0 (State.fibRecord s k f) := by
  refine hk.into hm ?_
  have hk := Kept.refl 0xe00088 s
  unfold State.fibRecord
  repeat' first | with_reducible assumption | with_reducible refine kept_sideRecord ?_ _ _ _ _ _ (by decide) | dsimp only | split

theorem kept_execBedFib {K : Nat} {s0 s : State} (hk : Kept K s0 s) (k : BedId) (f : Fib) (hm : 0xe18088 &&& K = 0xe18088 := by decide) : KeptOut K s0 (execBedFib k f s) := by
  refine hk.out hm ?_
  have hk := Kept.refl 0xe18088 s
  unfold execBedFib
  repeat' first | with_reducible assumption | with_reducible refine kept_parseFig ?_ _ _ (by decide) | with_reducible refine kept_updBed ?_ _ _ (by decide) | with_reducible refine kept_fibRecord ?_ _ _ (by decide) | with_reducible refine kept_count ?_ _ _ _ (by decide) | simp only [kept_is_mk] | with_reducible refine kept_mk ?_ | with_reducible refine Kept.foldl (fun _ _ h => ?_) _ ?_ | with_reducible apply KeptOut.next | dsimp only | split

theorem kept_execBedMciComplete {K : Nat} {s0 s : State} (hk : Kept K s0 s) (k : BedId) (hm : 0x8088 &&& K = 0x8088 := by decide) : KeptOut K s0 (execBedMciComplete k s) := by
  refine hk.out hm ?_
  have hk := Kept.refl 0x8088 s
  unfold execBedMciComplete
  repeat' first | with_reducible assumption | with_reducible refine kept_updBed ?_ _ _ (by decide) | with_reducible refine kept_raise ?_ _ _ (by decide) | simp only [kept_is_mk] | with_reducible refine kept_mk ?_ | with_reducible apply KeptOut.next | dsimp only | split

theorem kept_bedConfigured {K : Nat} {s0 s : State} (hk : Kept K s0 s) (k : BedId) (old : List SubchDef) (hm : 0x18088 &&& K = 0x18088 := by decide) : Kept K s0 (State.bedConfigured s k old) := by
  refine hk.into hm ?_
  have hk := Kept.refl 0x18088 s
  unfold State.bedConfigured
  repeat' first | with_reducible assumption | with_reducible refine kept_subchGone ?_ _ _ (by decide) | with_reducible refine kept_updBed ?_ _ _ (by decide) | with_reducible refine kept_raise ?_ _ _ (by decide) | with_reducible refine kept_put ?_ _ _ _ (by decide) | simp only [kept_is_mk] | with_reducible refine kept_mk ?_ | dsimp only | split

theorem kept_bedFrameEnd {K : Nat} {s0 s : State} (hk : Kept K s0 s) (k : BedId) (hm : 0x18088 &&& K = 0x18088 := by decide) : Kept K s0 (State.bedFrameEnd s k) := by
  refine hk.into hm ?_
  have hk := Kept.refl 0x18088 s
  unfold State.bedFrameEnd
  repeat' first | with_reducible assumption | with_reducible refine kept_bedConfigured ?_ _ _ (by decide) | with_reducible refine kept_updBed ?_ _ _ (by decide) | with_reducible refine kept_put ?_ _ _ _ (by decide) | simp only [kept_is_mk] | with_reducible refine kept_mk ?_ | with_reducible refine Kept.foldl (fun _ _ h => ?_) _ ?_ | with_reducible refine Kept.foldl_fst (fun _ _ h => ?_) _ ?_ | dsimp only | split

theorem kept_execBedReconfig {K : Nat} {s0 s : State} (hk : Kept K s0 s) (k : BedId) (hm : 0x18088 &&& K = 0x18088 := by decide) : KeptOut K s0 (execBedReconfig k s) := by
  refine hk.out hm ?_
  have hk := Kept.refl 0x18088 s
  unfold execBedReconfig
  repeat' first | with_reducible assumption | with_reducible refine kept_bedConfigured ?_ _ _ (by decide) | with_reducible refine kept_updBed ?_ _ _ (by decide) | with_reducible refine kept_put ?_ _ _ _ (by decide) | simp only [kept_is_mk] | with_reducible refine kept_mk ?_ | with_reducible apply KeptOut.next | dsimp only | split

theorem kept_bedMeasure {K : Nat} {s0 s : State} (hk : Kept K s0 s) (k : BedId) (m : BedFrame) (hm : 0x8 &&& K = 0x8 := by decide) : Kept K s0 (State.bedMeasure s k m) := by
  refine hk.into hm ?_
  have hk := Kept.refl 0x8 s
  unfold State.bedMeasure
  repeat' first | with_reducible assumption | with_reducible refine kept_bedFrameAt ?_ _ _ (by decide) | with_reducible refine kept_puts ?_ _ _ (by decide) | with_reducible refine kept_count ?_ _ _ _ (by decide) | dsimp only | split

theorem kept_bedUnit {K : Nat} {s0 s : State} (hk : Kept K s0 s) (k : BedId) (u : Unit_) (hm : 0xe00088 &&& K = 0xe00088 := by decide) : Kept K s0 (State.bedUnit s k u) := by
  refine hk.into hm ?_
  have hk := Kept.refl 0xe00088 s
  unfold State.bedUnit
  repeat' first | with_reducible assumption | with_reducible refine kept_unitPackets ?_ _ _ _ _ _ (by decide) | simp only [kept_is_mk] | with_reducible refine kept_mk ?_ | dsimp only | split

theorem kept_bedPad {K : Nat} {s0 s : State} (hk : Kept K s0 s) (k : BedId) (m : PadData) (hm : 0xe00088 &&& K = 0xe00088 := by decide) : Kept K s0 (State.bedPad s k m) := by
  refine hk.into hm ?_
  have hk := Kept.refl 0xe00088 s
  unfold State.bedPad
  repeat' first | with_reducible assumption | with_reducible refine kept_sideRecord ?_ _ _ _ _ _ (by decide) | dsimp only | split

theorem kept_execBedCif {K : Nat} {s0 s : State} (hk : Kept K s0 s) (k : BedId) (cif : Nat) (frame : Option BedFrame) (soft : List (BitVec 4)) (x : CifContent) (hm : 0xe18088 &&& K = 0xe18088 := by decide) : KeptOut K s0 (execBedCif k cif frame soft x s) := by
  refine hk.out hm ?_
  have hk := Kept.refl 0xe18088 s
  unfold execBedCif
  repeat' first | with_reducible assumption | with_reducible refine kept_bedMeasure ?_ _ _ (by decide) | with_reducible refine kept_updBed ?_ _ _ (by decide) | with_reducible refine kept_bedFrameEnd ?_ _ (by decide) | with_reducible refine kept_bedPad ?_ _ _ (by decide) | with_reducible refine kept_put ?_ _ _ _ (by decide) | with_reducible refine kept_bedUnit ?_ _ _ (by decide) | with_reducible refine Kept.foldl (fun _ _ h => ?_) _ ?_ | with_reducible apply KeptOut.next | dsimp only | split

theorem kept_bedsBlock {K : Nat} {s0 s : State} (hk : Kept K s0 s) (hm : 0x8000 &&& K = 0x8000 := by decide) : Kept K s0 (State.bedsBlock s) := by
  refine hk.into hm ?_
  have hk := Kept.refl 0x8000 s
  unfold State.bedsBlock
  repeat' first | with_reducible assumption | simp only [kept_is_mk] | with_reducible refine kept_mk ?_ | dsimp only | split

theorem kept_execBedSyncLoss {K : Nat} {s0 s : State} (hk : Kept K s0 s) (k : BedId) (hm : 0x18088 &&& K = 0x18088 := by decide) : KeptOut K s0 (execBedSyncLoss k s) := by
  refine hk.out hm ?_
  have hk := Kept.refl 0x18088 s
  unfold execBedSyncLoss
  repeat' first | with_reducible assumption | with_reducible refine kept_bedFall ?_ _ (by decide) | with_reducible apply KeptOut.next | dsimp only | split

theorem kept_execBedHoldEntry {K : Nat} {s0 s : State} (hk : Kept K s0 s) (k : BedId) (hm : 0x8000 &&& K = 0x8000 := by decide) : KeptOut K s0 (execBedHoldEntry k s) := by
  refine hk.out hm ?_
  have hk := Kept.refl 0x8000 s
  unfold execBedHoldEntry
  repeat' first | with_reducible assumption | with_reducible refine kept_updBed ?_ _ _ (by decide) | simp only [kept_is_mk] | with_reducible refine kept_mk ?_ | with_reducible apply KeptOut.next | dsimp only | split

theorem kept_bedResume {K : Nat} {s0 s : State} (hk : Kept K s0 s) (k : BedId) (hm : 0x8000 &&& K = 0x8000 := by decide) : Kept K s0 (State.bedResume s k) := by
  refine hk.into hm ?_
  have hk := Kept.refl 0x8000 s
  unfold State.bedResume
  repeat' first | with_reducible assumption | with_reducible refine kept_updBed ?_ _ _ (by decide) | simp only [kept_is_mk] | with_reducible refine kept_mk ?_ | dsimp only | split

theorem kept_execBedHoldResume {K : Nat} {s0 s : State} (hk : Kept K s0 s) (k : BedId) (hm : 0x8000 &&& K = 0x8000 := by decide) : KeptOut K s0 (execBedHoldResume k s) := by
  refine hk.out hm ?_
  have hk := Kept.refl 0x8000 s
  unfold execBedHoldResume
  repeat' first | with_reducible assumption | with_reducible refine kept_bedResume ?_ _ (by decide) | with_reducible apply KeptOut.next | dsimp only | split

theorem kept_execBedHoldTimeout {K : Nat} {s0 s : State} (hk : Kept K s0 s) (k : BedId) (seen : Bool) (hm : 0x18088 &&& K = 0x18088 := by decide) : KeptOut K s0 (execBedHoldTimeout k seen s) := by
  refine hk.out hm ?_
  have hk := Kept.refl 0x18088 s
  unfold execBedHoldTimeout
  repeat' first | with_reducible assumption | with_reducible refine kept_bedFall ?_ _ (by decide) | with_reducible refine kept_race ?_ _ (by decide) | with_reducible refine kept_bedResume ?_ _ (by decide) | with_reducible apply KeptOut.next | dsimp only | split

end Sys2Proof.Machine
end

