-- ==== Sys2Proof/Laws/KeptDemod.lean ====
section
/-! SUPPORT. What every operation of Demod.lean keeps. -/

namespace Sys2Proof.Machine

set_option Elab.async false

set_option linter.unusedSimpArgs false

theorem kept_restartDemod {K : Nat} {s0 s : State} (hk : Kept K s0 s) (i : Slc) (hm : 0x1008 &&& K = 0x1008 := by decide) : Kept K s0 (State.restartDemod s i) := by
  refine hk.into hm ?_
  have hk := Kept.refl 0x1008 s
  unfold State.restartDemod
  repeat' first | with_reducible assumption | with_reducible refine kept_updDemod ?_ _ _ (by decide) | with_reducible refine kept_clearRegs ?_ _ _ _ (by decide) | simp only [kept_is_mk] | with_reducible refine kept_mk ?_ | dsimp only | split

theorem kept_amDrop {K : Nat} {s0 s : State} (hk : Kept K s0 s) (i : Slc) (hm : 0x1088 &&& K = 0x1088 := by decide) : Kept K s0 (State.amDrop s i) := by
  refine hk.into hm ?_
  have hk := Kept.refl 0x1088 s
  unfold State.amDrop
  repeat' first | with_reducible assumption | with_reducible refine kept_updDemod ?_ _ _ (by decide) | with_reducible refine kept_raise ?_ _ _ (by decide) | with_reducible refine kept_put ?_ _ _ _ (by decide) | simp only [kept_is_mk] | with_reducible refine kept_mk ?_ | dsimp only | split

theorem kept_execAmCarrierLock {K : Nat} {s0 s : State} (hk : Kept K s0 s) (i : Slc) (hm : 0x1088 &&& K = 0x1088 := by decide) : KeptOut K s0 (execAmCarrierLock i s) := by
  refine hk.out hm ?_
  have hk := Kept.refl 0x1088 s
  unfold execAmCarrierLock
  repeat' first | with_reducible assumption | with_reducible refine kept_updDemod ?_ _ _ (by decide) | with_reducible refine kept_raise ?_ _ _ (by decide) | with_reducible refine kept_put ?_ _ _ _ (by decide) | simp only [kept_is_mk] | with_reducible refine kept_mk ?_ | with_reducible apply KeptOut.next | dsimp only | split

theorem kept_execAmCarrierDrop {K : Nat} {s0 s : State} (hk : Kept K s0 s) (i : Slc) (hm : 0x1088 &&& K = 0x1088 := by decide) : KeptOut K s0 (execAmCarrierDrop i s) := by
  refine hk.out hm ?_
  have hk := Kept.refl 0x1088 s
  unfold execAmCarrierDrop
  repeat' first | with_reducible assumption | with_reducible refine kept_amDrop ?_ _ (by decide) | with_reducible apply KeptOut.next | dsimp only | split

theorem kept_execPilotLock {K : Nat} {s0 s : State} (hk : Kept K s0 s) (i : Slc) (hm : 0x88 &&& K = 0x88 := by decide) : KeptOut K s0 (execPilotLock i s) := by
  refine hk.out hm ?_
  have hk := Kept.refl 0x88 s
  unfold execPilotLock
  repeat' first | with_reducible assumption | with_reducible refine kept_raise ?_ _ _ (by decide) | with_reducible refine kept_put ?_ _ _ _ (by decide) | with_reducible apply KeptOut.next | dsimp only | split

theorem kept_execPilotLost {K : Nat} {s0 s : State} (hk : Kept K s0 s) (i : Slc) (hm : 0x88 &&& K = 0x88 := by decide) : KeptOut K s0 (execPilotLost i s) := by
  refine hk.out hm ?_
  have hk := Kept.refl 0x88 s
  unfold execPilotLost
  repeat' first | with_reducible assumption | with_reducible refine kept_raise ?_ _ _ (by decide) | with_reducible refine kept_put ?_ _ _ _ (by decide) | with_reducible apply KeptOut.next | dsimp only | split

theorem kept_carrierRule {K : Nat} {s0 s : State} (hk : Kept K s0 s) (i : Slc) (cnr : Int) (hm : 0x1088 &&& K = 0x1088 := by decide) : Kept K s0 (State.carrierRule s i cnr) := by
  refine hk.into hm ?_
  have hk := Kept.refl 0x1088 s
  unfold State.carrierRule
  repeat' first | with_reducible assumption | with_reducible refine kept_updDemod ?_ _ _ (by decide) | with_reducible refine kept_raise ?_ _ _ (by decide) | simp only [kept_is_mk] | with_reducible refine kept_mk ?_ | dsimp only | split

theorem kept_slcPlay {K : Nat} {s0 s : State} (hk : Kept K s0 s) (i : Slc) (conceal : Bool) (l : List (Int × Int)) (hm : 0x1000 &&& K = 0x1000 := by decide) : Kept K s0 (State.slcPlay s i conceal l) := by
  refine hk.into hm ?_
  have hk := Kept.refl 0x1000 s
  unfold State.slcPlay
  repeat' first | with_reducible assumption | with_reducible refine kept_updDemod ?_ _ _ (by decide) | dsimp only | split

theorem kept_amAudio {K : Nat} {s0 s : State} (hk : Kept K s0 s) (i : Slc) (l : List AmSample) (hm : 0x1000 &&& K = 0x1000 := by decide) : Kept K s0 (State.amAudio s i l) := by
  refine hk.into hm ?_
  have hk := Kept.refl 0x1000 s
  unfold State.amAudio
  repeat' first | with_reducible assumption | with_reducible refine kept_slcPlay ?_ _ _ _ (by decide) | with_reducible refine kept_updDemod ?_ _ _ (by decide) | simp only [kept_is_mk] | with_reducible refine kept_mk ?_ | dsimp only | split

theorem kept_fmAudio {K : Nat} {s0 s : State} (hk : Kept K s0 s) (i : Slc) (l : List FmSample) (hm : 0x1000 &&& K = 0x1000 := by decide) : Kept K s0 (State.fmAudio s i l) := by
  refine hk.into hm ?_
  have hk := Kept.refl 0x1000 s
  unfold State.fmAudio
  repeat' first | with_reducible assumption | with_reducible refine kept_slcPlay ?_ _ _ _ (by decide) | with_reducible refine kept_updDemod ?_ _ _ (by decide) | simp only [kept_is_mk] | with_reducible refine kept_mk ?_ | dsimp only | split

theorem kept_slcConceal {K : Nat} {s0 s : State} (hk : Kept K s0 s) (i : Slc) (gone : Nat) (hm : 0x1000 &&& K = 0x1000 := by decide) : Kept K s0 (State.slcConceal s i gone) := by
  refine hk.into hm ?_
  have hk := Kept.refl 0x1000 s
  unfold State.slcConceal
  repeat' first | with_reducible assumption | with_reducible refine kept_slcPlay ?_ _ _ _ (by decide) | dsimp only | split

theorem kept_amBlock {K : Nat} {s0 s : State} (hk : Kept K s0 s) (i : Slc) (m : BlockMeas) (hm : 0x1088 &&& K = 0x1088 := by decide) : Kept K s0 (State.amBlock s i m) := by
  refine hk.into hm ?_
  have hk := Kept.refl 0x1088 s
  unfold State.amBlock
  repeat' first | with_reducible assumption | with_reducible refine kept_amAudio ?_ _ _ (by decide) | with_reducible refine kept_puts ?_ _ _ (by decide) | with_reducible refine kept_updDemod ?_ _ _ (by decide) | with_reducible refine kept_carrierRule ?_ _ _ (by decide) | with_reducible refine kept_amDrop ?_ _ (by decide) | simp only [kept_is_mk] | with_reducible refine kept_mk ?_ | dsimp only | split

theorem kept_fmBlock {K : Nat} {s0 s : State} (hk : Kept K s0 s) (i : Slc) (m : BlockMeas) (hm : 0x1088 &&& K = 0x1088 := by decide) : Kept K s0 (State.fmBlock s i m) := by
  refine hk.into hm ?_
  have hk := Kept.refl 0x1088 s
  unfold State.fmBlock
  repeat' first | with_reducible assumption | with_reducible refine kept_puts ?_ _ _ (by decide) | with_reducible refine kept_updDemod ?_ _ _ (by decide) | with_reducible refine kept_carrierRule ?_ _ _ (by decide) | with_reducible refine kept_put ?_ _ _ _ (by decide) | with_reducible refine kept_fmAudio ?_ _ _ (by decide) | simp only [kept_is_mk] | with_reducible refine kept_mk ?_ | dsimp only | split

theorem kept_rdsLost {K : Nat} {s0 s : State} (hk : Kept K s0 s) (i : Slc) (hm : 0xe01088 &&& K = 0xe01088 := by decide) : Kept K s0 (State.rdsLost s i) := by
  refine hk.into hm ?_
  have hk := Kept.refl 0xe01088 s
  unfold State.rdsLost
  repeat' first | with_reducible assumption | with_reducible refine kept_updDemod ?_ _ _ (by decide) | with_reducible refine kept_sideRecord ?_ _ _ _ _ _ (by decide) | with_reducible refine kept_raise ?_ _ _ (by decide) | with_reducible refine kept_put ?_ _ _ _ (by decide) | simp only [kept_is_mk] | with_reducible refine kept_mk ?_ | dsimp only | split

theorem kept_rdsCount {K : Nat} {s0 s : State} (hk : Kept K s0 s) (i : Slc) (good : Bool) (from_ : Nat) (hm : 0xe01088 &&& K = 0xe01088 := by decide) : Kept K s0 (State.rdsCount s i good from_) := by
  refine hk.into hm ?_
  have hk := Kept.refl 0xe01088 s
  unfold State.rdsCount
  repeat' first | with_reducible assumption | with_reducible refine kept_updDemod ?_ _ _ (by decide) | with_reducible refine kept_put ?_ _ _ _ (by decide) | with_reducible refine kept_rdsLost ?_ _ (by decide) | with_reducible refine kept_count ?_ _ _ _ (by decide) | simp only [kept_is_mk] | with_reducible refine kept_mk ?_ | dsimp only | split

theorem kept_execRdsBlock {K : Nat} {s0 s : State} (hk : Kept K s0 s) (i : Slc) (b : RdsBlk) (ago : Nat) (hm : 0xe01088 &&& K = 0xe01088 := by decide) : KeptOut K s0 (execRdsBlock i b ago s) := by
  refine hk.out hm ?_
  have hk := Kept.refl 0xe01088 s
  unfold execRdsBlock
  repeat' first | with_reducible assumption | with_reducible refine kept_rdsCount ?_ _ _ _ (by decide) | with_reducible refine kept_updDemod ?_ _ _ (by decide) | with_reducible refine kept_sideRecord ?_ _ _ _ _ _ (by decide) | with_reducible refine kept_raise ?_ _ _ (by decide) | with_reducible refine kept_put ?_ _ _ _ (by decide) | simp only [kept_is_mk] | with_reducible refine kept_mk ?_ | with_reducible apply KeptOut.next | dsimp only | split

theorem kept_rtClear {K : Nat} {s0 s : State} (hk : Kept K s0 s) (i : Slc) (hm : 0x1008 &&& K = 0x1008 := by decide) : Kept K s0 (State.rtClear s i) := by
  refine hk.into hm ?_
  have hk := Kept.refl 0x1008 s
  unfold State.rtClear
  repeat' first | with_reducible assumption | with_reducible refine kept_updDemod ?_ _ _ (by decide) | with_reducible refine kept_put ?_ _ _ _ (by decide) | with_reducible refine kept_clearRegs ?_ _ _ _ (by decide) | simp only [kept_is_mk] | with_reducible refine kept_mk ?_ | dsimp only | split

theorem kept_acceptPi {K : Nat} {s0 s : State} (hk : Kept K s0 s) (i : Slc) (pi : Nat) (hm : 0x1088 &&& K = 0x1088 := by decide) : Kept K s0 (State.acceptPi s i pi) := by
  refine hk.into hm ?_
  have hk := Kept.refl 0x1088 s
  unfold State.acceptPi
  repeat' first | with_reducible assumption | with_reducible refine kept_puts ?_ _ _ (by decide) | with_reducible refine kept_updDemod ?_ _ _ (by decide) | with_reducible refine kept_raise ?_ _ _ (by decide) | with_reducible refine kept_clearRegs ?_ _ _ _ (by decide) | simp only [kept_is_mk] | with_reducible refine kept_mk ?_ | dsimp only | split

theorem kept_receivePi {K : Nat} {s0 s : State} (hk : Kept K s0 s) (i : Slc) (b : GrpVal) (hm : 0x1088 &&& K = 0x1088 := by decide) : Kept K s0 (State.receivePi s i b) := by
  refine hk.into hm ?_
  have hk := Kept.refl 0x1088 s
  unfold State.receivePi
  repeat' first | with_reducible assumption | with_reducible refine kept_updDemod ?_ _ _ (by decide) | with_reducible refine kept_acceptPi ?_ _ _ (by decide) | simp only [kept_is_mk] | with_reducible refine kept_mk ?_ | dsimp only | split

theorem kept_receivePty {K : Nat} {s0 s : State} (hk : Kept K s0 s) (i : Slc) (b : GrpVal) (hm : 0x1008 &&& K = 0x1008 := by decide) : Kept K s0 (State.receivePty s i b) := by
  refine hk.into hm ?_
  have hk := Kept.refl 0x1008 s
  unfold State.receivePty
  repeat' first | with_reducible assumption | with_reducible refine kept_puts ?_ _ _ (by decide) | with_reducible refine kept_updDemod ?_ _ _ (by decide) | simp only [kept_is_mk] | with_reducible refine kept_mk ?_ | dsimp only | split

theorem kept_receiveTa {K : Nat} {s0 s : State} (hk : Kept K s0 s) (i : Slc) (b : GrpVal) (hm : 0x1008 &&& K = 0x1008 := by decide) : Kept K s0 (State.receiveTa s i b) := by
  refine hk.into hm ?_
  have hk := Kept.refl 0x1008 s
  unfold State.receiveTa
  repeat' first | with_reducible assumption | with_reducible refine kept_puts ?_ _ _ (by decide) | with_reducible refine kept_updDemod ?_ _ _ (by decide) | simp only [kept_is_mk] | with_reducible refine kept_mk ?_ | dsimp only | split

theorem kept_receivePs {K : Nat} {s0 s : State} (hk : Kept K s0 s) (i : Slc) (seg : Fin 4) (chars : Nat) (hm : 0x1088 &&& K = 0x1088 := by decide) : Kept K s0 (State.receivePs s i seg chars) := by
  refine hk.into hm ?_
  have hk := Kept.refl 0x1088 s
  unfold State.receivePs
  repeat' first | with_reducible assumption | with_reducible refine kept_updDemod ?_ _ _ (by decide) | with_reducible refine kept_raise ?_ _ _ (by decide) | with_reducible refine kept_put ?_ _ _ _ (by decide) | simp only [kept_is_mk] | with_reducible refine kept_mk ?_ | dsimp only | split

theorem kept_rtToggle {K : Nat} {s0 s : State} (hk : Kept K s0 s) (i : Slc) (ab : Bool) (hm : 0x1008 &&& K = 0x1008 := by decide) : Kept K s0 (State.rtToggle s i ab) := by
  refine hk.into hm ?_
  have hk := Kept.refl 0x1008 s
  unfold State.rtToggle
  repeat' first | with_reducible assumption | with_reducible refine kept_updDemod ?_ _ _ (by decide) | with_reducible refine kept_rtClear ?_ _ (by decide) | with_reducible refine kept_put ?_ _ _ _ (by decide) | simp only [kept_is_mk] | with_reducible refine kept_mk ?_ | dsimp only | split

theorem kept_receiveRt {K : Nat} {s0 s : State} (hk : Kept K s0 s) (i : Slc) (seg : Fin 16) (n : Nat) (chars : Nat) (hm : 0x1088 &&& K = 0x1088 := by decide) : Kept K s0 (State.receiveRt s i seg n chars) := by
  refine hk.into hm ?_
  have hk := Kept.refl 0x1088 s
  unfold State.receiveRt
  repeat' first | with_reducible assumption | with_reducible refine kept_updDemod ?_ _ _ (by decide) | with_reducible refine kept_raise ?_ _ _ (by decide) | with_reducible refine kept_put ?_ _ _ _ (by decide) | simp only [kept_is_mk] | with_reducible refine kept_mk ?_ | dsimp only | split

theorem kept_receiveCt {K : Nat} {s0 s : State} (hk : Kept K s0 s) (i : Slc) (b : GrpVal) (c : GrpVal) (d : GrpVal) (time : Nat) (hm : 0x88 &&& K = 0x88 := by decide) : Kept K s0 (State.receiveCt s i b c d time) := by
  refine hk.into hm ?_
  have hk := Kept.refl 0x88 s
  unfold State.receiveCt
  repeat' first | with_reducible assumption | with_reducible refine kept_puts ?_ _ _ (by decide) | with_reducible refine kept_raise ?_ _ _ (by decide) | dsimp only | split

theorem kept_receiveAf {K : Nat} {s0 s : State} (hk : Kept K s0 s) (i : Slc) (methodB : Bool) (fs : List Freq) (hm : 0x1008 &&& K = 0x1008 := by decide) : Kept K s0 (State.receiveAf s i methodB fs) := by
  refine hk.into hm ?_
  have hk := Kept.refl 0x1008 s
  unfold State.receiveAf
  repeat' first | with_reducible assumption | with_reducible refine kept_puts ?_ _ _ (by decide) | with_reducible refine kept_updDemod ?_ _ _ (by decide) | simp only [kept_is_mk] | with_reducible refine kept_mk ?_ | dsimp only | split

theorem kept_receiveAfBlock {K : Nat} {s0 s : State} (hk : Kept K s0 s) (i : Slc) (c : GrpVal) (hm : 0x1008 &&& K = 0x1008 := by decide) : Kept K s0 (State.receiveAfBlock s i c) := by
  refine hk.into hm ?_
  have hk := Kept.refl 0x1008 s
  unfold State.receiveAfBlock
  repeat' first | with_reducible assumption | with_reducible refine kept_updDemod ?_ _ _ (by decide) | with_reducible refine kept_receiveAf ?_ _ _ _ (by decide) | simp only [kept_is_mk] | with_reducible refine kept_mk ?_ | dsimp only | split

theorem kept_receiveEon {K : Nat} {s0 s : State} (hk : Kept K s0 s) (i : Slc) (pi : Nat) (add : Bool) (fs : List Freq) (hm : 0x1000 &&& K = 0x1000 := by decide) : Kept K s0 (State.receiveEon s i pi add fs) := by
  refine hk.into hm ?_
  have hk := Kept.refl 0x1000 s
  unfold State.receiveEon
  repeat' first | with_reducible assumption | with_reducible refine kept_updDemod ?_ _ _ (by decide) | simp only [kept_is_mk] | with_reducible refine kept_mk ?_ | dsimp only | split

theorem kept_receiveEonBlock {K : Nat} {s0 s : State} (hk : Kept K s0 s) (i : Slc) (variant : Nat) (c : GrpVal) (d : GrpVal) (hm : 0x1000 &&& K = 0x1000 := by decide) : Kept K s0 (State.receiveEonBlock s i variant c d) := by
  refine hk.into hm ?_
  have hk := Kept.refl 0x1000 s
  unfold State.receiveEonBlock
  repeat' first | with_reducible assumption | with_reducible refine kept_receiveEon ?_ _ _ _ _ (by decide) | with_reducible refine kept_updDemod ?_ _ _ (by decide) | simp only [kept_is_mk] | with_reducible refine kept_mk ?_ | dsimp only | split

theorem kept_groupValues {K : Nat} {s0 s : State} (hk : Kept K s0 s) (i : Slc) (t : Nat) (b : GrpVal) (c : GrpVal) (d : GrpVal) (time : Nat) (hm : 0x1088 &&& K = 0x1088 := by decide) : Kept K s0 (State.groupValues s i t b c d time) := by
  refine hk.into hm ?_
  have hk := Kept.refl 0x1088 s
  unfold State.groupValues
  repeat' first | with_reducible assumption | with_reducible refine kept_rtToggle ?_ _ _ (by decide) | with_reducible refine kept_receiveEonBlock ?_ _ _ _ _ (by decide) | with_reducible refine kept_updDemod ?_ _ _ (by decide) | with_reducible refine kept_receiveRt ?_ _ _ _ _ (by decide) | with_reducible refine kept_receiveTa ?_ _ _ (by decide) | with_reducible refine kept_receiveCt ?_ _ _ _ _ _ (by decide) | with_reducible refine kept_receivePs ?_ _ _ _ (by decide) | with_reducible refine kept_receiveAfBlock ?_ _ _ (by decide) | simp only [kept_is_mk] | with_reducible refine kept_mk ?_ | dsimp only | split

theorem kept_receiveGroup {K : Nat} {s0 s : State} (hk : Kept K s0 s) (i : Slc) (a : GrpBlk) (b : GrpBlk) (c : GrpBlk) (d : GrpBlk) (cPrime : Bool) (ago : Nat) (hm : 0xe01088 &&& K = 0xe01088 := by decide) : Kept K s0 (State.receiveGroup s i a b c d cPrime ago) := by
  refine hk.into hm ?_
  have hk := Kept.refl 0xe01088 s
  unfold State.receiveGroup
  repeat' first | with_reducible assumption | with_reducible refine kept_updDemod ?_ _ _ (by decide) | with_reducible refine kept_receivePi ?_ _ _ (by decide) | with_reducible refine kept_sideRecord ?_ _ _ _ _ _ (by decide) | with_reducible refine kept_receivePty ?_ _ _ (by decide) | with_reducible refine kept_groupValues ?_ _ _ _ _ _ _ (by decide) | with_reducible refine kept_count ?_ _ _ _ (by decide) | simp only [kept_is_mk] | with_reducible refine kept_mk ?_ | dsimp only | split

theorem kept_execRdsGroup {K : Nat} {s0 s : State} (hk : Kept K s0 s) (i : Slc) (a : BitVec 16) (b : BitVec 16) (c : BitVec 16) (d : BitVec 16) (cPrime : Bool) (offE : Vector Bool 4) (need : Vector Nat 4) (info : Vector (BitVec 16) 4) (ago : Nat) (hm : 0xe01088 &&& K = 0xe01088 := by decide) : KeptOut K s0 (execRdsGroup i a b c d cPrime offE need info ago s) := by
  refine hk.out hm ?_
  have hk := Kept.refl 0xe01088 s
  unfold execRdsGroup
  repeat' first | with_reducible assumption | with_reducible refine kept_receiveGroup ?_ _ _ _ _ _ _ _ (by decide) | with_reducible apply KeptOut.next | dsimp only | split

theorem kept_amssLost {K : Nat} {s0 s : State} (hk : Kept K s0 s) (i : Slc) (hm : 0xe01088 &&& K = 0xe01088 := by decide) : Kept K s0 (State.amssLost s i) := by
  refine hk.into hm ?_
  have hk := Kept.refl 0xe01088 s
  unfold State.amssLost
  repeat' first | with_reducible assumption | with_reducible refine kept_updDemod ?_ _ _ (by decide) | with_reducible refine kept_sideRecord ?_ _ _ _ _ _ (by decide) | with_reducible refine kept_raise ?_ _ _ (by decide) | with_reducible refine kept_put ?_ _ _ _ (by decide) | simp only [kept_is_mk] | with_reducible refine kept_mk ?_ | dsimp only | split

theorem kept_amssCount {K : Nat} {s0 s : State} (hk : Kept K s0 s) (i : Slc) (ok : Bool) (spaced : Bool) (from_ : Nat) (hm : 0x1008 &&& K = 0x1008 := by decide) : Kept K s0 (State.amssCount s i ok spaced from_) := by
  refine hk.into hm ?_
  have hk := Kept.refl 0x1008 s
  unfold State.amssCount
  repeat' first | with_reducible assumption | with_reducible refine kept_updDemod ?_ _ _ (by decide) | with_reducible refine kept_count ?_ _ _ _ (by decide) | simp only [kept_is_mk] | with_reducible refine kept_mk ?_ | dsimp only | split

theorem kept_amssJudge {K : Nat} {s0 s : State} (hk : Kept K s0 s) (i : Slc) (hm : 0xe01088 &&& K = 0xe01088 := by decide) : Kept K s0 (State.amssJudge s i) := by
  refine hk.into hm ?_
  have hk := Kept.refl 0xe01088 s
  unfold State.amssJudge
  repeat' first | with_reducible assumption | with_reducible refine kept_amssLost ?_ _ (by decide) | dsimp only | split

theorem kept_receiveSid {K : Nat} {s0 s : State} (hk : Kept K s0 s) (i : Slc) (sid : Nat) (hm : 0x1008 &&& K = 0x1008 := by decide) : Kept K s0 (State.receiveSid s i sid) := by
  refine hk.into hm ?_
  have hk := Kept.refl 0x1008 s
  unfold State.receiveSid
  repeat' first | with_reducible assumption | with_reducible refine kept_puts ?_ _ _ (by decide) | with_reducible refine kept_updDemod ?_ _ _ (by decide) | simp only [kept_is_mk] | with_reducible refine kept_mk ?_ | dsimp only | split

set_option maxRecDepth 8000 in
theorem kept_execAmssBlock {K : Nat} {s0 s : State} (hk : Kept K s0 s) (i : Slc) (block : Nat) (ok : Bool) (spaced : Bool) (ago : Nat) (data : Nat) (sid : Option Nat) (afs : List Freq) (hm : 0xe01088 &&& K = 0xe01088 := by decide) : KeptOut K s0 (execAmssBlock i block ok spaced ago data sid afs s) := by
  refine hk.out hm ?_
  have hk := Kept.refl 0xe01088 s
  unfold execAmssBlock
  repeat' first | with_reducible assumption | with_reducible refine kept_receiveSid ?_ _ _ (by decide) | with_reducible refine kept_updDemod ?_ _ _ (by decide) | with_reducible refine kept_sideRecord ?_ _ _ _ _ _ (by decide) | with_reducible refine kept_raise ?_ _ _ (by decide) | with_reducible refine kept_put ?_ _ _ _ (by decide) | with_reducible refine kept_amssJudge ?_ _ (by decide) | with_reducible refine kept_amssCount ?_ _ _ _ _ (by decide) | simp only [kept_is_mk] | with_reducible refine kept_mk ?_ | with_reducible apply KeptOut.next | dsimp only | split

theorem kept_gapRds {K : Nat} {s0 s : State} (hk : Kept K s0 s) (i : Slc) (hm : 0xe01088 &&& K = 0xe01088 := by decide) : Kept K s0 (State.gapRds s i) := by
  refine hk.into hm ?_
  have hk := Kept.refl 0xe01088 s
  unfold State.gapRds
  repeat' first | with_reducible assumption | with_reducible refine kept_rdsCount ?_ _ _ _ (by decide) | with_reducible refine Kept.foldl (fun _ _ h => ?_) _ ?_ | dsimp only | split

theorem kept_gapAmss {K : Nat} {s0 s : State} (hk : Kept K s0 s) (i : Slc) (hm : 0xe01088 &&& K = 0xe01088 := by decide) : Kept K s0 (State.gapAmss s i) := by
  refine hk.into hm ?_
  have hk := Kept.refl 0xe01088 s
  unfold State.gapAmss
  repeat' first | with_reducible assumption | with_reducible refine kept_amssJudge ?_ _ (by decide) | with_reducible refine kept_amssCount ?_ _ _ _ _ (by decide) | with_reducible refine Kept.foldl (fun _ _ h => ?_) _ ?_ | dsimp only | split

theorem kept_gapBlock {K : Nat} {s0 s : State} (hk : Kept K s0 s) (i : Slc) (hm : 0xe01888 &&& K = 0xe01888 := by decide) : Kept K s0 (State.gapBlock s i) := by
  refine hk.into hm ?_
  have hk := Kept.refl 0xe01888 s
  unfold State.gapBlock
  repeat' first | with_reducible assumption | with_reducible refine kept_gapAmss ?_ _ (by decide) | with_reducible refine kept_updSlc ?_ _ _ (by decide) | with_reducible refine kept_slcConceal ?_ _ _ (by decide) | with_reducible refine kept_gapRds ?_ _ (by decide) | simp only [kept_is_mk] | with_reducible refine kept_mk ?_ | dsimp only | split

theorem kept_gapEnd {K : Nat} {s0 s : State} (hk : Kept K s0 s) (i : Slc) (hm : 0x1808 &&& K = 0x1808 := by decide) : Kept K s0 (State.gapEnd s i) := by
  refine hk.into hm ?_
  have hk := Kept.refl 0x1808 s
  unfold State.gapEnd
  repeat' first | with_reducible assumption | with_reducible refine kept_restartDemod ?_ _ (by decide) | with_reducible refine kept_updSlc ?_ _ _ (by decide) | simp only [kept_is_mk] | with_reducible refine kept_mk ?_ | dsimp only | split

theorem kept_execDemodGapRestart {K : Nat} {s0 s : State} (hk : Kept K s0 s) (i : Slc) (hm : 0x1808 &&& K = 0x1808 := by decide) : KeptOut K s0 (execDemodGapRestart i s) := by
  refine hk.out hm ?_
  have hk := Kept.refl 0x1808 s
  unfold execDemodGapRestart
  repeat' first | with_reducible assumption | with_reducible refine kept_gapEnd ?_ _ (by decide) | with_reducible apply KeptOut.next | dsimp only | split

end Sys2Proof.Machine
end

