-- ==== Sys2Proof/Laws/KeptServe.lean ====
section
/-! SUPPORT. What every operation of Serve.lean keeps. -/

namespace Sys2Proof.Machine

set_option Elab.async false

set_option linter.unusedSimpArgs false

theorem kept_setSessions {K : Nat} {s0 s : State} (hk : Kept K s0 s) (cloche : Bool) (v : Vector (Option Session) 8) (hm : 0x20000000 &&& K = 0x20000000 := by decide) : Kept K s0 (State.setSessions s cloche v) := by
  refine hk.into hm ?_
  have hk := Kept.refl 0x20000000 s
  unfold State.setSessions
  repeat' first | with_reducible assumption | simp only [kept_is_mk] | with_reducible refine kept_mk ?_ | dsimp only | split

theorem kept_setSession {K : Nat} {s0 s : State} (hk : Kept K s0 s) (cloche : Bool) (k : KeySlot) (x : Option Session) (hm : 0x20000000 &&& K = 0x20000000 := by decide) : Kept K s0 (State.setSession s cloche k x) := by
  refine hk.into hm ?_
  have hk := Kept.refl 0x20000000 s
  unfold State.setSession
  repeat' first | with_reducible assumption | with_reducible refine kept_setSessions ?_ _ _ (by decide) | dsimp only | split

theorem kept_endSession {K : Nat} {s0 s : State} (hk : Kept K s0 s) (cloche : Bool) (k : KeySlot) (hm : 0x20000088 &&& K = 0x20000088 := by decide) : Kept K s0 (State.endSession s cloche k) := by
  refine hk.into hm ?_
  have hk := Kept.refl 0x20000088 s
  unfold State.endSession
  repeat' first | with_reducible assumption | with_reducible refine kept_setSession ?_ _ _ _ (by decide) | with_reducible refine kept_raise ?_ _ _ (by decide) | dsimp only | split

theorem kept_endSessions {K : Nat} {s0 s : State} (hk : Kept K s0 s) (cloche : Bool) (ks : List KeySlot) (hm : 0x20000088 &&& K = 0x20000088 := by decide) : Kept K s0 (State.endSessions s cloche ks) := by
  refine hk.into hm ?_
  have hk := Kept.refl 0x20000088 s
  unfold State.endSessions
  repeat' first | with_reducible assumption | with_reducible refine kept_endSession ?_ _ _ (by decide) | with_reducible refine Kept.foldl (fun _ _ h => ?_) _ ?_ | dsimp only | split

theorem kept_tagFailure {K : Nat} {s0 s : State} (hk : Kept K s0 s) (cloche : Bool) (k : KeySlot) (x : Session) (src : Nat) (hm : 0xe0000088 &&& K = 0xe0000088 := by decide) : Kept K s0 (State.tagFailure s cloche k x src) := by
  refine hk.into hm ?_
  have hk := Kept.refl 0xe0000088 s
  unfold State.tagFailure
  repeat' first | with_reducible assumption | with_reducible refine kept_setSession ?_ _ _ _ (by decide) | with_reducible refine kept_logFinding ?_ _ _ _ _ _ (by decide) | with_reducible refine kept_raise ?_ _ _ (by decide) | with_reducible refine kept_count ?_ _ _ _ (by decide) | with_reducible refine kept_endSession ?_ _ _ (by decide) | simp only [kept_is_mk] | with_reducible refine kept_mk ?_ | dsimp only | split

theorem kept_checkAuth {K : Nat} {s0 s : State} (hk : Kept K s0 s) (q : CQueue) (w : Waiting) (a : Auth) (hm : 0xe0000088 &&& K = 0xe0000088 := by decide) : Kept K s0 (State.checkAuth s q w a).1 := by
  refine hk.into hm ?_
  have hk := Kept.refl 0xe0000088 s
  unfold State.checkAuth
  repeat' first | with_reducible assumption | with_reducible refine kept_setSession ?_ _ _ _ (by decide) | with_reducible refine kept_evaluate ?_ _ _ _ (by decide) | with_reducible refine kept_tagFailure ?_ _ _ _ _ (by decide) | with_reducible refine kept_count ?_ _ _ _ (by decide) | with_reducible refine kept_endSession ?_ _ _ (by decide) | simp only [kept_is_mk] | with_reducible refine kept_mk ?_ | (with_reducible refine Kept.of_fst (by assumption) ?_) | (with_reducible refine Kept.of_snd (by assumption) ?_) | dsimp only | split

theorem kept_check {K : Nat} {s0 s : State} (hk : Kept K s0 s) (q : CQueue) (w : Waiting) (hm : 0xe0000088 &&& K = 0xe0000088 := by decide) : Kept K s0 (State.check s q w).1 := by
  refine hk.into hm ?_
  have hk := Kept.refl 0xe0000088 s
  unfold State.check
  repeat' first | with_reducible assumption | with_reducible refine kept_checkAuth ?_ _ _ _ (by decide) | (with_reducible refine Kept.of_fst (by assumption) ?_) | (with_reducible refine Kept.of_snd (by assumption) ?_) | dsimp only | split

theorem kept_mboxPut {K : Nat} {s0 s : State} (hk : Kept K s0 s) (ws : List Word) (hm : 0x400000088 &&& K = 0x400000088 := by decide) : Kept K s0 (State.mboxPut s ws) := by
  refine hk.into hm ?_
  have hk := Kept.refl 0x400000088 s
  unfold State.mboxPut
  repeat' first | with_reducible assumption | with_reducible refine kept_raise ?_ _ _ (by decide) | with_reducible refine kept_put ?_ _ _ _ (by decide) | simp only [kept_is_mk] | with_reducible refine kept_mk ?_ | dsimp only | split

theorem kept_takeRseq {K : Nat} {s0 s : State} (hk : Kept K s0 s) (hm : 0x2 &&& K = 0x2 := by decide) : Kept K s0 (State.takeRseq s).2 := by
  refine hk.into hm ?_
  have hk := Kept.refl 0x2 s
  unfold State.takeRseq
  repeat' first | with_reducible assumption | simp only [kept_is_mk] | with_reducible refine kept_mk ?_ | dsimp only | split

theorem kept_post {K : Nat} {s0 s : State} (hk : Kept K s0 s) (q : CQueue) (w : Waiting) (ses : Option KeySlot) (r : Reply) (hm : 0x42000008a &&& K = 0x42000008a := by decide) : Kept K s0 (State.post s q w ses r) := by
  refine hk.into hm ?_
  have hk := Kept.refl 0x42000008a s
  unfold State.post
  repeat' first | with_reducible assumption | with_reducible refine kept_mboxPut ?_ _ (by decide) | with_reducible refine kept_setSession ?_ _ _ _ (by decide) | with_reducible refine kept_takeRseq ?_ (by decide) | simp only [kept_is_mk] | with_reducible refine kept_mk ?_ | (with_reducible refine Kept.of_fst (by assumption) ?_) | (with_reducible refine Kept.of_snd (by assumption) ?_) | dsimp only | split

theorem kept_popCmd {K : Nat} {s0 s : State} (hk : Kept K s0 s) (q : CQueue) (hm : 0x20000000080 &&& K = 0x20000000080 := by decide) : Kept K s0 (State.popCmd s q) := by
  refine hk.into hm ?_
  have hk := Kept.refl 0x20000000080 s
  unfold State.popCmd
  repeat' first | with_reducible assumption | simp only [kept_is_mk] | with_reducible refine kept_mk ?_ | dsimp only | split

theorem kept_windowSeq {K : Nat} {s0 s : State} (hk : Kept K s0 s) (hm : 0xa &&& K = 0xa := by decide) : Kept K s0 (State.windowSeq s) := by
  refine hk.into hm ?_
  have hk := Kept.refl 0xa s
  unfold State.windowSeq
  repeat' first | with_reducible assumption | with_reducible refine kept_put ?_ _ _ _ (by decide) | with_reducible refine kept_takeRseq ?_ (by decide) | (with_reducible refine Kept.of_fst (by assumption) ?_) | (with_reducible refine Kept.of_snd (by assumption) ?_) | dsimp only | split

theorem kept_windowDone {K : Nat} {s0 s : State} (hk : Kept K s0 s) (addr : Nat) (st : Status) (hm : 0xa &&& K = 0xa := by decide) : Kept K s0 (State.windowDone s addr st) := by
  refine hk.into hm ?_
  have hk := Kept.refl 0xa s
  unfold State.windowDone
  repeat' first | with_reducible assumption | with_reducible refine kept_put ?_ _ _ _ (by decide) | with_reducible refine kept_windowSeq ?_ (by decide) | dsimp only | split

theorem kept_answer {K : Nat} {s0 s : State} (hk : Kept K s0 s) (c : Caller) (addr : Nat) (r : Reply) (hm : 0x42000008a &&& K = 0x42000008a := by decide) : Kept K s0 (State.answer s c addr r) := by
  refine hk.into hm ?_
  have hk := Kept.refl 0x42000008a s
  unfold State.answer
  repeat' first | with_reducible assumption | with_reducible refine kept_post ?_ _ _ _ _ (by decide) | with_reducible refine kept_windowDone ?_ _ _ (by decide) | dsimp only | split

theorem kept_reply {K : Nat} {s0 : State} (c : Caller) (addr : Nat) (x : State × Option Reply) (hx : Kept K s0 x.1) (hm : 0x42000008a &&& K = 0x42000008a := by decide) : Kept K s0 (State.reply c addr x) := by
  unfold State.reply
  repeat' first | with_reducible assumption | with_reducible refine kept_answer ?_ _ _ _ (mask_trans (by decide) hm) | dsimp only | split

theorem kept_serveFront {K : Nat} {s0 s : State} (hk : Kept K s0 s) (q : CQueue) (w : Waiting) (act : Caller → State → State × Option Reply) (hf : ∀ y0 y1, Kept K s0 y1 → Kept K s0 (act y0 y1).1) (hm : 0x204e000008a &&& K = 0x204e000008a := by decide) : Kept K s0 (State.serveFront s q w act) := by
  unfold State.serveFront
  repeat' first | with_reducible assumption | with_reducible refine kept_post ?_ _ _ _ _ (mask_trans (by decide) hm) | with_reducible refine kept_answer ?_ _ _ _ (mask_trans (by decide) hm) | with_reducible refine kept_reply _ _ _ ?_ (mask_trans (by decide) hm) | with_reducible refine kept_check ?_ _ _ (mask_trans (by decide) hm) | with_reducible refine kept_popCmd ?_ _ (mask_trans (by decide) hm) | (with_reducible refine Kept.of_fst (by assumption) ?_) | (with_reducible refine Kept.of_snd (by assumption) ?_) | with_reducible apply hf | dsimp only | split

theorem kept_flushForeign {K : Nat} {s0 s : State} (h : Kept K s0 s) (q : CQueue) (n : Nat) (hm : 0x204e000008a &&& K = 0x204e000008a := by decide) : Kept K s0 (State.flushForeign s q n) := by
  induction n generalizing s with
  | zero => exact h
  | succ n ih =>
    unfold State.flushForeign
    split
    · exact h
    · split
      · exact h
      · exact ih (kept_serveFront h q _ _ (fun _ _ h => h) hm)

theorem kept_serve {K : Nat} {s0 s : State} (hk : Kept K s0 s) (q : CQueue) (ops : List Nat) (act : Caller → State → State × Option Reply) (hf : ∀ y0 y1, Kept K s0 y1 → Kept K s0 (act y0 y1).1) (hm : 0x204e000008a &&& K = 0x204e000008a := by decide) : Kept K s0 (State.serve s q ops act) := by
  unfold State.serve
  repeat' first | with_reducible assumption | with_reducible refine kept_serveFront ?_ _ _ _ ?_ (mask_trans (by decide) hm) | with_reducible refine kept_flushForeign ?_ _ _ (mask_trans (by decide) hm) | with_reducible apply hf | intro _ | dsimp only | split

theorem kept_viaOps {K : Nat} {s0 s : State} (hk : Kept K s0 s) (ops : List Nat) (src : Src) (addr : Nat) (act : Caller → State → State × Option Reply) (hf : ∀ y0 y1, Kept K s0 y1 → Kept K s0 (act y0 y1).1) (hm : 0x204e000008a &&& K = 0x204e000008a := by decide) : Kept K s0 (State.viaOps s ops src addr act) := by
  unfold State.viaOps
  repeat' first | with_reducible assumption | with_reducible refine kept_reply _ _ _ ?_ (mask_trans (by decide) hm) | with_reducible refine kept_serve ?_ _ _ _ ?_ (mask_trans (by decide) hm) | with_reducible apply hf | intro _ | dsimp only | split

theorem kept_viaWrite {K : Nat} {s0 s : State} (hk : Kept K s0 s) (src : Src) (addr : Nat) (act : Caller → State → State × Option Reply) (hf : ∀ y0 y1, Kept K s0 y1 → Kept K s0 (act y0 y1).1) (hm : 0x204e000008a &&& K = 0x204e000008a := by decide) : Kept K s0 (State.viaWrite s src addr act) := by
  unfold State.viaWrite
  repeat' first | with_reducible assumption | with_reducible refine kept_viaOps ?_ _ _ _ _ ?_ (mask_trans (by decide) hm) | with_reducible apply hf | intro _ | dsimp only | split

end Sys2Proof.Machine
end

