-- ==== Sys2Proof/Laws/KeptCalibration.lean ====
section
/-! SUPPORT. What every operation of Calibration.lean keeps. -/

namespace Sys2Proof.Machine

set_option Elab.async false

set_option linter.unusedSimpArgs false

theorem kept_startRebuild {K : Nat} {s0 s : State} (hk : Kept K s0 s) (i : Inp) (hm : 0x400 &&& K = 0x400 := by decide) : Kept K s0 (State.startRebuild s i) := by
  refine hk.into hm ?_
  have hk := Kept.refl 0x400 s
  unfold State.startRebuild
  repeat' first | with_reducible assumption | with_reducible refine kept_updInp ?_ _ _ (by decide) | simp only [kept_is_mk] | with_reducible refine kept_mk ?_ | dsimp only | split

theorem kept_setBank {K : Nat} {s0 s : State} (hk : Kept K s0 s) (bank : Nat) (ws : List (Nat × Word)) (hm : 0x8 &&& K = 0x8 := by decide) : Kept K s0 (State.setBank s bank ws) := by
  refine hk.into hm ?_
  have hk := Kept.refl 0x8 s
  unfold State.setBank
  repeat' first | with_reducible assumption | with_reducible refine kept_setReg ?_ _ _ (by decide) | with_reducible refine Kept.foldl (fun _ _ h => ?_) _ ?_ | with_reducible refine Kept.foldl_fst (fun _ _ h => ?_) _ ?_ | dsimp only | split

theorem kept_copyBank {K : Nat} {s0 s : State} (hk : Kept K s0 s) (src : Nat) (dst : Nat) (idx : List Nat) (hm : 0x8 &&& K = 0x8 := by decide) : Kept K s0 (State.copyBank s src dst idx) := by
  refine hk.into hm ?_
  have hk := Kept.refl 0x8 s
  unfold State.copyBank
  repeat' first | with_reducible assumption | with_reducible refine kept_setBank ?_ _ _ (by decide) | dsimp only | split

theorem kept_sealBank {K : Nat} {s0 s : State} (hk : Kept K s0 s) (bank : Nat) (hm : 0x8 &&& K = 0x8 := by decide) : Kept K s0 (State.sealBank s bank) := by
  refine hk.into hm ?_
  have hk := Kept.refl 0x8 s
  unfold State.sealBank
  repeat' first | with_reducible assumption | with_reducible refine kept_setReg ?_ _ _ (by decide) | dsimp only | split

theorem kept_headBank {K : Nat} {s0 s : State} (hk : Kept K s0 s) (bank : Nat) (dev : Nat) (freq : Nat) (flags : Nat) (temp : Word) (hm : 0x8 &&& K = 0x8 := by decide) : Kept K s0 (State.headBank s bank dev freq flags temp) := by
  refine hk.into hm ?_
  have hk := Kept.refl 0x8 s
  unfold State.headBank
  repeat' first | with_reducible assumption | with_reducible refine kept_setBank ?_ _ _ (by decide) | dsimp only | split

theorem kept_flagPoints {K : Nat} {s0 s : State} (hk : Kept K s0 s) (bits : Nat) (p : Point → Bool) (hm : 0x800000000 &&& K = 0x800000000 := by decide) : Kept K s0 (State.flagPoints s bits p) := by
  refine hk.into hm ?_
  have hk := Kept.refl 0x800000000 s
  unfold State.flagPoints
  repeat' first | with_reducible assumption | simp only [kept_is_mk] | with_reducible refine kept_mk ?_ | dsimp only | split

theorem kept_alterChain {K : Nat} {s0 s : State} (hk : Kept K s0 s) (mask : Nat) (hm : 0x800000008 &&& K = 0x800000008 := by decide) : Kept K s0 (State.alterChain s mask) := by
  refine hk.into hm ?_
  have hk := Kept.refl 0x800000008 s
  unfold State.alterChain
  repeat' first | with_reducible assumption | with_reducible refine kept_put ?_ _ _ _ (by decide) | with_reducible refine kept_flagPoints ?_ _ _ (by decide) | dsimp only | split

theorem kept_clearChain {K : Nat} {s0 s : State} (hk : Kept K s0 s) (mask : Nat) (hm : 0x8 &&& K = 0x8 := by decide) : Kept K s0 (State.clearChain s mask) := by
  refine hk.into hm ?_
  have hk := Kept.refl 0x8 s
  unfold State.clearChain
  repeat' first | with_reducible assumption | with_reducible refine kept_put ?_ _ _ _ (by decide) | dsimp only | split

theorem kept_takeSection {K : Nat} {s0 s : State} (hk : Kept K s0 s) (bank : Nat) (src : Nat) (n : Inp) (hm : 0x2800000408 &&& K = 0x2800000408 := by decide) : Kept K s0 (State.takeSection s bank src n) := by
  refine hk.into hm ?_
  have hk := Kept.refl 0x2800000408 s
  unfold State.takeSection
  repeat' first | with_reducible assumption | with_reducible refine kept_copyBank ?_ _ _ _ (by decide) | with_reducible refine kept_alterChain ?_ _ (by decide) | with_reducible refine kept_put ?_ _ _ _ (by decide) | with_reducible refine kept_startRebuild ?_ _ (by decide) | simp only [kept_is_mk] | with_reducible refine kept_mk ?_ | dsimp only | split

theorem kept_takeProbe {K : Nat} {s0 s : State} (hk : Kept K s0 s) (bank : Nat) (src : Nat) (hm : 0x800000008 &&& K = 0x800000008 := by decide) : Kept K s0 (State.takeProbe s bank src) := by
  refine hk.into hm ?_
  have hk := Kept.refl 0x800000008 s
  unfold State.takeProbe
  repeat' first | with_reducible assumption | with_reducible refine kept_copyBank ?_ _ _ _ (by decide) | with_reducible refine kept_alterChain ?_ _ (by decide) | with_reducible refine kept_put ?_ _ _ _ (by decide) | dsimp only | split

theorem kept_sealForce {K : Nat} {s0 s : State} (hk : Kept K s0 s) (freq : Nat) (temp : Word) (hm : 0x8 &&& K = 0x8 := by decide) : Kept K s0 (State.sealForce s freq temp) := by
  refine hk.into hm ?_
  have hk := Kept.refl 0x8 s
  unfold State.sealForce
  repeat' first | with_reducible assumption | with_reducible refine kept_sealBank ?_ _ (by decide) | with_reducible refine kept_headBank ?_ _ _ _ _ _ (by decide) | with_reducible refine kept_putPair ?_ _ _ _ _ (by decide) | with_reducible refine Kept.foldl (fun _ _ h => ?_) _ ?_ | dsimp only | split

theorem kept_factoryTrims {K : Nat} {s0 s : State} (hk : Kept K s0 s) (hm : 0x2800000408 &&& K = 0x2800000408 := by decide) : Kept K s0 (State.factoryTrims s) := by
  refine hk.into hm ?_
  have hk := Kept.refl 0x2800000408 s
  unfold State.factoryTrims
  repeat' first | with_reducible assumption | with_reducible refine kept_alterChain ?_ _ (by decide) | with_reducible refine kept_put ?_ _ _ _ (by decide) | simp only [kept_is_mk] | with_reducible refine kept_mk ?_ | with_reducible refine kept_mk_filter ?_ (by decide) | dsimp only | split

theorem kept_onRefin {K : Nat} {s0 s : State} (hk : Kept K s0 s) (i : Inp) (on : Bool) (hm : 0x400 &&& K = 0x400 := by decide) : Kept K s0 (State.onRefin s i on) := by
  refine hk.into hm ?_
  have hk := Kept.refl 0x400 s
  unfold State.onRefin
  repeat' first | with_reducible assumption | with_reducible refine kept_updInp ?_ _ _ (by decide) | simp only [kept_is_mk] | with_reducible refine kept_mk ?_ | dsimp only | split

theorem kept_setGain {K : Nat} {s0 s : State} (hk : Kept K s0 s) (i : Inp) (code : Nat) (hm : 0x400 &&& K = 0x400 := by decide) : Kept K s0 (State.setGain s i code) := by
  refine hk.into hm ?_
  have hk := Kept.refl 0x400 s
  unfold State.setGain
  repeat' first | with_reducible assumption | with_reducible refine kept_updInp ?_ _ _ (by decide) | simp only [kept_is_mk] | with_reducible refine kept_mk ?_ | dsimp only | split

theorem kept_driveGains {K : Nat} {s0 s : State} (hk : Kept K s0 s) (ins : List Inp) (hm : 0x404 &&& K = 0x404 := by decide) : Kept K s0 (State.driveGains s ins) := by
  refine hk.into hm ?_
  have hk := Kept.refl 0x404 s
  unfold State.driveGains
  repeat' first | with_reducible assumption | with_reducible refine kept_draw ?_ (by decide) | with_reducible refine kept_setGain ?_ _ _ (by decide) | with_reducible refine Kept.foldl (fun _ _ h => ?_) _ ?_ | with_reducible refine Kept.foldl_fst (fun _ _ h => ?_) _ ?_ | (with_reducible refine Kept.of_fst (by assumption) ?_) | (with_reducible refine Kept.of_snd (by assumption) ?_) | dsimp only | split

theorem kept_calStart {K : Nat} {s0 s : State} (hk : Kept K s0 s) (hm : 0x200000040c &&& K = 0x200000040c := by decide) : Kept K s0 (State.calStart s) := by
  refine hk.into hm ?_
  have hk := Kept.refl 0x200000040c s
  unfold State.calStart
  repeat' first | with_reducible assumption | with_reducible refine kept_put ?_ _ _ _ (by decide) | with_reducible refine kept_driveGains ?_ _ (by decide) | with_reducible refine kept_onRefin ?_ _ _ (by decide) | simp only [kept_is_mk] | with_reducible refine kept_mk ?_ | with_reducible refine Kept.foldl (fun _ _ h => ?_) _ ?_ | dsimp only | split

theorem kept_calInputAbort {K : Nat} {s0 s : State} (hk : Kept K s0 s) (i : Inp) (hm : 0x2000000408 &&& K = 0x2000000408 := by decide) : Kept K s0 (State.calInputAbort s i) := by
  refine hk.into hm ?_
  have hk := Kept.refl 0x2000000408 s
  unfold State.calInputAbort
  repeat' first | with_reducible assumption | with_reducible refine kept_setGain ?_ _ _ (by decide) | with_reducible refine kept_put ?_ _ _ _ (by decide) | with_reducible refine kept_onRefin ?_ _ _ (by decide) | simp only [kept_is_mk] | with_reducible refine kept_mk ?_ | dsimp only | split

theorem kept_checkLeave {K : Nat} {s0 s : State} (hk : Kept K s0 s) (i : Inp) (hm : 0x400 &&& K = 0x400 := by decide) : Kept K s0 (State.checkLeave s i) := by
  refine hk.into hm ?_
  have hk := Kept.refl 0x400 s
  unfold State.checkLeave
  repeat' first | with_reducible assumption | with_reducible refine kept_setGain ?_ _ _ (by decide) | with_reducible refine kept_onRefin ?_ _ _ (by decide) | dsimp only | split

theorem kept_calAbortAll {K : Nat} {s0 s : State} (hk : Kept K s0 s) (hm : 0x2000000488 &&& K = 0x2000000488 := by decide) : Kept K s0 (State.calAbortAll s) := by
  refine hk.into hm ?_
  have hk := Kept.refl 0x2000000488 s
  unfold State.calAbortAll
  repeat' first | with_reducible assumption | with_reducible refine kept_calInputAbort ?_ _ (by decide) | with_reducible refine kept_raise ?_ _ _ (by decide) | simp only [kept_is_mk] | with_reducible refine kept_mk ?_ | with_reducible refine Kept.foldl (fun _ _ h => ?_) _ ?_ | dsimp only | split

theorem kept_calLoadNow {K : Nat} {s0 s : State} (hk : Kept K s0 s) (hm : 0x2800000488 &&& K = 0x2800000488 := by decide) : Kept K s0 (State.calLoadNow s) := by
  refine hk.into hm ?_
  have hk := Kept.refl 0x2800000488 s
  unfold State.calLoadNow
  repeat' first | with_reducible assumption | with_reducible refine kept_takeProbe ?_ _ _ (by decide) | with_reducible refine kept_takeSection ?_ _ _ _ (by decide) | with_reducible refine kept_sealForce ?_ _ _ (by decide) | with_reducible refine kept_raise ?_ _ _ (by decide) | with_reducible refine Kept.foldl (fun _ _ h => ?_) _ ?_ | dsimp only | split

theorem kept_calApply {K : Nat} {s0 s : State} (hk : Kept K s0 s) (ws : List (Nat × Word)) (hm : 0x280000048c &&& K = 0x280000048c := by decide) : Kept K s0 (State.calApply s ws) := by
  refine hk.into hm ?_
  have hk := Kept.refl 0x280000048c s
  unfold State.calApply
  repeat' first | with_reducible assumption | with_reducible refine kept_applyWords ?_ _ (by decide) | with_reducible refine kept_calLoadNow ?_ (by decide) | with_reducible refine kept_calStart ?_ (by decide) | with_reducible refine kept_bumpSeq ?_ _ (by decide) | with_reducible refine kept_put ?_ _ _ _ (by decide) | with_reducible refine kept_calAbortAll ?_ (by decide) | simp only [kept_is_mk] | with_reducible refine kept_mk ?_ | dsimp only | split

theorem kept_calReturn {K : Nat} {s0 s : State} (hk : Kept K s0 s) (r : CalRun) (hm : 0x2000000400 &&& K = 0x2000000400 := by decide) : Kept K s0 (State.calReturn s r) := by
  refine hk.into hm ?_
  have hk := Kept.refl 0x2000000400 s
  unfold State.calReturn
  repeat' first | with_reducible assumption | with_reducible refine kept_onRefin ?_ _ _ (by decide) | simp only [kept_is_mk] | with_reducible refine kept_mk ?_ | with_reducible refine Kept.foldl (fun _ _ h => ?_) _ ?_ | dsimp only | split

theorem kept_execCalStepComplete {K : Nat} {s0 s : State} (hk : Kept K s0 s) (probe : Bool) (hm : 0x2000000404 &&& K = 0x2000000404 := by decide) : KeptOut K s0 (execCalStepComplete probe s) := by
  refine hk.out hm ?_
  have hk := Kept.refl 0x2000000404 s
  unfold execCalStepComplete
  repeat' first | with_reducible assumption | with_reducible refine kept_setGain ?_ _ _ (by decide) | with_reducible refine kept_driveGains ?_ _ (by decide) | with_reducible refine kept_calReturn ?_ _ (by decide) | simp only [kept_is_mk] | with_reducible refine kept_mk ?_ | with_reducible refine Kept.foldl (fun _ _ h => ?_) _ ?_ | with_reducible apply KeptOut.next | dsimp only | split

theorem kept_storeResults {K : Nat} {s0 s : State} (hk : Kept K s0 s) (r : CalRun) (inputs : Vector SectionResult 4) (probe : ProbeResult) (words : List (Nat × Word)) (hm : 0x8 &&& K = 0x8 := by decide) : Kept K s0 (State.storeResults s r inputs probe words) := by
  refine hk.into hm ?_
  have hk := Kept.refl 0x8 s
  unfold State.storeResults
  repeat' first | with_reducible assumption | with_reducible refine kept_setBank ?_ _ _ (by decide) | with_reducible refine Kept.foldl (fun _ _ h => ?_) _ ?_ | dsimp only | split

theorem kept_execCalRunDone {K : Nat} {s0 s : State} (hk : Kept K s0 s) (inputs : Vector SectionResult 4) (probe : ProbeResult) (words : List (Nat × Word)) (hm : 0x2800000488 &&& K = 0x2800000488 := by decide) : KeptOut K s0 (execCalRunDone inputs probe words s) := by
  refine hk.out hm ?_
  have hk := Kept.refl 0x2800000488 s
  unfold execCalRunDone
  repeat' first | with_reducible assumption | with_reducible refine kept_sealBank ?_ _ (by decide) | with_reducible refine kept_takeProbe ?_ _ _ (by decide) | with_reducible refine kept_takeSection ?_ _ _ _ (by decide) | with_reducible refine kept_sealForce ?_ _ _ (by decide) | with_reducible refine kept_headBank ?_ _ _ _ _ _ (by decide) | with_reducible refine kept_raise ?_ _ _ (by decide) | with_reducible refine kept_put ?_ _ _ _ (by decide) | with_reducible refine kept_storeResults ?_ _ _ _ _ (by decide) | with_reducible refine kept_calReturn ?_ _ (by decide) | simp only [kept_is_mk] | with_reducible refine kept_mk ?_ | with_reducible refine Kept.foldl (fun _ _ h => ?_) _ ?_ | with_reducible apply KeptOut.next | dsimp only | split

theorem kept_gainTrack {K : Nat} {s0 s : State} (hk : Kept K s0 s) (i : Inp) (m : EpochMeas) (hm : 0x2000000088 &&& K = 0x2000000088 := by decide) : Kept K s0 (State.gainTrack s i m) := by
  refine hk.into hm ?_
  have hk := Kept.refl 0x2000000088 s
  unfold State.gainTrack
  repeat' first | with_reducible assumption | with_reducible refine kept_puts ?_ _ _ (by decide) | with_reducible refine kept_raise ?_ _ _ (by decide) | simp only [kept_is_mk] | with_reducible refine kept_mk ?_ | dsimp only | split

theorem kept_gainTrackStops {K : Nat} {s0 s : State} (hk : Kept K s0 s) (i : Inp) (hm : 0x2000000000 &&& K = 0x2000000000 := by decide) : Kept K s0 (State.gainTrackStops s i) := by
  refine hk.into hm ?_
  have hk := Kept.refl 0x2000000000 s
  unfold State.gainTrackStops
  repeat' first | with_reducible assumption | simp only [kept_is_mk] | with_reducible refine kept_mk ?_ | dsimp only | split

theorem kept_execRefCheck {K : Nat} {s0 s : State} (hk : Kept K s0 s) (q : CQueue) (mask : Nat) (hm : 0x224e000048a &&& K = 0x224e000048a := by decide) : KeptOut K s0 (execRefCheck q mask s) := by
  refine hk.out hm ?_
  have hk := Kept.refl 0x224e000048a s
  unfold execRefCheck
  repeat' first | with_reducible assumption | with_reducible refine kept_serve ?_ _ _ _ ?_ (by decide) | with_reducible refine kept_setGain ?_ _ _ (by decide) | with_reducible refine kept_onRefin ?_ _ _ (by decide) | simp only [kept_is_mk] | with_reducible refine kept_mk ?_ | with_reducible refine Kept.foldl (fun _ _ h => ?_) _ ?_ | with_reducible apply KeptOut.next | intro _ | dsimp only | split

theorem kept_swapCoefs {K : Nat} {s0 s : State} (hk : Kept K s0 s) (i : Inp) (hm : 0x488 &&& K = 0x488 := by decide) : Kept K s0 (State.swapCoefs s i) := by
  refine hk.into hm ?_
  have hk := Kept.refl 0x488 s
  unfold State.swapCoefs
  repeat' first | with_reducible assumption | with_reducible refine kept_raise ?_ _ _ (by decide) | with_reducible refine kept_put ?_ _ _ _ (by decide) | with_reducible refine kept_updInp ?_ _ _ (by decide) | simp only [kept_is_mk] | with_reducible refine kept_mk ?_ | dsimp only | split

theorem kept_coefsDue {K : Nat} {s0 s : State} (hk : Kept K s0 s) (hm : 0x488 &&& K = 0x488 := by decide) : Kept K s0 (State.coefsDue s) := by
  refine hk.into hm ?_
  have hk := Kept.refl 0x488 s
  unfold State.coefsDue
  repeat' first | with_reducible assumption | with_reducible refine kept_swapCoefs ?_ _ (by decide) | with_reducible refine Kept.foldl (fun _ _ h => ?_) _ ?_ | dsimp only | split

theorem kept_execCoefSwap {K : Nat} {s0 s : State} (hk : Kept K s0 s) (i : Inp) (hm : 0x488 &&& K = 0x488 := by decide) : KeptOut K s0 (execCoefSwap i s) := by
  refine hk.out hm ?_
  have hk := Kept.refl 0x488 s
  unfold execCoefSwap
  repeat' first | with_reducible assumption | with_reducible refine kept_swapCoefs ?_ _ (by decide) | with_reducible apply KeptOut.next | dsimp only | split

end Sys2Proof.Machine
end

