-- ==== Sys2Proof/Laws/KeptSnapshot.lean ====
section
/-! SUPPORT. What every operation of Snapshot.lean keeps. -/

namespace Sys2Proof.Machine

set_option Elab.async false

set_option linter.unusedSimpArgs false

theorem kept_snapIdle {K : Nat} {s0 s : State} (hk : Kept K s0 s) (c : SnapCh) (early : Bool) (hm : 0x4008 &&& K = 0x4008 := by decide) : Kept K s0 (State.snapIdle s c early) := by
  refine hk.into hm ?_
  have hk := Kept.refl 0x4008 s
  unfold State.snapIdle
  repeat' first | with_reducible assumption | with_reducible refine kept_put ?_ _ _ _ (by decide) | with_reducible refine kept_updSnap ?_ _ _ (by decide) | simp only [kept_is_mk] | with_reducible refine kept_mk ?_ | dsimp only | split

theorem kept_snapHold {K : Nat} {s0 s : State} (hk : Kept K s0 s) (c : SnapCh) (early : Bool) (hm : 0x4008 &&& K = 0x4008 := by decide) : Kept K s0 (State.snapHold s c early) := by
  refine hk.into hm ?_
  have hk := Kept.refl 0x4008 s
  unfold State.snapHold
  repeat' first | with_reducible assumption | with_reducible refine kept_put ?_ _ _ _ (by decide) | with_reducible refine kept_updSnap ?_ _ _ (by decide) | simp only [kept_is_mk] | with_reducible refine kept_mk ?_ | dsimp only | split

theorem kept_snapInputLeaves {K : Nat} {s0 s : State} (hk : Kept K s0 s) (i : Inp) (rate : Bool) (hm : 0x4088 &&& K = 0x4088 := by decide) : Kept K s0 (State.snapInputLeaves s i rate) := by
  refine hk.into hm ?_
  have hk := Kept.refl 0x4088 s
  unfold State.snapInputLeaves
  repeat' first | with_reducible assumption | with_reducible refine kept_raiseTo ?_ _ _ _ (by decide) | with_reducible refine kept_snapIdle ?_ _ _ (by decide) | with_reducible refine kept_snapHold ?_ _ _ (by decide) | with_reducible refine kept_updSnap ?_ _ _ (by decide) | simp only [kept_is_mk] | with_reducible refine kept_mk ?_ | with_reducible refine Kept.foldl (fun _ _ h => ?_) _ ?_ | dsimp only | split

theorem kept_snapsLost {K : Nat} {s0 s : State} (hk : Kept K s0 s) (hm : 0x4008 &&& K = 0x4008 := by decide) : Kept K s0 (State.snapsLost s) := by
  refine hk.into hm ?_
  have hk := Kept.refl 0x4008 s
  unfold State.snapsLost
  repeat' first | with_reducible assumption | with_reducible refine kept_snapIdle ?_ _ _ (by decide) | with_reducible refine Kept.foldl (fun _ _ h => ?_) _ ?_ | dsimp only | split

theorem kept_snapFrame {K : Nat} {s0 s : State} (hk : Kept K s0 s) (hm : 0x4000 &&& K = 0x4000 := by decide) : Kept K s0 (State.snapFrame s) := by
  refine hk.into hm ?_
  have hk := Kept.refl 0x4000 s
  unfold State.snapFrame
  repeat' first | with_reducible assumption | with_reducible refine kept_updSnap ?_ _ _ (by decide) | with_reducible refine Kept.foldl (fun _ _ h => ?_) _ ?_ | dsimp only | split

theorem kept_snapArm {K : Nat} {s0 s : State} (hk : Kept K s0 s) (role : Nat) (c : SnapCh) (hm : 0x4000 &&& K = 0x4000 := by decide) : Kept K s0 (State.snapArm s role c) := by
  refine hk.into hm ?_
  have hk := Kept.refl 0x4000 s
  unfold State.snapArm
  repeat' first | with_reducible assumption | with_reducible refine kept_updSnap ?_ _ _ (by decide) | simp only [kept_is_mk] | with_reducible refine kept_mk ?_ | dsimp only | split

theorem kept_snapShowArm {K : Nat} {s0 s : State} (hk : Kept K s0 s) (c : SnapCh) (hm : 0x8 &&& K = 0x8 := by decide) : Kept K s0 (State.snapShowArm s c) := by
  refine hk.into hm ?_
  have hk := Kept.refl 0x8 s
  unfold State.snapShowArm
  repeat' first | with_reducible assumption | with_reducible refine kept_put ?_ _ _ _ (by decide) | dsimp only | split

theorem kept_alnApply {K : Nat} {s0 s : State} (hk : Kept K s0 s) (role : Nat) (hm : 0x4018 &&& K = 0x4018 := by decide) : Kept K s0 (State.alnApply s role) := by
  refine hk.into hm ?_
  have hk := Kept.refl 0x4018 s
  unfold State.alnApply
  repeat' first | with_reducible assumption | with_reducible refine kept_snapIdle ?_ _ _ (by decide) | with_reducible refine kept_snapArm ?_ _ _ (by decide) | with_reducible refine kept_updSnap ?_ _ _ (by decide) | with_reducible refine kept_snapShowArm ?_ _ (by decide) | with_reducible refine kept_applyStaged ?_ _ _ (by decide) | simp only [kept_is_mk] | with_reducible refine kept_mk ?_ | with_reducible refine Kept.foldl (fun _ _ h => ?_) _ ?_ | dsimp only | split

theorem kept_execSnapTrigger {K : Nat} {s0 s : State} (hk : Kept K s0 s) (c : SnapCh) (hm : 0x4088 &&& K = 0x4088 := by decide) : KeptOut K s0 (execSnapTrigger c s) := by
  refine hk.out hm ?_
  have hk := Kept.refl 0x4088 s
  unfold execSnapTrigger
  repeat' first | with_reducible assumption | with_reducible refine kept_raiseTo ?_ _ _ _ (by decide) | with_reducible refine kept_updSnap ?_ _ _ (by decide) | simp only [kept_is_mk] | with_reducible refine kept_mk ?_ | with_reducible apply KeptOut.next | dsimp only | split

theorem kept_execSnapCaptureDone {K : Nat} {s0 s : State} (hk : Kept K s0 s) (c : SnapCh) (hm : 0x4088 &&& K = 0x4088 := by decide) : KeptOut K s0 (execSnapCaptureDone c s) := by
  refine hk.out hm ?_
  have hk := Kept.refl 0x4088 s
  unfold execSnapCaptureDone
  repeat' first | with_reducible assumption | with_reducible refine kept_raiseTo ?_ _ _ _ (by decide) | with_reducible refine kept_snapHold ?_ _ _ (by decide) | with_reducible apply KeptOut.next | dsimp only | split

theorem kept_snapEcc {K : Nat} {s0 s : State} (hk : Kept K s0 s) (c : SnapCh) (hm : 0xc0004088 &&& K = 0xc0004088 := by decide) : Kept K s0 (State.snapEcc s c) := by
  refine hk.into hm ?_
  have hk := Kept.refl 0xc0004088 s
  unfold State.snapEcc
  repeat' first | with_reducible assumption | with_reducible refine kept_finding ?_ _ _ _ _ _ _ _ (by decide) | with_reducible refine kept_raiseTo ?_ _ _ _ (by decide) | with_reducible refine kept_updSnap ?_ _ _ (by decide) | simp only [kept_is_mk] | with_reducible refine kept_mk ?_ | dsimp only | split

theorem kept_snapPacket {K : Nat} {s0 s : State} (hk : Kept K s0 s) (c : SnapCh) (sid : StrmId) (bad : List Nat) (hm : 0xc0e04088 &&& K = 0xc0e04088 := by decide) : Kept K s0 (State.snapPacket s c sid bad) := by
  refine hk.into hm ?_
  have hk := Kept.refl 0xc0e04088 s
  unfold State.snapPacket
  repeat' first | with_reducible assumption | with_reducible refine kept_updSnap ?_ _ _ (by decide) | with_reducible refine kept_formPacket ?_ _ _ (by decide) | with_reducible refine kept_snapEcc ?_ _ (by decide) | simp only [kept_is_mk] | with_reducible refine kept_mk ?_ | dsimp only | split

theorem kept_execSnapReadoutDone {K : Nat} {s0 s : State} (hk : Kept K s0 s) (c : SnapCh) (bad : List Nat) (hm : 0xc0e04088 &&& K = 0xc0e04088 := by decide) : KeptOut K s0 (execSnapReadoutDone c bad s) := by
  refine hk.out hm ?_
  have hk := Kept.refl 0xc0e04088 s
  unfold execSnapReadoutDone
  repeat' first | with_reducible assumption | with_reducible refine kept_snapIdle ?_ _ _ (by decide) | with_reducible refine kept_snapPacket ?_ _ _ _ (by decide) | with_reducible apply KeptOut.next | dsimp only | split

end Sys2Proof.Machine
end

