-- ==== Sys2Proof/Laws/KeptInputs.lean ====
section
/-! SUPPORT. What every operation of Inputs.lean keeps. -/

namespace Sys2Proof.Machine

set_option Elab.async false

set_option linter.unusedSimpArgs false

theorem kept_autoGain {K : Nat} {s0 s : State} (hk : Kept K s0 s) (i : Inp) (want : Int) (hm : 0x488 &&& K = 0x488 := by decide) : Kept K s0 (State.autoGain s i want) := by
  refine hk.into hm ?_
  have hk := Kept.refl 0x488 s
  unfold State.autoGain
  repeat' first | with_reducible assumption | with_reducible refine kept_raise ?_ _ _ (by decide) | with_reducible refine kept_updInp ?_ _ _ (by decide) | simp only [kept_is_mk] | with_reducible refine kept_mk ?_ | dsimp only | split

theorem kept_agcFrame {K : Nat} {s0 s : State} (hk : Kept K s0 s) (i : Inp) (peak : Int) (hm : 0x488 &&& K = 0x488 := by decide) : Kept K s0 (State.agcFrame s i peak) := by
  refine hk.into hm ?_
  have hk := Kept.refl 0x488 s
  unfold State.agcFrame
  repeat' first | with_reducible assumption | with_reducible refine kept_autoGain ?_ _ _ (by decide) | with_reducible refine kept_updInp ?_ _ _ (by decide) | simp only [kept_is_mk] | with_reducible refine kept_mk ?_ | dsimp only | split

theorem kept_agcEpoch {K : Nat} {s0 s : State} (hk : Kept K s0 s) (i : Inp) (m : EpochMeas) (hm : 0x488 &&& K = 0x488 := by decide) : Kept K s0 (State.agcEpoch s i m) := by
  refine hk.into hm ?_
  have hk := Kept.refl 0x488 s
  unfold State.agcEpoch
  repeat' first | with_reducible assumption | with_reducible refine kept_autoGain ?_ _ _ (by decide) | with_reducible refine kept_updInp ?_ _ _ (by decide) | simp only [kept_is_mk] | with_reducible refine kept_mk ?_ | dsimp only | split

theorem kept_gainSettings {K : Nat} {s0 s : State} (hk : Kept K s0 s) (old : State) (i : Inp) (hm : 0x400 &&& K = 0x400 := by decide) : Kept K s0 (State.gainSettings old s i) := by
  refine hk.into hm ?_
  have hk := Kept.refl 0x400 s
  unfold State.gainSettings
  repeat' first | with_reducible assumption | with_reducible refine kept_updInp ?_ _ _ (by decide) | simp only [kept_is_mk] | with_reducible refine kept_mk ?_ | dsimp only | split

theorem kept_gridPeriods {K : Nat} {s0 s : State} (hk : Kept K s0 s) (hm : 0x600000 &&& K = 0x600000 := by decide) : Kept K s0 (State.gridPeriods s) := by
  refine hk.into hm ?_
  have hk := Kept.refl 0x600000 s
  unfold State.gridPeriods
  repeat' first | with_reducible assumption | simp only [kept_is_mk] | with_reducible refine kept_mk ?_ | dsimp only | split

theorem kept_placeGrid {K : Nat} {s0 s : State} (hk : Kept K s0 s) (hm : 0x600120 &&& K = 0x600120 := by decide) : Kept K s0 (State.placeGrid s) := by
  refine hk.into hm ?_
  have hk := Kept.refl 0x600120 s
  unfold State.placeGrid
  repeat' first | with_reducible assumption | with_reducible refine kept_gridPeriods ?_ (by decide) | simp only [kept_is_mk] | with_reducible refine kept_mk ?_ | dsimp only | split

theorem kept_startConv {K : Nat} {s0 s : State} (hk : Kept K s0 s) (i : Inp) (hm : 0x600528 &&& K = 0x600528 := by decide) : Kept K s0 (State.startConv s i) := by
  refine hk.into hm ?_
  have hk := Kept.refl 0x600528 s
  unfold State.startConv
  repeat' first | with_reducible assumption | with_reducible refine kept_put ?_ _ _ _ (by decide) | with_reducible refine kept_updInp ?_ _ _ (by decide) | with_reducible refine kept_placeGrid ?_ (by decide) | dsimp only | split

theorem kept_startConvs {K : Nat} {s0 s : State} (hk : Kept K s0 s) (hm : 0x600528 &&& K = 0x600528 := by decide) : Kept K s0 (State.startConvs s) := by
  refine hk.into hm ?_
  have hk := Kept.refl 0x600528 s
  unfold State.startConvs
  repeat' first | with_reducible assumption | with_reducible refine kept_startConv ?_ _ (by decide) | with_reducible refine Kept.foldl (fun _ _ h => ?_) _ ?_ | dsimp only | split

theorem kept_leaveRun {K : Nat} {s0 s : State} (hk : Kept K s0 s) (i : Inp) (rate : Bool) (hm : 0x2000004488 &&& K = 0x2000004488 := by decide) : Kept K s0 (State.leaveRun s i rate) := by
  refine hk.into hm ?_
  have hk := Kept.refl 0x2000004488 s
  unfold State.leaveRun
  repeat' first | with_reducible assumption | with_reducible refine kept_checkLeave ?_ _ (by decide) | with_reducible refine kept_calInputAbort ?_ _ (by decide) | with_reducible refine kept_snapInputLeaves ?_ _ _ (by decide) | dsimp only | split

theorem kept_convOff {K : Nat} {s0 s : State} (hk : Kept K s0 s) (i : Inp) (hm : 0x2000004488 &&& K = 0x2000004488 := by decide) : Kept K s0 (State.convOff s i) := by
  refine hk.into hm ?_
  have hk := Kept.refl 0x2000004488 s
  unfold State.convOff
  repeat' first | with_reducible assumption | with_reducible refine kept_leaveRun ?_ _ _ (by decide) | with_reducible refine kept_updInp ?_ _ _ (by decide) | simp only [kept_is_mk] | with_reducible refine kept_mk ?_ | dsimp only | split

theorem kept_convStop {K : Nat} {s0 s : State} (hk : Kept K s0 s) (i : Inp) (st : Conv) (hm : 0x2000004488 &&& K = 0x2000004488 := by decide) : Kept K s0 (State.convStop s i st) := by
  refine hk.into hm ?_
  have hk := Kept.refl 0x2000004488 s
  unfold State.convStop
  repeat' first | with_reducible assumption | with_reducible refine kept_leaveRun ?_ _ _ (by decide) | with_reducible refine kept_raise ?_ _ _ (by decide) | with_reducible refine kept_updInp ?_ _ _ (by decide) | simp only [kept_is_mk] | with_reducible refine kept_mk ?_ | dsimp only | split

theorem kept_convStopAll {K : Nat} {s0 s : State} (hk : Kept K s0 s) (st : Conv) (hm : 0x2002004488 &&& K = 0x2002004488 := by decide) : Kept K s0 (State.convStopAll s st) := by
  refine hk.into hm ?_
  have hk := Kept.refl 0x2002004488 s
  unfold State.convStopAll
  repeat' first | with_reducible assumption | with_reducible refine kept_convStop ?_ _ _ (by decide) | simp only [kept_is_mk] | with_reducible refine kept_mk ?_ | with_reducible refine Kept.foldl (fun _ _ h => ?_) _ ?_ | dsimp only | split

theorem kept_convOffAll {K : Nat} {s0 s : State} (hk : Kept K s0 s) (hm : 0x2000004488 &&& K = 0x2000004488 := by decide) : Kept K s0 (State.convOffAll s) := by
  refine hk.into hm ?_
  have hk := Kept.refl 0x2000004488 s
  unfold State.convOffAll
  repeat' first | with_reducible assumption | with_reducible refine kept_convOff ?_ _ (by decide) | with_reducible refine Kept.foldl (fun _ _ h => ?_) _ ?_ | dsimp only | split

theorem kept_closeConvGap {K : Nat} {s0 s : State} (hk : Kept K s0 s) (hm : 0x2000008 &&& K = 0x2000008 := by decide) : Kept K s0 (State.closeConvGap s) := by
  refine hk.into hm ?_
  have hk := Kept.refl 0x2000008 s
  unfold State.closeConvGap
  repeat' first | with_reducible assumption | with_reducible refine kept_put ?_ _ _ _ (by decide) | simp only [kept_is_mk] | with_reducible refine kept_mk ?_ | dsimp only | split

theorem kept_execConvStartDone {K : Nat} {s0 s : State} (hk : Kept K s0 s) (i : Inp) (hm : 0x2000408 &&& K = 0x2000408 := by decide) : KeptOut K s0 (execConvStartDone i s) := by
  refine hk.out hm ?_
  have hk := Kept.refl 0x2000408 s
  unfold execConvStartDone
  repeat' first | with_reducible assumption | with_reducible refine kept_updInp ?_ _ _ (by decide) | with_reducible refine kept_closeConvGap ?_ (by decide) | simp only [kept_is_mk] | with_reducible refine kept_mk ?_ | with_reducible apply KeptOut.next | dsimp only | split

theorem kept_execAcquisitionEnd {K : Nat} {s0 s : State} (hk : Kept K s0 s) (i : Inp) (hm : 0x400 &&& K = 0x400 := by decide) : KeptOut K s0 (execAcquisitionEnd i s) := by
  refine hk.out hm ?_
  have hk := Kept.refl 0x400 s
  unfold execAcquisitionEnd
  repeat' first | with_reducible assumption | with_reducible refine kept_updInp ?_ _ _ (by decide) | simp only [kept_is_mk] | with_reducible refine kept_mk ?_ | with_reducible apply KeptOut.next | dsimp only | split

theorem kept_arriveGain {K : Nat} {s0 s : State} (hk : Kept K s0 s) (i : Inp) (code : Nat) (rest : List Flight) (hm : 0x408 &&& K = 0x408 := by decide) : Kept K s0 (State.arriveGain s i code rest) := by
  refine hk.into hm ?_
  have hk := Kept.refl 0x408 s
  unfold State.arriveGain
  repeat' first | with_reducible assumption | with_reducible refine kept_put ?_ _ _ _ (by decide) | with_reducible refine kept_updInp ?_ _ _ (by decide) | with_reducible refine kept_count ?_ _ _ _ (by decide) | simp only [kept_is_mk] | with_reducible refine kept_mk ?_ | dsimp only | split

theorem kept_execGainArrival {K : Nat} {s0 s : State} (hk : Kept K s0 s) (i : Inp) (hm : 0x408 &&& K = 0x408 := by decide) : KeptOut K s0 (execGainArrival i s) := by
  refine hk.out hm ?_
  have hk := Kept.refl 0x408 s
  unfold execGainArrival
  repeat' first | with_reducible assumption | with_reducible refine kept_arriveGain ?_ _ _ _ (by decide) | with_reducible apply KeptOut.next | dsimp only | split

theorem kept_execRateChangeDone {K : Nat} {s0 s : State} (hk : Kept K s0 s) (i : Inp) (hm : 0x488 &&& K = 0x488 := by decide) : KeptOut K s0 (execRateChangeDone i s) := by
  refine hk.out hm ?_
  have hk := Kept.refl 0x488 s
  unfold execRateChangeDone
  repeat' first | with_reducible assumption | with_reducible refine kept_arriveGain ?_ _ _ _ (by decide) | with_reducible refine kept_raise ?_ _ _ (by decide) | with_reducible refine kept_updInp ?_ _ _ (by decide) | simp only [kept_is_mk] | with_reducible refine kept_mk ?_ | with_reducible apply KeptOut.next | dsimp only | split

theorem kept_changeRate {K : Nat} {s0 s : State} (hk : Kept K s0 s) (i : Inp) (half : Bool) (hm : 0x2000004488 &&& K = 0x2000004488 := by decide) : Kept K s0 (State.changeRate s i half) := by
  refine hk.into hm ?_
  have hk := Kept.refl 0x2000004488 s
  unfold State.changeRate
  repeat' first | with_reducible assumption | with_reducible refine kept_leaveRun ?_ _ _ (by decide) | with_reducible refine kept_raise ?_ _ _ (by decide) | with_reducible refine kept_updInp ?_ _ _ (by decide) | with_reducible refine kept_count ?_ _ _ _ (by decide) | simp only [kept_is_mk] | with_reducible refine kept_mk ?_ | dsimp only | split

theorem kept_inpApply {K : Nat} {s0 s : State} (hk : Kept K s0 s) (i : Inp) (ws : List (Nat × Word)) (hm : 0x20006045a8 &&& K = 0x20006045a8 := by decide) : Kept K s0 (State.inpApply s i ws) := by
  refine hk.into hm ?_
  have hk := Kept.refl 0x20006045a8 s
  unfold State.inpApply
  repeat' first | with_reducible assumption | with_reducible refine kept_applyWords ?_ _ (by decide) | with_reducible refine kept_convOff ?_ _ (by decide) | with_reducible refine kept_gainSettings ?_ _ _ (by decide) | with_reducible refine kept_bumpSeq ?_ _ (by decide) | with_reducible refine kept_startConv ?_ _ (by decide) | dsimp only | split

theorem kept_ovrFrame {K : Nat} {s0 s : State} (hk : Kept K s0 s) (i : Inp) (ovr : Bool) (hm : 0xc0000488 &&& K = 0xc0000488 := by decide) : Kept K s0 (State.ovrFrame s i ovr) := by
  refine hk.into hm ?_
  have hk := Kept.refl 0xc0000488 s
  unfold State.ovrFrame
  repeat' first | with_reducible assumption | with_reducible refine kept_logFinding ?_ _ _ _ _ _ (by decide) | with_reducible refine kept_raise ?_ _ _ (by decide) | with_reducible refine kept_evaluate ?_ _ _ _ (by decide) | with_reducible refine kept_updInp ?_ _ _ (by decide) | with_reducible refine kept_count ?_ _ _ _ (by decide) | simp only [kept_is_mk] | with_reducible refine kept_mk ?_ | (with_reducible refine Kept.of_fst (by assumption) ?_) | (with_reducible refine Kept.of_snd (by assumption) ?_) | dsimp only | split

theorem kept_fifoFrame {K : Nat} {s0 s : State} (hk : Kept K s0 s) (i : Inp) (m : FrameMeas) (hm : 0xc4000088 &&& K = 0xc4000088 := by decide) : Kept K s0 (State.fifoFrame s i m) := by
  refine hk.into hm ?_
  have hk := Kept.refl 0xc4000088 s
  unfold State.fifoFrame
  repeat' first | with_reducible assumption | with_reducible refine kept_finding ?_ _ _ _ _ _ _ _ (by decide) | with_reducible refine kept_put ?_ _ _ _ (by decide) | with_reducible refine kept_evaluate ?_ _ _ _ (by decide) | with_reducible refine kept_count ?_ _ _ _ (by decide) | simp only [kept_is_mk] | with_reducible refine kept_mk ?_ | (with_reducible refine Kept.of_fst (by assumption) ?_) | (with_reducible refine Kept.of_snd (by assumption) ?_) | dsimp only | split

theorem kept_sieveFrame {K : Nat} {s0 s : State} (hk : Kept K s0 s) (i : Inp) (sat : Nat) (hm : 0xc0000088 &&& K = 0xc0000088 := by decide) : Kept K s0 (State.sieveFrame s i sat) := by
  refine hk.into hm ?_
  have hk := Kept.refl 0xc0000088 s
  unfold State.sieveFrame
  repeat' first | with_reducible assumption | with_reducible refine kept_finding ?_ _ _ _ _ _ _ _ (by decide) | with_reducible refine kept_evaluate ?_ _ _ _ (by decide) | with_reducible refine kept_count ?_ _ _ _ (by decide) | (with_reducible refine Kept.of_fst (by assumption) ?_) | (with_reducible refine Kept.of_snd (by assumption) ?_) | dsimp only | split

theorem kept_frameMoves {K : Nat} {s0 s : State} (hk : Kept K s0 s) (i : Inp) (hm : 0x400 &&& K = 0x400 := by decide) : Kept K s0 (State.frameMoves s i) := by
  refine hk.into hm ?_
  have hk := Kept.refl 0x400 s
  unfold State.frameMoves
  repeat' first | with_reducible assumption | with_reducible refine kept_updInp ?_ _ _ (by decide) | simp only [kept_is_mk] | with_reducible refine kept_mk ?_ | dsimp only | split

theorem kept_inputFrame {K : Nat} {s0 s : State} (hk : Kept K s0 s) (i : Inp) (m : FrameMeas) (hm : 0xc4000488 &&& K = 0xc4000488 := by decide) : Kept K s0 (State.inputFrame s i m) := by
  refine hk.into hm ?_
  have hk := Kept.refl 0xc4000488 s
  unfold State.inputFrame
  repeat' first | with_reducible assumption | with_reducible refine kept_frameMoves ?_ _ (by decide) | with_reducible refine kept_ovrFrame ?_ _ _ (by decide) | with_reducible refine kept_sieveFrame ?_ _ _ (by decide) | with_reducible refine kept_agcFrame ?_ _ _ (by decide) | with_reducible refine kept_updInp ?_ _ _ (by decide) | with_reducible refine kept_fifoFrame ?_ _ _ (by decide) | simp only [kept_is_mk] | with_reducible refine kept_mk ?_ | dsimp only | split

theorem kept_dropDue {K : Nat} {s0 s : State} (hk : Kept K s0 s) (p : Nat → Bool) (hm : 0x20 &&& K = 0x20 := by decide) : Kept K s0 (State.dropDue s p) := by
  refine hk.into hm ?_
  have hk := Kept.refl 0x20 s
  unfold State.dropDue
  repeat' first | with_reducible assumption | simp only [kept_is_mk] | with_reducible refine kept_mk ?_ | dsimp only | split

theorem kept_inpCommits {K : Nat} {s0 s : State} (hk : Kept K s0 s) (hm : 0x20006045a8 &&& K = 0x20006045a8 := by decide) : Kept K s0 (State.inpCommits s) := by
  refine hk.into hm ?_
  have hk := Kept.refl 0x20006045a8 s
  unfold State.inpCommits
  repeat' first | with_reducible assumption | with_reducible refine kept_inpApply ?_ _ _ (by decide) | with_reducible refine kept_dropDue ?_ _ (by decide) | with_reducible refine Kept.foldl (fun _ _ h => ?_) _ ?_ | dsimp only | split

theorem kept_frameUnseen {K : Nat} {s0 s : State} (hk : Kept K s0 s) (hm : 0x20006045a8 &&& K = 0x20006045a8 := by decide) : Kept K s0 (State.frameUnseen s) := by
  refine hk.into hm ?_
  have hk := Kept.refl 0x20006045a8 s
  unfold State.frameUnseen
  repeat' first | with_reducible assumption | with_reducible refine kept_frameMoves ?_ _ (by decide) | with_reducible refine kept_inpCommits ?_ (by decide) | simp only [kept_is_mk] | with_reducible refine kept_mk ?_ | with_reducible refine Kept.foldl (fun _ _ h => ?_) _ ?_ | dsimp only | split

theorem kept_execSieveFrameBoundary {K : Nat} {s0 s : State} (hk : Kept K s0 s) (m : Vector FrameMeas 4) (hm : 0x20c46047a8 &&& K = 0x20c46047a8 := by decide) : KeptOut K s0 (execSieveFrameBoundary m s) := by
  refine hk.out hm ?_
  have hk := Kept.refl 0x20c46047a8 s
  unfold execSieveFrameBoundary
  repeat' first | with_reducible assumption | with_reducible refine kept_inputFrame ?_ _ _ (by decide) | with_reducible refine kept_inpCommits ?_ (by decide) | with_reducible refine kept_snapFrame ?_ (by decide) | with_reducible refine kept_advance ?_ _ (by decide) | with_reducible refine Kept.foldl (fun _ _ h => ?_) _ ?_ | with_reducible apply KeptOut.next | dsimp only | split

theorem kept_overloadEpoch {K : Nat} {s0 s : State} (hk : Kept K s0 s) (i : Inp) (hm : 0x488 &&& K = 0x488 := by decide) : Kept K s0 (State.overloadEpoch s i) := by
  refine hk.into hm ?_
  have hk := Kept.refl 0x488 s
  unfold State.overloadEpoch
  repeat' first | with_reducible assumption | with_reducible refine kept_raise ?_ _ _ (by decide) | with_reducible refine kept_updInp ?_ _ _ (by decide) | simp only [kept_is_mk] | with_reducible refine kept_mk ?_ | dsimp only | split

theorem kept_inputEpoch {K : Nat} {s0 s : State} (hk : Kept K s0 s) (i : Inp) (m : EpochMeas) (hm : 0x2000000488 &&& K = 0x2000000488 := by decide) : Kept K s0 (State.inputEpoch s i m) := by
  refine hk.into hm ?_
  have hk := Kept.refl 0x2000000488 s
  unfold State.inputEpoch
  repeat' first | with_reducible assumption | with_reducible refine kept_overloadEpoch ?_ _ (by decide) | with_reducible refine kept_puts ?_ _ _ (by decide) | with_reducible refine kept_agcEpoch ?_ _ _ (by decide) | with_reducible refine kept_gainTrack ?_ _ _ (by decide) | with_reducible refine kept_gainTrackStops ?_ _ (by decide) | with_reducible refine kept_updInp ?_ _ _ (by decide) | simp only [kept_is_mk] | with_reducible refine kept_mk ?_ | dsimp only | split

theorem kept_sieveApply {K : Nat} {s0 s : State} (hk : Kept K s0 s) (ws : List (Nat × Word)) (hm : 0x408 &&& K = 0x408 := by decide) : Kept K s0 (State.sieveApply s ws) := by
  refine hk.into hm ?_
  have hk := Kept.refl 0x408 s
  unfold State.sieveApply
  repeat' first | with_reducible assumption | with_reducible refine kept_applyWords ?_ _ (by decide) | with_reducible refine kept_bumpSeq ?_ _ (by decide) | with_reducible refine kept_startRebuild ?_ _ (by decide) | with_reducible refine Kept.foldl (fun _ _ h => ?_) _ ?_ | with_reducible refine Kept.foldl_fst (fun _ _ h => ?_) _ ?_ | dsimp only | split

theorem kept_epochCommits {K : Nat} {s0 s : State} (hk : Kept K s0 s) (hm : 0x28000004ac &&& K = 0x28000004ac := by decide) : Kept K s0 (State.epochCommits s) := by
  refine hk.into hm ?_
  have hk := Kept.refl 0x28000004ac s
  unfold State.epochCommits
  repeat' first | with_reducible assumption | with_reducible refine kept_sieveApply ?_ _ (by decide) | with_reducible refine kept_dropDue ?_ _ (by decide) | with_reducible refine kept_calApply ?_ _ (by decide) | with_reducible refine Kept.foldl (fun _ _ h => ?_) _ ?_ | dsimp only | split

end Sys2Proof.Machine
end

