-- ==== Sys2Proof/Laws/KeptSlices.lean ====
section
/-! SUPPORT. What every operation of Slices.lean keeps. -/

namespace Sys2Proof.Machine

set_option Elab.async false

set_option linter.unusedSimpArgs false

theorem kept_slcClaim {K : Nat} {s0 s : State} (hk : Kept K s0 s) (i : Slc) (hm : 0x800 &&& K = 0x800 := by decide) : Kept K s0 (State.slcClaim s i) := by
  refine hk.into hm ?_
  have hk := Kept.refl 0x800 s
  unfold State.slcClaim
  repeat' first | with_reducible assumption | with_reducible refine kept_updSlc ?_ _ _ (by decide) | simp only [kept_is_mk] | with_reducible refine kept_mk ?_ | dsimp only | split

theorem kept_slcSettle {K : Nat} {s0 s : State} (hk : Kept K s0 s) (i : Slc) (hm : 0x808 &&& K = 0x808 := by decide) : Kept K s0 (State.slcSettle s i) := by
  refine hk.into hm ?_
  have hk := Kept.refl 0x808 s
  unfold State.slcSettle
  repeat' first | with_reducible assumption | with_reducible refine kept_updSlc ?_ _ _ (by decide) | with_reducible refine kept_put ?_ _ _ _ (by decide) | simp only [kept_is_mk] | with_reducible refine kept_mk ?_ | dsimp only | split

theorem kept_slcGone {K : Nat} {s0 s : State} (hk : Kept K s0 s) (i : Slc) (hm : 0x210088 &&& K = 0x210088 := by decide) : Kept K s0 (State.slcGone s i) := by
  refine hk.into hm ?_
  have hk := Kept.refl 0x210088 s
  unfold State.slcGone
  repeat' first | with_reducible assumption | with_reducible refine kept_slcDecsGone ?_ _ (by decide) | with_reducible refine kept_strmsGone ?_ _ (by decide) | dsimp only | split

theorem kept_slcIdle {K : Nat} {s0 s : State} (hk : Kept K s0 s) (i : Slc) (hm : 0x211888 &&& K = 0x211888 := by decide) : Kept K s0 (State.slcIdle s i) := by
  refine hk.into hm ?_
  have hk := Kept.refl 0x211888 s
  unfold State.slcIdle
  repeat' first | with_reducible assumption | with_reducible refine kept_restartDemod ?_ _ (by decide) | with_reducible refine kept_updSlc ?_ _ _ (by decide) | with_reducible refine kept_slcGone ?_ _ (by decide) | simp only [kept_is_mk] | with_reducible refine kept_mk ?_ | dsimp only | split

theorem kept_slcEdges {K : Nat} {s0 s : State} (hk : Kept K s0 s) (i : Slc) (hm : 0x888 &&& K = 0x888 := by decide) : Kept K s0 (State.slcEdges s i) := by
  refine hk.into hm ?_
  have hk := Kept.refl 0x888 s
  unfold State.slcEdges
  repeat' first | with_reducible assumption | with_reducible refine kept_updSlc ?_ _ _ (by decide) | with_reducible refine kept_raise ?_ _ _ (by decide) | simp only [kept_is_mk] | with_reducible refine kept_mk ?_ | dsimp only | split

theorem kept_slcApply {K : Nat} {s0 s : State} (hk : Kept K s0 s) (i : Slc) (ws : List (Nat × Word)) (hm : 0x211888 &&& K = 0x211888 := by decide) : Kept K s0 (State.slcApply s i ws) := by
  refine hk.into hm ?_
  have hk := Kept.refl 0x211888 s
  unfold State.slcApply
  repeat' first | with_reducible assumption | with_reducible refine kept_applyWords ?_ _ (by decide) | with_reducible refine kept_slcEdges ?_ _ (by decide) | with_reducible refine kept_restartDemod ?_ _ (by decide) | with_reducible refine kept_updSlc ?_ _ _ (by decide) | with_reducible refine kept_slcGone ?_ _ (by decide) | with_reducible refine kept_bumpSeq ?_ _ (by decide) | with_reducible refine kept_slcIdle ?_ _ (by decide) | with_reducible refine kept_slcSettle ?_ _ (by decide) | simp only [kept_is_mk] | with_reducible refine kept_mk ?_ | dsimp only | split

theorem kept_soundTune {K : Nat} {s0 s : State} (hk : Kept K s0 s) (i : Slc) (hm : 0x1888 &&& K = 0x1888 := by decide) : Kept K s0 (State.soundTune s i) := by
  refine hk.into hm ?_
  have hk := Kept.refl 0x1888 s
  unfold State.soundTune
  repeat' first | with_reducible assumption | with_reducible refine kept_slcEdges ?_ _ (by decide) | with_reducible refine kept_restartDemod ?_ _ (by decide) | with_reducible refine kept_puts ?_ _ _ (by decide) | with_reducible refine kept_slcSettle ?_ _ (by decide) | dsimp only | split

theorem kept_slcMove {K : Nat} {s0 s : State} (hk : Kept K s0 s) (i : Slc) (hm : 0x211888 &&& K = 0x211888 := by decide) : Kept K s0 (State.slcMove s i) := by
  refine hk.into hm ?_
  have hk := Kept.refl 0x211888 s
  unfold State.slcMove
  repeat' first | with_reducible assumption | with_reducible refine kept_updSlc ?_ _ _ (by decide) | with_reducible refine kept_slcIdle ?_ _ (by decide) | with_reducible refine kept_soundTune ?_ _ (by decide) | simp only [kept_is_mk] | with_reducible refine kept_mk ?_ | dsimp only | split

theorem kept_slcCommits {K : Nat} {s0 s : State} (hk : Kept K s0 s) (hm : 0x2138a8 &&& K = 0x2138a8 := by decide) : Kept K s0 (State.slcCommits s) := by
  refine hk.into hm ?_
  have hk := Kept.refl 0x2138a8 s
  unfold State.slcCommits
  repeat' first | with_reducible assumption | with_reducible refine kept_slcMove ?_ _ (by decide) | with_reducible refine kept_dropDue ?_ _ (by decide) | with_reducible refine kept_slcApply ?_ _ _ (by decide) | simp only [kept_is_mk] | with_reducible refine kept_mk ?_ | with_reducible refine Kept.foldl (fun _ _ h => ?_) _ ?_ | dsimp only | split

theorem kept_slcMeasure {K : Nat} {s0 s : State} (hk : Kept K s0 s) (i : Slc) (m : BlockMeas) (hm : 0x1888 &&& K = 0x1888 := by decide) : Kept K s0 (State.slcMeasure s i m) := by
  refine hk.into hm ?_
  have hk := Kept.refl 0x1888 s
  unfold State.slcMeasure
  repeat' first | with_reducible assumption | with_reducible refine kept_amBlock ?_ _ _ (by decide) | with_reducible refine kept_puts ?_ _ _ (by decide) | with_reducible refine kept_gapEnd ?_ _ (by decide) | with_reducible refine kept_fmBlock ?_ _ _ (by decide) | dsimp only | split

theorem kept_slcComplete {K : Nat} {s0 s : State} (hk : Kept K s0 s) (i : Slc) (valid : Bool) (hm : 0x808 &&& K = 0x808 := by decide) : Kept K s0 (State.slcComplete s i valid) := by
  refine hk.into hm ?_
  have hk := Kept.refl 0x808 s
  unfold State.slcComplete
  repeat' first | with_reducible assumption | with_reducible refine kept_updSlc ?_ _ _ (by decide) | with_reducible refine kept_putPair ?_ _ _ _ _ (by decide) | with_reducible refine kept_count ?_ _ _ _ (by decide) | simp only [kept_is_mk] | with_reducible refine kept_mk ?_ | dsimp only | split

theorem kept_slcBlock {K : Nat} {s0 s : State} (hk : Kept K s0 s) (ms : List BlockMeas) (i : Slc) (hm : 0xe01888 &&& K = 0xe01888 := by decide) : Kept K s0 (State.slcBlock s ms i) := by
  refine hk.into hm ?_
  have hk := Kept.refl 0xe01888 s
  unfold State.slcBlock
  repeat' first | with_reducible assumption | with_reducible refine kept_updSlc ?_ _ _ (by decide) | with_reducible refine kept_slcComplete ?_ _ _ (by decide) | with_reducible refine kept_gapEnd ?_ _ (by decide) | with_reducible refine kept_slcMeasure ?_ _ _ (by decide) | with_reducible refine kept_gapBlock ?_ _ (by decide) | simp only [kept_is_mk] | with_reducible refine kept_mk ?_ | dsimp only | split

theorem kept_slcWake {K : Nat} {s0 s : State} (hk : Kept K s0 s) (i : Slc) (hm : 0x1808 &&& K = 0x1808 := by decide) : Kept K s0 (State.slcWake s i) := by
  refine hk.into hm ?_
  have hk := Kept.refl 0x1808 s
  unfold State.slcWake
  repeat' first | with_reducible assumption | with_reducible refine kept_restartDemod ?_ _ (by decide) | with_reducible refine kept_updSlc ?_ _ _ (by decide) | with_reducible refine kept_slcSettle ?_ _ (by decide) | simp only [kept_is_mk] | with_reducible refine kept_mk ?_ | dsimp only | split

theorem kept_slicesBlock {K : Nat} {s0 s : State} (hk : Kept K s0 s) (ms : List BlockMeas) (hm : 0xe138a8 &&& K = 0xe138a8 := by decide) : Kept K s0 (State.slicesBlock s ms) := by
  refine hk.into hm ?_
  have hk := Kept.refl 0xe138a8 s
  unfold State.slicesBlock
  repeat' first | with_reducible assumption | with_reducible refine kept_slcCommits ?_ (by decide) | with_reducible refine kept_slcWake ?_ _ (by decide) | with_reducible refine kept_slcBlock ?_ _ _ (by decide) | with_reducible refine Kept.foldl (fun _ _ h => ?_) _ ?_ | dsimp only | split

theorem kept_slicesDown {K : Nat} {s0 s : State} (hk : Kept K s0 s) (hm : 0x11888 &&& K = 0x11888 := by decide) : Kept K s0 (State.slicesDown s) := by
  refine hk.into hm ?_
  have hk := Kept.refl 0x11888 s
  unfold State.slicesDown
  repeat' first | with_reducible assumption | with_reducible refine kept_slcDecsGone ?_ _ (by decide) | with_reducible refine kept_restartDemod ?_ _ (by decide) | with_reducible refine kept_updSlc ?_ _ _ (by decide) | simp only [kept_is_mk] | with_reducible refine kept_mk ?_ | with_reducible refine Kept.foldl (fun _ _ h => ?_) _ ?_ | dsimp only | split

theorem kept_execSliceSettleEnd {K : Nat} {s0 s : State} (hk : Kept K s0 s) (i : Slc) (hm : 0x800 &&& K = 0x800 := by decide) : KeptOut K s0 (execSliceSettleEnd i s) := by
  refine hk.out hm ?_
  have hk := Kept.refl 0x800 s
  unfold execSliceSettleEnd
  repeat' first | with_reducible assumption | with_reducible refine kept_updSlc ?_ _ _ (by decide) | simp only [kept_is_mk] | with_reducible refine kept_mk ?_ | with_reducible apply KeptOut.next | dsimp only | split

end Sys2Proof.Machine
end

