-- ==== Sys2Proof/Laws/KeptAudio.lean ====
section
/-! SUPPORT. What every operation of Audio.lean keeps. -/

namespace Sys2Proof.Machine

set_option Elab.async false

set_option linter.unusedSimpArgs false

theorem kept_updOut {K : Nat} {s0 s : State} (hk : Kept K s0 s) (o : OutId) (f : AudOut → AudOut) (hm : 0x1000000000 &&& K = 0x1000000000 := by decide) : Kept K s0 (State.updOut s o f) := by
  refine hk.into hm ?_
  have hk := Kept.refl 0x1000000000 s
  unfold State.updOut
  repeat' first | with_reducible assumption | simp only [kept_is_mk] | with_reducible refine kept_mk ?_ | dsimp only | split

theorem kept_mute {K : Nat} {s0 s : State} (hk : Kept K s0 s) (o : OutId) (len : Nat) (hm : 0x1000000008 &&& K = 0x1000000008 := by decide) : Kept K s0 (State.mute s o len) := by
  refine hk.into hm ?_
  have hk := Kept.refl 0x1000000008 s
  unfold State.mute
  repeat' first | with_reducible assumption | with_reducible refine kept_updOut ?_ _ _ (by decide) | with_reducible refine kept_put ?_ _ _ _ (by decide) | simp only [kept_is_mk] | with_reducible refine kept_mk ?_ | dsimp only | split

theorem kept_unmute {K : Nat} {s0 s : State} (hk : Kept K s0 s) (o : OutId) (hm : 0x1000000008 &&& K = 0x1000000008 := by decide) : Kept K s0 (State.unmute s o) := by
  refine hk.into hm ?_
  have hk := Kept.refl 0x1000000008 s
  unfold State.unmute
  repeat' first | with_reducible assumption | with_reducible refine kept_updOut ?_ _ _ (by decide) | with_reducible refine kept_put ?_ _ _ _ (by decide) | simp only [kept_is_mk] | with_reducible refine kept_mk ?_ | dsimp only | split

theorem kept_silence {K : Nat} {s0 s : State} (hk : Kept K s0 s) (o : OutId) (hm : 0x1000000008 &&& K = 0x1000000008 := by decide) : Kept K s0 (State.silence s o) := by
  refine hk.into hm ?_
  have hk := Kept.refl 0x1000000008 s
  unfold State.silence
  repeat' first | with_reducible assumption | with_reducible refine kept_updOut ?_ _ _ (by decide) | with_reducible refine kept_mute ?_ _ _ (by decide) | with_reducible refine kept_put ?_ _ _ _ (by decide) | simp only [kept_is_mk] | with_reducible refine kept_mk ?_ | dsimp only | split

theorem kept_audSilence {K : Nat} {s0 s : State} (hk : Kept K s0 s) (hm : 0x1000000008 &&& K = 0x1000000008 := by decide) : Kept K s0 (State.audSilence s) := by
  refine hk.into hm ?_
  have hk := Kept.refl 0x1000000008 s
  unfold State.audSilence
  repeat' first | with_reducible assumption | with_reducible refine kept_silence ?_ _ (by decide) | with_reducible refine Kept.foldl (fun _ _ h => ?_) _ ?_ | dsimp only | split

theorem kept_outFrame {K : Nat} {s0 s : State} (hk : Kept K s0 s) (o : OutId) (hm : 0x1000000000 &&& K = 0x1000000000 := by decide) : Kept K s0 (State.outFrame s o) := by
  refine hk.into hm ?_
  have hk := Kept.refl 0x1000000000 s
  unfold State.outFrame
  repeat' first | with_reducible assumption | with_reducible refine kept_updOut ?_ _ _ (by decide) | simp only [kept_is_mk] | with_reducible refine kept_mk ?_ | dsimp only | split

theorem kept_audPlay {K : Nat} {s0 s : State} (hk : Kept K s0 s) (hm : 0x1000000000 &&& K = 0x1000000000 := by decide) : Kept K s0 (State.audPlay s) := by
  refine hk.into hm ?_
  have hk := Kept.refl 0x1000000000 s
  unfold State.audPlay
  repeat' first | with_reducible assumption | with_reducible refine kept_outFrame ?_ _ (by decide) | with_reducible refine kept_updOut ?_ _ _ (by decide) | simp only [kept_is_mk] | with_reducible refine kept_mk ?_ | with_reducible refine Kept.foldl (fun _ _ h => ?_) _ ?_ | dsimp only | split

theorem kept_audOutput {K : Nat} {s0 s : State} (hk : Kept K s0 s) (old : State) (o : OutId) (hm : 0x1000000008 &&& K = 0x1000000008 := by decide) : Kept K s0 (State.audOutput old s o) := by
  refine hk.into hm ?_
  have hk := Kept.refl 0x1000000008 s
  unfold State.audOutput
  repeat' first | with_reducible assumption | with_reducible refine kept_silence ?_ _ (by decide) | with_reducible refine kept_updOut ?_ _ _ (by decide) | with_reducible refine kept_mute ?_ _ _ (by decide) | simp only [kept_is_mk] | with_reducible refine kept_mk ?_ | dsimp only | split

theorem kept_audSwitch {K : Nat} {s0 s : State} (hk : Kept K s0 s) (hm : 0x1000000008 &&& K = 0x1000000008 := by decide) : Kept K s0 (State.audSwitch s) := by
  refine hk.into hm ?_
  have hk := Kept.refl 0x1000000008 s
  unfold State.audSwitch
  repeat' first | with_reducible assumption | with_reducible refine kept_mute ?_ _ _ (by decide) | simp only [kept_is_mk] | with_reducible refine kept_mk ?_ | with_reducible refine Kept.foldl (fun _ _ h => ?_) _ ?_ | dsimp only | split

theorem kept_audApply {K : Nat} {s0 s : State} (hk : Kept K s0 s) (ws : List (Nat × Word)) (hm : 0x1000000008 &&& K = 0x1000000008 := by decide) : Kept K s0 (State.audApply s ws) := by
  refine hk.into hm ?_
  have hk := Kept.refl 0x1000000008 s
  unfold State.audApply
  repeat' first | with_reducible assumption | with_reducible refine kept_applyWords ?_ _ (by decide) | with_reducible refine kept_bumpSeq ?_ _ (by decide) | with_reducible refine kept_audOutput ?_ _ _ (by decide) | with_reducible refine kept_audSwitch ?_ (by decide) | with_reducible refine Kept.foldl (fun _ _ h => ?_) _ ?_ | dsimp only | split

theorem kept_audCommits {K : Nat} {s0 s : State} (hk : Kept K s0 s) (hm : 0x1000000028 &&& K = 0x1000000028 := by decide) : Kept K s0 (State.audCommits s) := by
  refine hk.into hm ?_
  have hk := Kept.refl 0x1000000028 s
  unfold State.audCommits
  repeat' first | with_reducible assumption | with_reducible refine kept_audApply ?_ _ (by decide) | simp only [kept_is_mk] | with_reducible refine kept_mk ?_ | with_reducible refine Kept.foldl (fun _ _ h => ?_) _ ?_ | dsimp only | split

theorem kept_audStop {K : Nat} {s0 s : State} (hk : Kept K s0 s) (src : Nat) (hm : 0x10c0000088 &&& K = 0x10c0000088 := by decide) : Kept K s0 (State.audStop s src) := by
  refine hk.into hm ?_
  have hk := Kept.refl 0x10c0000088 s
  unfold State.audStop
  repeat' first | with_reducible assumption | with_reducible refine kept_finding ?_ _ _ _ _ _ _ _ (by decide) | with_reducible refine kept_audSilence ?_ (by decide) | with_reducible refine kept_count ?_ _ _ _ (by decide) | simp only [kept_is_mk] | with_reducible refine kept_mk ?_ | dsimp only | split

theorem kept_audGeneratorStops {K : Nat} {s0 s : State} (hk : Kept K s0 s) (hm : 0x1000000008 &&& K = 0x1000000008 := by decide) : Kept K s0 (State.audGeneratorStops s) := by
  refine hk.into hm ?_
  have hk := Kept.refl 0x1000000008 s
  unfold State.audGeneratorStops
  repeat' first | with_reducible assumption | with_reducible refine kept_audSilence ?_ (by decide) | simp only [kept_is_mk] | with_reducible refine kept_mk ?_ | dsimp only | split

theorem kept_audGeneratorStarts {K : Nat} {s0 s : State} (hk : Kept K s0 s) (hm : 0x1000000000 &&& K = 0x1000000000 := by decide) : Kept K s0 (State.audGeneratorStarts s) := by
  refine hk.into hm ?_
  have hk := Kept.refl 0x1000000000 s
  unfold State.audGeneratorStarts
  repeat' first | with_reducible assumption | simp only [kept_is_mk] | with_reducible refine kept_mk ?_ | dsimp only | split

theorem kept_audUnderrun {K : Nat} {s0 s : State} (hk : Kept K s0 s) (o : OutId) (src : Nat) (hm : 0x10c0000088 &&& K = 0x10c0000088 := by decide) : Kept K s0 (State.audUnderrun s o src) := by
  refine hk.into hm ?_
  have hk := Kept.refl 0x10c0000088 s
  unfold State.audUnderrun
  repeat' first | with_reducible assumption | with_reducible refine kept_finding ?_ _ _ _ _ _ _ _ (by decide) | with_reducible refine kept_mute ?_ _ _ (by decide) | simp only [kept_is_mk] | with_reducible refine kept_mk ?_ | dsimp only | split

theorem kept_audUnmute {K : Nat} {s0 s : State} (hk : Kept K s0 s) (hm : 0x1000000008 &&& K = 0x1000000008 := by decide) : Kept K s0 (State.audUnmute s) := by
  refine hk.into hm ?_
  have hk := Kept.refl 0x1000000008 s
  unfold State.audUnmute
  repeat' first | with_reducible assumption | with_reducible refine kept_updOut ?_ _ _ (by decide) | with_reducible refine kept_unmute ?_ _ (by decide) | simp only [kept_is_mk] | with_reducible refine kept_mk ?_ | with_reducible refine Kept.foldl (fun _ _ h => ?_) _ ?_ | with_reducible refine Kept.foldl_fst (fun _ _ h => ?_) _ ?_ | dsimp only | split

theorem kept_audInjected {K : Nat} {s0 s : State} (hk : Kept K s0 s) (hm : 0x10c0000088 &&& K = 0x10c0000088 := by decide) : Kept K s0 (State.audInjected s) := by
  refine hk.into hm ?_
  have hk := Kept.refl 0x10c0000088 s
  unfold State.audInjected
  repeat' first | with_reducible assumption | with_reducible refine kept_consumeInj ?_ _ (by decide) | with_reducible refine kept_audStop ?_ _ (by decide) | with_reducible refine kept_audUnderrun ?_ _ _ (by decide) | dsimp only | split

theorem kept_execPortFrame {K : Nat} {s0 s : State} (hk : Kept K s0 s) (hm : 0x10c00000a8 &&& K = 0x10c00000a8 := by decide) : KeptOut K s0 (execPortFrame s) := by
  refine hk.out hm ?_
  have hk := Kept.refl 0x10c00000a8 s
  unfold execPortFrame
  repeat' first | with_reducible assumption | with_reducible refine kept_audUnmute ?_ (by decide) | with_reducible refine kept_audCommits ?_ (by decide) | with_reducible refine kept_audPlay ?_ (by decide) | with_reducible refine kept_audInjected ?_ (by decide) | simp only [kept_is_mk] | with_reducible refine kept_mk ?_ | with_reducible apply KeptOut.next | dsimp only | split

theorem kept_execAudMuteRampEnd {K : Nat} {s0 s : State} (hk : Kept K s0 s) (hm : 0x1000000028 &&& K = 0x1000000028 := by decide) : KeptOut K s0 (execAudMuteRampEnd s) := by
  refine hk.out hm ?_
  have hk := Kept.refl 0x1000000028 s
  unfold execAudMuteRampEnd
  repeat' first | with_reducible assumption | with_reducible refine kept_audCommits ?_ (by decide) | with_reducible refine kept_audSilence ?_ (by decide) | simp only [kept_is_mk] | with_reducible refine kept_mk ?_ | with_reducible apply KeptOut.next | dsimp only | split

theorem kept_execAudNewClockEdge {K : Nat} {s0 s : State} (hk : Kept K s0 s) (gap : Nat) (hm : 0x1000000028 &&& K = 0x1000000028 := by decide) : KeptOut K s0 (execAudNewClockEdge gap s) := by
  refine hk.out hm ?_
  have hk := Kept.refl 0x1000000028 s
  unfold execAudNewClockEdge
  repeat' first | with_reducible assumption | with_reducible refine kept_audCommits ?_ (by decide) | with_reducible refine kept_put ?_ _ _ _ (by decide) | simp only [kept_is_mk] | with_reducible refine kept_mk ?_ | with_reducible apply KeptOut.next | dsimp only | split

theorem kept_execAudClockQualified {K : Nat} {s0 s : State} (hk : Kept K s0 s) (hm : 0x1000000088 &&& K = 0x1000000088 := by decide) : KeptOut K s0 (execAudClockQualified s) := by
  refine hk.out hm ?_
  have hk := Kept.refl 0x1000000088 s
  unfold execAudClockQualified
  repeat' first | with_reducible assumption | with_reducible refine kept_raise ?_ _ _ (by decide) | simp only [kept_is_mk] | with_reducible refine kept_mk ?_ | with_reducible apply KeptOut.next | dsimp only | split

theorem kept_execAsrcLock {K : Nat} {s0 s : State} (hk : Kept K s0 s) (o : OutId) (ratio : Nat) (hm : 0x1000000088 &&& K = 0x1000000088 := by decide) : KeptOut K s0 (execAsrcLock o ratio s) := by
  refine hk.out hm ?_
  have hk := Kept.refl 0x1000000088 s
  unfold execAsrcLock
  repeat' first | with_reducible assumption | with_reducible refine kept_unmute ?_ _ (by decide) | with_reducible refine kept_raise ?_ _ _ (by decide) | with_reducible refine kept_put ?_ _ _ _ (by decide) | simp only [kept_is_mk] | with_reducible refine kept_mk ?_ | with_reducible apply KeptOut.next | dsimp only | split

theorem kept_execAudClockStop {K : Nat} {s0 s : State} (hk : Kept K s0 s) (seen : Bool) (hm : 0x10c0000088 &&& K = 0x10c0000088 := by decide) : KeptOut K s0 (execAudClockStop seen s) := by
  refine hk.out hm ?_
  have hk := Kept.refl 0x10c0000088 s
  unfold execAudClockStop
  repeat' first | with_reducible assumption | with_reducible refine kept_audStop ?_ _ (by decide) | with_reducible refine kept_race ?_ _ (by decide) | with_reducible apply KeptOut.next | dsimp only | split

theorem kept_execAudFrameGlitch {K : Nat} {s0 s : State} (hk : Kept K s0 s) (hm : 0x10c0000088 &&& K = 0x10c0000088 := by decide) : KeptOut K s0 (execAudFrameGlitch s) := by
  refine hk.out hm ?_
  have hk := Kept.refl 0x10c0000088 s
  unfold execAudFrameGlitch
  repeat' first | with_reducible assumption | with_reducible refine kept_audStop ?_ _ (by decide) | with_reducible refine kept_raise ?_ _ _ (by decide) | with_reducible refine kept_count ?_ _ _ _ (by decide) | simp only [kept_is_mk] | with_reducible refine kept_mk ?_ | with_reducible apply KeptOut.next | dsimp only | split

theorem kept_execAudRateWrong {K : Nat} {s0 s : State} (hk : Kept K s0 s) (hm : 0x10c0000088 &&& K = 0x10c0000088 := by decide) : KeptOut K s0 (execAudRateWrong s) := by
  refine hk.out hm ?_
  have hk := Kept.refl 0x10c0000088 s
  unfold execAudRateWrong
  repeat' first | with_reducible assumption | with_reducible refine kept_audStop ?_ _ (by decide) | with_reducible refine kept_raise ?_ _ _ (by decide) | with_reducible apply KeptOut.next | dsimp only | split

theorem kept_execAudUnderrun {K : Nat} {s0 s : State} (hk : Kept K s0 s) (o : OutId) (hm : 0x10c0000088 &&& K = 0x10c0000088 := by decide) : KeptOut K s0 (execAudUnderrun o s) := by
  refine hk.out hm ?_
  have hk := Kept.refl 0x10c0000088 s
  unfold execAudUnderrun
  repeat' first | with_reducible assumption | with_reducible refine kept_audUnderrun ?_ _ _ (by decide) | with_reducible apply KeptOut.next | dsimp only | split

end Sys2Proof.Machine
end

