-- ==== Sys2Proof/Laws/KeptPlaying.lean ====
section
/-! SUPPORT. What every operation of Playing.lean keeps. -/

namespace Sys2Proof.Machine

set_option Elab.async false

set_option linter.unusedSimpArgs false

theorem kept_fillLines {K : Nat} {s0 s : State} (hk : Kept K s0 s) (v : SvcId) (hm : 0x20000 &&& K = 0x20000 := by decide) : Kept K s0 (State.fillLines s v) := by
  refine hk.into hm ?_
  have hk := Kept.refl 0x20000 s
  unfold State.fillLines
  repeat' first | with_reducible assumption | with_reducible refine kept_updSlot ?_ _ _ (by decide) | simp only [kept_is_mk] | with_reducible refine kept_mk ?_ | dsimp only | split

theorem kept_slotPlay {K : Nat} {s0 s : State} (hk : Kept K s0 s) (v : SvcId) (hm : 0x20000 &&& K = 0x20000 := by decide) : Kept K s0 (State.slotPlay s v) := by
  refine hk.into hm ?_
  have hk := Kept.refl 0x20000 s
  unfold State.slotPlay
  repeat' first | with_reducible assumption | with_reducible refine kept_updSlot ?_ _ _ (by decide) | simp only [kept_is_mk] | with_reducible refine kept_mk ?_ | dsimp only | split

theorem kept_playFrom {K : Nat} {s0 s : State} (hk : Kept K s0 s) (v : SvcId) (n : CandId) (pres : Nat) (hm : 0x20000 &&& K = 0x20000 := by decide) : Kept K s0 (State.playFrom s v n pres) := by
  refine hk.into hm ?_
  have hk := Kept.refl 0x20000 s
  unfold State.playFrom
  repeat' first | with_reducible assumption | with_reducible refine kept_updSlot ?_ _ _ (by decide) | simp only [kept_is_mk] | with_reducible refine kept_mk ?_ | dsimp only | split

theorem kept_spliceTo {K : Nat} {s0 s : State} (hk : Kept K s0 s) (v : SvcId) (n : CandId) (pres : Nat) (at_ : Nat) (len : Nat) (gain : Int) (hm : 0x20000 &&& K = 0x20000 := by decide) : Kept K s0 (State.spliceTo s v n pres at_ len gain) := by
  refine hk.into hm ?_
  have hk := Kept.refl 0x20000 s
  unfold State.spliceTo
  repeat' first | with_reducible assumption | with_reducible refine kept_updSlot ?_ _ _ (by decide) | simp only [kept_is_mk] | with_reducible refine kept_mk ?_ | dsimp only | split

end Sys2Proof.Machine
end

