-- ==== Sys2Proof/Laws/KeptFollowing.lean ====
section
/-! SUPPORT. What every operation of Following.lean keeps. -/

namespace Sys2Proof.Machine

set_option Elab.async false

set_option linter.unusedSimpArgs false

theorem kept_watchLeave {K : Nat} {s0 s : State} (hk : Kept K s0 s) (v : SvcId) (i : Slc) (hm : 0x213888 &&& K = 0x213888 := by decide) : Kept K s0 (State.watchLeave s v i) := by
  refine hk.into hm ?_
  have hk := Kept.refl 0x213888 s
  unfold State.watchLeave
  repeat' first | with_reducible assumption | with_reducible refine kept_updSlc ?_ _ _ (by decide) | with_reducible refine kept_slcIdle ?_ _ (by decide) | simp only [kept_is_mk] | with_reducible refine kept_mk ?_ | dsimp only | split

theorem kept_dropRx {K : Nat} {s0 s : State} (hk : Kept K s0 s) (v : SvcId) (n : CandId) (hm : 0x233888 &&& K = 0x233888 := by decide) : Kept K s0 (State.dropRx s v n) := by
  refine hk.into hm ?_
  have hk := Kept.refl 0x233888 s
  unfold State.dropRx
  repeat' first | with_reducible assumption | with_reducible refine kept_updCand ?_ _ _ _ (by decide) | with_reducible refine kept_watchLeave ?_ _ _ (by decide) | simp only [kept_is_mk] | with_reducible refine kept_mk ?_ | dsimp only | split

theorem kept_dropDec {K : Nat} {s0 s : State} (hk : Kept K s0 s) (v : SvcId) (n : CandId) (hm : 0x230088 &&& K = 0x230088 := by decide) : Kept K s0 (State.dropDec s v n) := by
  refine hk.into hm ?_
  have hk := Kept.refl 0x230088 s
  unfold State.dropDec
  repeat' first | with_reducible assumption | with_reducible refine kept_setReg ?_ _ _ (by decide) | with_reducible refine kept_updCand ?_ _ _ _ (by decide) | with_reducible refine kept_decRelease ?_ _ (by decide) | with_reducible refine kept_updSlot ?_ _ _ (by decide) | simp only [kept_is_mk] | with_reducible refine kept_mk ?_ | dsimp only | split

theorem kept_watchTune {K : Nat} {s0 s : State} (hk : Kept K s0 s) (v : SvcId) (i : Slc) (std : Std) (khz : Nat) (hm : 0x8 &&& K = 0x8 := by decide) : Kept K s0 (State.watchTune s v i std khz) := by
  refine hk.into hm ?_
  have hk := Kept.refl 0x8 s
  unfold State.watchTune
  repeat' first | with_reducible assumption | with_reducible refine kept_puts ?_ _ _ (by decide) | with_reducible refine kept_put ?_ _ _ _ (by decide) | with_reducible refine kept_clearRegs ?_ _ _ _ (by decide) | dsimp only | split

theorem kept_watchTake {K : Nat} {s0 s : State} (hk : Kept K s0 s) (v : SvcId) (i : Slc) (std : Std) (khz : Nat) (hm : 0x3888 &&& K = 0x3888 := by decide) : Kept K s0 (State.watchTake s v i std khz) := by
  refine hk.into hm ?_
  have hk := Kept.refl 0x3888 s
  unfold State.watchTake
  repeat' first | with_reducible assumption | with_reducible refine kept_slcEdges ?_ _ (by decide) | with_reducible refine kept_restartDemod ?_ _ (by decide) | with_reducible refine kept_updSlc ?_ _ _ (by decide) | with_reducible refine kept_watchTune ?_ _ _ _ _ (by decide) | with_reducible refine kept_slcSettle ?_ _ (by decide) | simp only [kept_is_mk] | with_reducible refine kept_mk ?_ | dsimp only | split

theorem kept_watched {K : Nat} {s0 s : State} (hk : Kept K s0 s) (v : SvcId) (n : CandId) (rx : Rx) (hm : 0x20000 &&& K = 0x20000 := by decide) : Kept K s0 (State.watched s v n rx) := by
  refine hk.into hm ?_
  have hk := Kept.refl 0x20000 s
  unfold State.watched
  repeat' first | with_reducible assumption | with_reducible refine kept_updCand ?_ _ _ _ (by decide) | simp only [kept_is_mk] | with_reducible refine kept_mk ?_ | dsimp only | split

theorem kept_waiting {K : Nat} {s0 s : State} (hk : Kept K s0 s) (v : SvcId) (n : CandId) (w : Wait) (hm : 0x20088 &&& K = 0x20088 := by decide) : Kept K s0 (State.waiting s v n w) := by
  refine hk.into hm ?_
  have hk := Kept.refl 0x20088 s
  unfold State.waiting
  repeat' first | with_reducible assumption | with_reducible refine kept_updCand ?_ _ _ _ (by decide) | with_reducible refine kept_raise ?_ _ _ (by decide) | simp only [kept_is_mk] | with_reducible refine kept_mk ?_ | dsimp only | split

theorem kept_seekRx {K : Nat} {s0 s : State} (hk : Kept K s0 s) (v : SvcId) (n : CandId) (hm : 0x23888 &&& K = 0x23888 := by decide) : Kept K s0 (State.seekRx s v n) := by
  refine hk.into hm ?_
  have hk := Kept.refl 0x23888 s
  unfold State.seekRx
  repeat' first | with_reducible assumption | with_reducible refine kept_watchTake ?_ _ _ _ _ (by decide) | with_reducible refine kept_updSlc ?_ _ _ (by decide) | with_reducible refine kept_watched ?_ _ _ _ (by decide) | with_reducible refine kept_waiting ?_ _ _ _ (by decide) | simp only [kept_is_mk] | with_reducible refine kept_mk ?_ | dsimp only | split

theorem kept_enterNoSource {K : Nat} {s0 s : State} (hk : Kept K s0 s) (v : SvcId) (conceal : Nat) (hm : 0x20088 &&& K = 0x20088 := by decide) : Kept K s0 (State.enterNoSource s v conceal) := by
  refine hk.into hm ?_
  have hk := Kept.refl 0x20088 s
  unfold State.enterNoSource
  repeat' first | with_reducible assumption | with_reducible refine kept_updSlot ?_ _ _ (by decide) | with_reducible refine kept_raise ?_ _ _ (by decide) | with_reducible refine kept_count ?_ _ _ _ (by decide) | simp only [kept_is_mk] | with_reducible refine kept_mk ?_ | dsimp only | split

theorem kept_unStandby {K : Nat} {s0 s : State} (hk : Kept K s0 s) (v : SvcId) (n : CandId) (hm : 0x20088 &&& K = 0x20088 := by decide) : Kept K s0 (State.unStandby s v n) := by
  refine hk.into hm ?_
  have hk := Kept.refl 0x20088 s
  unfold State.unStandby
  repeat' first | with_reducible assumption | with_reducible refine kept_enterNoSource ?_ _ _ (by decide) | with_reducible refine kept_updSlot ?_ _ _ (by decide) | simp only [kept_is_mk] | with_reducible refine kept_mk ?_ | dsimp only | split

theorem kept_candDown {K : Nat} {s0 s : State} (hk : Kept K s0 s) (v : SvcId) (n : CandId) (st : CandState) (hm : 0x233888 &&& K = 0x233888 := by decide) : Kept K s0 (State.candDown s v n st) := by
  refine hk.into hm ?_
  have hk := Kept.refl 0x233888 s
  unfold State.candDown
  repeat' first | with_reducible assumption | with_reducible refine kept_updCand ?_ _ _ _ (by decide) | with_reducible refine kept_unStandby ?_ _ _ (by decide) | with_reducible refine kept_dropDec ?_ _ _ (by decide) | with_reducible refine kept_dropRx ?_ _ _ (by decide) | simp only [kept_is_mk] | with_reducible refine kept_mk ?_ | dsimp only | split

theorem kept_candEmpty {K : Nat} {s0 s : State} (hk : Kept K s0 s) (v : SvcId) (n : CandId) (hm : 0x233888 &&& K = 0x233888 := by decide) : Kept K s0 (State.candEmpty s v n) := by
  refine hk.into hm ?_
  have hk := Kept.refl 0x233888 s
  unfold State.candEmpty
  repeat' first | with_reducible assumption | with_reducible refine kept_updCand ?_ _ _ _ (by decide) | with_reducible refine kept_candDown ?_ _ _ _ (by decide) | dsimp only | split

theorem kept_candFail {K : Nat} {s0 s : State} (hk : Kept K s0 s) (v : SvcId) (n : CandId) (r : FailReason) (hm : 0x233888 &&& K = 0x233888 := by decide) : Kept K s0 (State.candFail s v n r) := by
  refine hk.into hm ?_
  have hk := Kept.refl 0x233888 s
  unfold State.candFail
  repeat' first | with_reducible assumption | with_reducible refine kept_updCand ?_ _ _ _ (by decide) | with_reducible refine kept_candDown ?_ _ _ _ (by decide) | with_reducible refine kept_raise ?_ _ _ (by decide) | simp only [kept_is_mk] | with_reducible refine kept_mk ?_ | dsimp only | split

theorem kept_candWatch {K : Nat} {s0 s : State} (hk : Kept K s0 s) (v : SvcId) (n : CandId) (hm : 0x230088 &&& K = 0x230088 := by decide) : Kept K s0 (State.candWatch s v n) := by
  refine hk.into hm ?_
  have hk := Kept.refl 0x230088 s
  unfold State.candWatch
  repeat' first | with_reducible assumption | with_reducible refine kept_updCand ?_ _ _ _ (by decide) | with_reducible refine kept_unStandby ?_ _ _ (by decide) | with_reducible refine kept_dropDec ?_ _ _ (by decide) | simp only [kept_is_mk] | with_reducible refine kept_mk ?_ | dsimp only | split

theorem kept_candVerify {K : Nat} {s0 s : State} (hk : Kept K s0 s) (v : SvcId) (n : CandId) (hm : 0x20088 &&& K = 0x20088 := by decide) : Kept K s0 (State.candVerify s v n) := by
  refine hk.into hm ?_
  have hk := Kept.refl 0x20088 s
  unfold State.candVerify
  repeat' first | with_reducible assumption | with_reducible refine kept_updCand ?_ _ _ _ (by decide) | with_reducible refine kept_unStandby ?_ _ _ (by decide) | simp only [kept_is_mk] | with_reducible refine kept_mk ?_ | dsimp only | split

theorem kept_candLose {K : Nat} {s0 s : State} (hk : Kept K s0 s) (v : SvcId) (n : CandId) (x3 : CandState) (hm : 0x233888 &&& K = 0x233888 := by decide) : Kept K s0 (State.candLose s v n x3) := by
  refine hk.into hm ?_
  have hk := Kept.refl 0x233888 s
  unfold State.candLose
  repeat' first | with_reducible assumption | with_reducible refine kept_candDown ?_ _ _ _ (by decide) | with_reducible refine kept_candVerify ?_ _ _ (by decide) | with_reducible refine kept_candEmpty ?_ _ _ (by decide) | with_reducible refine kept_candWatch ?_ _ _ (by decide) | dsimp only | split

theorem kept_detach {K : Nat} {s0 s : State} (hk : Kept K s0 s) (v : SvcId) (n : CandId) (hm : 0x20000 &&& K = 0x20000 := by decide) : Kept K s0 (State.detach s v n) := by
  refine hk.into hm ?_
  have hk := Kept.refl 0x20000 s
  unfold State.detach
  repeat' first | with_reducible assumption | with_reducible refine kept_updSlot ?_ _ _ (by decide) | dsimp only | split

theorem kept_noSource {K : Nat} {s0 s : State} (hk : Kept K s0 s) (v : SvcId) (n : CandId) (st : CandState) (hm : 0x233888 &&& K = 0x233888 := by decide) : Kept K s0 (State.noSource s v n st) := by
  refine hk.into hm ?_
  have hk := Kept.refl 0x233888 s
  unfold State.noSource
  repeat' first | with_reducible assumption | with_reducible refine kept_enterNoSource ?_ _ _ (by decide) | with_reducible refine kept_candLose ?_ _ _ _ (by decide) | with_reducible refine kept_detach ?_ _ _ (by decide) | dsimp only | split

theorem kept_lossSplice {K : Nat} {s0 s : State} (hk : Kept K s0 s) (v : SvcId) (n : CandId) (m : CandId) (st : CandState) (hm : 0x233888 &&& K = 0x233888 := by decide) : Kept K s0 (State.lossSplice s v n m st) := by
  refine hk.into hm ?_
  have hk := Kept.refl 0x233888 s
  unfold State.lossSplice
  repeat' first | with_reducible assumption | with_reducible refine kept_updSlot ?_ _ _ (by decide) | with_reducible refine kept_candLose ?_ _ _ _ (by decide) | with_reducible refine kept_detach ?_ _ _ (by decide) | simp only [kept_is_mk] | with_reducible refine kept_mk ?_ | dsimp only | split

theorem kept_activeLost {K : Nat} {s0 s : State} (hk : Kept K s0 s) (v : SvcId) (n : CandId) (st : CandState) (hm : 0x233888 &&& K = 0x233888 := by decide) : Kept K s0 (State.activeLost s v n st) := by
  refine hk.into hm ?_
  have hk := Kept.refl 0x233888 s
  unfold State.activeLost
  repeat' first | with_reducible assumption | with_reducible refine kept_lossSplice ?_ _ _ _ _ (by decide) | with_reducible refine kept_noSource ?_ _ _ _ (by decide) | dsimp only | split

theorem kept_followSlot {K : Nat} {s0 s : State} (hk : Kept K s0 s) (v : SvcId) (hm : 0x233888 &&& K = 0x233888 := by decide) : Kept K s0 (State.followSlot s v) := by
  refine hk.into hm ?_
  have hk := Kept.refl 0x233888 s
  unfold State.followSlot
  repeat' first | with_reducible assumption | with_reducible refine kept_lossSplice ?_ _ _ _ _ (by decide) | with_reducible refine kept_activeLost ?_ _ _ _ (by decide) | with_reducible refine kept_updSlot ?_ _ _ (by decide) | with_reducible refine kept_noSource ?_ _ _ _ (by decide) | simp only [kept_is_mk] | with_reducible refine kept_mk ?_ | dsimp only | split

theorem kept_candClock {K : Nat} {s0 s : State} (hk : Kept K s0 s) (v : SvcId) (n : CandId) (hm : 0x20000 &&& K = 0x20000 := by decide) : Kept K s0 (State.candClock s v n) := by
  refine hk.into hm ?_
  have hk := Kept.refl 0x20000 s
  unfold State.candClock
  repeat' first | with_reducible assumption | with_reducible refine kept_updCand ?_ _ _ _ (by decide) | simp only [kept_is_mk] | with_reducible refine kept_mk ?_ | dsimp only | split

theorem kept_followBlock {K : Nat} {s0 s : State} (hk : Kept K s0 s) (hm : 0x233888 &&& K = 0x233888 := by decide) : Kept K s0 (State.followBlock s) := by
  refine hk.into hm ?_
  have hk := Kept.refl 0x233888 s
  unfold State.followBlock
  repeat' first | with_reducible assumption | with_reducible refine kept_candClock ?_ _ _ (by decide) | with_reducible refine kept_followSlot ?_ _ (by decide) | with_reducible refine kept_slotPlay ?_ _ (by decide) | with_reducible refine kept_fillLines ?_ _ (by decide) | with_reducible refine Kept.foldl (fun _ _ h => ?_) _ ?_ | dsimp only | split

theorem kept_candRest {K : Nat} {s0 s : State} (hk : Kept K s0 s) (v : SvcId) (n : CandId) (hm : 0x233888 &&& K = 0x233888 := by decide) : Kept K s0 (State.candRest s v n) := by
  refine hk.into hm ?_
  have hk := Kept.refl 0x233888 s
  unfold State.candRest
  repeat' first | with_reducible assumption | with_reducible refine kept_updCand ?_ _ _ _ (by decide) | with_reducible refine kept_candDown ?_ _ _ _ (by decide) | simp only [kept_is_mk] | with_reducible refine kept_mk ?_ | dsimp only | split

theorem kept_slotsDown {K : Nat} {s0 s : State} (hk : Kept K s0 s) (hm : 0x233888 &&& K = 0x233888 := by decide) : Kept K s0 (State.slotsDown s) := by
  refine hk.into hm ?_
  have hk := Kept.refl 0x233888 s
  unfold State.slotsDown
  repeat' first | with_reducible assumption | with_reducible refine kept_updSlot ?_ _ _ (by decide) | with_reducible refine kept_candRest ?_ _ _ (by decide) | simp only [kept_is_mk] | with_reducible refine kept_mk ?_ | with_reducible refine Kept.foldl (fun _ _ h => ?_) _ ?_ | dsimp only | split

end Sys2Proof.Machine
end

