-- ==== Sys2Proof/Laws/KeptLoam.lean ====
section
/-! SUPPORT. What every operation of Loam.lean keeps. -/

namespace Sys2Proof.Machine

set_option Elab.async false

set_option linter.unusedSimpArgs false

theorem kept_loamLevels {K : Nat} {s0 s : State} (hk : Kept K s0 s) (hm : 0x8000000088 &&& K = 0x8000000088 := by decide) : Kept K s0 (State.loamLevels s) := by
  refine hk.into hm ?_
  have hk := Kept.refl 0x8000000088 s
  unfold State.loamLevels
  repeat' first | with_reducible assumption | with_reducible refine kept_raise ?_ _ _ (by decide) | simp only [kept_is_mk] | with_reducible refine kept_mk ?_ | dsimp only | split

theorem kept_journal {K : Nat} {s0 s : State} (hk : Kept K s0 s) (type : Nat) (key : Nat) (delete : Bool) (owner : Nat) (data : List Byte) (hm : 0x8000000088 &&& K = 0x8000000088 := by decide) : Kept K s0 (State.journal s type key delete owner data).1 := by
  refine hk.into hm ?_
  have hk := Kept.refl 0x8000000088 s
  unfold State.journal
  repeat' first | with_reducible assumption | with_reducible refine kept_count ?_ _ _ _ (by decide) | with_reducible refine kept_loamLevels ?_ (by decide) | simp only [kept_is_mk] | with_reducible refine kept_mk ?_ | dsimp only | split

theorem kept_execRakeSegment {K : Nat} {s0 s : State} (hk : Kept K s0 s) (hm : 0x8000000088 &&& K = 0x8000000088 := by decide) : KeptOut K s0 (execRakeSegment s) := by
  refine hk.out hm ?_
  have hk := Kept.refl 0x8000000088 s
  unfold execRakeSegment
  repeat' first | with_reducible assumption | with_reducible refine kept_raise ?_ _ _ (by decide) | with_reducible refine kept_count ?_ _ _ _ (by decide) | simp only [kept_is_mk] | with_reducible refine kept_mk ?_ | with_reducible apply KeptOut.next | dsimp only | split

theorem kept_afStore {K : Nat} {s0 s : State} (hk : Kept K s0 s) (b : Nat) (hm : 0x8000040088 &&& K = 0x8000040088 := by decide) : Kept K s0 (State.afStore s b) := by
  refine hk.into hm ?_
  have hk := Kept.refl 0x8000040088 s
  unfold State.afStore
  repeat' first | with_reducible assumption | with_reducible refine kept_journal ?_ _ _ _ _ _ (by decide) | simp only [kept_is_mk] | with_reducible refine kept_mk ?_ | (with_reducible refine Kept.of_fst (by assumption) ?_) | (with_reducible refine Kept.of_snd (by assumption) ?_) | dsimp only | split

theorem kept_afStoreAll {K : Nat} {s0 s : State} (hk : Kept K s0 s) (hm : 0x8000040088 &&& K = 0x8000040088 := by decide) : Kept K s0 (State.afStoreAll s) := by
  refine hk.into hm ?_
  have hk := Kept.refl 0x8000040088 s
  unfold State.afStoreAll
  repeat' first | with_reducible assumption | with_reducible refine kept_afStore ?_ _ (by decide) | with_reducible refine Kept.foldl (fun _ _ h => ?_) _ ?_ | dsimp only | split

end Sys2Proof.Machine
end

