-- ==== Sys2Proof/Laws/KeptFollowTick.lean ====
section
/-! SUPPORT. What every operation of FollowTick.lean keeps. -/

namespace Sys2Proof.Machine

set_option Elab.async false

set_option linter.unusedSimpArgs false

theorem kept_slotOff {K : Nat} {s0 s : State} (hk : Kept K s0 s) (v : SvcId) (hm : 0x233888 &&& K = 0x233888 := by decide) : Kept K s0 (State.slotOff s v) := by
  refine hk.into hm ?_
  have hk := Kept.refl 0x233888 s
  unfold State.slotOff
  repeat' first | with_reducible assumption | with_reducible refine kept_strmsGone ?_ _ (by decide) | with_reducible refine kept_updSlot ?_ _ _ (by decide) | with_reducible refine kept_candEmpty ?_ _ _ (by decide) | simp only [kept_is_mk] | with_reducible refine kept_mk ?_ | with_reducible refine Kept.foldl (fun _ _ h => ?_) _ ?_ | dsimp only | split

theorem kept_svcApply {K : Nat} {s0 s : State} (hk : Kept K s0 s) (v : SvcId) (hm : 0x233898 &&& K = 0x233898 := by decide) : Kept K s0 (State.svcApply s v) := by
  refine hk.into hm ?_
  have hk := Kept.refl 0x233898 s
  unfold State.svcApply
  repeat' first | with_reducible assumption | with_reducible refine kept_updSlot ?_ _ _ (by decide) | with_reducible refine kept_slotOff ?_ _ (by decide) | with_reducible refine kept_applyStaged ?_ _ _ (by decide) | simp only [kept_is_mk] | with_reducible refine kept_mk ?_ | dsimp only | split

theorem kept_afWrite {K : Nat} {s0 s : State} (hk : Kept K s0 s) (owner : Nat) (kind : Nat) (id : Nat) (f : AfFreq) (hm : 0x40000 &&& K = 0x40000 := by decide) : Kept K s0 (State.afWrite s owner kind id f) := by
  refine hk.into hm ?_
  have hk := Kept.refl 0x40000 s
  unfold State.afWrite
  repeat' first | with_reducible assumption | simp only [kept_is_mk] | with_reducible refine kept_mk ?_ | dsimp only | split

theorem kept_afHeard {K : Nat} {s0 s : State} (hk : Kept K s0 s) (owner : Nat) (std : Std) (khz : Nat) (sec : Nat) (hm : 0x40000 &&& K = 0x40000 := by decide) : Kept K s0 (State.afHeard s owner std khz sec) := by
  refine hk.into hm ?_
  have hk := Kept.refl 0x40000 s
  unfold State.afHeard
  repeat' first | with_reducible assumption | simp only [kept_is_mk] | with_reducible refine kept_mk ?_ | dsimp only | split

theorem kept_afSwap {K : Nat} {s0 s : State} (hk : Kept K s0 s) (hm : 0xc0000 &&& K = 0xc0000 := by decide) : Kept K s0 (State.afSwap s) := by
  refine hk.into hm ?_
  have hk := Kept.refl 0xc0000 s
  unfold State.afSwap
  repeat' first | with_reducible assumption | with_reducible refine kept_afWrite ?_ _ _ _ _ (by decide) | with_reducible refine kept_afHeard ?_ _ _ _ _ (by decide) | simp only [kept_is_mk] | with_reducible refine kept_mk ?_ | with_reducible refine Kept.foldl (fun _ _ h => ?_) _ ?_ | dsimp only | split

theorem kept_afLearn {K : Nat} {s0 s : State} (hk : Kept K s0 s) (v : SvcId) (n : CandId) (hm : 0x80000 &&& K = 0x80000 := by decide) : Kept K s0 (State.afLearn s v n) := by
  refine hk.into hm ?_
  have hk := Kept.refl 0x80000 s
  unfold State.afLearn
  repeat' first | with_reducible assumption | simp only [kept_is_mk] | with_reducible refine kept_mk ?_ | dsimp only | split

theorem kept_placeAuto {K : Nat} {s0 s : State} (hk : Kept K s0 s) (v : SvcId) (a : Auto) (hm : 0x233888 &&& K = 0x233888 := by decide) : Kept K s0 (State.placeAuto s v a) := by
  refine hk.into hm ?_
  have hk := Kept.refl 0x233888 s
  unfold State.placeAuto
  repeat' first | with_reducible assumption | with_reducible refine kept_updCand ?_ _ _ _ (by decide) | with_reducible refine kept_updSlot ?_ _ _ (by decide) | with_reducible refine kept_raise ?_ _ _ (by decide) | with_reducible refine kept_candEmpty ?_ _ _ (by decide) | with_reducible refine kept_count ?_ _ _ _ (by decide) | simp only [kept_is_mk] | with_reducible refine kept_mk ?_ | dsimp only | split

theorem kept_removeCand {K : Nat} {s0 s : State} (hk : Kept K s0 s) (v : SvcId) (n : CandId) (hm : 0x233888 &&& K = 0x233888 := by decide) : Kept K s0 (State.removeCand s v n) := by
  refine hk.into hm ?_
  have hk := Kept.refl 0x233888 s
  unfold State.removeCand
  repeat' first | with_reducible assumption | with_reducible refine kept_activeLost ?_ _ _ _ (by decide) | with_reducible refine kept_candEmpty ?_ _ _ (by decide) | dsimp only | split

theorem kept_placeOffer {K : Nat} {s0 s : State} (hk : Kept K s0 s) (v : SvcId) (x2 : Offer) (hm : 0x233888 &&& K = 0x233888 := by decide) : Kept K s0 (State.placeOffer s v x2) := by
  refine hk.into hm ?_
  have hk := Kept.refl 0x233888 s
  unfold State.placeOffer
  repeat' first | with_reducible assumption | with_reducible refine kept_updCand ?_ _ _ _ (by decide) | with_reducible refine kept_activeLost ?_ _ _ _ (by decide) | with_reducible refine kept_candDown ?_ _ _ _ (by decide) | with_reducible refine kept_removeCand ?_ _ _ (by decide) | with_reducible refine kept_placeAuto ?_ _ _ (by decide) | with_reducible refine kept_raise ?_ _ _ (by decide) | simp only [kept_is_mk] | with_reducible refine kept_mk ?_ | dsimp only | split

theorem kept_swapTable {K : Nat} {s0 s : State} (hk : Kept K s0 s) (v : SvcId) (hm : 0x233888 &&& K = 0x233888 := by decide) : Kept K s0 (State.swapTable s v) := by
  refine hk.into hm ?_
  have hk := Kept.refl 0x233888 s
  unfold State.swapTable
  repeat' first | with_reducible assumption | with_reducible refine kept_updSlot ?_ _ _ (by decide) | with_reducible refine kept_placeAuto ?_ _ _ (by decide) | with_reducible refine kept_placeOffer ?_ _ _ (by decide) | simp only [kept_is_mk] | with_reducible refine kept_mk ?_ | with_reducible refine Kept.foldl (fun _ _ h => ?_) _ ?_ | dsimp only | split

theorem kept_shareDec {K : Nat} {s0 s : State} (hk : Kept K s0 s) (v : SvcId) (n : CandId) (hm : 0x20000 &&& K = 0x20000 := by decide) : Kept K s0 (State.shareDec s v n) := by
  refine hk.into hm ?_
  have hk := Kept.refl 0x20000 s
  unfold State.shareDec
  repeat' first | with_reducible assumption | with_reducible refine kept_updCand ?_ _ _ _ (by decide) | simp only [kept_is_mk] | with_reducible refine kept_mk ?_ | dsimp only | split

theorem kept_giveDec {K : Nat} {s0 s : State} (hk : Kept K s0 s) (v : SvcId) (n : CandId) (d : DecId) (hm : 0x30008 &&& K = 0x30008 := by decide) : Kept K s0 (State.giveDec s v n d) := by
  refine hk.into hm ?_
  have hk := Kept.refl 0x30008 s
  unfold State.giveDec
  repeat' first | with_reducible assumption | with_reducible refine kept_setReg ?_ _ _ (by decide) | with_reducible refine kept_updCand ?_ _ _ _ (by decide) | with_reducible refine kept_updSlot ?_ _ _ (by decide) | with_reducible refine kept_decClaim ?_ _ _ _ (by decide) | with_reducible refine kept_puts ?_ _ _ (by decide) | simp only [kept_is_mk] | with_reducible refine kept_mk ?_ | dsimp only | split

theorem kept_trialClaim {K : Nat} {s0 s : State} (hk : Kept K s0 s) (v : SvcId) (hm : 0x30088 &&& K = 0x30088 := by decide) : Kept K s0 (State.trialClaim s v) := by
  refine hk.into hm ?_
  have hk := Kept.refl 0x30088 s
  unfold State.trialClaim
  repeat' first | with_reducible assumption | with_reducible refine kept_updCand ?_ _ _ _ (by decide) | with_reducible refine kept_raise ?_ _ _ (by decide) | with_reducible refine kept_giveDec ?_ _ _ _ (by decide) | simp only [kept_is_mk] | with_reducible refine kept_mk ?_ | dsimp only | split

theorem kept_execTrialDecoderMove {K : Nat} {s0 s : State} (hk : Kept K s0 s) (v : SvcId) (hm : 0x230088 &&& K = 0x230088 := by decide) : KeptOut K s0 (execTrialDecoderMove v s) := by
  refine hk.out hm ?_
  have hk := Kept.refl 0x230088 s
  unfold execTrialDecoderMove
  repeat' first | with_reducible assumption | with_reducible refine kept_dropDec ?_ _ _ (by decide) | with_reducible refine kept_giveDec ?_ _ _ _ (by decide) | with_reducible apply KeptOut.next | dsimp only | split

theorem kept_checkRx {K : Nat} {s0 s : State} (hk : Kept K s0 s) (v : SvcId) (n : CandId) (hm : 0x233888 &&& K = 0x233888 := by decide) : Kept K s0 (State.checkRx s v n) := by
  refine hk.into hm ?_
  have hk := Kept.refl 0x233888 s
  unfold State.checkRx
  repeat' first | with_reducible assumption | with_reducible refine kept_candDown ?_ _ _ _ (by decide) | dsimp only | split

theorem kept_judge {K : Nat} {s0 s : State} (hk : Kept K s0 s) (v : SvcId) (n : CandId) (hm : 0x233888 &&& K = 0x233888 := by decide) : Kept K s0 (State.judge s v n) := by
  refine hk.into hm ?_
  have hk := Kept.refl 0x233888 s
  unfold State.judge
  repeat' first | with_reducible assumption | with_reducible refine kept_updCand ?_ _ _ _ (by decide) | with_reducible refine kept_candFail ?_ _ _ _ (by decide) | with_reducible refine kept_candWatch ?_ _ _ (by decide) | simp only [kept_is_mk] | with_reducible refine kept_mk ?_ | dsimp only | split

theorem kept_measure {K : Nat} {s0 s : State} (hk : Kept K s0 s) (ms : List CandMeas) (v : SvcId) (n : CandId) (hm : 0x20000 &&& K = 0x20000 := by decide) : Kept K s0 (State.measure s ms v n) := by
  refine hk.into hm ?_
  have hk := Kept.refl 0x20000 s
  unfold State.measure
  repeat' first | with_reducible assumption | with_reducible refine kept_updCand ?_ _ _ _ (by decide) | with_reducible refine kept_updSlot ?_ _ _ (by decide) | simp only [kept_is_mk] | with_reducible refine kept_mk ?_ | dsimp only | split

theorem kept_align {K : Nat} {s0 s : State} (hk : Kept K s0 s) (ms : List CandMeas) (v : SvcId) (n : CandId) (hm : 0x20088 &&& K = 0x20088 := by decide) : Kept K s0 (State.align s ms v n) := by
  refine hk.into hm ?_
  have hk := Kept.refl 0x20088 s
  unfold State.align
  repeat' first | with_reducible assumption | with_reducible refine kept_updCand ?_ _ _ _ (by decide) | with_reducible refine kept_candVerify ?_ _ _ (by decide) | with_reducible refine kept_raise ?_ _ _ (by decide) | simp only [kept_is_mk] | with_reducible refine kept_mk ?_ | dsimp only | split

theorem kept_realign {K : Nat} {s0 s : State} (hk : Kept K s0 s) (v : SvcId) (n : CandId) (hm : 0x20088 &&& K = 0x20088 := by decide) : Kept K s0 (State.realign s v n) := by
  refine hk.into hm ?_
  have hk := Kept.refl 0x20088 s
  unfold State.realign
  repeat' first | with_reducible assumption | with_reducible refine kept_candVerify ?_ _ _ (by decide) | with_reducible refine Kept.foldl (fun _ _ h => ?_) _ ?_ | dsimp only | split

theorem kept_activate {K : Nat} {s0 s : State} (hk : Kept K s0 s) (v : SvcId) (n : CandId) (hm : 0x20088 &&& K = 0x20088 := by decide) : Kept K s0 (State.activate s v n) := by
  refine hk.into hm ?_
  have hk := Kept.refl 0x20088 s
  unfold State.activate
  repeat' first | with_reducible assumption | with_reducible refine kept_updCand ?_ _ _ _ (by decide) | with_reducible refine kept_updSlot ?_ _ _ (by decide) | with_reducible refine kept_unStandby ?_ _ _ (by decide) | with_reducible refine kept_playFrom ?_ _ _ _ (by decide) | with_reducible refine kept_raise ?_ _ _ (by decide) | with_reducible refine kept_realign ?_ _ _ (by decide) | simp only [kept_is_mk] | with_reducible refine kept_mk ?_ | dsimp only | split

theorem kept_chooseActive {K : Nat} {s0 s : State} (hk : Kept K s0 s) (ms : List CandMeas) (v : SvcId) (hm : 0x20088 &&& K = 0x20088 := by decide) : Kept K s0 (State.chooseActive s ms v) := by
  refine hk.into hm ?_
  have hk := Kept.refl 0x20088 s
  unfold State.chooseActive
  repeat' first | with_reducible assumption | with_reducible refine kept_activate ?_ _ _ (by decide) | dsimp only | split

theorem kept_freeStandby {K : Nat} {s0 s : State} (hk : Kept K s0 s) (v : SvcId) (n : CandId) (hm : 0x20000 &&& K = 0x20000 := by decide) : Kept K s0 (State.freeStandby s v n) := by
  refine hk.into hm ?_
  have hk := Kept.refl 0x20000 s
  unfold State.freeStandby
  repeat' first | with_reducible assumption | with_reducible refine kept_updCand ?_ _ _ _ (by decide) | with_reducible refine kept_updSlot ?_ _ _ (by decide) | simp only [kept_is_mk] | with_reducible refine kept_mk ?_ | dsimp only | split

theorem kept_chooseStandby {K : Nat} {s0 s : State} (hk : Kept K s0 s) (v : SvcId) (hm : 0x20000 &&& K = 0x20000 := by decide) : Kept K s0 (State.chooseStandby s v) := by
  refine hk.into hm ?_
  have hk := Kept.refl 0x20000 s
  unfold State.chooseStandby
  repeat' first | with_reducible assumption | with_reducible refine kept_freeStandby ?_ _ _ (by decide) | with_reducible refine kept_updCand ?_ _ _ _ (by decide) | with_reducible refine kept_updSlot ?_ _ _ (by decide) | simp only [kept_is_mk] | with_reducible refine kept_mk ?_ | dsimp only | split

theorem kept_chooseSwitch {K : Nat} {s0 s : State} (hk : Kept K s0 s) (v : SvcId) (hm : 0x20000 &&& K = 0x20000 := by decide) : Kept K s0 (State.chooseSwitch s v) := by
  refine hk.into hm ?_
  have hk := Kept.refl 0x20000 s
  unfold State.chooseSwitch
  repeat' first | with_reducible assumption | with_reducible refine kept_updSlot ?_ _ _ (by decide) | simp only [kept_is_mk] | with_reducible refine kept_mk ?_ | dsimp only | split

theorem kept_learn {K : Nat} {s0 s : State} (hk : Kept K s0 s) (v : SvcId) (hm : 0x20000 &&& K = 0x20000 := by decide) : Kept K s0 (State.learn s v) := by
  refine hk.into hm ?_
  have hk := Kept.refl 0x20000 s
  unfold State.learn
  repeat' first | with_reducible assumption | with_reducible refine kept_updSlot ?_ _ _ (by decide) | simp only [kept_is_mk] | with_reducible refine kept_mk ?_ | dsimp only | split

theorem kept_relaxGain {K : Nat} {s0 s : State} (hk : Kept K s0 s) (v : SvcId) (hm : 0x20000 &&& K = 0x20000 := by decide) : Kept K s0 (State.relaxGain s v) := by
  refine hk.into hm ?_
  have hk := Kept.refl 0x20000 s
  unfold State.relaxGain
  repeat' first | with_reducible assumption | with_reducible refine kept_updSlot ?_ _ _ (by decide) | simp only [kept_is_mk] | with_reducible refine kept_mk ?_ | dsimp only | split

theorem kept_tickSlot {K : Nat} {s0 s : State} (hk : Kept K s0 s) (ms : List CandMeas) (v : SvcId) (hm : 0x2b3888 &&& K = 0x2b3888 := by decide) : Kept K s0 (State.tickSlot s ms v) := by
  refine hk.into hm ?_
  have hk := Kept.refl 0x2b3888 s
  unfold State.tickSlot
  repeat' first | with_reducible assumption | with_reducible refine kept_chooseStandby ?_ _ (by decide) | with_reducible refine kept_checkRx ?_ _ _ (by decide) | with_reducible refine kept_updSlot ?_ _ _ (by decide) | with_reducible refine kept_align ?_ _ _ _ (by decide) | with_reducible refine kept_chooseSwitch ?_ _ (by decide) | with_reducible refine kept_trialClaim ?_ _ (by decide) | with_reducible refine kept_judge ?_ _ _ (by decide) | with_reducible refine kept_swapTable ?_ _ (by decide) | with_reducible refine kept_chooseActive ?_ _ _ (by decide) | with_reducible refine kept_relaxGain ?_ _ (by decide) | with_reducible refine kept_seekRx ?_ _ _ (by decide) | with_reducible refine kept_afLearn ?_ _ _ (by decide) | with_reducible refine kept_measure ?_ _ _ _ (by decide) | with_reducible refine kept_learn ?_ _ (by decide) | with_reducible refine kept_shareDec ?_ _ _ (by decide) | simp only [kept_is_mk] | with_reducible refine kept_mk ?_ | with_reducible refine Kept.foldl (fun _ _ h => ?_) _ ?_ | dsimp only | split

theorem kept_surveyStart {K : Nat} {s0 s : State} (hk : Kept K s0 s) (i : Slc) (hm : 0x100800 &&& K = 0x100800 := by decide) : Kept K s0 (State.surveyStart s i) := by
  refine hk.into hm ?_
  have hk := Kept.refl 0x100800 s
  unfold State.surveyStart
  repeat' first | with_reducible assumption | with_reducible refine kept_updSlc ?_ _ _ (by decide) | simp only [kept_is_mk] | with_reducible refine kept_mk ?_ | dsimp only | split

theorem kept_surveyTick {K : Nat} {s0 s : State} (hk : Kept K s0 s) (hm : 0x100800 &&& K = 0x100800 := by decide) : Kept K s0 (State.surveyTick s) := by
  refine hk.into hm ?_
  have hk := Kept.refl 0x100800 s
  unfold State.surveyTick
  repeat' first | with_reducible assumption | with_reducible refine kept_surveyStart ?_ _ (by decide) | simp only [kept_is_mk] | with_reducible refine kept_mk ?_ | with_reducible refine Kept.foldl (fun _ _ h => ?_) _ ?_ | dsimp only | split

theorem kept_surveyHear {K : Nat} {s0 s : State} (hk : Kept K s0 s) (owner : Nat) (std : Std) (khz : Nat) (hm : 0x80000 &&& K = 0x80000 := by decide) : Kept K s0 (State.surveyHear s owner std khz).1 := by
  refine hk.into hm ?_
  have hk := Kept.refl 0x80000 s
  unfold State.surveyHear
  repeat' first | with_reducible assumption | simp only [kept_is_mk] | with_reducible refine kept_mk ?_ | dsimp only | split

theorem kept_surveyOffer {K : Nat} {s0 s : State} (hk : Kept K s0 s) (owner : Nat) (khz : Nat) (pi : Nat) (hm : 0x20000 &&& K = 0x20000 := by decide) : Kept K s0 (State.surveyOffer s owner khz pi) := by
  refine hk.into hm ?_
  have hk := Kept.refl 0x20000 s
  unfold State.surveyOffer
  repeat' first | with_reducible assumption | with_reducible refine kept_updSlot ?_ _ _ (by decide) | simp only [kept_is_mk] | with_reducible refine kept_mk ?_ | with_reducible refine Kept.foldl (fun _ _ h => ?_) _ ?_ | dsimp only | split

theorem kept_execSurveyVisit {K : Nat} {s0 s : State} (hk : Kept K s0 s) (i : Slc) (m : SurveyMeas) (hm : 0x1a0800 &&& K = 0x1a0800 := by decide) : KeptOut K s0 (execSurveyVisit i m s) := by
  refine hk.out hm ?_
  have hk := Kept.refl 0x1a0800 s
  unfold execSurveyVisit
  repeat' first | with_reducible assumption | with_reducible refine kept_surveyOffer ?_ _ _ _ (by decide) | with_reducible refine kept_surveyStart ?_ _ (by decide) | with_reducible refine kept_surveyHear ?_ _ _ _ (by decide) | simp only [kept_is_mk] | with_reducible refine kept_mk ?_ | with_reducible refine Kept.foldl (fun _ _ h => ?_) _ ?_ | with_reducible refine Kept.foldl_fst (fun _ _ h => ?_) _ ?_ | (with_reducible refine Kept.of_fst (by assumption) ?_) | (with_reducible refine Kept.of_snd (by assumption) ?_) | with_reducible apply KeptOut.next | dsimp only | split

theorem kept_execFollowingTick {K : Nat} {s0 s : State} (hk : Kept K s0 s) (ms : List CandMeas) (hm : 0x80003f3b88 &&& K = 0x80003f3b88 := by decide) : KeptOut K s0 (execFollowingTick ms s) := by
  refine hk.out hm ?_
  have hk := Kept.refl 0x80003f3b88 s
  unfold execFollowingTick
  repeat' first | with_reducible assumption | with_reducible refine kept_surveyTick ?_ (by decide) | with_reducible refine kept_afStoreAll ?_ (by decide) | with_reducible refine kept_tickSlot ?_ _ _ (by decide) | with_reducible refine kept_afSwap ?_ (by decide) | with_reducible refine kept_advance ?_ _ (by decide) | with_reducible refine Kept.foldl (fun _ _ h => ?_) _ ?_ | with_reducible apply KeptOut.next | dsimp only | split

theorem kept_execCandGiveUp {K : Nat} {s0 s : State} (hk : Kept K s0 s) (v : SvcId) (n : CandId) (seen : Bool) (hm : 0x2b3888 &&& K = 0x2b3888 := by decide) : KeptOut K s0 (execCandGiveUp v n seen s) := by
  refine hk.out hm ?_
  have hk := Kept.refl 0x2b3888 s
  unfold execCandGiveUp
  repeat' first | with_reducible assumption | with_reducible refine kept_updCand ?_ _ _ _ (by decide) | with_reducible refine kept_race ?_ _ (by decide) | with_reducible refine kept_afLearn ?_ _ _ (by decide) | with_reducible refine kept_candFail ?_ _ _ _ (by decide) | simp only [kept_is_mk] | with_reducible refine kept_mk ?_ | with_reducible apply KeptOut.next | dsimp only | split

theorem kept_execCandFailRetry {K : Nat} {s0 s : State} (hk : Kept K s0 s) (v : SvcId) (n : CandId) (hm : 0x20000 &&& K = 0x20000 := by decide) : KeptOut K s0 (execCandFailRetry v n s) := by
  refine hk.out hm ?_
  have hk := Kept.refl 0x20000 s
  unfold execCandFailRetry
  repeat' first | with_reducible assumption | with_reducible refine kept_updCand ?_ _ _ _ (by decide) | simp only [kept_is_mk] | with_reducible refine kept_mk ?_ | with_reducible apply KeptOut.next | dsimp only | split

theorem kept_execLoudnessValid {K : Nat} {s0 s : State} (hk : Kept K s0 s) (v : SvcId) (n : CandId) (hm : 0x20000 &&& K = 0x20000 := by decide) : KeptOut K s0 (execLoudnessValid v n s) := by
  refine hk.out hm ?_
  have hk := Kept.refl 0x20000 s
  unfold execLoudnessValid
  repeat' first | with_reducible assumption | with_reducible refine kept_updCand ?_ _ _ _ (by decide) | simp only [kept_is_mk] | with_reducible refine kept_mk ?_ | with_reducible apply KeptOut.next | dsimp only | split

theorem kept_execStandbyFilled {K : Nat} {s0 s : State} (hk : Kept K s0 s) (v : SvcId) (hm : 0x20000 &&& K = 0x20000 := by decide) : KeptOut K s0 (execStandbyFilled v s) := by
  refine hk.out hm ?_
  have hk := Kept.refl 0x20000 s
  unfold execStandbyFilled
  repeat' first | with_reducible assumption | with_reducible refine kept_freeStandby ?_ _ _ (by decide) | with_reducible refine kept_updCand ?_ _ _ _ (by decide) | with_reducible refine kept_updSlot ?_ _ _ (by decide) | simp only [kept_is_mk] | with_reducible refine kept_mk ?_ | with_reducible apply KeptOut.next | dsimp only | split

theorem kept_execSwitchSplice {K : Nat} {s0 s : State} (hk : Kept K s0 s) (v : SvcId) (hm : 0x20000 &&& K = 0x20000 := by decide) : KeptOut K s0 (execSwitchSplice v s) := by
  refine hk.out hm ?_
  have hk := Kept.refl 0x20000 s
  unfold execSwitchSplice
  repeat' first | with_reducible assumption | with_reducible refine kept_updCand ?_ _ _ _ (by decide) | with_reducible refine kept_updSlot ?_ _ _ (by decide) | with_reducible refine kept_spliceTo ?_ _ _ _ _ _ _ (by decide) | simp only [kept_is_mk] | with_reducible refine kept_mk ?_ | with_reducible apply KeptOut.next | dsimp only | split

theorem kept_completeSwitch {K : Nat} {s0 s : State} (hk : Kept K s0 s) (v : SvcId) (b : CandId) (at_ : Nat) (hm : 0x20088 &&& K = 0x20088 := by decide) : Kept K s0 (State.completeSwitch s v b at_) := by
  refine hk.into hm ?_
  have hk := Kept.refl 0x20088 s
  unfold State.completeSwitch
  repeat' first | with_reducible assumption | with_reducible refine kept_freeStandby ?_ _ _ (by decide) | with_reducible refine kept_updCand ?_ _ _ _ (by decide) | with_reducible refine kept_updSlot ?_ _ _ (by decide) | with_reducible refine kept_raise ?_ _ _ (by decide) | with_reducible refine kept_putPair ?_ _ _ _ _ (by decide) | with_reducible refine kept_count ?_ _ _ _ (by decide) | simp only [kept_is_mk] | with_reducible refine kept_mk ?_ | with_reducible refine Kept.foldl (fun _ _ h => ?_) _ ?_ | dsimp only | split

theorem kept_execBlendEnd {K : Nat} {s0 s : State} (hk : Kept K s0 s) (v : SvcId) (hm : 0x20088 &&& K = 0x20088 := by decide) : KeptOut K s0 (execBlendEnd v s) := by
  refine hk.out hm ?_
  have hk := Kept.refl 0x20088 s
  unfold execBlendEnd
  repeat' first | with_reducible assumption | with_reducible refine kept_completeSwitch ?_ _ _ _ (by decide) | with_reducible apply KeptOut.next | dsimp only | split

theorem kept_execMulchConcealExpiry {K : Nat} {s0 s : State} (hk : Kept K s0 s) (v : SvcId) (seen : Bool) (hm : 0x233888 &&& K = 0x233888 := by decide) : KeptOut K s0 (execMulchConcealExpiry v seen s) := by
  refine hk.out hm ?_
  have hk := Kept.refl 0x233888 s
  unfold execMulchConcealExpiry
  repeat' first | with_reducible assumption | with_reducible refine kept_updSlot ?_ _ _ (by decide) | with_reducible refine kept_noSource ?_ _ _ _ (by decide) | with_reducible refine kept_race ?_ _ (by decide) | simp only [kept_is_mk] | with_reducible refine kept_mk ?_ | with_reducible apply KeptOut.next | dsimp only | split

theorem kept_execLearnedIdDrop {K : Nat} {s0 s : State} (hk : Kept K s0 s) (v : SvcId) (hm : 0x233888 &&& K = 0x233888 := by decide) : KeptOut K s0 (execLearnedIdDrop v s) := by
  refine hk.out hm ?_
  have hk := Kept.refl 0x233888 s
  unfold execLearnedIdDrop
  repeat' first | with_reducible assumption | with_reducible refine kept_activeLost ?_ _ _ _ (by decide) | with_reducible refine kept_updSlot ?_ _ _ (by decide) | with_reducible refine kept_candWatch ?_ _ _ (by decide) | simp only [kept_is_mk] | with_reducible refine kept_mk ?_ | with_reducible refine Kept.foldl (fun _ _ h => ?_) _ ?_ | with_reducible apply KeptOut.next | dsimp only | split

end Sys2Proof.Machine
end

