-- ==== Sys2Proof/Laws/KeptRecords.lean ====
section
/-! SUPPORT. What every operation of Records.lean keeps. -/

namespace Sys2Proof.Machine

set_option Elab.async false

set_option linter.unusedSimpArgs false

theorem kept_updSmc {K : Nat} {s0 s : State} (hk : Kept K s0 s) (f : Smc → Smc) (hm : 0x800000000 &&& K = 0x800000000 := by decide) : Kept K s0 (State.updSmc s f) := by
  refine hk.into hm ?_
  have hk := Kept.refl 0x800000000 s
  unfold State.updSmc
  repeat' first | with_reducible assumption | simp only [kept_is_mk] | with_reducible refine kept_mk ?_ | dsimp only | split

theorem kept_updPoint {K : Nat} {s0 s : State} (hk : Kept K s0 s) (p : PtId) (f : Point → Point) (hm : 0x800000000 &&& K = 0x800000000 := by decide) : Kept K s0 (State.updPoint s p f) := by
  refine hk.into hm ?_
  have hk := Kept.refl 0x800000000 s
  unfold State.updPoint
  repeat' first | with_reducible assumption | with_reducible refine kept_updSmc ?_ _ (by decide) | simp only [kept_is_mk] | with_reducible refine kept_mk ?_ | dsimp only | split

theorem kept_pointValue {K : Nat} {s0 s : State} (hk : Kept K s0 s) (x : Point) (a : PtAcc) (hm : 0x4 &&& K = 0x4 := by decide) : Kept K s0 (State.pointValue s x a).2 := by
  refine hk.into hm ?_
  have hk := Kept.refl 0x4 s
  unfold State.pointValue
  repeat' first | with_reducible assumption | with_reducible refine kept_draw ?_ (by decide) | (with_reducible refine Kept.of_fst (by assumption) ?_) | (with_reducible refine Kept.of_snd (by assumption) ?_) | dsimp only | split

theorem kept_placeRec {K : Nat} {s0 s : State} (hk : Kept K s0 s) (r : Rec) (hm : 0x820000080 &&& K = 0x820000080 := by decide) : Kept K s0 (State.placeRec s r) := by
  refine hk.into hm ?_
  have hk := Kept.refl 0x820000080 s
  unfold State.placeRec
  repeat' first | with_reducible assumption | with_reducible refine kept_setSession ?_ _ _ _ (by decide) | simp only [kept_is_mk] | with_reducible refine kept_mk ?_ | dsimp only | split

theorem kept_placeRecords {K : Nat} {s0 s : State} (hk : Kept K s0 s) (owner : Nat) (hm : 0x820000080 &&& K = 0x820000080 := by decide) : Kept K s0 (State.placeRecords s owner) := by
  refine hk.into hm ?_
  have hk := Kept.refl 0x820000080 s
  unfold State.placeRecords
  repeat' first | with_reducible assumption | with_reducible refine kept_placeRec ?_ _ (by decide) | with_reducible refine Kept.foldl (fun _ _ h => ?_) _ ?_ | dsimp only | split

theorem kept_addRec {K : Nat} {s0 s : State} (hk : Kept K s0 s) (owner : Nat) (r : RecFields) (hm : 0x820000080 &&& K = 0x820000080 := by decide) : Kept K s0 (State.addRec s owner r) := by
  refine hk.into hm ?_
  have hk := Kept.refl 0x820000080 s
  unfold State.addRec
  repeat' first | with_reducible assumption | with_reducible refine kept_placeRec ?_ _ (by decide) | with_reducible refine kept_updSmc ?_ _ (by decide) | simp only [kept_is_mk] | with_reducible refine kept_mk ?_ | dsimp only | split

theorem kept_addEvent {K : Nat} {s0 s : State} (hk : Kept K s0 s) (code : Nat) (value : Nat) (owner : Nat) (hm : 0x820000084 &&& K = 0x820000084 := by decide) : Kept K s0 (State.addEvent s code value owner) := by
  refine hk.into hm ?_
  have hk := Kept.refl 0x820000084 s
  unfold State.addEvent
  repeat' first | with_reducible assumption | with_reducible refine kept_draw ?_ (by decide) | with_reducible refine kept_addRec ?_ _ _ (by decide) | (with_reducible refine Kept.of_fst (by assumption) ?_) | (with_reducible refine Kept.of_snd (by assumption) ?_) | dsimp only | split

theorem kept_smcEvent {K : Nat} {s0 s : State} (hk : Kept K s0 s) (code : Nat) (value : Nat) (hm : 0x820000084 &&& K = 0x820000084 := by decide) : Kept K s0 (State.smcEvent s code value) := by
  refine hk.into hm ?_
  have hk := Kept.refl 0x820000084 s
  unfold State.smcEvent
  repeat' first | with_reducible assumption | with_reducible refine kept_addEvent ?_ _ _ _ (by decide) | with_reducible refine kept_updSmc ?_ _ (by decide) | simp only [kept_is_mk] | with_reducible refine kept_mk ?_ | with_reducible refine Kept.foldl (fun _ _ h => ?_) _ ?_ | with_reducible refine Kept.foldl_fst (fun _ _ h => ?_) _ ?_ | dsimp only | split

theorem kept_closeInterval {K : Nat} {s0 s : State} (hk : Kept K s0 s) (p : PtId) (a : PtAcc) (end_ : Nat) (endAt : Nat) (hm : 0x820000084 &&& K = 0x820000084 := by decide) : Kept K s0 (State.closeInterval s p a end_ endAt) := by
  refine hk.into hm ?_
  have hk := Kept.refl 0x820000084 s
  unfold State.closeInterval
  repeat' first | with_reducible assumption | with_reducible refine kept_updPoint ?_ _ _ (by decide) | with_reducible refine kept_pointValue ?_ _ _ (by decide) | with_reducible refine kept_addRec ?_ _ _ (by decide) | simp only [kept_is_mk] | with_reducible refine kept_mk ?_ | (with_reducible refine Kept.of_fst (by assumption) ?_) | (with_reducible refine Kept.of_snd (by assumption) ?_) | dsimp only | split

theorem kept_closeNow {K : Nat} {s0 s : State} (hk : Kept K s0 s) (p : PtId) (hm : 0x820000084 &&& K = 0x820000084 := by decide) : Kept K s0 (State.closeNow s p) := by
  refine hk.into hm ?_
  have hk := Kept.refl 0x820000084 s
  unfold State.closeNow
  repeat' first | with_reducible assumption | with_reducible refine kept_closeInterval ?_ _ _ _ _ (by decide) | dsimp only | split

theorem kept_closeAll {K : Nat} {s0 s : State} (hk : Kept K s0 s) (hm : 0x820000084 &&& K = 0x820000084 := by decide) : Kept K s0 (State.closeAll s) := by
  refine hk.into hm ?_
  have hk := Kept.refl 0x820000084 s
  unfold State.closeAll
  repeat' first | with_reducible assumption | with_reducible refine kept_closeNow ?_ _ (by decide) | with_reducible refine Kept.foldl (fun _ _ h => ?_) _ ?_ | dsimp only | split

theorem kept_logLevels {K : Nat} {s0 s : State} (hk : Kept K s0 s) (hm : 0x82000008c &&& K = 0x82000008c := by decide) : Kept K s0 (State.logLevels s) := by
  refine hk.into hm ?_
  have hk := Kept.refl 0x82000008c s
  unfold State.logLevels
  repeat' first | with_reducible assumption | with_reducible refine kept_closeAll ?_ (by decide) | with_reducible refine kept_raise ?_ _ _ (by decide) | with_reducible refine kept_smcEvent ?_ _ _ (by decide) | with_reducible refine kept_updSmc ?_ _ (by decide) | simp only [kept_is_mk] | with_reducible refine kept_mk ?_ | dsimp only | split

theorem kept_smcNote {K : Nat} {s0 s : State} (hk : Kept K s0 s) (code : Nat) (value : Nat) (hm : 0x82000008c &&& K = 0x82000008c := by decide) : Kept K s0 (State.smcNote s code value) := by
  refine hk.into hm ?_
  have hk := Kept.refl 0x82000008c s
  unfold State.smcNote
  repeat' first | with_reducible assumption | with_reducible refine kept_logLevels ?_ (by decide) | with_reducible refine kept_smcEvent ?_ _ _ (by decide) | dsimp only | split

theorem kept_audit {K : Nat} {s0 s : State} (hk : Kept K s0 s) (slot : Nat) (kind : Nat) (param : Nat) (crc : Nat) (hm : 0x800000000 &&& K = 0x800000000 := by decide) : Kept K s0 (State.audit s slot kind param crc) := by
  refine hk.into hm ?_
  have hk := Kept.refl 0x800000000 s
  unfold State.audit
  repeat' first | with_reducible assumption | with_reducible refine kept_updSmc ?_ _ (by decide) | simp only [kept_is_mk] | with_reducible refine kept_mk ?_ | dsimp only | split

theorem kept_setSeal {K : Nat} {s0 s : State} (hk : Kept K s0 s) (x : Seal) (hm : 0x800000000 &&& K = 0x800000000 := by decide) : Kept K s0 (State.setSeal s x) := by
  refine hk.into hm ?_
  have hk := Kept.refl 0x800000000 s
  unfold State.setSeal
  repeat' first | with_reducible assumption | with_reducible refine kept_updSmc ?_ _ (by decide) | with_reducible refine kept_flagPoints ?_ _ _ (by decide) | simp only [kept_is_mk] | with_reducible refine kept_mk ?_ | dsimp only | split

theorem kept_pointsPause {K : Nat} {s0 s : State} (hk : Kept K s0 s) (hm : 0x800000000 &&& K = 0x800000000 := by decide) : Kept K s0 (State.pointsPause s) := by
  refine hk.into hm ?_
  have hk := Kept.refl 0x800000000 s
  unfold State.pointsPause
  repeat' first | with_reducible assumption | with_reducible refine kept_updSmc ?_ _ (by decide) | simp only [kept_is_mk] | with_reducible refine kept_mk ?_ | dsimp only | split

theorem kept_pointsWait {K : Nat} {s0 s : State} (hk : Kept K s0 s) (hm : 0x800000000 &&& K = 0x800000000 := by decide) : Kept K s0 (State.pointsWait s) := by
  refine hk.into hm ?_
  have hk := Kept.refl 0x800000000 s
  unfold State.pointsWait
  repeat' first | with_reducible assumption | with_reducible refine kept_updSmc ?_ _ (by decide) | simp only [kept_is_mk] | with_reducible refine kept_mk ?_ | dsimp only | split

theorem kept_smcPause {K : Nat} {s0 s : State} (hk : Kept K s0 s) (reason : Nat) (hm : 0x82000008c &&& K = 0x82000008c := by decide) : Kept K s0 (State.smcPause s reason) := by
  refine hk.into hm ?_
  have hk := Kept.refl 0x82000008c s
  unfold State.smcPause
  repeat' first | with_reducible assumption | with_reducible refine kept_smcNote ?_ _ _ (by decide) | with_reducible refine kept_updSmc ?_ _ (by decide) | simp only [kept_is_mk] | with_reducible refine kept_mk ?_ | dsimp only | split

theorem kept_smcResume {K : Nat} {s0 s : State} (hk : Kept K s0 s) (reason : Nat) (hm : 0x82000008c &&& K = 0x82000008c := by decide) : Kept K s0 (State.smcResume s reason) := by
  refine hk.into hm ?_
  have hk := Kept.refl 0x82000008c s
  unfold State.smcResume
  repeat' first | with_reducible assumption | with_reducible refine kept_smcNote ?_ _ _ (by decide) | with_reducible refine kept_updSmc ?_ _ (by decide) | simp only [kept_is_mk] | with_reducible refine kept_mk ?_ | dsimp only | split

theorem kept_smcIdle {K : Nat} {s0 s : State} (hk : Kept K s0 s) (hm : 0x82000008c &&& K = 0x82000008c := by decide) : Kept K s0 (State.smcIdle s) := by
  refine hk.into hm ?_
  have hk := Kept.refl 0x82000008c s
  unfold State.smcIdle
  repeat' first | with_reducible assumption | with_reducible refine kept_closeAll ?_ (by decide) | with_reducible refine kept_pointsPause ?_ (by decide) | with_reducible refine kept_smcPause ?_ _ (by decide) | dsimp only | split

theorem kept_smcRun {K : Nat} {s0 s : State} (hk : Kept K s0 s) (hm : 0x82000008c &&& K = 0x82000008c := by decide) : Kept K s0 (State.smcRun s) := by
  refine hk.into hm ?_
  have hk := Kept.refl 0x82000008c s
  unfold State.smcRun
  repeat' first | with_reducible assumption | with_reducible refine kept_pointsWait ?_ (by decide) | with_reducible refine kept_smcResume ?_ _ (by decide) | dsimp only | split

theorem kept_smcSleep {K : Nat} {s0 s : State} (hk : Kept K s0 s) (hm : 0x82000008c &&& K = 0x82000008c := by decide) : Kept K s0 (State.smcSleep s) := by
  refine hk.into hm ?_
  have hk := Kept.refl 0x82000008c s
  unfold State.smcSleep
  repeat' first | with_reducible assumption | with_reducible refine kept_closeAll ?_ (by decide) | with_reducible refine kept_pointsPause ?_ (by decide) | with_reducible refine kept_smcPause ?_ _ (by decide) | dsimp only | split

theorem kept_smcLate {K : Nat} {s0 s : State} (hk : Kept K s0 s) (hm : 0x82000008c &&& K = 0x82000008c := by decide) : Kept K s0 (State.smcLate s) := by
  refine hk.into hm ?_
  have hk := Kept.refl 0x82000008c s
  unfold State.smcLate
  repeat' first | with_reducible assumption | with_reducible refine kept_raise ?_ _ _ (by decide) | with_reducible refine kept_smcNote ?_ _ _ (by decide) | with_reducible refine kept_audit ?_ _ _ _ _ (by decide) | with_reducible refine kept_updSmc ?_ _ (by decide) | simp only [kept_is_mk] | with_reducible refine kept_mk ?_ | dsimp only | split

theorem kept_smcWake {K : Nat} {s0 s : State} (hk : Kept K s0 s) (hm : 0x82000008c &&& K = 0x82000008c := by decide) : Kept K s0 (State.smcWake s) := by
  refine hk.into hm ?_
  have hk := Kept.refl 0x82000008c s
  unfold State.smcWake
  repeat' first | with_reducible assumption | with_reducible refine kept_smcLate ?_ (by decide) | with_reducible refine kept_smcResume ?_ _ (by decide) | dsimp only | split

theorem kept_smcTimeBreak {K : Nat} {s0 s : State} (hk : Kept K s0 s) (hm : 0x800000000 &&& K = 0x800000000 := by decide) : Kept K s0 (State.smcTimeBreak s) := by
  refine hk.into hm ?_
  have hk := Kept.refl 0x800000000 s
  unfold State.smcTimeBreak
  repeat' first | with_reducible assumption | with_reducible refine kept_flagPoints ?_ _ _ (by decide) | dsimp only | split

end Sys2Proof.Machine
end

