-- ==== Sys2Proof/Laws/KeptSecurity.lean ====
section
/-! SUPPORT. What every operation of Security.lean keeps. -/

namespace Sys2Proof.Machine

set_option Elab.async false

set_option linter.unusedSimpArgs false

theorem kept_updSec {K : Nat} {s0 s : State} (hk : Kept K s0 s) (f : Sec → Sec) (hm : 0x20000000 &&& K = 0x20000000 := by decide) : Kept K s0 (State.updSec s f) := by
  refine hk.into hm ?_
  have hk := Kept.refl 0x20000000 s
  unfold State.updSec
  repeat' first | with_reducible assumption | simp only [kept_is_mk] | with_reducible refine kept_mk ?_ | dsimp only | split

theorem kept_roleOnly {K : Nat} {s0 s : State} (hk : Kept K s0 s) (op : Nat) (p : Role → Bool) (act : State → State × Reply) (hf : ∀ y0, Kept K s0 y0 → Kept K s0 (act y0).1) (hm : 0x204e000008a &&& K = 0x204e000008a := by decide) : Kept K s0 (State.roleOnly s op p act) := by
  unfold State.roleOnly
  repeat' first | with_reducible assumption | with_reducible refine kept_serve ?_ _ _ _ ?_ (mask_trans (by decide) hm) | with_reducible apply hf | intro _ | dsimp only | split

theorem kept_setPending {K : Nat} {s0 s : State} (hk : Kept K s0 s) (cloche : Bool) (k : KeySlot) (x : Option PendingOpen) (hm : 0x20000000 &&& K = 0x20000000 := by decide) : Kept K s0 (State.setPending s cloche k x) := by
  refine hk.into hm ?_
  have hk := Kept.refl 0x20000000 s
  unfold State.setPending
  repeat' first | with_reducible assumption | with_reducible refine kept_updSec ?_ _ (by decide) | simp only [kept_is_mk] | with_reducible refine kept_mk ?_ | dsimp only | split

theorem kept_openPending {K : Nat} {s0 s : State} (hk : Kept K s0 s) (cloche : Bool) (k : KeySlot) (code : Nat) (key : BitVec 512) (nonce : Quad) (hm : 0x20000004 &&& K = 0x20000004 := by decide) : Kept K s0 (State.openPending s cloche k code key nonce).1 := by
  refine hk.into hm ?_
  have hk := Kept.refl 0x20000004 s
  unfold State.openPending
  repeat' first | with_reducible assumption | with_reducible refine kept_draw ?_ (by decide) | with_reducible refine kept_setPending ?_ _ _ _ (by decide) | (with_reducible refine Kept.of_fst (by assumption) ?_) | (with_reducible refine Kept.of_snd (by assumption) ?_) | dsimp only | split

theorem kept_execSessOpen {K : Nat} {s0 s : State} (hk : Kept K s0 s) (q : CQueue) (code : Nat) (key : BitVec 512) (nonce : Quad) (hm : 0x204e000008e &&& K = 0x204e000008e := by decide) : KeptOut K s0 (execSessOpen q code key nonce s) := by
  refine hk.out hm ?_
  have hk := Kept.refl 0x204e000008e s
  unfold execSessOpen
  repeat' first | with_reducible assumption | with_reducible refine kept_serve ?_ _ _ _ ?_ (by decide) | with_reducible refine kept_openPending ?_ _ _ _ _ _ (by decide) | (with_reducible refine Kept.of_fst (by assumption) ?_) | (with_reducible refine Kept.of_snd (by assumption) ?_) | with_reducible apply KeptOut.next | intro _ | dsimp only | split

theorem kept_openSession {K : Nat} {s0 s : State} (hk : Kept K s0 s) (cloche : Bool) (k : KeySlot) (p : PendingOpen) (hm : 0x21000088 &&& K = 0x21000088 := by decide) : Kept K s0 (State.openSession s cloche k p).1 := by
  refine hk.into hm ?_
  have hk := Kept.refl 0x21000088 s
  unfold State.openSession
  repeat' first | with_reducible assumption | with_reducible refine kept_setSession ?_ _ _ _ (by decide) | with_reducible refine kept_setPending ?_ _ _ _ (by decide) | with_reducible refine kept_endSession ?_ _ _ (by decide) | simp only [kept_is_mk] | with_reducible refine kept_mk ?_ | dsimp only | split

theorem kept_placeFor {K : Nat} {s0 s : State} (hk : Kept K s0 s) (r : Role) (hm : 0x820000080 &&& K = 0x820000080 := by decide) : Kept K s0 (State.placeFor s r) := by
  refine hk.into hm ?_
  have hk := Kept.refl 0x820000080 s
  unfold State.placeFor
  repeat' first | with_reducible assumption | with_reducible refine kept_placeRecords ?_ _ (by decide) | dsimp only | split

theorem kept_execSessConfirm {K : Nat} {s0 s : State} (hk : Kept K s0 s) (q : CQueue) (id : BitVec 16) (sig : BitVec 512) (hm : 0x20ce100008a &&& K = 0x20ce100008a := by decide) : KeptOut K s0 (execSessConfirm q id sig s) := by
  refine hk.out hm ?_
  have hk := Kept.refl 0x20ce100008a s
  unfold execSessConfirm
  repeat' first | with_reducible assumption | with_reducible refine kept_placeFor ?_ _ (by decide) | with_reducible refine kept_answer ?_ _ _ _ (by decide) | with_reducible refine kept_serve ?_ _ _ _ ?_ (by decide) | with_reducible refine kept_openSession ?_ _ _ _ (by decide) | with_reducible refine kept_setPending ?_ _ _ _ (by decide) | with_reducible refine kept_count ?_ _ _ _ (by decide) | (with_reducible refine Kept.of_fst (by assumption) ?_) | (with_reducible refine Kept.of_snd (by assumption) ?_) | with_reducible apply KeptOut.next | intro _ | dsimp only | split

theorem kept_execSessPendingExpiry {K : Nat} {s0 s : State} (hk : Kept K s0 s) (cloche : Bool) (k : KeySlot) (seen : Bool) (hm : 0x20000008 &&& K = 0x20000008 := by decide) : KeptOut K s0 (execSessPendingExpiry cloche k seen s) := by
  refine hk.out hm ?_
  have hk := Kept.refl 0x20000008 s
  unfold execSessPendingExpiry
  repeat' first | with_reducible assumption | with_reducible refine kept_race ?_ _ (by decide) | with_reducible refine kept_setPending ?_ _ _ _ (by decide) | simp only [kept_is_mk] | with_reducible refine kept_mk ?_ | with_reducible apply KeptOut.next | dsimp only | split

theorem kept_execSessClose {K : Nat} {s0 s : State} (hk : Kept K s0 s) (q : CQueue) (hm : 0x204e000008a &&& K = 0x204e000008a := by decide) : KeptOut K s0 (execSessClose q s) := by
  refine hk.out hm ?_
  have hk := Kept.refl 0x204e000008a s
  unfold execSessClose
  repeat' first | with_reducible assumption | with_reducible refine kept_answer ?_ _ _ _ (by decide) | with_reducible refine kept_serve ?_ _ _ _ ?_ (by decide) | with_reducible refine kept_setSession ?_ _ _ _ (by decide) | with_reducible apply KeptOut.next | intro _ | dsimp only | split

theorem kept_execDevCert {K : Nat} {s0 s : State} (hk : Kept K s0 s) (q : CQueue) (hm : 0x204e000008a &&& K = 0x204e000008a := by decide) : KeptOut K s0 (execDevCert q s) := by
  refine hk.out hm ?_
  have hk := Kept.refl 0x204e000008a s
  unfold execDevCert
  repeat' first | with_reducible assumption | with_reducible refine kept_serve ?_ _ _ _ ?_ (by decide) | with_reducible apply KeptOut.next | intro _ | dsimp only | split

theorem kept_execClaim {K : Nat} {s0 s : State} (hk : Kept K s0 s) (q : CQueue) (key : BitVec 512) (hm : 0x284e000008a &&& K = 0x284e000008a := by decide) : KeptOut K s0 (execClaim q key s) := by
  refine hk.out hm ?_
  have hk := Kept.refl 0x284e000008a s
  unfold execClaim
  repeat' first | with_reducible assumption | with_reducible refine kept_updSec ?_ _ (by decide) | with_reducible refine kept_serve ?_ _ _ _ ?_ (by decide) | with_reducible refine kept_journal ?_ _ _ _ _ _ (by decide) | with_reducible refine kept_raise ?_ _ _ (by decide) | simp only [kept_is_mk] | with_reducible refine kept_mk ?_ | (with_reducible refine Kept.of_fst (by assumption) ?_) | (with_reducible refine Kept.of_snd (by assumption) ?_) | with_reducible apply KeptOut.next | intro _ | dsimp only | split

theorem kept_execClaimWindowClose {K : Nat} {s0 s : State} (hk : Kept K s0 s) (seen : Bool) (hm : 0x20000088 &&& K = 0x20000088 := by decide) : KeptOut K s0 (execClaimWindowClose seen s) := by
  refine hk.out hm ?_
  have hk := Kept.refl 0x20000088 s
  unfold execClaimWindowClose
  repeat' first | with_reducible assumption | with_reducible refine kept_updSec ?_ _ (by decide) | with_reducible refine kept_race ?_ _ (by decide) | with_reducible refine kept_raise ?_ _ _ (by decide) | simp only [kept_is_mk] | with_reducible refine kept_mk ?_ | with_reducible apply KeptOut.next | dsimp only | split

theorem kept_execServiceWindowClose {K : Nat} {s0 s : State} (hk : Kept K s0 s) (seen : Bool) (hm : 0x20000008 &&& K = 0x20000008 := by decide) : KeptOut K s0 (execServiceWindowClose seen s) := by
  refine hk.out hm ?_
  have hk := Kept.refl 0x20000008 s
  unfold execServiceWindowClose
  repeat' first | with_reducible assumption | with_reducible refine kept_updSec ?_ _ (by decide) | with_reducible refine kept_race ?_ _ (by decide) | simp only [kept_is_mk] | with_reducible refine kept_mk ?_ | with_reducible apply KeptOut.next | dsimp only | split

theorem kept_updTenant {K : Nat} {s0 s : State} (hk : Kept K s0 s) (n : TenId) (f : TenantSlot → TenantSlot) (hm : 0x20000000 &&& K = 0x20000000 := by decide) : Kept K s0 (State.updTenant s n f) := by
  refine hk.into hm ?_
  have hk := Kept.refl 0x20000000 s
  unfold State.updTenant
  repeat' first | with_reducible assumption | with_reducible refine kept_updSec ?_ _ (by decide) | simp only [kept_is_mk] | with_reducible refine kept_mk ?_ | dsimp only | split

theorem kept_execTenantEnroll {K : Nat} {s0 s : State} (hk : Kept K s0 s) (n : Nat) (key : BitVec 512) (hm : 0x204e000008e &&& K = 0x204e000008e := by decide) : KeptOut K s0 (execTenantEnroll n key s) := by
  refine hk.out hm ?_
  have hk := Kept.refl 0x204e000008e s
  unfold execTenantEnroll
  repeat' first | with_reducible assumption | with_reducible refine kept_draw ?_ (by decide) | with_reducible refine kept_updTenant ?_ _ _ (by decide) | with_reducible refine kept_roleOnly ?_ _ _ _ ?_ (by decide) | (with_reducible refine Kept.of_fst (by assumption) ?_) | (with_reducible refine Kept.of_snd (by assumption) ?_) | with_reducible apply KeptOut.next | intro _ | dsimp only | split

theorem kept_journalTenant {K : Nat} {s0 s : State} (hk : Kept K s0 s) (n : TenId) (hm : 0x8000000088 &&& K = 0x8000000088 := by decide) : Kept K s0 (State.journalTenant s n).1 := by
  refine hk.into hm ?_
  have hk := Kept.refl 0x8000000088 s
  unfold State.journalTenant
  repeat' first | with_reducible assumption | with_reducible refine kept_journal ?_ _ _ _ _ _ (by decide) | (with_reducible refine Kept.of_fst (by assumption) ?_) | (with_reducible refine Kept.of_snd (by assumption) ?_) | dsimp only | split

theorem kept_keyNotice {K : Nat} {s0 s : State} (hk : Kept K s0 s) (n : TenId) (key : Option (BitVec 512)) (hm : 0x800000000 &&& K = 0x800000000 := by decide) : Kept K s0 (State.keyNotice s n key) := by
  refine hk.into hm ?_
  have hk := Kept.refl 0x800000000 s
  unfold State.keyNotice
  repeat' first | with_reducible assumption | with_reducible refine kept_updSmc ?_ _ (by decide) | simp only [kept_is_mk] | with_reducible refine kept_mk ?_ | dsimp only | split

theorem kept_execTenantProve {K : Nat} {s0 s : State} (hk : Kept K s0 s) (n : Nat) (sig : BitVec 512) (hm : 0x28ce000008a &&& K = 0x28ce000008a := by decide) : KeptOut K s0 (execTenantProve n sig s) := by
  refine hk.out hm ?_
  have hk := Kept.refl 0x28ce000008a s
  unfold execTenantProve
  repeat' first | with_reducible assumption | with_reducible refine kept_keyNotice ?_ _ _ (by decide) | with_reducible refine kept_updTenant ?_ _ _ (by decide) | with_reducible refine kept_raise ?_ _ _ (by decide) | with_reducible refine kept_journalTenant ?_ _ (by decide) | with_reducible refine kept_roleOnly ?_ _ _ _ ?_ (by decide) | simp only [kept_is_mk] | with_reducible refine kept_mk ?_ | (with_reducible refine Kept.of_fst (by assumption) ?_) | (with_reducible refine Kept.of_snd (by assumption) ?_) | with_reducible apply KeptOut.next | intro _ | dsimp only | split

theorem kept_execEnrollTimeout {K : Nat} {s0 s : State} (hk : Kept K s0 s) (n : TenId) (seen : Bool) (hm : 0x20000008 &&& K = 0x20000008 := by decide) : KeptOut K s0 (execEnrollTimeout n seen s) := by
  refine hk.out hm ?_
  have hk := Kept.refl 0x20000008 s
  unfold execEnrollTimeout
  repeat' first | with_reducible assumption | with_reducible refine kept_race ?_ _ (by decide) | with_reducible refine kept_updTenant ?_ _ _ (by decide) | with_reducible apply KeptOut.next | dsimp only | split

theorem kept_captureWords {K : Nat} {s0 s : State} (hk : Kept K s0 s) (page : Nat) (role : Nat) (ws : List (Nat × Word)) (hm : 0x20 &&& K = 0x20 := by decide) : Kept K s0 (State.captureWords s page role ws) := by
  refine hk.into hm ?_
  have hk := Kept.refl 0x20 s
  unfold State.captureWords
  repeat' first | with_reducible assumption | simp only [kept_is_mk] | with_reducible refine kept_mk ?_ | dsimp only | split

theorem kept_disableSlice {K : Nat} {s0 s : State} (hk : Kept K s0 s) (i : Slc) (hm : 0x820 &&& K = 0x820 := by decide) : Kept K s0 (State.disableSlice s i) := by
  refine hk.into hm ?_
  have hk := Kept.refl 0x820 s
  unfold State.disableSlice
  repeat' first | with_reducible assumption | with_reducible refine kept_captureWords ?_ _ _ _ (by decide) | with_reducible refine kept_updSlc ?_ _ _ (by decide) | simp only [kept_is_mk] | with_reducible refine kept_mk ?_ | dsimp only | split

theorem kept_disableBed {K : Nat} {s0 s : State} (hk : Kept K s0 s) (k : BedId) (hm : 0x20 &&& K = 0x20 := by decide) : Kept K s0 (State.disableBed s k) := by
  refine hk.into hm ?_
  have hk := Kept.refl 0x20 s
  unfold State.disableBed
  repeat' first | with_reducible assumption | with_reducible refine kept_captureWords ?_ _ _ _ (by decide) | dsimp only | split

theorem kept_disableOut {K : Nat} {s0 s : State} (hk : Kept K s0 s) (role : Nat) (o : OutId) (hm : 0x1000000028 &&& K = 0x1000000028 := by decide) : Kept K s0 (State.disableOut s role o) := by
  refine hk.into hm ?_
  have hk := Kept.refl 0x1000000028 s
  unfold State.disableOut
  repeat' first | with_reducible assumption | with_reducible refine kept_captureWords ?_ _ _ _ (by decide) | with_reducible refine kept_audApply ?_ _ (by decide) | dsimp only | split

theorem kept_disableDec {K : Nat} {s0 s : State} (hk : Kept K s0 s) (d : DecId) (hm : 0x210088 &&& K = 0x210088 := by decide) : Kept K s0 (State.disableDec s d) := by
  refine hk.into hm ?_
  have hk := Kept.refl 0x210088 s
  unfold State.disableDec
  repeat' first | with_reducible assumption | with_reducible refine kept_decRelease ?_ _ (by decide) | with_reducible refine kept_put ?_ _ _ _ (by decide) | dsimp only | split

theorem kept_disableSlot {K : Nat} {s0 s : State} (hk : Kept K s0 s) (v : SvcId) (hm : 0x233888 &&& K = 0x233888 := by decide) : Kept K s0 (State.disableSlot s v) := by
  refine hk.into hm ?_
  have hk := Kept.refl 0x233888 s
  unfold State.disableSlot
  repeat' first | with_reducible assumption | with_reducible refine kept_put ?_ _ _ _ (by decide) | with_reducible refine kept_slotOff ?_ _ (by decide) | dsimp only | split

theorem kept_dropHoldings {K : Nat} {s0 s : State} (hk : Kept K s0 s) (code : Nat) (hm : 0x10006378a8 &&& K = 0x10006378a8 := by decide) : Kept K s0 (State.dropHoldings s code) := by
  refine hk.into hm ?_
  have hk := Kept.refl 0x10006378a8 s
  unfold State.dropHoldings
  repeat' first | with_reducible assumption | with_reducible refine kept_disableBed ?_ _ (by decide) | with_reducible refine kept_disableOut ?_ _ _ (by decide) | with_reducible refine kept_snapIdle ?_ _ _ (by decide) | with_reducible refine kept_disableDec ?_ _ (by decide) | with_reducible refine kept_freeStream ?_ _ (by decide) | with_reducible refine kept_updBund ?_ _ _ (by decide) | with_reducible refine kept_disableSlice ?_ _ (by decide) | with_reducible refine kept_clearRegs ?_ _ _ _ (by decide) | with_reducible refine kept_disableSlot ?_ _ (by decide) | with_reducible refine Kept.foldl (fun _ _ h => ?_) _ ?_ | dsimp only | split

theorem kept_afRewrite {K : Nat} {s0 s : State} (hk : Kept K s0 s) (hm : 0x8000000088 &&& K = 0x8000000088 := by decide) : Kept K s0 (State.afRewrite s) := by
  refine hk.into hm ?_
  have hk := Kept.refl 0x8000000088 s
  unfold State.afRewrite
  repeat' first | with_reducible assumption | with_reducible refine kept_journal ?_ _ _ _ _ _ (by decide) | with_reducible refine Kept.foldl (fun _ _ h => ?_) _ ?_ | with_reducible refine Kept.foldl_fst (fun _ _ h => ?_) _ ?_ | (with_reducible refine Kept.of_fst (by assumption) ?_) | (with_reducible refine Kept.of_snd (by assumption) ?_) | dsimp only | split

theorem kept_afErase {K : Nat} {s0 s : State} (hk : Kept K s0 s) (p : Nat → Bool) (hm : 0x80001c0088 &&& K = 0x80001c0088 := by decide) : Kept K s0 (State.afErase s p) := by
  refine hk.into hm ?_
  have hk := Kept.refl 0x80001c0088 s
  unfold State.afErase
  repeat' first | with_reducible assumption | with_reducible refine kept_afRewrite ?_ (by decide) | simp only [kept_is_mk] | with_reducible refine kept_mk ?_ | dsimp only | split

theorem kept_endTenant {K : Nat} {s0 s : State} (hk : Kept K s0 s) (n : TenId) (hm : 0x20000088 &&& K = 0x20000088 := by decide) : Kept K s0 (State.endTenant s n) := by
  refine hk.into hm ?_
  have hk := Kept.refl 0x20000088 s
  unfold State.endTenant
  repeat' first | with_reducible assumption | with_reducible refine kept_setPending ?_ _ _ _ (by decide) | with_reducible refine kept_endSession ?_ _ _ (by decide) | dsimp only | split

theorem kept_clearRow {K : Nat} {s0 s : State} (hk : Kept K s0 s) (n : TenId) (hm : 0x8 &&& K = 0x8 := by decide) : Kept K s0 (State.clearRow s n) := by
  refine hk.into hm ?_
  have hk := Kept.refl 0x8 s
  unfold State.clearRow
  repeat' first | with_reducible assumption | with_reducible refine kept_clearRegs ?_ _ _ _ (by decide) | dsimp only | split

theorem kept_execTenantRevoke {K : Nat} {s0 s : State} (hk : Kept K s0 s) (n : Nat) (hm : 0x29ce17f78aa &&& K = 0x29ce17f78aa := by decide) : KeptOut K s0 (execTenantRevoke n s) := by
  refine hk.out hm ?_
  have hk := Kept.refl 0x29ce17f78aa s
  unfold execTenantRevoke
  repeat' first | with_reducible assumption | with_reducible refine kept_endTenant ?_ _ (by decide) | with_reducible refine kept_keyNotice ?_ _ _ (by decide) | with_reducible refine kept_clearRow ?_ _ (by decide) | with_reducible refine kept_journal ?_ _ _ _ _ _ (by decide) | with_reducible refine kept_afErase ?_ _ (by decide) | with_reducible refine kept_updTenant ?_ _ _ (by decide) | with_reducible refine kept_raise ?_ _ _ (by decide) | with_reducible refine kept_roleOnly ?_ _ _ _ ?_ (by decide) | with_reducible refine kept_dropHoldings ?_ _ (by decide) | simp only [kept_is_mk] | with_reducible refine kept_mk ?_ | (with_reducible refine Kept.of_fst (by assumption) ?_) | (with_reducible refine Kept.of_snd (by assumption) ?_) | with_reducible apply KeptOut.next | intro _ | dsimp only | split

theorem kept_execSiteRelease {K : Nat} {s0 s : State} (hk : Kept K s0 s) (hm : 0x284e000008a &&& K = 0x284e000008a := by decide) : KeptOut K s0 (execSiteRelease s) := by
  refine hk.out hm ?_
  have hk := Kept.refl 0x284e000008a s
  unfold execSiteRelease
  repeat' first | with_reducible assumption | with_reducible refine kept_updSec ?_ _ (by decide) | with_reducible refine kept_answer ?_ _ _ _ (by decide) | with_reducible refine kept_serve ?_ _ _ _ ?_ (by decide) | with_reducible refine kept_journal ?_ _ _ _ _ _ (by decide) | with_reducible refine kept_setPending ?_ _ _ _ (by decide) | with_reducible refine kept_raise ?_ _ _ (by decide) | with_reducible refine kept_endSession ?_ _ _ (by decide) | simp only [kept_is_mk] | with_reducible refine kept_mk ?_ | (with_reducible refine Kept.of_fst (by assumption) ?_) | (with_reducible refine Kept.of_snd (by assumption) ?_) | with_reducible apply KeptOut.next | intro _ | dsimp only | split

theorem kept_execVendorProfile {K : Nat} {s0 s : State} (hk : Kept K s0 s) (words : List Word) (hm : 0x284e000008a &&& K = 0x284e000008a := by decide) : KeptOut K s0 (execVendorProfile words s) := by
  refine hk.out hm ?_
  have hk := Kept.refl 0x284e000008a s
  unfold execVendorProfile
  repeat' first | with_reducible assumption | with_reducible refine kept_setReg ?_ _ _ (by decide) | with_reducible refine kept_serve ?_ _ _ _ ?_ (by decide) | with_reducible refine kept_journal ?_ _ _ _ _ _ (by decide) | with_reducible refine kept_raise ?_ _ _ (by decide) | with_reducible refine kept_count ?_ _ _ _ (by decide) | with_reducible refine Kept.foldl (fun _ _ h => ?_) _ ?_ | with_reducible refine Kept.foldl_fst (fun _ _ h => ?_) _ ?_ | (with_reducible refine Kept.of_fst (by assumption) ?_) | (with_reducible refine Kept.of_snd (by assumption) ?_) | with_reducible apply KeptOut.next | intro _ | dsimp only | split

theorem kept_endOthers {K : Nat} {s0 s : State} (hk : Kept K s0 s) (hm : 0x20000088 &&& K = 0x20000088 := by decide) : Kept K s0 (State.endOthers s) := by
  refine hk.into hm ?_
  have hk := Kept.refl 0x20000088 s
  unfold State.endOthers
  repeat' first | with_reducible assumption | with_reducible refine kept_updSec ?_ _ (by decide) | with_reducible refine kept_endSessions ?_ _ _ (by decide) | simp only [kept_is_mk] | with_reducible refine kept_mk ?_ | dsimp only | split

theorem kept_execVendorErase {K : Nat} {s0 s : State} (hk : Kept K s0 s) (hm : 0x284e01c008a &&& K = 0x284e01c008a := by decide) : KeptOut K s0 (execVendorErase s) := by
  refine hk.out hm ?_
  have hk := Kept.refl 0x284e01c008a s
  unfold execVendorErase
  repeat' first | with_reducible assumption | with_reducible refine kept_updSec ?_ _ (by decide) | with_reducible refine kept_endOthers ?_ (by decide) | with_reducible refine kept_clearRow ?_ _ (by decide) | with_reducible refine kept_journal ?_ _ _ _ _ _ (by decide) | with_reducible refine kept_afErase ?_ _ (by decide) | with_reducible refine kept_raise ?_ _ _ (by decide) | with_reducible refine kept_roleOnly ?_ _ _ _ ?_ (by decide) | simp only [kept_is_mk] | with_reducible refine kept_mk ?_ | with_reducible refine Kept.foldl (fun _ _ h => ?_) _ ?_ | with_reducible refine Kept.foldl_fst (fun _ _ h => ?_) _ ?_ | (with_reducible refine Kept.of_fst (by assumption) ?_) | (with_reducible refine Kept.of_snd (by assumption) ?_) | with_reducible apply KeptOut.next | intro _ | dsimp only | split

theorem kept_execDebugUnlock {K : Nat} {s0 s : State} (hk : Kept K s0 s) (hm : 0x284e000008a &&& K = 0x284e000008a := by decide) : KeptOut K s0 (execDebugUnlock s) := by
  refine hk.out hm ?_
  have hk := Kept.refl 0x284e000008a s
  unfold execDebugUnlock
  repeat' first | with_reducible assumption | with_reducible refine kept_updSec ?_ _ (by decide) | with_reducible refine kept_journal ?_ _ _ _ _ _ (by decide) | with_reducible refine kept_logFinding ?_ _ _ _ _ _ (by decide) | with_reducible refine kept_raise ?_ _ _ (by decide) | with_reducible refine kept_roleOnly ?_ _ _ _ ?_ (by decide) | with_reducible refine kept_count ?_ _ _ _ (by decide) | simp only [kept_is_mk] | with_reducible refine kept_mk ?_ | (with_reducible refine Kept.of_fst (by assumption) ?_) | (with_reducible refine Kept.of_snd (by assumption) ?_) | with_reducible apply KeptOut.next | intro _ | dsimp only | split

theorem kept_afTrim {K : Nat} {s0 s : State} (h : Kept K s0 s) (owner n : Nat) (hm : 0x40000 &&& K = 0x40000 := by decide) : Kept K s0 (State.afTrim s owner n) := by
  induction n generalizing s with
  | zero => exact h
  | succ n ih =>
    unfold State.afTrim
    split
    · split
      · exact ih (h.into hm (kept_mk (Kept.refl 0x40000 s)))
      · exact h
    · exact h

theorem kept_secApply {K : Nat} {s0 s : State} (hk : Kept K s0 s) (hm : 0x8000040098 &&& K = 0x8000040098 := by decide) : Kept K s0 (State.secApply s) := by
  refine hk.into hm ?_
  have hk := Kept.refl 0x8000040098 s
  unfold State.secApply
  repeat' first | with_reducible assumption | with_reducible refine kept_afTrim ?_ _ _ (by decide) | with_reducible refine kept_journalTenant ?_ _ (by decide) | with_reducible refine kept_applyStaged ?_ _ _ (by decide) | with_reducible refine kept_afRewrite ?_ (by decide) | with_reducible refine Kept.foldl (fun _ _ h => ?_) _ ?_ | with_reducible refine Kept.foldl_fst (fun _ _ h => ?_) _ ?_ | (with_reducible refine Kept.of_fst (by assumption) ?_) | (with_reducible refine Kept.of_snd (by assumption) ?_) | dsimp only | split

end Sys2Proof.Machine
end

