-- ==== Sys2Proof/Laws/KeptSounding.lean ====
section
/-! SUPPORT. What every operation of Sounding.lean keeps. -/

namespace Sys2Proof.Machine

set_option Elab.async false

set_option linter.unusedSimpArgs false

theorem kept_txAccept {K : Nat} {s0 s : State} (hk : Kept K s0 s) (r : TxReq) (hm : 0x4000000000 &&& K = 0x4000000000 := by decide) : Kept K s0 (State.txAccept s r) := by
  refine hk.into hm ?_
  have hk := Kept.refl 0x4000000000 s
  unfold State.txAccept
  repeat' first | with_reducible assumption | simp only [kept_is_mk] | with_reducible refine kept_mk ?_ | dsimp only | split

theorem kept_txRequest {K : Nat} {s0 s : State} (hk : Kept K s0 s) (c : Caller) (hm : 0x4000000000 &&& K = 0x4000000000 := by decide) : Kept K s0 (State.txRequest s c).1 := by
  refine hk.into hm ?_
  have hk := Kept.refl 0x4000000000 s
  unfold State.txRequest
  repeat' first | with_reducible assumption | with_reducible refine kept_txAccept ?_ _ (by decide) | simp only [kept_is_mk] | with_reducible refine kept_mk ?_ | dsimp only | split

theorem kept_execTxDeferClear {K : Nat} {s0 s : State} (hk : Kept K s0 s) (hm : 0x442000008a &&& K = 0x442000008a := by decide) : KeptOut K s0 (execTxDeferClear s) := by
  refine hk.out hm ?_
  have hk := Kept.refl 0x442000008a s
  unfold execTxDeferClear
  repeat' first | with_reducible assumption | with_reducible refine kept_txAccept ?_ _ (by decide) | with_reducible refine kept_answer ?_ _ _ _ (by decide) | with_reducible apply KeptOut.next | dsimp only | split

theorem kept_execTxDeferTimeout {K : Nat} {s0 s : State} (hk : Kept K s0 s) (seen : Bool) (hm : 0x44200000ca &&& K = 0x44200000ca := by decide) : KeptOut K s0 (execTxDeferTimeout seen s) := by
  refine hk.out hm ?_
  have hk := Kept.refl 0x44200000ca s
  unfold execTxDeferTimeout
  repeat' first | with_reducible assumption | with_reducible refine kept_txAccept ?_ _ (by decide) | with_reducible refine kept_answer ?_ _ _ _ (by decide) | with_reducible refine kept_race ?_ _ (by decide) | with_reducible refine kept_setLast ?_ _ _ _ (by decide) | simp only [kept_is_mk] | with_reducible refine kept_mk ?_ | with_reducible apply KeptOut.next | dsimp only | split

theorem kept_desigRetune {K : Nat} {s0 s : State} (hk : Kept K s0 s) (old : State) (hm : 0x800 &&& K = 0x800 := by decide) : Kept K s0 (State.desigRetune old s) := by
  refine hk.into hm ?_
  have hk := Kept.refl 0x800 s
  unfold State.desigRetune
  repeat' first | with_reducible assumption | with_reducible refine kept_updSlc ?_ _ _ (by decide) | simp only [kept_is_mk] | with_reducible refine kept_mk ?_ | dsimp only | split

theorem kept_desigApply {K : Nat} {s0 s : State} (hk : Kept K s0 s) (old : State) (hm : 0x4000000800 &&& K = 0x4000000800 := by decide) : Kept K s0 (State.desigApply old s) := by
  refine hk.into hm ?_
  have hk := Kept.refl 0x4000000800 s
  unfold State.desigApply
  repeat' first | with_reducible assumption | with_reducible refine kept_updSlc ?_ _ _ (by decide) | with_reducible refine kept_desigRetune ?_ _ (by decide) | simp only [kept_is_mk] | with_reducible refine kept_mk ?_ | dsimp only | split

theorem kept_latchTaps {K : Nat} {s0 s : State} (hk : Kept K s0 s) (hm : 0x8 &&& K = 0x8 := by decide) : Kept K s0 (State.latchTaps s) := by
  refine hk.into hm ?_
  have hk := Kept.refl 0x8 s
  unfold State.latchTaps
  repeat' first | with_reducible assumption | with_reducible refine kept_setReg ?_ _ _ (by decide) | with_reducible refine Kept.foldl (fun _ _ h => ?_) _ ?_ | dsimp only | split

theorem kept_txActive {K : Nat} {s0 s : State} (hk : Kept K s0 s) (on : Bool) (hm : 0x10000000000 &&& K = 0x10000000000 := by decide) : Kept K s0 (State.txActive s on) := by
  refine hk.into hm ?_
  have hk := Kept.refl 0x10000000000 s
  unfold State.txActive
  repeat' first | with_reducible assumption | simp only [kept_is_mk] | with_reducible refine kept_mk ?_ | dsimp only | split

theorem kept_rampUp {K : Nat} {s0 s : State} (hk : Kept K s0 s) (r : TxReq) (hm : 0x14000000008 &&& K = 0x14000000008 := by decide) : Kept K s0 (State.rampUp s r) := by
  refine hk.into hm ?_
  have hk := Kept.refl 0x14000000008 s
  unfold State.rampUp
  repeat' first | with_reducible assumption | with_reducible refine kept_txActive ?_ _ (by decide) | with_reducible refine kept_latchTaps ?_ (by decide) | simp only [kept_is_mk] | with_reducible refine kept_mk ?_ | dsimp only | split

theorem kept_sampleGnt {K : Nat} {s0 s : State} (hk : Kept K s0 s) (level : Bool) (hm : 0x4000000000 &&& K = 0x4000000000 := by decide) : Kept K s0 (State.sampleGnt s level) := by
  refine hk.into hm ?_
  have hk := Kept.refl 0x4000000000 s
  unfold State.sampleGnt
  repeat' first | with_reducible assumption | simp only [kept_is_mk] | with_reducible refine kept_mk ?_ | dsimp only | split

theorem kept_sampleHeld {K : Nat} {s0 s : State} (hk : Kept K s0 s) (held : Bool) (hm : 0x4000000000 &&& K = 0x4000000000 := by decide) : Kept K s0 (State.sampleHeld s held) := by
  refine hk.into hm ?_
  have hk := Kept.refl 0x4000000000 s
  unfold State.sampleHeld
  repeat' first | with_reducible assumption | with_reducible refine kept_sampleGnt ?_ _ (by decide) | dsimp only | split

theorem kept_execTxRampUpStart {K : Nat} {s0 s : State} (hk : Kept K s0 s) (gnt : Bool) (hm : 0x14000000008 &&& K = 0x14000000008 := by decide) : KeptOut K s0 (execTxRampUpStart gnt s) := by
  refine hk.out hm ?_
  have hk := Kept.refl 0x14000000008 s
  unfold execTxRampUpStart
  repeat' first | with_reducible assumption | with_reducible refine kept_rampUp ?_ _ (by decide) | with_reducible refine kept_sampleGnt ?_ _ (by decide) | simp only [kept_is_mk] | with_reducible refine kept_mk ?_ | with_reducible apply KeptOut.next | dsimp only | split

theorem kept_execGrantHeld {K : Nat} {s0 s : State} (hk : Kept K s0 s) (hm : 0x14000000008 &&& K = 0x14000000008 := by decide) : KeptOut K s0 (execGrantHeld s) := by
  refine hk.out hm ?_
  have hk := Kept.refl 0x14000000008 s
  unfold execGrantHeld
  repeat' first | with_reducible assumption | with_reducible refine kept_sampleHeld ?_ _ (by decide) | with_reducible refine kept_rampUp ?_ _ (by decide) | simp only [kept_is_mk] | with_reducible refine kept_mk ?_ | with_reducible apply KeptOut.next | dsimp only | split

theorem kept_txEnd {K : Nat} {s0 s : State} (hk : Kept K s0 s) (r : TxReq) (o : TxOutcome) (st : TxState) (air : Nat) (hm : 0x14000e00088 &&& K = 0x14000e00088 := by decide) : Kept K s0 (State.txEnd s r o st air) := by
  refine hk.into hm ?_
  have hk := Kept.refl 0x14000e00088 s
  unfold State.txEnd
  repeat' first | with_reducible assumption | with_reducible refine kept_emitReport ?_ _ _ _ _ _ (by decide) | with_reducible refine kept_txActive ?_ _ (by decide) | with_reducible refine kept_raise ?_ _ _ (by decide) | with_reducible refine kept_count ?_ _ _ _ (by decide) | simp only [kept_is_mk] | with_reducible refine kept_mk ?_ | dsimp only | split

theorem kept_execGrantWaitExpiry {K : Nat} {s0 s : State} (hk : Kept K s0 s) (seen : Bool) (hm : 0x14000e00088 &&& K = 0x14000e00088 := by decide) : KeptOut K s0 (execGrantWaitExpiry seen s) := by
  refine hk.out hm ?_
  have hk := Kept.refl 0x14000e00088 s
  unfold execGrantWaitExpiry
  repeat' first | with_reducible assumption | with_reducible refine kept_sampleHeld ?_ _ (by decide) | with_reducible refine kept_race ?_ _ (by decide) | with_reducible refine kept_txEnd ?_ _ _ _ _ (by decide) | with_reducible refine kept_rampUp ?_ _ (by decide) | simp only [kept_is_mk] | with_reducible refine kept_mk ?_ | with_reducible apply KeptOut.next | dsimp only | split

theorem kept_execRampUpEnd {K : Nat} {s0 s : State} (hk : Kept K s0 s) (hm : 0x4000000000 &&& K = 0x4000000000 := by decide) : KeptOut K s0 (execRampUpEnd s) := by
  refine hk.out hm ?_
  have hk := Kept.refl 0x4000000000 s
  unfold execRampUpEnd
  repeat' first | with_reducible assumption | simp only [kept_is_mk] | with_reducible refine kept_mk ?_ | with_reducible apply KeptOut.next | dsimp only | split

theorem kept_rampDown {K : Nat} {s0 s : State} (hk : Kept K s0 s) (r : TxReq) (o : TxOutcome) (hm : 0x4000000000 &&& K = 0x4000000000 := by decide) : Kept K s0 (State.rampDown s r o) := by
  refine hk.into hm ?_
  have hk := Kept.refl 0x4000000000 s
  unfold State.rampDown
  repeat' first | with_reducible assumption | simp only [kept_is_mk] | with_reducible refine kept_mk ?_ | dsimp only | split

theorem kept_execTxLastChip {K : Nat} {s0 s : State} (hk : Kept K s0 s) (hm : 0x4000000000 &&& K = 0x4000000000 := by decide) : KeptOut K s0 (execTxLastChip s) := by
  refine hk.out hm ?_
  have hk := Kept.refl 0x4000000000 s
  unfold execTxLastChip
  repeat' first | with_reducible assumption | with_reducible refine kept_rampDown ?_ _ _ (by decide) | with_reducible apply KeptOut.next | dsimp only | split

theorem kept_execGrantDrop {K : Nat} {s0 s : State} (hk : Kept K s0 s) (seen : Bool) (hm : 0x4000000008 &&& K = 0x4000000008 := by decide) : KeptOut K s0 (execGrantDrop seen s) := by
  refine hk.out hm ?_
  have hk := Kept.refl 0x4000000008 s
  unfold execGrantDrop
  repeat' first | with_reducible assumption | with_reducible refine kept_sampleHeld ?_ _ (by decide) | with_reducible refine kept_race ?_ _ (by decide) | with_reducible refine kept_rampDown ?_ _ _ (by decide) | with_reducible apply KeptOut.next | dsimp only | split

theorem kept_execMaskViolation {K : Nat} {s0 s : State} (hk : Kept K s0 s) (bins : optParam (List MaskBin) []) (hm : 0x40c0000088 &&& K = 0x40c0000088 := by decide) : KeptOut K s0 (execMaskViolation s bins) := by
  refine hk.out hm ?_
  have hk := Kept.refl 0x40c0000088 s
  unfold execMaskViolation
  repeat' first | with_reducible assumption | with_reducible refine kept_finding ?_ _ _ _ _ _ _ _ (by decide) | with_reducible refine kept_rampDown ?_ _ _ (by decide) | with_reducible refine kept_evaluate ?_ _ _ _ (by decide) | simp only [kept_is_mk] | with_reducible refine kept_mk ?_ | (with_reducible refine Kept.of_fst (by assumption) ?_) | (with_reducible refine Kept.of_snd (by assumption) ?_) | with_reducible apply KeptOut.next | dsimp only | split

theorem kept_probeMayStart {K : Nat} {s0 s : State} (hk : Kept K s0 s) (hm : 0x2000000000 &&& K = 0x2000000000 := by decide) : Kept K s0 (State.probeMayStart s) := by
  refine hk.into hm ?_
  have hk := Kept.refl 0x2000000000 s
  unfold State.probeMayStart
  repeat' first | with_reducible assumption | simp only [kept_is_mk] | with_reducible refine kept_mk ?_ | dsimp only | split

theorem kept_execRampDownEnd {K : Nat} {s0 s : State} (hk : Kept K s0 s) (_u : Unit) (hm : 0x16000e00088 &&& K = 0x16000e00088 := by decide) : KeptOut K s0 (execRampDownEnd _u s) := by
  refine hk.out hm ?_
  have hk := Kept.refl 0x16000e00088 s
  unfold execRampDownEnd
  repeat' first | with_reducible assumption | with_reducible refine kept_probeMayStart ?_ (by decide) | with_reducible refine kept_txEnd ?_ _ _ _ _ (by decide) | with_reducible apply KeptOut.next | dsimp only | split

theorem kept_txClockAbort {K : Nat} {s0 s : State} (hk : Kept K s0 s) (hm : 0x16000e00088 &&& K = 0x16000e00088 := by decide) : Kept K s0 (State.txClockAbort s) := by
  refine hk.into hm ?_
  have hk := Kept.refl 0x16000e00088 s
  unfold State.txClockAbort
  repeat' first | with_reducible assumption | with_reducible refine kept_probeMayStart ?_ (by decide) | with_reducible refine kept_txEnd ?_ _ _ _ _ (by decide) | simp only [kept_is_mk] | with_reducible refine kept_mk ?_ | dsimp only | split

theorem kept_execDacFifoUnderflow {K : Nat} {s0 s : State} (hk : Kept K s0 s) (hm : 0x160c0e00088 &&& K = 0x160c0e00088 := by decide) : KeptOut K s0 (execDacFifoUnderflow s) := by
  refine hk.out hm ?_
  have hk := Kept.refl 0x160c0e00088 s
  unfold execDacFifoUnderflow
  repeat' first | with_reducible assumption | with_reducible refine kept_logFinding ?_ _ _ _ _ _ (by decide) | with_reducible refine kept_evaluate ?_ _ _ _ (by decide) | with_reducible refine kept_txClockAbort ?_ (by decide) | (with_reducible refine Kept.of_fst (by assumption) ?_) | (with_reducible refine Kept.of_snd (by assumption) ?_) | with_reducible apply KeptOut.next | dsimp only | split

theorem kept_returnWritten {K : Nat} {s0 s : State} (hk : Kept K s0 s) (hm : 0x4000000000 &&& K = 0x4000000000 := by decide) : Kept K s0 (State.returnWritten s) := by
  refine hk.into hm ?_
  have hk := Kept.refl 0x4000000000 s
  unfold State.returnWritten
  repeat' first | with_reducible assumption | simp only [kept_is_mk] | with_reducible refine kept_mk ?_ | dsimp only | split

theorem kept_clearMask {K : Nat} {s0 s : State} (hk : Kept K s0 s) (hm : 0x4000000000 &&& K = 0x4000000000 := by decide) : Kept K s0 (State.clearMask s) := by
  refine hk.into hm ?_
  have hk := Kept.refl 0x4000000000 s
  unfold State.clearMask
  repeat' first | with_reducible assumption | simp only [kept_is_mk] | with_reducible refine kept_mk ?_ | dsimp only | split

theorem kept_rxEmit {K : Nat} {s0 s : State} (hk : Kept K s0 s) (from_ : Nat) (words : List Quad) (hm : 0xe00088 &&& K = 0xe00088 := by decide) : Kept K s0 (State.rxEmit s from_ words) := by
  refine hk.into hm ?_
  have hk := Kept.refl 0xe00088 s
  unfold State.rxEmit
  repeat' first | with_reducible assumption | with_reducible refine kept_emitReport ?_ _ _ _ _ _ (by decide) | dsimp only | split

theorem kept_rxEarly {K : Nat} {s0 s : State} (hk : Kept K s0 s) (status : Nat) (h : RxHeld) (hm : 0xe00088 &&& K = 0xe00088 := by decide) : Kept K s0 (State.rxEarly s status h) := by
  refine hk.into hm ?_
  have hk := Kept.refl 0xe00088 s
  unfold State.rxEarly
  repeat' first | with_reducible assumption | with_reducible refine kept_rxEmit ?_ _ _ (by decide) | dsimp only | split

theorem kept_execPreambleDetect {K : Nat} {s0 s : State} (hk : Kept K s0 s) (searcher : Fin 4) (m : Preamble) (hm : 0x4000e00088 &&& K = 0x4000e00088 := by decide) : KeptOut K s0 (execPreambleDetect searcher m s) := by
  refine hk.out hm ?_
  have hk := Kept.refl 0x4000e00088 s
  unfold execPreambleDetect
  repeat' first | with_reducible assumption | with_reducible refine kept_raise ?_ _ _ (by decide) | with_reducible refine kept_rxEarly ?_ _ _ (by decide) | with_reducible refine kept_count ?_ _ _ _ (by decide) | simp only [kept_is_mk] | with_reducible refine kept_mk ?_ | with_reducible apply KeptOut.next | dsimp only | split

theorem kept_execRxHeader {K : Nat} {s0 s : State} (hk : Kept K s0 s) (hdr : Nat) (crc : Nat) (hm : 0x4000e00088 &&& K = 0x4000e00088 := by decide) : KeptOut K s0 (execRxHeader hdr crc s) := by
  refine hk.out hm ?_
  have hk := Kept.refl 0x4000e00088 s
  unfold execRxHeader
  repeat' first | with_reducible assumption | with_reducible refine kept_rxEarly ?_ _ _ (by decide) | with_reducible refine kept_count ?_ _ _ _ (by decide) | simp only [kept_is_mk] | with_reducible refine kept_mk ?_ | with_reducible apply KeptOut.next | dsimp only | split

theorem kept_tapCorr {K : Nat} {s0 s : State} (hk : Kept K s0 s) (hdr : Nat) (gain : Int) (hm : 0x800000000 &&& K = 0x800000000 := by decide) : Kept K s0 (State.tapCorr s hdr gain) := by
  refine hk.into hm ?_
  have hk := Kept.refl 0x800000000 s
  unfold State.tapCorr
  repeat' first | with_reducible assumption | simp only [kept_is_mk] | with_reducible refine kept_mk ?_ | dsimp only | split

theorem kept_execRxPacketEnd {K : Nat} {s0 s : State} (hk : Kept K s0 s) (m : RxMeas) (hm : 0x4800e00088 &&& K = 0x4800e00088 := by decide) : KeptOut K s0 (execRxPacketEnd m s) := by
  refine hk.out hm ?_
  have hk := Kept.refl 0x4800e00088 s
  unfold execRxPacketEnd
  repeat' first | with_reducible assumption | with_reducible refine kept_tapCorr ?_ _ _ (by decide) | with_reducible refine kept_rxEmit ?_ _ _ (by decide) | with_reducible refine kept_raise ?_ _ _ (by decide) | with_reducible refine kept_count ?_ _ _ _ (by decide) | simp only [kept_is_mk] | with_reducible refine kept_mk ?_ | with_reducible apply KeptOut.next | dsimp only | split

theorem kept_execRxInterrupted {K : Nat} {s0 s : State} (hk : Kept K s0 s) (hm : 0x4000e00088 &&& K = 0x4000e00088 := by decide) : KeptOut K s0 (execRxInterrupted s) := by
  refine hk.out hm ?_
  have hk := Kept.refl 0x4000e00088 s
  unfold execRxInterrupted
  repeat' first | with_reducible assumption | with_reducible refine kept_rxEarly ?_ _ _ (by decide) | with_reducible refine kept_count ?_ _ _ _ (by decide) | simp only [kept_is_mk] | with_reducible refine kept_mk ?_ | with_reducible apply KeptOut.next | dsimp only | split

end Sys2Proof.Machine
end

