-- ==== Sys2Proof/Laws/KeptCommits.lean ====
section
/-! SUPPORT. What every operation of Commits.lean keeps. -/

namespace Sys2Proof.Machine

set_option Elab.async false

set_option linter.unusedSimpArgs false

theorem kept_commitRefused {K : Nat} {s0 s now : State} (hk : Kept K s0 s) (hk2 : Kept K s0 now) (role : Nat) (page : Nat) (st : Status) (hm : 0xc8 &&& K = 0xc8 := by decide) : Kept K s0 (State.commitRefused s now role page st) := by
  unfold State.commitRefused
  repeat' first | with_reducible assumption | with_reducible refine kept_raiseTo ?_ _ _ _ (mask_trans (by decide) hm) | with_reducible refine kept_setLast ?_ _ _ _ (mask_trans (by decide) hm) | dsimp only | split

theorem kept_sndApply {K : Nat} {s0 s : State} (hk : Kept K s0 s) (hm : 0xc000000898 &&& K = 0xc000000898 := by decide) : Kept K s0 (State.sndApply s) := by
  refine hk.into hm ?_
  have hk := Kept.refl 0xc000000898 s
  unfold State.sndApply
  repeat' first | with_reducible assumption | with_reducible refine kept_journal ?_ _ _ _ _ _ (by decide) | with_reducible refine kept_desigApply ?_ _ (by decide) | with_reducible refine kept_raise ?_ _ _ (by decide) | with_reducible refine kept_applyStaged ?_ _ _ (by decide) | (with_reducible refine Kept.of_fst (by assumption) ?_) | (with_reducible refine Kept.of_snd (by assumption) ?_) | dsimp only | split

theorem kept_audAtOnce {K : Nat} {s0 s : State} (hk : Kept K s0 s) (role : Nat) (hm : 0x1000000018 &&& K = 0x1000000018 := by decide) : Kept K s0 (State.audAtOnce s role) := by
  refine hk.into hm ?_
  have hk := Kept.refl 0x1000000018 s
  unfold State.audAtOnce
  repeat' first | with_reducible assumption | with_reducible refine kept_audApply ?_ _ (by decide) | with_reducible refine kept_unstage ?_ _ _ (by decide) | dsimp only | split

theorem kept_commitApply {K : Nat} {s0 s : State} (hk : Kept K s0 s) (role : Nat) (page : Nat) (hm : 0xf000e7f8b8 &&& K = 0xf000e7f8b8 := by decide) : Kept K s0 (State.commitApply s role page) := by
  refine hk.into hm ?_
  have hk := Kept.refl 0xf000e7f8b8 s
  unfold State.commitApply
  repeat' first | with_reducible assumption | with_reducible refine kept_bedClaim ?_ _ (by decide) | with_reducible refine kept_applyStrmPage ?_ _ (by decide) | with_reducible refine kept_slcClaim ?_ _ (by decide) | with_reducible refine kept_audAtOnce ?_ _ (by decide) | with_reducible refine kept_secApply ?_ (by decide) | with_reducible refine kept_applyStaged ?_ _ _ (by decide) | with_reducible refine kept_decApply ?_ _ (by decide) | with_reducible refine kept_svcApply ?_ _ (by decide) | with_reducible refine kept_sndApply ?_ (by decide) | with_reducible refine kept_capture ?_ _ _ (by decide) | with_reducible refine kept_alnApply ?_ _ (by decide) | simp only [kept_is_mk] | with_reducible refine kept_mk ?_ | dsimp only | split

theorem kept_commitResult {K : Nat} {s0 s : State} (hk : Kept K s0 s) (page : Nat) (hm : 0x4 &&& K = 0x4 := by decide) : Kept K s0 (State.commitResult s page).2 := by
  refine hk.into hm ?_
  have hk := Kept.refl 0x4 s
  unfold State.commitResult
  repeat' first | with_reducible assumption | with_reducible refine kept_draw ?_ (by decide) | (with_reducible refine Kept.of_fst (by assumption) ?_) | (with_reducible refine Kept.of_snd (by assumption) ?_) | dsimp only | split

theorem kept_commitPage {K : Nat} {s0 s undo : State} (hk : Kept K s0 s) (hk2 : Kept K s0 undo) (c : Caller) (page : Nat) (asked : Bool) (hm : 0xf000e7f8fe &&& K = 0xf000e7f8fe := by decide) : Kept K s0 (State.commitPage s undo c page asked).1 := by
  unfold State.commitPage
  repeat' first | with_reducible assumption | with_reducible refine kept_commitRefused ?_ ?_ _ _ _ (mask_trans (by decide) hm) | with_reducible refine kept_commitResult ?_ _ (mask_trans (by decide) hm) | with_reducible refine kept_windowSeq ?_ (mask_trans (by decide) hm) | with_reducible refine kept_setLast ?_ _ _ _ (mask_trans (by decide) hm) | with_reducible refine kept_txRequest ?_ _ (mask_trans (by decide) hm) | with_reducible refine kept_commitApply ?_ _ _ (mask_trans (by decide) hm) | simp only [kept_is_mk] | with_reducible refine kept_mk ?_ | (with_reducible refine Kept.of_fst (by assumption) ?_) | (with_reducible refine Kept.of_snd (by assumption) ?_) | dsimp only | split

end Sys2Proof.Machine
end

