-- ==== Sys2Proof/Laws/KeptPortOps.lean ====
section
/-! SUPPORT. What every operation of PortOps.lean keeps. -/

namespace Sys2Proof.Machine

set_option Elab.async false

set_option linter.unusedSimpArgs false

theorem kept_updPort {K : Nat} {s0 s : State} (hk : Kept K s0 s) (p : Port) (f : Prt → Prt) (hm : 0x100000000 &&& K = 0x100000000 := by decide) : Kept K s0 (State.updPort s p f) := by
  refine hk.into hm ?_
  have hk := Kept.refl 0x100000000 s
  unfold State.updPort
  repeat' first | with_reducible assumption | simp only [kept_is_mk] | with_reducible refine kept_mk ?_ | dsimp only | split

theorem kept_updRing {K : Nat} {s0 s : State} (hk : Kept K s0 s) (f : Ring → Ring) (hm : 0x200000000 &&& K = 0x200000000 := by decide) : Kept K s0 (State.updRing s f) := by
  refine hk.into hm ?_
  have hk := Kept.refl 0x200000000 s
  unfold State.updRing
  repeat' first | with_reducible assumption | simp only [kept_is_mk] | with_reducible refine kept_mk ?_ | dsimp only | split

theorem kept_updClk {K : Nat} {s0 s : State} (hk : Kept K s0 s) (f : Clk → Clk) (hm : 0x2000000 &&& K = 0x2000000 := by decide) : Kept K s0 (State.updClk s f) := by
  refine hk.into hm ?_
  have hk := Kept.refl 0x2000000 s
  unfold State.updClk
  repeat' first | with_reducible assumption | simp only [kept_is_mk] | with_reducible refine kept_mk ?_ | dsimp only | split

theorem kept_refreshElig {K : Nat} {s0 s : State} (hk : Kept K s0 s) (p : Port) (hm : 0x2000000 &&& K = 0x2000000 := by decide) : Kept K s0 (State.refreshElig s p) := by
  refine hk.into hm ?_
  have hk := Kept.refl 0x2000000 s
  unfold State.refreshElig
  repeat' first | with_reducible assumption | with_reducible refine kept_updClk ?_ _ (by decide) | simp only [kept_is_mk] | with_reducible refine kept_mk ?_ | dsimp only | split

theorem kept_setCq {K : Nat} {s0 s : State} (hk : Kept K s0 s) (cq : Nat) (hm : 0x202000000 &&& K = 0x202000000 := by decide) : Kept K s0 (State.setCq s cq) := by
  refine hk.into hm ?_
  have hk := Kept.refl 0x202000000 s
  unfold State.setCq
  repeat' first | with_reducible assumption | with_reducible refine kept_updClk ?_ _ (by decide) | with_reducible refine kept_updRing ?_ _ (by decide) | simp only [kept_is_mk] | with_reducible refine kept_mk ?_ | dsimp only | split

theorem kept_setChops {K : Nat} {s0 s : State} (hk : Kept K s0 s) (hm : 0x200000000 &&& K = 0x200000000 := by decide) : Kept K s0 (State.setChops s) := by
  refine hk.into hm ?_
  have hk := Kept.refl 0x200000000 s
  unfold State.setChops
  repeat' first | with_reducible assumption | with_reducible refine kept_updRing ?_ _ (by decide) | simp only [kept_is_mk] | with_reducible refine kept_mk ?_ | dsimp only | split

theorem kept_send {K : Nat} {s0 s : State} (hk : Kept K s0 s) (p : Port) (l : List OutItem) (hm : 0x100000000 &&& K = 0x100000000 := by decide) : Kept K s0 (State.send s p l) := by
  refine hk.into hm ?_
  have hk := Kept.refl 0x100000000 s
  unfold State.send
  repeat' first | with_reducible assumption | with_reducible refine kept_updPort ?_ _ _ (by decide) | simp only [kept_is_mk] | with_reducible refine kept_mk ?_ | dsimp only | split

theorem kept_sendTs {K : Nat} {s0 s : State} (hk : Kept K s0 s) (p : Port) (type : Nat) (hm : 0x100000000 &&& K = 0x100000000 := by decide) : Kept K s0 (State.sendTs s p type) := by
  refine hk.into hm ?_
  have hk := Kept.refl 0x100000000 s
  unfold State.sendTs
  repeat' first | with_reducible assumption | with_reducible refine kept_send ?_ _ _ (by decide) | dsimp only | split

theorem kept_sendDelayReq {K : Nat} {s0 s : State} (hk : Kept K s0 s) (p : Port) (hm : 0x100000000 &&& K = 0x100000000 := by decide) : Kept K s0 (State.sendDelayReq s p) := by
  refine hk.into hm ?_
  have hk := Kept.refl 0x100000000 s
  unfold State.sendDelayReq
  repeat' first | with_reducible assumption | with_reducible refine kept_send ?_ _ _ (by decide) | dsimp only | split

theorem kept_transmit {K : Nat} {s0 s : State} (hk : Kept K s0 s) (p : Port) (f : RFrame) (hm : 0x100000008 &&& K = 0x100000008 := by decide) : Kept K s0 (State.transmit s p f) := by
  refine hk.into hm ?_
  have hk := Kept.refl 0x100000008 s
  unfold State.transmit
  repeat' first | with_reducible assumption | with_reducible refine kept_count ?_ _ _ _ (by decide) | with_reducible refine kept_updPort ?_ _ _ (by decide) | simp only [kept_is_mk] | with_reducible refine kept_mk ?_ | dsimp only | split

theorem kept_freeCredit {K : Nat} {s0 s : State} (hk : Kept K s0 s) (p : Port) (tc : Fin 4) (n : Nat) (hm : 0x100000000 &&& K = 0x100000000 := by decide) : Kept K s0 (State.freeCredit s p tc n) := by
  refine hk.into hm ?_
  have hk := Kept.refl 0x100000000 s
  unfold State.freeCredit
  repeat' first | with_reducible assumption | with_reducible refine kept_updPort ?_ _ _ (by decide) | simp only [kept_is_mk] | with_reducible refine kept_mk ?_ | dsimp only | split

theorem kept_freeFrom {K : Nat} {s0 s : State} (hk : Kept K s0 s) (from_ : Option Port) (f : RFrame) (hm : 0x100000000 &&& K = 0x100000000 := by decide) : Kept K s0 (State.freeFrom s from_ f) := by
  refine hk.into hm ?_
  have hk := Kept.refl 0x100000000 s
  unfold State.freeFrom
  repeat' first | with_reducible assumption | with_reducible refine kept_freeCredit ?_ _ _ _ (by decide) | dsimp only | split

theorem kept_leaveBuffer {K : Nat} {s0 s : State} (hk : Kept K s0 s) (p : Port) (w : WaitFrame) (hm : 0x100000008 &&& K = 0x100000008 := by decide) : Kept K s0 (State.leaveBuffer s p w) := by
  refine hk.into hm ?_
  have hk := Kept.refl 0x100000008 s
  unfold State.leaveBuffer
  repeat' first | with_reducible assumption | with_reducible refine kept_freeFrom ?_ _ _ (by decide) | with_reducible refine kept_transmit ?_ _ _ (by decide) | dsimp only | split

theorem kept_drainWait {K : Nat} {s0 s : State} (h : Kept K s0 s) (p : Port) (n : Nat) (hm : 0x100000008 &&& K = 0x100000008 := by decide) : Kept K s0 (State.drainWait s p n) := by
  induction n generalizing s with
  | zero => exact h
  | succ n ih =>
    unfold State.drainWait
    split
    · exact ih (kept_leaveBuffer (kept_updPort h _ _ (mask_trans (by decide) hm)) _ _ (mask_trans (by decide) hm))
    · exact h

theorem kept_enqueueFrame {K : Nat} {s0 s : State} (hk : Kept K s0 s) (p : Port) (from_ : Option Port) (f : RFrame) (hm : 0x100000008 &&& K = 0x100000008 := by decide) : Kept K s0 (State.enqueueFrame s p from_ f) := by
  refine hk.into hm ?_
  have hk := Kept.refl 0x100000008 s
  unfold State.enqueueFrame
  repeat' first | with_reducible assumption | with_reducible refine kept_drainWait ?_ _ _ (by decide) | with_reducible refine kept_updPort ?_ _ _ (by decide) | simp only [kept_is_mk] | with_reducible refine kept_mk ?_ | dsimp only | split

theorem kept_sendFrame {K : Nat} {s0 s : State} (hk : Kept K s0 s) (p : Port) (from_ : Option Port) (f : RFrame) (hm : 0x100000008 &&& K = 0x100000008 := by decide) : Kept K s0 (State.sendFrame s p from_ f) := by
  refine hk.into hm ?_
  have hk := Kept.refl 0x100000008 s
  unfold State.sendFrame
  repeat' first | with_reducible assumption | with_reducible refine kept_freeFrom ?_ _ _ (by decide) | with_reducible refine kept_enqueueFrame ?_ _ _ _ (by decide) | dsimp only | split

theorem kept_forwardNotice {K : Nat} {s0 s : State} (hk : Kept K s0 s) (p : Port) (ws : List Quad) (hm : 0x100000000 &&& K = 0x100000000 := by decide) : Kept K s0 (State.forwardNotice s p ws) := by
  refine hk.into hm ?_
  have hk := Kept.refl 0x100000000 s
  unfold State.forwardNotice
  repeat' first | with_reducible assumption | with_reducible refine kept_send ?_ _ _ (by decide) | dsimp only | split

theorem kept_ringSettle {K : Nat} {s0 s : State} (hk : Kept K s0 s) (hm : 0x200000088 &&& K = 0x200000088 := by decide) : Kept K s0 (State.ringSettle s) := by
  refine hk.into hm ?_
  have hk := Kept.refl 0x200000088 s
  unfold State.ringSettle
  repeat' first | with_reducible assumption | with_reducible refine kept_raise ?_ _ _ (by decide) | with_reducible refine kept_count ?_ _ _ _ (by decide) | with_reducible refine kept_updRing ?_ _ (by decide) | simp only [kept_is_mk] | with_reducible refine kept_mk ?_ | with_reducible refine Kept.foldl (fun _ _ h => ?_) _ ?_ | dsimp only | split

theorem kept_portDrop {K : Nat} {s0 s : State} (hk : Kept K s0 s) (p : Port) (linkDown : Bool) (ev : Bool) (hm : 0x302000088 &&& K = 0x302000088 := by decide) : Kept K s0 (State.portDrop s p linkDown ev) := by
  refine hk.into hm ?_
  have hk := Kept.refl 0x302000088 s
  unfold State.portDrop
  repeat' first | with_reducible assumption | with_reducible refine kept_freeFrom ?_ _ _ (by decide) | with_reducible refine kept_ringSettle ?_ (by decide) | with_reducible refine kept_refreshElig ?_ _ (by decide) | with_reducible refine kept_raise ?_ _ _ (by decide) | with_reducible refine kept_put ?_ _ _ _ (by decide) | with_reducible refine kept_count ?_ _ _ _ (by decide) | with_reducible refine kept_updPort ?_ _ _ (by decide) | simp only [kept_is_mk] | with_reducible refine kept_mk ?_ | with_reducible refine Kept.foldl (fun _ _ h => ?_) _ ?_ | dsimp only | split

theorem kept_portsDrop {K : Nat} {s0 s : State} (hk : Kept K s0 s) (hm : 0x302000088 &&& K = 0x302000088 := by decide) : Kept K s0 (State.portsDrop s) := by
  refine hk.into hm ?_
  have hk := Kept.refl 0x302000088 s
  unfold State.portsDrop
  repeat' first | with_reducible assumption | with_reducible refine kept_portDrop ?_ _ _ _ (by decide) | dsimp only | split

end Sys2Proof.Machine
end

