-- ==== Sys2Proof/Laws/KeptClocks.lean ====
section
/-! SUPPORT. What every operation of Clocks.lean keeps. -/

namespace Sys2Proof.Machine

set_option Elab.async false

set_option linter.unusedSimpArgs false

theorem kept_updClkPort {K : Nat} {s0 s : State} (hk : Kept K s0 s) (p : Port) (f : ClkPort → ClkPort) (hm : 0x2000000 &&& K = 0x2000000 := by decide) : Kept K s0 (State.updClkPort s p f) := by
  refine hk.into hm ?_
  have hk := Kept.refl 0x2000000 s
  unfold State.updClkPort
  repeat' first | with_reducible assumption | with_reducible refine kept_updClk ?_ _ (by decide) | simp only [kept_is_mk] | with_reducible refine kept_mk ?_ | dsimp only | split

theorem kept_hitless {K : Nat} {s0 s : State} (hk : Kept K s0 s) (p : Port) (hm : 0x202000088 &&& K = 0x202000088 := by decide) : Kept K s0 (State.hitless s p) := by
  refine hk.into hm ?_
  have hk := Kept.refl 0x202000088 s
  unfold State.hitless
  repeat' first | with_reducible assumption | with_reducible refine kept_setCq ?_ _ (by decide) | with_reducible refine kept_updClkPort ?_ _ _ (by decide) | with_reducible refine kept_raise ?_ _ _ (by decide) | with_reducible refine kept_updClk ?_ _ (by decide) | with_reducible refine kept_count ?_ _ _ _ (by decide) | with_reducible refine kept_setChops ?_ (by decide) | simp only [kept_is_mk] | with_reducible refine kept_mk ?_ | dsimp only | split

theorem kept_enterHoldover {K : Nat} {s0 s : State} (hk : Kept K s0 s) (hm : 0x2000088 &&& K = 0x2000088 := by decide) : Kept K s0 (State.enterHoldover s) := by
  refine hk.into hm ?_
  have hk := Kept.refl 0x2000088 s
  unfold State.enterHoldover
  repeat' first | with_reducible assumption | with_reducible refine kept_raise ?_ _ _ (by decide) | with_reducible refine kept_updClk ?_ _ (by decide) | with_reducible refine kept_count ?_ _ _ _ (by decide) | simp only [kept_is_mk] | with_reducible refine kept_mk ?_ | dsimp only | split

theorem kept_clkEvaluate {K : Nat} {s0 s : State} (hk : Kept K s0 s) (hm : 0x202000088 &&& K = 0x202000088 := by decide) : Kept K s0 (State.clkEvaluate s) := by
  refine hk.into hm ?_
  have hk := Kept.refl 0x202000088 s
  unfold State.clkEvaluate
  repeat' first | with_reducible assumption | with_reducible refine kept_setCq ?_ _ (by decide) | with_reducible refine kept_updClkPort ?_ _ _ (by decide) | with_reducible refine kept_raise ?_ _ _ (by decide) | with_reducible refine kept_updClk ?_ _ (by decide) | with_reducible refine kept_enterHoldover ?_ (by decide) | with_reducible refine kept_setChops ?_ (by decide) | with_reducible refine kept_hitless ?_ _ (by decide) | simp only [kept_is_mk] | with_reducible refine kept_mk ?_ | dsimp only | split

theorem kept_portFall {K : Nat} {s0 s : State} (hk : Kept K s0 s) (p : Port) (linkDown : Bool) (hm : 0x302000088 &&& K = 0x302000088 := by decide) : Kept K s0 (State.portFall s p linkDown) := by
  refine hk.into hm ?_
  have hk := Kept.refl 0x302000088 s
  unfold State.portFall
  repeat' first | with_reducible assumption | with_reducible refine kept_clkEvaluate ?_ (by decide) | with_reducible refine kept_portDrop ?_ _ _ _ (by decide) | dsimp only | split

theorem kept_trainOn {K : Nat} {s0 s : State} (hk : Kept K s0 s) (p : Port) (hm : 0x100000000 &&& K = 0x100000000 := by decide) : Kept K s0 (State.trainOn s p) := by
  refine hk.into hm ?_
  have hk := Kept.refl 0x100000000 s
  unfold State.trainOn
  repeat' first | with_reducible assumption | with_reducible refine kept_sendTs ?_ _ _ (by decide) | with_reducible refine kept_updPort ?_ _ _ (by decide) | simp only [kept_is_mk] | with_reducible refine kept_mk ?_ | dsimp only | split

theorem kept_acquire {K : Nat} {s0 s : State} (hk : Kept K s0 s) (p : Port) (hm : 0x2000000 &&& K = 0x2000000 := by decide) : Kept K s0 (State.acquire s p) := by
  refine hk.into hm ?_
  have hk := Kept.refl 0x2000000 s
  unfold State.acquire
  repeat' first | with_reducible assumption | with_reducible refine kept_updClkPort ?_ _ _ (by decide) | with_reducible refine kept_updClk ?_ _ (by decide) | simp only [kept_is_mk] | with_reducible refine kept_mk ?_ | dsimp only | split

theorem kept_execClockQualify {K : Nat} {s0 s : State} (hk : Kept K s0 s) (p : Port) (freq : Int) (hm : 0x102000008 &&& K = 0x102000008 := by decide) : KeptOut K s0 (execClockQualify p freq s) := by
  refine hk.out hm ?_
  have hk := Kept.refl 0x102000008 s
  unfold execClockQualify
  repeat' first | with_reducible assumption | with_reducible refine kept_acquire ?_ _ (by decide) | with_reducible refine kept_updClkPort ?_ _ _ (by decide) | with_reducible refine kept_refreshElig ?_ _ (by decide) | with_reducible refine kept_trainOn ?_ _ (by decide) | with_reducible refine kept_put ?_ _ _ _ (by decide) | simp only [kept_is_mk] | with_reducible refine kept_mk ?_ | with_reducible apply KeptOut.next | dsimp only | split

theorem kept_disqualify {K : Nat} {s0 s : State} (hk : Kept K s0 s) (p : Port) (edges : Bool) (src : Nat) (hm : 0x3c2000088 &&& K = 0x3c2000088 := by decide) : Kept K s0 (State.disqualify s p edges src) := by
  refine hk.into hm ?_
  have hk := Kept.refl 0x3c2000088 s
  unfold State.disqualify
  repeat' first | with_reducible assumption | with_reducible refine kept_portFall ?_ _ _ (by decide) | with_reducible refine kept_updClkPort ?_ _ _ (by decide) | with_reducible refine kept_refreshElig ?_ _ (by decide) | with_reducible refine kept_clkEvaluate ?_ (by decide) | with_reducible refine kept_logFinding ?_ _ _ _ _ _ (by decide) | with_reducible refine kept_raise ?_ _ _ (by decide) | with_reducible refine kept_count ?_ _ _ _ (by decide) | simp only [kept_is_mk] | with_reducible refine kept_mk ?_ | dsimp only | split

theorem kept_execPortDisqual {K : Nat} {s0 s : State} (hk : Kept K s0 s) (p : Port) (edges : Bool) (hm : 0x3c2000088 &&& K = 0x3c2000088 := by decide) : KeptOut K s0 (execPortDisqual p edges s) := by
  refine hk.out hm ?_
  have hk := Kept.refl 0x3c2000088 s
  unfold execPortDisqual
  repeat' first | with_reducible assumption | with_reducible refine kept_disqualify ?_ _ _ _ (by decide) | with_reducible refine kept_evaluate ?_ _ _ _ (by decide) | (with_reducible refine Kept.of_fst (by assumption) ?_) | (with_reducible refine Kept.of_snd (by assumption) ?_) | with_reducible apply KeptOut.next | dsimp only | split

theorem kept_execVcoSettle {K : Nat} {s0 s : State} (hk : Kept K s0 s) (hm : 0x2000000 &&& K = 0x2000000 := by decide) : KeptOut K s0 (execVcoSettle s) := by
  refine hk.out hm ?_
  have hk := Kept.refl 0x2000000 s
  unfold execVcoSettle
  repeat' first | with_reducible assumption | with_reducible refine kept_updClk ?_ _ (by decide) | simp only [kept_is_mk] | with_reducible refine kept_mk ?_ | with_reducible apply KeptOut.next | dsimp only | split

theorem kept_closeRingGap {K : Nat} {s0 s : State} (hk : Kept K s0 s) (hm : 0x2000008 &&& K = 0x2000008 := by decide) : Kept K s0 (State.closeRingGap s) := by
  refine hk.into hm ?_
  have hk := Kept.refl 0x2000008 s
  unfold State.closeRingGap
  repeat' first | with_reducible assumption | with_reducible refine kept_put ?_ _ _ _ (by decide) | with_reducible refine kept_updClk ?_ _ (by decide) | simp only [kept_is_mk] | with_reducible refine kept_mk ?_ | dsimp only | split

theorem kept_execRootLock {K : Nat} {s0 s : State} (hk : Kept K s0 s) (fl : Int) (hm : 0x52026005a8 &&& K = 0x52026005a8 := by decide) : KeptOut K s0 (execRootLock fl s) := by
  refine hk.out hm ?_
  have hk := Kept.refl 0x52026005a8 s
  unfold execRootLock
  repeat' first | with_reducible assumption | with_reducible refine kept_closeRingGap ?_ (by decide) | with_reducible refine kept_audGeneratorStarts ?_ (by decide) | with_reducible refine kept_clkEvaluate ?_ (by decide) | with_reducible refine kept_raise ?_ _ _ (by decide) | with_reducible refine kept_put ?_ _ _ _ (by decide) | with_reducible refine kept_startConvs ?_ (by decide) | with_reducible refine kept_updClk ?_ _ (by decide) | simp only [kept_is_mk] | with_reducible refine kept_mk ?_ | with_reducible apply KeptOut.next | dsimp only | split

theorem kept_execAcquisitionTimeout {K : Nat} {s0 s : State} (hk : Kept K s0 s) (hm : 0x2000000 &&& K = 0x2000000 := by decide) : KeptOut K s0 (execAcquisitionTimeout s) := by
  refine hk.out hm ?_
  have hk := Kept.refl 0x2000000 s
  unfold execAcquisitionTimeout
  repeat' first | with_reducible assumption | with_reducible refine kept_updClkPort ?_ _ _ (by decide) | with_reducible refine kept_refreshElig ?_ _ (by decide) | with_reducible refine kept_updClk ?_ _ (by decide) | simp only [kept_is_mk] | with_reducible refine kept_mk ?_ | with_reducible apply KeptOut.next | dsimp only | split

theorem kept_relockStop {K : Nat} {s0 s : State} (hk : Kept K s0 s) (hm : 0x16302e04488 &&& K = 0x16302e04488 := by decide) : Kept K s0 (State.relockStop s) := by
  refine hk.into hm ?_
  have hk := Kept.refl 0x16302e04488 s
  unfold State.relockStop
  repeat' first | with_reducible assumption | with_reducible refine kept_portsDrop ?_ (by decide) | with_reducible refine kept_convStopAll ?_ _ (by decide) | with_reducible refine kept_updClk ?_ _ (by decide) | with_reducible refine kept_txClockAbort ?_ (by decide) | simp only [kept_is_mk] | with_reducible refine kept_mk ?_ | dsimp only | split

theorem kept_unlock {K : Nat} {s0 s : State} (hk : Kept K s0 s) (src : Nat) (hm : 0x163c2e04488 &&& K = 0x163c2e04488 := by decide) : Kept K s0 (State.unlock s src) := by
  refine hk.into hm ?_
  have hk := Kept.refl 0x163c2e04488 s
  unfold State.unlock
  repeat' first | with_reducible assumption | with_reducible refine kept_finding ?_ _ _ _ _ _ _ _ (by decide) | with_reducible refine kept_relockStop ?_ (by decide) | with_reducible refine kept_refreshElig ?_ _ (by decide) | with_reducible refine kept_updClk ?_ _ (by decide) | with_reducible refine kept_count ?_ _ _ _ (by decide) | simp only [kept_is_mk] | with_reducible refine kept_mk ?_ | dsimp only | split

theorem kept_execLockLost {K : Nat} {s0 s : State} (hk : Kept K s0 s) (hm : 0x163c2e04488 &&& K = 0x163c2e04488 := by decide) : KeptOut K s0 (execLockLost s) := by
  refine hk.out hm ?_
  have hk := Kept.refl 0x163c2e04488 s
  unfold execLockLost
  repeat' first | with_reducible assumption | with_reducible refine kept_evaluate ?_ _ _ _ (by decide) | with_reducible refine kept_unlock ?_ _ (by decide) | (with_reducible refine Kept.of_fst (by assumption) ?_) | (with_reducible refine Kept.of_snd (by assumption) ?_) | with_reducible apply KeptOut.next | dsimp only | split

theorem kept_execRefSwitch {K : Nat} {s0 s : State} (hk : Kept K s0 s) (hm : 0x202000088 &&& K = 0x202000088 := by decide) : KeptOut K s0 (execRefSwitch s) := by
  refine hk.out hm ?_
  have hk := Kept.refl 0x202000088 s
  unfold execRefSwitch
  repeat' first | with_reducible assumption | with_reducible refine kept_clkEvaluate ?_ (by decide) | with_reducible refine kept_hitless ?_ _ (by decide) | with_reducible apply KeptOut.next | dsimp only | split

theorem kept_holdEnds {K : Nat} {s0 s : State} (hk : Kept K s0 s) (hm : 0x8 &&& K = 0x8 := by decide) : Kept K s0 (State.holdEnds s) := by
  refine hk.into hm ?_
  have hk := Kept.refl 0x8 s
  unfold State.holdEnds
  repeat' first | with_reducible assumption | with_reducible refine kept_put ?_ _ _ _ (by decide) | dsimp only | split

theorem kept_execHoldoverReentry {K : Nat} {s0 s : State} (hk : Kept K s0 s) (freq : Int) (hm : 0x16302e045a8 &&& K = 0x16302e045a8 := by decide) : KeptOut K s0 (execHoldoverReentry freq s) := by
  refine hk.out hm ?_
  have hk := Kept.refl 0x16302e045a8 s
  unfold execHoldoverReentry
  repeat' first | with_reducible assumption | with_reducible refine kept_acquire ?_ _ (by decide) | with_reducible refine kept_relockStop ?_ (by decide) | with_reducible refine kept_setCq ?_ _ (by decide) | with_reducible refine kept_updClkPort ?_ _ _ (by decide) | with_reducible refine kept_holdEnds ?_ (by decide) | with_reducible refine kept_raise ?_ _ _ (by decide) | with_reducible refine kept_startConvs ?_ (by decide) | with_reducible refine kept_updClk ?_ _ (by decide) | with_reducible refine kept_count ?_ _ _ _ (by decide) | with_reducible refine kept_setChops ?_ (by decide) | simp only [kept_is_mk] | with_reducible refine kept_mk ?_ | with_reducible apply KeptOut.next | dsimp only | split

theorem kept_enterSafe {K : Nat} {s0 s : State} (hk : Kept K s0 s) (hm : 0x17302e04588 &&& K = 0x17302e04588 := by decide) : Kept K s0 (State.enterSafe s) := by
  refine hk.into hm ?_
  have hk := Kept.refl 0x17302e04588 s
  unfold State.enterSafe
  repeat' first | with_reducible assumption | with_reducible refine kept_portsDrop ?_ (by decide) | with_reducible refine kept_audGeneratorStops ?_ (by decide) | with_reducible refine kept_convStopAll ?_ _ (by decide) | with_reducible refine kept_raise ?_ _ _ (by decide) | with_reducible refine kept_updClk ?_ _ (by decide) | with_reducible refine kept_txClockAbort ?_ (by decide) | with_reducible refine kept_count ?_ _ _ _ (by decide) | with_reducible refine kept_updRing ?_ _ (by decide) | simp only [kept_is_mk] | with_reducible refine kept_mk ?_ | dsimp only | split

theorem kept_execHoldMaxExpiry {K : Nat} {s0 s : State} (hk : Kept K s0 s) (hm : 0x17302e04588 &&& K = 0x17302e04588 := by decide) : KeptOut K s0 (execHoldMaxExpiry s) := by
  refine hk.out hm ?_
  have hk := Kept.refl 0x17302e04588 s
  unfold execHoldMaxExpiry
  repeat' first | with_reducible assumption | with_reducible refine kept_race ?_ _ (by decide) | with_reducible refine kept_enterSafe ?_ (by decide) | with_reducible refine kept_holdEnds ?_ (by decide) | with_reducible apply KeptOut.next | dsimp only | split

theorem kept_clkOff {K : Nat} {s0 s : State} (hk : Kept K s0 s) (hm : 0x1202000108 &&& K = 0x1202000108 := by decide) : Kept K s0 (State.clkOff s) := by
  refine hk.into hm ?_
  have hk := Kept.refl 0x1202000108 s
  unfold State.clkOff
  repeat' first | with_reducible assumption | with_reducible refine kept_audGeneratorStops ?_ (by decide) | with_reducible refine kept_updClk ?_ _ (by decide) | with_reducible refine kept_updRing ?_ _ (by decide) | simp only [kept_is_mk] | with_reducible refine kept_mk ?_ | dsimp only | split

theorem kept_clkOn {K : Nat} {s0 s : State} (hk : Kept K s0 s) (hm : 0x2000000 &&& K = 0x2000000 := by decide) : Kept K s0 (State.clkOn s) := by
  refine hk.into hm ?_
  have hk := Kept.refl 0x2000000 s
  unfold State.clkOn
  repeat' first | with_reducible assumption | with_reducible refine kept_updClk ?_ _ (by decide) | simp only [kept_is_mk] | with_reducible refine kept_mk ?_ | dsimp only | split

theorem kept_clkInjected {K : Nat} {s0 s : State} (hk : Kept K s0 s) (hm : 0x163c2e04488 &&& K = 0x163c2e04488 := by decide) : Kept K s0 (State.clkInjected s) := by
  refine hk.into hm ?_
  have hk := Kept.refl 0x163c2e04488 s
  unfold State.clkInjected
  repeat' first | with_reducible assumption | with_reducible refine kept_consumeInj ?_ _ (by decide) | with_reducible refine kept_disqualify ?_ _ _ _ (by decide) | with_reducible refine kept_unlock ?_ _ (by decide) | dsimp only | split

theorem kept_clkMeters {K : Nat} {s0 s : State} (hk : Kept K s0 s) (m : ClkMeas) (hm : 0x8 &&& K = 0x8 := by decide) : Kept K s0 (State.clkMeters s m) := by
  refine hk.into hm ?_
  have hk := Kept.refl 0x8 s
  unfold State.clkMeters
  repeat' first | with_reducible assumption | with_reducible refine kept_put ?_ _ _ _ (by decide) | dsimp only | split

end Sys2Proof.Machine
end

