-- ==== Sys2Proof/Laws/KeptReplay.lean ====
section
/-! SUPPORT. What every operation of Replay.lean keeps. -/

namespace Sys2Proof.Machine

set_option Elab.async false

set_option linter.unusedSimpArgs false

theorem kept_setWords {K : Nat} {s0 s : State} (hk : Kept K s0 s) (key : Nat) (ws : List Word) (hm : 0x8 &&& K = 0x8 := by decide) : Kept K s0 (State.setWords s key ws) := by
  refine hk.into hm ?_
  have hk := Kept.refl 0x8 s
  unfold State.setWords
  repeat' first | with_reducible assumption | with_reducible refine kept_setReg ?_ _ _ (by decide) | with_reducible refine Kept.foldl (fun _ _ h => ?_) _ ?_ | with_reducible refine Kept.foldl_fst (fun _ _ h => ?_) _ ?_ | dsimp only | split

theorem kept_copyEntry {K : Nat} {s0 s : State} (hk : Kept K s0 s) (e : LogEntry) (hm : 0x8040000088 &&& K = 0x8040000088 := by decide) : Kept K s0 (State.copyEntry s e).1 := by
  refine hk.into hm ?_
  have hk := Kept.refl 0x8040000088 s
  unfold State.copyEntry
  repeat' first | with_reducible assumption | with_reducible refine kept_journal ?_ _ _ _ _ _ (by decide) | simp only [kept_is_mk] | with_reducible refine kept_mk ?_ | (with_reducible refine Kept.of_fst (by assumption) ?_) | (with_reducible refine Kept.of_snd (by assumption) ?_) | dsimp only | split

theorem kept_copyWaiting {K : Nat} {s0 s : State} (hk : Kept K s0 s) (hm : 0x8040000088 &&& K = 0x8040000088 := by decide) : Kept K s0 (State.copyWaiting s) := by
  refine hk.into hm ?_
  have hk := Kept.refl 0x8040000088 s
  unfold State.copyWaiting
  repeat' first | with_reducible assumption | with_reducible refine kept_copyEntry ?_ _ (by decide) | simp only [kept_is_mk] | with_reducible refine kept_mk ?_ | (with_reducible refine Kept.of_fst (by assumption) ?_) | (with_reducible refine Kept.of_snd (by assumption) ?_) | dsimp only | split

theorem kept_flushTail {K : Nat} {s0 s : State} (hk : Kept K s0 s) (hm : 0x8040000088 &&& K = 0x8040000088 := by decide) : Kept K s0 (State.flushTail s) := by
  refine hk.into hm ?_
  have hk := Kept.refl 0x8040000088 s
  unfold State.flushTail
  repeat' first | with_reducible assumption | with_reducible refine kept_copyWaiting ?_ (by decide) | with_reducible refine Kept.foldl (fun _ _ h => ?_) _ ?_ | dsimp only | split

theorem kept_loadKeys {K : Nat} {s0 s : State} (hk : Kept K s0 s) (hm : 0x20000000 &&& K = 0x20000000 := by decide) : Kept K s0 (State.loadKeys s) := by
  refine hk.into hm ?_
  have hk := Kept.refl 0x20000000 s
  unfold State.loadKeys
  repeat' first | with_reducible assumption | simp only [kept_is_mk] | with_reducible refine kept_mk ?_ | dsimp only | split

theorem kept_loadRows {K : Nat} {s0 s : State} (hk : Kept K s0 s) (hm : 0x8 &&& K = 0x8 := by decide) : Kept K s0 (State.loadRows s) := by
  refine hk.into hm ?_
  have hk := Kept.refl 0x8 s
  unfold State.loadRows
  repeat' first | with_reducible assumption | with_reducible refine kept_setWords ?_ _ _ (by decide) | with_reducible refine Kept.foldl (fun _ _ h => ?_) _ ?_ | dsimp only | split

theorem kept_loadTables {K : Nat} {s0 s : State} (hk : Kept K s0 s) (hm : 0x8 &&& K = 0x8 := by decide) : Kept K s0 (State.loadTables s) := by
  refine hk.into hm ?_
  have hk := Kept.refl 0x8 s
  unfold State.loadTables
  repeat' first | with_reducible assumption | with_reducible refine kept_setReg ?_ _ _ (by decide) | with_reducible refine kept_setWords ?_ _ _ (by decide) | with_reducible refine kept_put ?_ _ _ _ (by decide) | with_reducible refine Kept.foldl (fun _ _ h => ?_) _ ?_ | dsimp only | split

theorem kept_replayTorn {K : Nat} {s0 s : State} (hk : Kept K s0 s) (hm : 0xc0000088 &&& K = 0xc0000088 := by decide) : Kept K s0 (State.replayTorn s) := by
  refine hk.into hm ?_
  have hk := Kept.refl 0xc0000088 s
  unfold State.replayTorn
  repeat' first | with_reducible assumption | with_reducible refine kept_finding ?_ _ _ _ _ _ _ _ (by decide) | with_reducible refine kept_count ?_ _ _ _ (by decide) | dsimp only | split

theorem kept_replay {K : Nat} {s0 s : State} (hk : Kept K s0 s) (hm : 0xe0040088 &&& K = 0xe0040088 := by decide) : Kept K s0 (State.replay s) := by
  refine hk.into hm ?_
  have hk := Kept.refl 0xe0040088 s
  unfold State.replay
  repeat' first | with_reducible assumption | with_reducible refine kept_loadTables ?_ (by decide) | with_reducible refine kept_replayTorn ?_ (by decide) | with_reducible refine kept_loadRows ?_ (by decide) | with_reducible refine kept_loadKeys ?_ (by decide) | simp only [kept_is_mk] | with_reducible refine kept_mk ?_ | dsimp only | split

theorem kept_applyPairs {K : Nat} {s0 s : State} (h : Kept K s0 s) (l : List Word) (hm : 0x8 &&& K = 0x8 := by decide) : Kept K s0 (State.applyPairs s l) := by
  fun_induction State.applyPairs s l with
  | case1 s k w l ih => exact ih (kept_setReg h _ _ hm)
  | case2 => exact h

theorem kept_resume {K : Nat} {s0 s : State} (hk : Kept K s0 s) (hm : 0x8 &&& K = 0x8 := by decide) : Kept K s0 (State.resume s) := by
  refine hk.into hm ?_
  have hk := Kept.refl 0x8 s
  unfold State.resume
  repeat' first | with_reducible assumption | with_reducible refine kept_applyPairs ?_ _ (by decide) | dsimp only | split

theorem kept_resetPart {K : Nat} {s0 s : State} (h : Kept K s0 s) (hm : 0x3ffffffffff &&& K = 0x3ffffffffff := by decide) : Kept K s0 (State.resetPart s) := by
  refine h.into hm ?_
  constructor
  · rfl
  · rfl
  · exact fun x => regsWf_filter _ _ x
  all_goals exact fun x => absurd x (by decide)

theorem kept_execResetAssert {K : Nat} {s0 s : State} (hk : Kept K s0 s) (hm : 0x3ffffffffff &&& K = 0x3ffffffffff := by decide) : KeptOut K s0 (execResetAssert s) := by
  refine hk.out hm ?_
  have hk := Kept.refl 0x3ffffffffff s
  unfold execResetAssert
  repeat' first | with_reducible assumption | with_reducible refine kept_resetPart ?_ (by decide) | with_reducible apply KeptOut.next | dsimp only | split

theorem kept_fwRun {K : Nat} {s0 s : State} (hk : Kept K s0 s) (k : Fin 2) (hm : 0x8020000088 &&& K = 0x8020000088 := by decide) : Kept K s0 (State.fwRun s k) := by
  refine hk.into hm ?_
  have hk := Kept.refl 0x8020000088 s
  unfold State.fwRun
  repeat' first | with_reducible assumption | with_reducible refine kept_journal ?_ _ _ _ _ _ (by decide) | with_reducible refine kept_put ?_ _ _ _ (by decide) | simp only [kept_is_mk] | with_reducible refine kept_mk ?_ | (with_reducible refine Kept.of_fst (by assumption) ?_) | (with_reducible refine Kept.of_snd (by assumption) ?_) | dsimp only | split

theorem kept_fwLoad {K : Nat} {s0 s : State} (hk : Kept K s0 s) (k : Fin 2) (hm : 0x8020000088 &&& K = 0x8020000088 := by decide) : Kept K s0 (State.fwLoad s k).1 := by
  refine hk.into hm ?_
  have hk := Kept.refl 0x8020000088 s
  unfold State.fwLoad
  repeat' first | with_reducible assumption | with_reducible refine kept_fwRun ?_ _ (by decide) | with_reducible refine kept_raise ?_ _ _ (by decide) | dsimp only | split

theorem kept_execResetRelease {K : Nat} {s0 s : State} (hk : Kept K s0 s) (strap : BitVec 6) (hm : 0x84e2040089 &&& K = 0x84e2040089 := by decide) : KeptOut K s0 (execResetRelease strap s) := by
  refine hk.out hm ?_
  have hk := Kept.refl 0x84e2040089 s
  unfold execResetRelease
  repeat' first | with_reducible assumption | with_reducible refine kept_replay ?_ (by decide) | with_reducible refine kept_fwLoad ?_ _ (by decide) | simp only [kept_is_mk] | with_reducible refine kept_mk ?_ | (with_reducible refine Kept.of_fst (by assumption) ?_) | (with_reducible refine Kept.of_snd (by assumption) ?_) | with_reducible apply KeptOut.next | dsimp only | split

end Sys2Proof.Machine
end

