-- ==== Sys2Proof/Laws/KeptPower.lean ====
section
/-! SUPPORT. What every operation of Power.lean keeps. -/

namespace Sys2Proof.Machine

set_option Elab.async false

set_option linter.unusedSimpArgs false

theorem kept_updPwr {K : Nat} {s0 s : State} (hk : Kept K s0 s) (f : Pwr → Pwr) (hm : 0x4000000 &&& K = 0x4000000 := by decide) : Kept K s0 (State.updPwr s f) := by
  refine hk.into hm ?_
  have hk := Kept.refl 0x4000000 s
  unfold State.updPwr
  repeat' first | with_reducible assumption | simp only [kept_is_mk] | with_reducible refine kept_mk ?_ | dsimp only | split

theorem kept_updPmb {K : Nat} {s0 s : State} (hk : Kept K s0 s) (k : Fin 4) (f : PmbSlot → PmbSlot) (hm : 0x8000000 &&& K = 0x8000000 := by decide) : Kept K s0 (State.updPmb s k f) := by
  refine hk.into hm ?_
  have hk := Kept.refl 0x8000000 s
  unfold State.updPmb
  repeat' first | with_reducible assumption | simp only [kept_is_mk] | with_reducible refine kept_mk ?_ | dsimp only | split

theorem kept_pmbSend {K : Nat} {s0 s : State} (hk : Kept K s0 s) (k : Fin 4) (code : Nat) (data : Nat) (hm : 0x10000000 &&& K = 0x10000000 := by decide) : Kept K s0 (State.pmbSend s k code data) := by
  refine hk.into hm ?_
  have hk := Kept.refl 0x10000000 s
  unfold State.pmbSend
  repeat' first | with_reducible assumption | simp only [kept_is_mk] | with_reducible refine kept_mk ?_ | dsimp only | split

theorem kept_writeSetpoint {K : Nat} {s0 s : State} (hk : Kept K s0 s) (v : Nat) (hm : 0x14000088 &&& K = 0x14000088 := by decide) : Kept K s0 (State.writeSetpoint s v) := by
  refine hk.into hm ?_
  have hk := Kept.refl 0x14000088 s
  unfold State.writeSetpoint
  repeat' first | with_reducible assumption | with_reducible refine kept_pmbSend ?_ _ _ _ (by decide) | with_reducible refine kept_raise ?_ _ _ (by decide) | with_reducible refine kept_updPwr ?_ _ (by decide) | simp only [kept_is_mk] | with_reducible refine kept_mk ?_ | dsimp only | split

theorem kept_setSetpoint {K : Nat} {s0 s : State} (hk : Kept K s0 s) (v : Nat) (hm : 0x14000088 &&& K = 0x14000088 := by decide) : Kept K s0 (State.setSetpoint s v) := by
  refine hk.into hm ?_
  have hk := Kept.refl 0x14000088 s
  unfold State.setSetpoint
  repeat' first | with_reducible assumption | with_reducible refine kept_writeSetpoint ?_ _ (by decide) | dsimp only | split

theorem kept_pmbSettle {K : Nat} {s0 s : State} (hk : Kept K s0 s) (old : State) (k : Fin 4) (hm : 0xc000088 &&& K = 0xc000088 := by decide) : Kept K s0 (State.pmbSettle old s k) := by
  refine hk.into hm ?_
  have hk := Kept.refl 0xc000088 s
  unfold State.pmbSettle
  repeat' first | with_reducible assumption | with_reducible refine kept_raise ?_ _ _ (by decide) | with_reducible refine kept_updPmb ?_ _ _ (by decide) | with_reducible refine kept_updPwr ?_ _ (by decide) | simp only [kept_is_mk] | with_reducible refine kept_mk ?_ | dsimp only | split

theorem kept_confirmSetpoint {K : Nat} {s0 s : State} (hk : Kept K s0 s) (hm : 0xc6005a8 &&& K = 0xc6005a8 := by decide) : Kept K s0 (State.confirmSetpoint s) := by
  refine hk.into hm ?_
  have hk := Kept.refl 0xc6005a8 s
  unfold State.confirmSetpoint
  repeat' first | with_reducible assumption | with_reducible refine kept_pmbSettle ?_ _ _ (by decide) | with_reducible refine kept_startConvs ?_ (by decide) | with_reducible refine kept_updPwr ?_ _ (by decide) | simp only [kept_is_mk] | with_reducible refine kept_mk ?_ | dsimp only | split

theorem kept_readVout {K : Nat} {s0 s : State} (hk : Kept K s0 s) (mv : Nat) (hm : 0xc6005a8 &&& K = 0xc6005a8 := by decide) : Kept K s0 (State.readVout s mv) := by
  refine hk.into hm ?_
  have hk := Kept.refl 0xc6005a8 s
  unfold State.readVout
  repeat' first | with_reducible assumption | with_reducible refine kept_confirmSetpoint ?_ (by decide) | with_reducible refine kept_put ?_ _ _ _ (by decide) | dsimp only | split

theorem kept_execSetpointConfirm {K : Nat} {s0 s : State} (hk : Kept K s0 s) (vout : Nat) (hm : 0xc6005a8 &&& K = 0xc6005a8 := by decide) : KeptOut K s0 (execSetpointConfirm vout s) := by
  refine hk.out hm ?_
  have hk := Kept.refl 0xc6005a8 s
  unfold execSetpointConfirm
  repeat' first | with_reducible assumption | with_reducible refine kept_readVout ?_ _ (by decide) | with_reducible apply KeptOut.next | dsimp only | split

theorem kept_settleFails {K : Nat} {s0 s : State} (hk : Kept K s0 s) (hm : 0xcc000088 &&& K = 0xcc000088 := by decide) : Kept K s0 (State.settleFails s) := by
  refine hk.into hm ?_
  have hk := Kept.refl 0xcc000088 s
  unfold State.settleFails
  repeat' first | with_reducible assumption | with_reducible refine kept_finding ?_ _ _ _ _ _ _ _ (by decide) | with_reducible refine kept_pmbSettle ?_ _ _ (by decide) | with_reducible refine kept_updPwr ?_ _ (by decide) | simp only [kept_is_mk] | with_reducible refine kept_mk ?_ | dsimp only | split

theorem kept_execVsettleExpiry {K : Nat} {s0 s : State} (hk : Kept K s0 s) (seen : Bool) (hm : 0xcc6005a8 &&& K = 0xcc6005a8 := by decide) : KeptOut K s0 (execVsettleExpiry seen s) := by
  refine hk.out hm ?_
  have hk := Kept.refl 0xcc6005a8 s
  unfold execVsettleExpiry
  repeat' first | with_reducible assumption | with_reducible refine kept_race ?_ _ (by decide) | with_reducible refine kept_confirmSetpoint ?_ (by decide) | with_reducible refine kept_settleFails ?_ (by decide) | with_reducible apply KeptOut.next | dsimp only | split

theorem kept_pmbEnd {K : Nat} {s0 s : State} (hk : Kept K s0 s) (k : Fin 4) (x2 : PmbTx) (hm : 0x8000008 &&& K = 0x8000008 := by decide) : Kept K s0 (State.pmbEnd s k x2) := by
  refine hk.into hm ?_
  have hk := Kept.refl 0x8000008 s
  unfold State.pmbEnd
  repeat' first | with_reducible assumption | with_reducible refine kept_updPmb ?_ _ _ (by decide) | with_reducible refine kept_count ?_ _ _ _ (by decide) | simp only [kept_is_mk] | with_reducible refine kept_mk ?_ | dsimp only | split

theorem kept_pmbEvaluate {K : Nat} {s0 s : State} (hk : Kept K s0 s) (k : Fin 4) (det : Nat) (real : Bool) (hm : 0x8 &&& K = 0x8 := by decide) : Kept K s0 (State.pmbEvaluate s k det real).2 := by
  refine hk.into hm ?_
  have hk := Kept.refl 0x8 s
  unfold State.pmbEvaluate
  repeat' first | with_reducible assumption | with_reducible refine kept_evaluate ?_ _ _ _ (by decide) | (with_reducible refine Kept.of_fst (by assumption) ?_) | (with_reducible refine Kept.of_snd (by assumption) ?_) | dsimp only | split

theorem kept_pmbStatus {K : Nat} {s0 s : State} (hk : Kept K s0 s) (k : Fin 4) (r : PmbRead) (hm : 0xd8000088 &&& K = 0xd8000088 := by decide) : Kept K s0 (State.pmbStatus s k r) := by
  refine hk.into hm ?_
  have hk := Kept.refl 0xd8000088 s
  unfold State.pmbStatus
  repeat' first | with_reducible assumption | with_reducible refine kept_finding ?_ _ _ _ _ _ _ _ (by decide) | with_reducible refine kept_pmbEvaluate ?_ _ _ _ (by decide) | with_reducible refine kept_pmbSend ?_ _ _ _ (by decide) | with_reducible refine kept_put ?_ _ _ _ (by decide) | with_reducible refine kept_updPmb ?_ _ _ (by decide) | simp only [kept_is_mk] | with_reducible refine kept_mk ?_ | (with_reducible refine Kept.of_fst (by assumption) ?_) | (with_reducible refine Kept.of_snd (by assumption) ?_) | dsimp only | split

theorem kept_pmbLoss {K : Nat} {s0 s : State} (hk : Kept K s0 s) (k : Fin 4) (good : Bool) (hm : 0xc8000088 &&& K = 0xc8000088 := by decide) : Kept K s0 (State.pmbLoss s k good) := by
  refine hk.into hm ?_
  have hk := Kept.refl 0xc8000088 s
  unfold State.pmbLoss
  repeat' first | with_reducible assumption | with_reducible refine kept_finding ?_ _ _ _ _ _ _ _ (by decide) | with_reducible refine kept_pmbEvaluate ?_ _ _ _ (by decide) | with_reducible refine kept_raise ?_ _ _ (by decide) | with_reducible refine kept_updPmb ?_ _ _ (by decide) | simp only [kept_is_mk] | with_reducible refine kept_mk ?_ | (with_reducible refine Kept.of_fst (by assumption) ?_) | (with_reducible refine Kept.of_snd (by assumption) ?_) | dsimp only | split

theorem kept_pmbTelemetry {K : Nat} {s0 s : State} (hk : Kept K s0 s) (r : PmbRead) (hm : 0xc6005a8 &&& K = 0xc6005a8 := by decide) : Kept K s0 (State.pmbTelemetry s r) := by
  refine hk.into hm ?_
  have hk := Kept.refl 0xc6005a8 s
  unfold State.pmbTelemetry
  repeat' first | with_reducible assumption | with_reducible refine kept_put ?_ _ _ _ (by decide) | with_reducible refine kept_readVout ?_ _ (by decide) | dsimp only | split

theorem kept_pmbPollSlot {K : Nat} {s0 s : State} (hk : Kept K s0 s) (k : Fin 4) (r : PmbRead) (hm : 0xdc6005a8 &&& K = 0xdc6005a8 := by decide) : Kept K s0 (State.pmbPollSlot s k r) := by
  refine hk.into hm ?_
  have hk := Kept.refl 0xdc6005a8 s
  unfold State.pmbPollSlot
  repeat' first | with_reducible assumption | with_reducible refine kept_pmbStatus ?_ _ _ (by decide) | with_reducible refine kept_pmbTelemetry ?_ _ (by decide) | with_reducible refine kept_pmbSettle ?_ _ _ (by decide) | with_reducible refine kept_pmbEnd ?_ _ _ (by decide) | with_reducible refine kept_pmbLoss ?_ _ _ (by decide) | dsimp only | split

theorem kept_pmbPollAll {K : Nat} {s0 s : State} (hk : Kept K s0 s) (reads : List (Fin 4 × PmbRead)) (hm : 0xdc6005a8 &&& K = 0xdc6005a8 := by decide) : Kept K s0 (State.pmbPollAll s reads) := by
  refine hk.into hm ?_
  have hk := Kept.refl 0xdc6005a8 s
  unfold State.pmbPollAll
  repeat' first | with_reducible assumption | with_reducible refine kept_pmbPollSlot ?_ _ _ (by decide) | with_reducible refine Kept.foldl (fun _ _ h => ?_) _ ?_ | with_reducible refine Kept.foldl_fst (fun _ _ h => ?_) _ ?_ | dsimp only | split

theorem kept_execPmbPoll {K : Nat} {s0 s : State} (hk : Kept K s0 s) (reads : List (Fin 4 × PmbRead)) (hm : 0xdc6005a8 &&& K = 0xdc6005a8 := by decide) : KeptOut K s0 (execPmbPoll reads s) := by
  refine hk.out hm ?_
  have hk := Kept.refl 0xdc6005a8 s
  unfold execPmbPoll
  repeat' first | with_reducible assumption | with_reducible refine kept_pmbPollAll ?_ _ (by decide) | with_reducible refine kept_updPwr ?_ _ (by decide) | simp only [kept_is_mk] | with_reducible refine kept_mk ?_ | with_reducible apply KeptOut.next | dsimp only | split

theorem kept_execPmbAlert {K : Nat} {s0 s : State} (hk : Kept K s0 s) (reads : List (Fin 4 × PmbRead)) (hm : 0xdc6005a8 &&& K = 0xdc6005a8 := by decide) : KeptOut K s0 (execPmbAlert reads s) := by
  refine hk.out hm ?_
  have hk := Kept.refl 0xdc6005a8 s
  unfold execPmbAlert
  repeat' first | with_reducible assumption | with_reducible refine kept_pmbPollAll ?_ _ (by decide) | with_reducible apply KeptOut.next | dsimp only | split

theorem kept_pmbProbe {K : Nat} {s0 s : State} (hk : Kept K s0 s) (k : Fin 4) (mode : Option (BitVec 8)) (hm : 0x18000008 &&& K = 0x18000008 := by decide) : Kept K s0 (State.pmbProbe s k mode) := by
  refine hk.into hm ?_
  have hk := Kept.refl 0x18000008 s
  unfold State.pmbProbe
  repeat' first | with_reducible assumption | with_reducible refine kept_pmbSend ?_ _ _ _ (by decide) | with_reducible refine kept_pmbEnd ?_ _ _ (by decide) | with_reducible refine kept_put ?_ _ _ _ (by decide) | with_reducible refine kept_updPmb ?_ _ _ (by decide) | simp only [kept_is_mk] | with_reducible refine kept_mk ?_ | dsimp only | split

theorem kept_showMeters {K : Nat} {s0 s : State} (hk : Kept K s0 s) (ms : List Nat) (fmin : Nat) (hm : 0x8 &&& K = 0x8 := by decide) : Kept K s0 (State.showMeters s ms fmin) := by
  refine hk.into hm ?_
  have hk := Kept.refl 0x8 s
  unfold State.showMeters
  repeat' first | with_reducible assumption | with_reducible refine kept_puts ?_ _ _ (by decide) | with_reducible refine Kept.foldl (fun _ _ h => ?_) _ ?_ | dsimp only | split

theorem kept_voltageLoop {K : Nat} {s0 s : State} (hk : Kept K s0 s) (m : Nat) (hm : 0x14000088 &&& K = 0x14000088 := by decide) : Kept K s0 (State.voltageLoop s m) := by
  refine hk.into hm ?_
  have hk := Kept.refl 0x14000088 s
  unfold State.voltageLoop
  repeat' first | with_reducible assumption | with_reducible refine kept_updPwr ?_ _ (by decide) | with_reducible refine kept_setSetpoint ?_ _ (by decide) | simp only [kept_is_mk] | with_reducible refine kept_mk ?_ | dsimp only | split

theorem kept_restoreStep {K : Nat} {s0 s : State} (hk : Kept K s0 s) (fmin : Nat) (hm : 0x2004004488 &&& K = 0x2004004488 := by decide) : Kept K s0 (State.restoreStep s fmin) := by
  refine hk.into hm ?_
  have hk := Kept.refl 0x2004004488 s
  unfold State.restoreStep
  repeat' first | with_reducible assumption | with_reducible refine kept_raise ?_ _ _ (by decide) | with_reducible refine kept_changeRate ?_ _ _ (by decide) | with_reducible refine kept_updPwr ?_ _ (by decide) | simp only [kept_is_mk] | with_reducible refine kept_mk ?_ | dsimp only | split

theorem kept_halve {K : Nat} {s0 s : State} (hk : Kept K s0 s) (low : Bool) (hm : 0x2004004488 &&& K = 0x2004004488 := by decide) : Kept K s0 (State.halve s low) := by
  refine hk.into hm ?_
  have hk := Kept.refl 0x2004004488 s
  unfold State.halve
  repeat' first | with_reducible assumption | with_reducible refine kept_raise ?_ _ _ (by decide) | with_reducible refine kept_changeRate ?_ _ _ (by decide) | with_reducible refine kept_updPwr ?_ _ (by decide) | with_reducible refine kept_count ?_ _ _ _ (by decide) | simp only [kept_is_mk] | with_reducible refine kept_mk ?_ | dsimp only | split

theorem kept_sequence {K : Nat} {s0 s : State} (hk : Kept K s0 s) (src : Nat) (hm : 0x20c4004488 &&& K = 0x20c4004488 := by decide) : Kept K s0 (State.sequence s src) := by
  refine hk.into hm ?_
  have hk := Kept.refl 0x20c4004488 s
  unfold State.sequence
  repeat' first | with_reducible assumption | with_reducible refine kept_finding ?_ _ _ _ _ _ _ _ (by decide) | with_reducible refine kept_halve ?_ _ (by decide) | with_reducible refine kept_raise ?_ _ _ (by decide) | with_reducible refine kept_changeRate ?_ _ _ (by decide) | with_reducible refine kept_updPwr ?_ _ (by decide) | simp only [kept_is_mk] | with_reducible refine kept_mk ?_ | dsimp only | split

theorem kept_tempEpoch {K : Nat} {s0 s : State} (hk : Kept K s0 s) (hm : 0x80000000 &&& K = 0x80000000 := by decide) : Kept K s0 (State.tempEpoch s) := by
  refine hk.into hm ?_
  have hk := Kept.refl 0x80000000 s
  unfold State.tempEpoch
  repeat' first | with_reducible assumption | simp only [kept_is_mk] | with_reducible refine kept_mk ?_ | dsimp only | split

theorem kept_countEpochs {K : Nat} {s0 s : State} (hk : Kept K s0 s) (low : Bool) (hm : 0x4000000 &&& K = 0x4000000 := by decide) : Kept K s0 (State.countEpochs s low) := by
  refine hk.into hm ?_
  have hk := Kept.refl 0x4000000 s
  unfold State.countEpochs
  repeat' first | with_reducible assumption | with_reducible refine kept_updPwr ?_ _ (by decide) | simp only [kept_is_mk] | with_reducible refine kept_mk ?_ | dsimp only | split

theorem kept_powerEpoch {K : Nat} {s0 s : State} (hk : Kept K s0 s) (slack : List Nat) (hm : 0x20d4004488 &&& K = 0x20d4004488 := by decide) : Kept K s0 (State.powerEpoch s slack) := by
  refine hk.into hm ?_
  have hk := Kept.refl 0x20d4004488 s
  unfold State.powerEpoch
  repeat' first | with_reducible assumption | with_reducible refine kept_restoreStep ?_ _ (by decide) | with_reducible refine kept_tempEpoch ?_ (by decide) | with_reducible refine kept_showMeters ?_ _ _ (by decide) | with_reducible refine kept_voltageLoop ?_ _ (by decide) | with_reducible refine kept_evaluate ?_ _ _ _ (by decide) | with_reducible refine kept_updPwr ?_ _ (by decide) | with_reducible refine kept_sequence ?_ _ (by decide) | with_reducible refine kept_countEpochs ?_ _ (by decide) | simp only [kept_is_mk] | with_reducible refine kept_mk ?_ | (with_reducible refine Kept.of_fst (by assumption) ?_) | (with_reducible refine Kept.of_snd (by assumption) ?_) | dsimp only | split

theorem kept_execSeqRestoreRaise {K : Nat} {s0 s : State} (hk : Kept K s0 s) (hm : 0x14000088 &&& K = 0x14000088 := by decide) : KeptOut K s0 (execSeqRestoreRaise s) := by
  refine hk.out hm ?_
  have hk := Kept.refl 0x14000088 s
  unfold execSeqRestoreRaise
  repeat' first | with_reducible assumption | with_reducible refine kept_updPwr ?_ _ (by decide) | with_reducible refine kept_setSetpoint ?_ _ (by decide) | simp only [kept_is_mk] | with_reducible refine kept_mk ?_ | with_reducible apply KeptOut.next | dsimp only | split

theorem kept_leaveRunRung {K : Nat} {s0 s : State} (hk : Kept K s0 s) (hm : 0x16824e0448c &&& K = 0x16824e0448c := by decide) : Kept K s0 (State.leaveRunRung s) := by
  refine hk.into hm ?_
  have hk := Kept.refl 0x16824e0448c s
  unfold State.leaveRunRung
  repeat' first | with_reducible assumption | with_reducible refine kept_convOffAll ?_ (by decide) | with_reducible refine kept_smcIdle ?_ (by decide) | with_reducible refine kept_updPwr ?_ _ (by decide) | with_reducible refine kept_txClockAbort ?_ (by decide) | simp only [kept_is_mk] | with_reducible refine kept_mk ?_ | dsimp only | split

theorem kept_leavePort {K : Nat} {s0 s : State} (hk : Kept K s0 s) (p : Port) (hm : 0x302000088 &&& K = 0x302000088 := by decide) : Kept K s0 (State.leavePort s p) := by
  refine hk.into hm ?_
  have hk := Kept.refl 0x302000088 s
  unfold State.leavePort
  repeat' first | with_reducible assumption | with_reducible refine kept_leaveBuffer ?_ _ _ (by decide) | with_reducible refine kept_portDrop ?_ _ _ _ (by decide) | with_reducible refine kept_send ?_ _ _ (by decide) | with_reducible refine kept_updPort ?_ _ _ (by decide) | simp only [kept_is_mk] | with_reducible refine kept_mk ?_ | with_reducible refine Kept.foldl (fun _ _ h => ?_) _ ?_ | dsimp only | split

theorem kept_leaveIdle {K : Nat} {s0 s : State} (hk : Kept K s0 s) (hm : 0x1316000188 &&& K = 0x1316000188 := by decide) : Kept K s0 (State.leaveIdle s) := by
  refine hk.into hm ?_
  have hk := Kept.refl 0x1316000188 s
  unfold State.leaveIdle
  repeat' first | with_reducible assumption | with_reducible refine kept_leavePort ?_ _ (by decide) | with_reducible refine kept_clkOff ?_ (by decide) | with_reducible refine kept_count ?_ _ _ _ (by decide) | with_reducible refine kept_setSetpoint ?_ _ (by decide) | dsimp only | split

theorem kept_leaveStandby {K : Nat} {s0 s : State} (hk : Kept K s0 s) (hm : 0x63f888 &&& K = 0x63f888 := by decide) : Kept K s0 (State.leaveStandby s) := by
  refine hk.into hm ?_
  have hk := Kept.refl 0x63f888 s
  unfold State.leaveStandby
  repeat' first | with_reducible assumption | with_reducible refine kept_slotsDown ?_ (by decide) | with_reducible refine kept_snapsLost ?_ (by decide) | with_reducible refine kept_bedsDown ?_ (by decide) | with_reducible refine kept_slicesDown ?_ (by decide) | simp only [kept_is_mk] | with_reducible refine kept_mk ?_ | dsimp only | split

theorem kept_dropSessions {K : Nat} {s0 s : State} (hk : Kept K s0 s) (hm : 0x20000088 &&& K = 0x20000088 := by decide) : Kept K s0 (State.dropSessions s) := by
  refine hk.into hm ?_
  have hk := Kept.refl 0x20000088 s
  unfold State.dropSessions
  repeat' first | with_reducible assumption | with_reducible refine kept_endSessions ?_ _ _ (by decide) | simp only [kept_is_mk] | with_reducible refine kept_mk ?_ | dsimp only | split

theorem kept_forget {K : Nat} {s0 s : State} (hk : Kept K s0 s) (hm : 0x200e19c02f8 &&& K = 0x200e19c02f8 := by decide) : Kept K s0 (State.forget s) := by
  refine hk.into hm ?_
  have hk := Kept.refl 0x200e19c02f8 s
  unfold State.forget
  repeat' first | with_reducible assumption | simp only [kept_is_mk] | with_reducible refine kept_mk ?_ | with_reducible refine kept_mk_filter ?_ (by decide) | dsimp only | split

theorem kept_leaveDoze {K : Nat} {s0 s : State} (hk : Kept K s0 s) (hm : 0x288e19c02fc &&& K = 0x288e19c02fc := by decide) : Kept K s0 (State.leaveDoze s) := by
  refine hk.into hm ?_
  have hk := Kept.refl 0x288e19c02fc s
  unfold State.leaveDoze
  repeat' first | with_reducible assumption | with_reducible refine kept_smcSleep ?_ (by decide) | with_reducible refine kept_journal ?_ _ _ _ _ _ (by decide) | with_reducible refine kept_flushTail ?_ (by decide) | with_reducible refine kept_forget ?_ (by decide) | with_reducible refine kept_dropSessions ?_ (by decide) | (with_reducible refine Kept.of_fst (by assumption) ?_) | (with_reducible refine Kept.of_snd (by assumption) ?_) | dsimp only | split

theorem kept_leaveSleep {K : Nat} {s0 s : State} (hk : Kept K s0 s) (hm : 0x612000108 &&& K = 0x612000108 := by decide) : Kept K s0 (State.leaveSleep s) := by
  refine hk.into hm ?_
  have hk := Kept.refl 0x612000108 s
  unfold State.leaveSleep
  repeat' first | with_reducible assumption | with_reducible refine kept_pmbSend ?_ _ _ _ (by decide) | simp only [kept_is_mk] | with_reducible refine kept_mk ?_ | with_reducible refine kept_mk_filter ?_ (by decide) | dsimp only | split

theorem kept_wakeConfig {K : Nat} {s0 s : State} (hk : Kept K s0 s) (hm : 0x2800000408 &&& K = 0x2800000408 := by decide) : Kept K s0 (State.wakeConfig s) := by
  refine hk.into hm ?_
  have hk := Kept.refl 0x2800000408 s
  unfold State.wakeConfig
  repeat' first | with_reducible assumption | with_reducible refine kept_factoryTrims ?_ (by decide) | with_reducible refine kept_resume ?_ (by decide) | with_reducible refine kept_put ?_ _ _ _ (by decide) | dsimp only | split

theorem kept_wakeDormant {K : Nat} {s0 s : State} (hk : Kept K s0 s) (hm : 0xa8f4040489 &&& K = 0xa8f4040489 := by decide) : Kept K s0 (State.wakeDormant s) := by
  refine hk.into hm ?_
  have hk := Kept.refl 0xa8f4040489 s
  unfold State.wakeDormant
  repeat' first | with_reducible assumption | with_reducible refine kept_replay ?_ (by decide) | with_reducible refine kept_pmbSend ?_ _ _ _ (by decide) | with_reducible refine kept_wakeConfig ?_ (by decide) | with_reducible refine kept_fwLoad ?_ _ (by decide) | with_reducible refine kept_writeSetpoint ?_ _ (by decide) | simp only [kept_is_mk] | with_reducible refine kept_mk ?_ | (with_reducible refine Kept.of_fst (by assumption) ?_) | (with_reducible refine Kept.of_snd (by assumption) ?_) | dsimp only | split

theorem kept_leaveStandbyUp {K : Nat} {s0 s : State} (hk : Kept K s0 s) (hm : 0x116000088 &&& K = 0x116000088 := by decide) : Kept K s0 (State.leaveStandbyUp s) := by
  refine hk.into hm ?_
  have hk := Kept.refl 0x116000088 s
  unfold State.leaveStandbyUp
  repeat' first | with_reducible assumption | with_reducible refine kept_clkOn ?_ (by decide) | with_reducible refine kept_setSetpoint ?_ _ (by decide) | with_reducible refine kept_updPort ?_ _ _ (by decide) | simp only [kept_is_mk] | with_reducible refine kept_mk ?_ | dsimp only | split

theorem kept_stepActions {K : Nat} {s0 s : State} (hk : Kept K s0 s) (rising : Bool) (hm : 0x3fff7fffffd &&& K = 0x3fff7fffffd := by decide) : Kept K s0 (State.stepActions s rising) := by
  refine hk.into hm ?_
  have hk := Kept.refl 0x3fff7fffffd s
  unfold State.stepActions
  repeat' first | with_reducible assumption | with_reducible refine kept_leaveRunRung ?_ (by decide) | with_reducible refine kept_leaveStandby ?_ (by decide) | with_reducible refine kept_leaveStandbyUp ?_ (by decide) | with_reducible refine kept_wakeDormant ?_ (by decide) | with_reducible refine kept_leaveIdle ?_ (by decide) | with_reducible refine kept_startConvs ?_ (by decide) | with_reducible refine kept_wakeConfig ?_ (by decide) | with_reducible refine kept_leaveSleep ?_ (by decide) | with_reducible refine kept_leaveDoze ?_ (by decide) | dsimp only | split

theorem kept_stepBegin {K : Nat} {s0 s : State} (hk : Kept K s0 s) (rising : Bool) (hm : 0x3fff7fffffd &&& K = 0x3fff7fffffd := by decide) : Kept K s0 (State.stepBegin s rising) := by
  refine hk.into hm ?_
  have hk := Kept.refl 0x3fff7fffffd s
  unfold State.stepBegin
  repeat' first | with_reducible assumption | with_reducible refine kept_stepActions ?_ _ (by decide) | with_reducible refine kept_updPwr ?_ _ (by decide) | simp only [kept_is_mk] | with_reducible refine kept_mk ?_ | dsimp only | split

theorem kept_stepOn {K : Nat} {s0 s : State} (hk : Kept K s0 s) (hm : 0x3fff7fffffd &&& K = 0x3fff7fffffd := by decide) : Kept K s0 (State.stepOn s) := by
  refine hk.into hm ?_
  have hk := Kept.refl 0x3fff7fffffd s
  unfold State.stepOn
  repeat' first | with_reducible assumption | with_reducible refine kept_raise ?_ _ _ (by decide) | with_reducible refine kept_updPwr ?_ _ (by decide) | with_reducible refine kept_stepBegin ?_ _ (by decide) | simp only [kept_is_mk] | with_reducible refine kept_mk ?_ | dsimp only | split

theorem kept_writeTarget {K : Nat} {s0 s : State} (hk : Kept K s0 s) (w : Word) (hm : 0x3fff7fffffd &&& K = 0x3fff7fffffd := by decide) : Kept K s0 (State.writeTarget s w).1 := by
  refine hk.into hm ?_
  have hk := Kept.refl 0x3fff7fffffd s
  unfold State.writeTarget
  repeat' first | with_reducible assumption | with_reducible refine kept_put ?_ _ _ _ (by decide) | with_reducible refine kept_stepBegin ?_ _ (by decide) | simp only [kept_is_mk] | with_reducible refine kept_mk ?_ | dsimp only | split

theorem kept_arrive {K : Nat} {s0 s : State} (hk : Kept K s0 s) (from_ : Nat) (to_ : Nat) (hm : 0x82400008c &&& K = 0x82400008c := by decide) : Kept K s0 (State.arrive s from_ to_) := by
  refine hk.into hm ?_
  have hk := Kept.refl 0x82400008c s
  unfold State.arrive
  repeat' first | with_reducible assumption | with_reducible refine kept_smcRun ?_ (by decide) | with_reducible refine kept_raise ?_ _ _ (by decide) | with_reducible refine kept_put ?_ _ _ _ (by decide) | with_reducible refine kept_updPwr ?_ _ (by decide) | with_reducible refine kept_count ?_ _ _ _ (by decide) | with_reducible refine kept_smcWake ?_ (by decide) | simp only [kept_is_mk] | with_reducible refine kept_mk ?_ | dsimp only | split

theorem kept_execRungStepDone {K : Nat} {s0 s : State} (hk : Kept K s0 s) (hm : 0x3fff7fffffd &&& K = 0x3fff7fffffd := by decide) : KeptOut K s0 (execRungStepDone s) := by
  refine hk.out hm ?_
  have hk := Kept.refl 0x3fff7fffffd s
  unfold execRungStepDone
  repeat' first | with_reducible assumption | with_reducible refine kept_arrive ?_ _ _ (by decide) | with_reducible refine kept_stepOn ?_ (by decide) | with_reducible apply KeptOut.next | dsimp only | split

theorem kept_wake {K : Nat} {s0 s : State} (hk : Kept K s0 s) (hm : 0x3fff7fffffd &&& K = 0x3fff7fffffd := by decide) : Kept K s0 (State.wake s) := by
  refine hk.into hm ?_
  have hk := Kept.refl 0x3fff7fffffd s
  unfold State.wake
  repeat' first | with_reducible assumption | with_reducible refine kept_updPwr ?_ _ (by decide) | with_reducible refine kept_stepBegin ?_ _ (by decide) | simp only [kept_is_mk] | with_reducible refine kept_mk ?_ | dsimp only | split

end Sys2Proof.Machine
end

