-- ==== Sys2Proof/Laws/KeptFaults.lean ====
section
/-! SUPPORT. What every operation of Faults.lean keeps. -/

namespace Sys2Proof.Machine

set_option Elab.async false

set_option linter.unusedSimpArgs false

theorem kept_sramEvaluate {K : Nat} {s0 s : State} (hk : Kept K s0 s) (det : Nat) (here : Bool) (real : Bool) (hm : 0x8 &&& K = 0x8 := by decide) : Kept K s0 (State.sramEvaluate s det here real).2 := by
  refine hk.into hm ?_
  have hk := Kept.refl 0x8 s
  unfold State.sramEvaluate
  repeat' first | with_reducible assumption | with_reducible refine kept_evaluate ?_ _ _ _ (by decide) | (with_reducible refine Kept.of_fst (by assumption) ?_) | (with_reducible refine Kept.of_snd (by assumption) ?_) | dsimp only | split

theorem kept_loseHeld {K : Nat} {s0 s : State} (hk : Kept K s0 s) (n : Nat) (hm : 0x600008 &&& K = 0x600008 := by decide) : Kept K s0 (State.loseHeld s n) := by
  refine hk.into hm ?_
  have hk := Kept.refl 0x600008 s
  unfold State.loseHeld
  repeat' first | with_reducible assumption | with_reducible refine kept_dropPacket ?_ _ (by decide) | with_reducible refine kept_updBund ?_ _ _ (by decide) | simp only [kept_is_mk] | with_reducible refine kept_mk ?_ | dsimp only | split

theorem kept_loseQueued {K : Nat} {s0 s : State} (hk : Kept K s0 s) (n : Nat) (hm : 0xa00008 &&& K = 0xa00008 := by decide) : Kept K s0 (State.loseQueued s n) := by
  refine hk.into hm ?_
  have hk := Kept.refl 0xa00008 s
  unfold State.loseQueued
  repeat' first | with_reducible assumption | with_reducible refine kept_dropPacket ?_ _ (by decide) | with_reducible refine kept_updQueue ?_ _ _ (by decide) | simp only [kept_is_mk] | with_reducible refine kept_mk ?_ | dsimp only | split

theorem kept_loseFrames {K : Nat} {s0 s : State} (hk : Kept K s0 s) (n : Nat) (hm : 0x20000 &&& K = 0x20000 := by decide) : Kept K s0 (State.loseFrames s n) := by
  refine hk.into hm ?_
  have hk := Kept.refl 0x20000 s
  unfold State.loseFrames
  repeat' first | with_reducible assumption | with_reducible refine kept_updCand ?_ _ _ _ (by decide) | simp only [kept_is_mk] | with_reducible refine kept_mk ?_ | dsimp only | split

theorem kept_sramLoss {K : Nat} {s0 s : State} (hk : Kept K s0 s) (mem : Nat) (hm : 0xe2000c &&& K = 0xe2000c := by decide) : Kept K s0 (State.sramLoss s mem) := by
  refine hk.into hm ?_
  have hk := Kept.refl 0xe2000c s
  unfold State.sramLoss
  repeat' first | with_reducible assumption | with_reducible refine kept_draw ?_ (by decide) | with_reducible refine kept_loseFrames ?_ _ (by decide) | with_reducible refine kept_loseQueued ?_ _ (by decide) | with_reducible refine kept_loseHeld ?_ _ (by decide) | (with_reducible refine Kept.of_fst (by assumption) ?_) | (with_reducible refine Kept.of_snd (by assumption) ?_) | dsimp only | split

theorem kept_sramConsequence {K : Nat} {s0 s : State} (hk : Kept K s0 s) (det : Nat) (w : ScrubWord) (hm : 0x40e2000c &&& K = 0x40e2000c := by decide) : Kept K s0 (State.sramConsequence s det w) := by
  refine hk.into hm ?_
  have hk := Kept.refl 0x40e2000c s
  unfold State.sramConsequence
  repeat' first | with_reducible assumption | with_reducible refine kept_sramLoss ?_ _ (by decide) | simp only [kept_is_mk] | with_reducible refine kept_mk ?_ | dsimp only | split

theorem kept_sramDetect {K : Nat} {s0 s : State} (hk : Kept K s0 s) (det : Nat) (here : Bool) (real : Bool) (w : ScrubWord) (hm : 0xc0e2008c &&& K = 0xc0e2008c := by decide) : Kept K s0 (State.sramDetect s det here real w) := by
  refine hk.into hm ?_
  have hk := Kept.refl 0xc0e2008c s
  unfold State.sramDetect
  repeat' first | with_reducible assumption | with_reducible refine kept_finding ?_ _ _ _ _ _ _ _ (by decide) | with_reducible refine kept_sramConsequence ?_ _ _ (by decide) | with_reducible refine kept_sramEvaluate ?_ _ _ _ (by decide) | (with_reducible refine Kept.of_fst (by assumption) ?_) | (with_reducible refine Kept.of_snd (by assumption) ?_) | dsimp only | split

theorem kept_execSramScrub {K : Nat} {s0 s : State} (hk : Kept K s0 s) (w : ScrubWord) (hm : 0xc0e2008c &&& K = 0xc0e2008c := by decide) : KeptOut K s0 (execSramScrub w s) := by
  refine hk.out hm ?_
  have hk := Kept.refl 0xc0e2008c s
  unfold execSramScrub
  repeat' first | with_reducible assumption | with_reducible refine kept_sramDetect ?_ _ _ _ _ (by decide) | with_reducible apply KeptOut.next | dsimp only | split

theorem kept_restartConv {K : Nat} {s0 s : State} (hk : Kept K s0 s) (i : Inp) (hm : 0x2000004488 &&& K = 0x2000004488 := by decide) : Kept K s0 (State.restartConv s i) := by
  refine hk.into hm ?_
  have hk := Kept.refl 0x2000004488 s
  unfold State.restartConv
  repeat' first | with_reducible assumption | with_reducible refine kept_leaveRun ?_ _ _ (by decide) | with_reducible refine kept_put ?_ _ _ _ (by decide) | with_reducible refine kept_updInp ?_ _ _ (by decide) | dsimp only | split

theorem kept_stallBed {K : Nat} {s0 s : State} (hk : Kept K s0 s) (k : BedId) (hm : 0x18088 &&& K = 0x18088 := by decide) : Kept K s0 (State.stallBed s k) := by
  refine hk.into hm ?_
  have hk := Kept.refl 0x18088 s
  unfold State.stallBed
  repeat' first | with_reducible assumption | with_reducible refine kept_bedSearch ?_ _ (by decide) | with_reducible refine kept_bedFall ?_ _ (by decide) | dsimp only | split

theorem kept_stallUnit {K : Nat} {s0 s : State} (hk : Kept K s0 s) (page : Nat) (unit : Nat) (hm : 0x200021dc88 &&& K = 0x200021dc88 := by decide) : Kept K s0 (State.stallUnit s page unit) := by
  refine hk.into hm ?_
  have hk := Kept.refl 0x200021dc88 s
  unfold State.stallUnit
  repeat' first | with_reducible assumption | with_reducible refine kept_restartDemod ?_ _ (by decide) | with_reducible refine kept_stallBed ?_ _ (by decide) | with_reducible refine kept_restartConv ?_ _ (by decide) | with_reducible refine kept_updDec ?_ _ _ (by decide) | with_reducible refine kept_slcSettle ?_ _ (by decide) | simp only [kept_is_mk] | with_reducible refine kept_mk ?_ | dsimp only | split

theorem kept_stall {K : Nat} {s0 s : State} (hk : Kept K s0 s) (page : Nat) (unit : Nat) (src : Nat) (hm : 0x20c021dc88 &&& K = 0x20c021dc88 := by decide) : Kept K s0 (State.stall s page unit src) := by
  refine hk.into hm ?_
  have hk := Kept.refl 0x20c021dc88 s
  unfold State.stall
  repeat' first | with_reducible assumption | with_reducible refine kept_finding ?_ _ _ _ _ _ _ _ (by decide) | with_reducible refine kept_stallUnit ?_ _ _ (by decide) | dsimp only | split

theorem kept_execStallWatchdog {K : Nat} {s0 s : State} (hk : Kept K s0 s) (page : Nat) (unit : Nat) (stalled : Bool) (hm : 0x20c021dc88 &&& K = 0x20c021dc88 := by decide) : KeptOut K s0 (execStallWatchdog page unit stalled s) := by
  refine hk.out hm ?_
  have hk := Kept.refl 0x20c021dc88 s
  unfold execStallWatchdog
  repeat' first | with_reducible assumption | with_reducible refine kept_stall ?_ _ _ _ (by decide) | with_reducible refine kept_race ?_ _ (by decide) | with_reducible apply KeptOut.next | dsimp only | split

theorem kept_stallsInjected {K : Nat} {s0 s : State} (hk : Kept K s0 s) (hm : 0x20c021dc88 &&& K = 0x20c021dc88 := by decide) : Kept K s0 (State.stallsInjected s) := by
  refine hk.into hm ?_
  have hk := Kept.refl 0x20c021dc88 s
  unfold State.stallsInjected
  repeat' first | with_reducible assumption | with_reducible refine kept_stall ?_ _ _ _ (by decide) | with_reducible refine kept_consumeInj ?_ _ (by decide) | with_reducible refine Kept.foldl (fun _ _ h => ?_) _ ?_ | with_reducible refine Kept.foldl_fst (fun _ _ h => ?_) _ ?_ | dsimp only | split

theorem kept_tailRewrite {K : Nat} {s0 s : State} (hk : Kept K s0 s) (hm : 0x8040000088 &&& K = 0x8040000088 := by decide) : Kept K s0 (State.tailRewrite s) := by
  refine hk.into hm ?_
  have hk := Kept.refl 0x8040000088 s
  unfold State.tailRewrite
  repeat' first | with_reducible assumption | with_reducible refine kept_copyEntry ?_ _ (by decide) | (with_reducible refine Kept.of_fst (by assumption) ?_) | (with_reducible refine Kept.of_snd (by assumption) ?_) | dsimp only | split

theorem kept_execLogTailCopy {K : Nat} {s0 s : State} (hk : Kept K s0 s) (hm : 0x3ffffffffff &&& K = 0x3ffffffffff := by decide) : KeptOut K s0 (execLogTailCopy s) := by
  refine hk.out hm ?_
  have hk := Kept.refl 0x3ffffffffff s
  unfold execLogTailCopy
  repeat' first | with_reducible assumption | with_reducible refine kept_resetPart ?_ (by decide) | with_reducible refine kept_tailRewrite ?_ (by decide) | with_reducible refine kept_copyWaiting ?_ (by decide) | with_reducible apply KeptOut.next | dsimp only | split

theorem kept_ackLog {K : Nat} {s0 s : State} (hk : Kept K s0 s) (seq : Nat) (hm : 0x40000000 &&& K = 0x40000000 := by decide) : Kept K s0 (State.ackLog s seq) := by
  refine hk.into hm ?_
  have hk := Kept.refl 0x40000000 s
  unfold State.ackLog
  repeat' first | with_reducible assumption | simp only [kept_is_mk] | with_reducible refine kept_mk ?_ | dsimp only | split

theorem kept_holdTel {K : Nat} {s0 s : State} (hk : Kept K s0 s) (i : StrmId) (ws : List Quad) (hm : 0x80000000 &&& K = 0x80000000 := by decide) : Kept K s0 (State.holdTel s i ws) := by
  refine hk.into hm ?_
  have hk := Kept.refl 0x80000000 s
  unfold State.holdTel
  repeat' first | with_reducible assumption | simp only [kept_is_mk] | with_reducible refine kept_mk ?_ | dsimp only | split

theorem kept_telPacket {K : Nat} {s0 s : State} (hk : Kept K s0 s) (i : StrmId) (words : List Quad) (hm : 0x80e00088 &&& K = 0x80e00088 := by decide) : Kept K s0 (State.telPacket s i words) := by
  refine hk.into hm ?_
  have hk := Kept.refl 0x80e00088 s
  unfold State.telPacket
  repeat' first | with_reducible assumption | with_reducible refine kept_holdTel ?_ _ _ (by decide) | with_reducible refine kept_updQueue ?_ _ _ (by decide) | with_reducible refine kept_formPacket ?_ _ _ (by decide) | with_reducible refine kept_count ?_ _ _ _ (by decide) | simp only [kept_is_mk] | with_reducible refine kept_mk ?_ | dsimp only | split

theorem kept_showEyes {K : Nat} {s0 s : State} (hk : Kept K s0 s) (p : Port) (e : EyeMeas) (hm : 0x8 &&& K = 0x8 := by decide) : Kept K s0 (State.showEyes s p e) := by
  refine hk.into hm ?_
  have hk := Kept.refl 0x8 s
  unfold State.showEyes
  repeat' first | with_reducible assumption | with_reducible refine kept_puts ?_ _ _ (by decide) | dsimp only | split

theorem kept_execTelemetryPeriod {K : Nat} {s0 s : State} (hk : Kept K s0 s) (eyes : Vector EyeMeas 2) (hm : 0x80e00088 &&& K = 0x80e00088 := by decide) : KeptOut K s0 (execTelemetryPeriod eyes s) := by
  refine hk.out hm ?_
  have hk := Kept.refl 0x80e00088 s
  unfold execTelemetryPeriod
  repeat' first | with_reducible assumption | with_reducible refine kept_telPacket ?_ _ _ (by decide) | with_reducible refine kept_showEyes ?_ _ _ (by decide) | simp only [kept_is_mk] | with_reducible refine kept_mk ?_ | with_reducible refine Kept.foldl (fun _ _ h => ?_) _ ?_ | with_reducible refine Kept.foldl_fst (fun _ _ h => ?_) _ ?_ | with_reducible apply KeptOut.next | dsimp only | split

theorem kept_showTemps {K : Nat} {s0 s : State} (hk : Kept K s0 s) (t : Vector Int 6) (hottest : Int) (hm : 0x8 &&& K = 0x8 := by decide) : Kept K s0 (State.showTemps s t hottest) := by
  refine hk.into hm ?_
  have hk := Kept.refl 0x8 s
  unfold State.showTemps
  repeat' first | with_reducible assumption | with_reducible refine kept_put ?_ _ _ _ (by decide) | with_reducible refine Kept.foldl (fun _ _ h => ?_) _ ?_ | dsimp only | split

theorem kept_shutDown {K : Nat} {s0 s : State} (hk : Kept K s0 s) (hm : 0x3fff7fffffd &&& K = 0x3fff7fffffd := by decide) : Kept K s0 (State.shutDown s) := by
  refine hk.into hm ?_
  have hk := Kept.refl 0x3fff7fffffd s
  unfold State.shutDown
  repeat' first | with_reducible assumption | with_reducible refine kept_stepBegin ?_ _ (by decide) | simp only [kept_is_mk] | with_reducible refine kept_mk ?_ | dsimp only | split

theorem kept_execSensorRead {K : Nat} {s0 s : State} (hk : Kept K s0 s) (t : Vector Int 6) (hm : 0x3fff7fffffd &&& K = 0x3fff7fffffd := by decide) : KeptOut K s0 (execSensorRead t s) := by
  refine hk.out hm ?_
  have hk := Kept.refl 0x3fff7fffffd s
  unfold execSensorRead
  repeat' first | with_reducible assumption | with_reducible refine kept_finding ?_ _ _ _ _ _ _ _ (by decide) | with_reducible refine kept_shutDown ?_ (by decide) | with_reducible refine kept_consumeInj ?_ _ (by decide) | with_reducible refine kept_showTemps ?_ _ _ (by decide) | with_reducible refine kept_raise ?_ _ _ (by decide) | simp only [kept_is_mk] | with_reducible refine kept_mk ?_ | with_reducible refine Kept.foldl (fun _ _ h => ?_) _ ?_ | with_reducible apply KeptOut.next | dsimp only | split

theorem kept_execRailWarn {K : Nat} {s0 s : State} (hk : Kept K s0 s) (rail : Fin 6) (mv : Nat) (low : Bool) (high : Bool) (hm : 0xc0000088 &&& K = 0xc0000088 := by decide) : KeptOut K s0 (execRailWarn rail mv low high s) := by
  refine hk.out hm ?_
  have hk := Kept.refl 0xc0000088 s
  unfold execRailWarn
  repeat' first | with_reducible assumption | with_reducible refine kept_finding ?_ _ _ _ _ _ _ _ (by decide) | with_reducible refine kept_puts ?_ _ _ (by decide) | with_reducible refine kept_raise ?_ _ _ (by decide) | with_reducible refine kept_evaluate ?_ _ _ _ (by decide) | (with_reducible refine Kept.of_fst (by assumption) ?_) | (with_reducible refine Kept.of_snd (by assumption) ?_) | with_reducible apply KeptOut.next | dsimp only | split

theorem kept_claimBall {K : Nat} {s0 s : State} (hk : Kept K s0 s) (b : Fin 4) (f : Nat) (hm : 0x10000000000 &&& K = 0x10000000000 := by decide) : Kept K s0 (State.claimBall s b f) := by
  refine hk.into hm ?_
  have hk := Kept.refl 0x10000000000 s
  unfold State.claimBall
  repeat' first | with_reducible assumption | simp only [kept_is_mk] | with_reducible refine kept_mk ?_ | dsimp only | split

theorem kept_execBallFunc {K : Nat} {s0 s : State} (hk : Kept K s0 s) (arg : Nat) (hm : 0x304e000008a &&& K = 0x304e000008a := by decide) : KeptOut K s0 (execBallFunc arg s) := by
  refine hk.out hm ?_
  have hk := Kept.refl 0x304e000008a s
  unfold execBallFunc
  repeat' first | with_reducible assumption | with_reducible refine kept_serve ?_ _ _ _ ?_ (by decide) | with_reducible refine kept_claimBall ?_ _ _ (by decide) | with_reducible apply KeptOut.next | intro _ | dsimp only | split

theorem kept_execPpsEdge {K : Nat} {s0 s : State} (hk : Kept K s0 s) (high : Bool) (hm : 0x10000000000 &&& K = 0x10000000000 := by decide) : KeptOut K s0 (execPpsEdge high s) := by
  refine hk.out hm ?_
  have hk := Kept.refl 0x10000000000 s
  unfold execPpsEdge
  repeat' first | with_reducible assumption | simp only [kept_is_mk] | with_reducible refine kept_mk ?_ | with_reducible apply KeptOut.next | dsimp only | split

end Sys2Proof.Machine
end

