-- ==== Sys2Proof/Laws/KeptCloche.lean ====
section
/-! SUPPORT. What every operation of Cloche.lean keeps. -/

namespace Sys2Proof.Machine

set_option Elab.async false

set_option linter.unusedSimpArgs false

theorem kept_mailbox {K : Nat} {s0 s : State} (hk : Kept K s0 s) (op : Nat) (act : Caller → State → State × Option Reply) (hf : ∀ y0 y1, Kept K s0 y1 → Kept K s0 (act y0 y1).1) (hm : 0x204e000008a &&& K = 0x204e000008a := by decide) : Kept K s0 (State.mailbox s op act) := by
  unfold State.mailbox
  repeat' first | with_reducible assumption | with_reducible refine kept_serve ?_ _ _ _ ?_ (mask_trans (by decide) hm) | with_reducible apply hf | intro _ | dsimp only | split

theorem kept_verifierOnly {K : Nat} {s0 s : State} (hk : Kept K s0 s) (op : Nat) (act : Nat → State → State × Reply) (hf : ∀ y0 y1, Kept K s0 y1 → Kept K s0 (act y0 y1).1) (hm : 0x204e000008a &&& K = 0x204e000008a := by decide) : Kept K s0 (State.verifierOnly s op act) := by
  unfold State.verifierOnly
  repeat' first | with_reducible assumption | with_reducible refine kept_mailbox ?_ _ _ ?_ (mask_trans (by decide) hm) | with_reducible apply hf | intro _ | dsimp only | split

theorem kept_execPtSet {K : Nat} {s0 s : State} (hk : Kept K s0 s) (p : PtId) (srcKind : Nat) (src : Nat) (det : Nat) (std : Nat) (khz : Nat) (hm : 0x20ce000008e &&& K = 0x20ce000008e := by decide) : KeptOut K s0 (execPtSet p srcKind src det std khz s) := by
  refine hk.out hm ?_
  have hk := Kept.refl 0x20ce000008e s
  unfold execPtSet
  repeat' first | with_reducible assumption | with_reducible refine kept_updPoint ?_ _ _ (by decide) | with_reducible refine kept_mailbox ?_ _ _ ?_ (by decide) | with_reducible refine kept_logLevels ?_ (by decide) | with_reducible refine kept_closeNow ?_ _ (by decide) | simp only [kept_is_mk] | with_reducible refine kept_mk ?_ | with_reducible apply KeptOut.next | intro _ | dsimp only | split

theorem kept_execPtDelete {K : Nat} {s0 s : State} (hk : Kept K s0 s) (p : PtId) (_u : Unit) (hm : 0x20ce000008e &&& K = 0x20ce000008e := by decide) : KeptOut K s0 (execPtDelete p _u s) := by
  refine hk.out hm ?_
  have hk := Kept.refl 0x20ce000008e s
  unfold execPtDelete
  repeat' first | with_reducible assumption | with_reducible refine kept_updPoint ?_ _ _ (by decide) | with_reducible refine kept_mailbox ?_ _ _ ?_ (by decide) | with_reducible refine kept_logLevels ?_ (by decide) | with_reducible refine kept_closeNow ?_ _ (by decide) | with_reducible apply KeptOut.next | intro _ | dsimp only | split

theorem kept_openInterval {K : Nat} {s0 s : State} (hk : Kept K s0 s) (p : PtId) (hm : 0x800000000 &&& K = 0x800000000 := by decide) : Kept K s0 (State.openInterval s p) := by
  refine hk.into hm ?_
  have hk := Kept.refl 0x800000000 s
  unfold State.openInterval
  repeat' first | with_reducible assumption | with_reducible refine kept_updPoint ?_ _ _ (by decide) | simp only [kept_is_mk] | with_reducible refine kept_mk ?_ | dsimp only | split

theorem kept_execIntervalBoundary {K : Nat} {s0 s : State} (hk : Kept K s0 s) (p : PtId) (_u : Unit) (hm : 0x82000038c &&& K = 0x82000038c := by decide) : KeptOut K s0 (execIntervalBoundary p _u s) := by
  refine hk.out hm ?_
  have hk := Kept.refl 0x82000038c s
  unfold execIntervalBoundary
  repeat' first | with_reducible assumption | with_reducible refine kept_logLevels ?_ (by decide) | with_reducible refine kept_after ?_ _ (by decide) | with_reducible refine kept_closeNow ?_ _ (by decide) | with_reducible refine kept_openInterval ?_ _ (by decide) | with_reducible apply KeptOut.next | dsimp only | split

theorem kept_execRecRead {K : Nat} {s0 s : State} (hk : Kept K s0 s) (first : Nat) (count : Nat) (hm : 0x20ce000008a &&& K = 0x20ce000008a := by decide) : KeptOut K s0 (execRecRead first count s) := by
  refine hk.out hm ?_
  have hk := Kept.refl 0x20ce000008a s
  unfold execRecRead
  repeat' first | with_reducible assumption | with_reducible refine kept_mailbox ?_ _ _ ?_ (by decide) | with_reducible refine kept_placeRec ?_ _ (by decide) | with_reducible refine Kept.foldl (fun _ _ h => ?_) _ ?_ | with_reducible apply KeptOut.next | intro _ | dsimp only | split

theorem kept_logResume {K : Nat} {s0 s : State} (hk : Kept K s0 s) (hm : 0x82000008c &&& K = 0x82000008c := by decide) : Kept K s0 (State.logResume s) := by
  refine hk.into hm ?_
  have hk := Kept.refl 0x82000008c s
  unfold State.logResume
  repeat' first | with_reducible assumption | with_reducible refine kept_logLevels ?_ (by decide) | with_reducible refine kept_raise ?_ _ _ (by decide) | with_reducible refine kept_smcEvent ?_ _ _ (by decide) | with_reducible refine kept_updSmc ?_ _ (by decide) | simp only [kept_is_mk] | with_reducible refine kept_mk ?_ | with_reducible refine Kept.foldl (fun _ _ h => ?_) _ ?_ | with_reducible refine Kept.foldl_fst (fun _ _ h => ?_) _ ?_ | dsimp only | split

theorem kept_execRecReceipt {K : Nat} {s0 s : State} (hk : Kept K s0 s) (seq : Nat) (digest : BitVec 256) (hm : 0x20ce000008e &&& K = 0x20ce000008e := by decide) : KeptOut K s0 (execRecReceipt seq digest s) := by
  refine hk.out hm ?_
  have hk := Kept.refl 0x20ce000008e s
  unfold execRecReceipt
  repeat' first | with_reducible assumption | with_reducible refine kept_logResume ?_ (by decide) | with_reducible refine kept_mailbox ?_ _ _ ?_ (by decide) | with_reducible refine kept_updSmc ?_ _ (by decide) | simp only [kept_is_mk] | with_reducible refine kept_mk ?_ | with_reducible apply KeptOut.next | intro _ | dsimp only | split

theorem kept_execGetCert {K : Nat} {s0 s : State} (hk : Kept K s0 s) (hm : 0x204e000008a &&& K = 0x204e000008a := by decide) : KeptOut K s0 (execGetCert s) := by
  refine hk.out hm ?_
  have hk := Kept.refl 0x204e000008a s
  unfold execGetCert
  repeat' first | with_reducible assumption | with_reducible refine kept_mailbox ?_ _ _ ?_ (by decide) | with_reducible apply KeptOut.next | intro _ | dsimp only | split

theorem kept_execSealBreak {K : Nat} {s0 s : State} (hk : Kept K s0 s) (hm : 0x20ce000008e &&& K = 0x20ce000008e := by decide) : KeptOut K s0 (execSealBreak s) := by
  refine hk.out hm ?_
  have hk := Kept.refl 0x20ce000008e s
  unfold execSealBreak
  repeat' first | with_reducible assumption | with_reducible refine kept_setSeal ?_ _ (by decide) | with_reducible refine kept_verifierOnly ?_ _ _ ?_ (by decide) | with_reducible refine kept_raise ?_ _ _ (by decide) | with_reducible refine kept_smcNote ?_ _ _ (by decide) | with_reducible refine kept_audit ?_ _ _ _ _ (by decide) | with_reducible apply KeptOut.next | intro _ | dsimp only | split

theorem kept_execSealRestore {K : Nat} {s0 s : State} (hk : Kept K s0 s) (tamperN : Bool) (seen : Bool) (hm : 0x20ce000008e &&& K = 0x20ce000008e := by decide) : KeptOut K s0 (execSealRestore tamperN seen s) := by
  refine hk.out hm ?_
  have hk := Kept.refl 0x20ce000008e s
  unfold execSealRestore
  repeat' first | with_reducible assumption | with_reducible refine kept_race ?_ _ (by decide) | with_reducible refine kept_setSeal ?_ _ (by decide) | with_reducible refine kept_verifierOnly ?_ _ _ ?_ (by decide) | with_reducible refine kept_raise ?_ _ _ (by decide) | with_reducible refine kept_smcNote ?_ _ _ (by decide) | with_reducible refine kept_audit ?_ _ _ _ _ (by decide) | with_reducible refine kept_updSmc ?_ _ (by decide) | simp only [kept_is_mk] | with_reducible refine kept_mk ?_ | with_reducible apply KeptOut.next | intro _ | dsimp only | split

theorem kept_sxApply {K : Nat} {s0 s : State} (hk : Kept K s0 s) (v : SxVal) (hm : 0x820000088 &&& K = 0x820000088 := by decide) : Kept K s0 (State.sxApply s v) := by
  refine hk.into hm ?_
  have hk := Kept.refl 0x820000088 s
  unfold State.sxApply
  repeat' first | with_reducible assumption | with_reducible refine kept_setReg ?_ _ _ (by decide) | with_reducible refine kept_updSmc ?_ _ (by decide) | with_reducible refine kept_endSession ?_ _ _ (by decide) | simp only [kept_is_mk] | with_reducible refine kept_mk ?_ | dsimp only | split

theorem kept_execSxWrite {K : Nat} {s0 s : State} (hk : Kept K s0 s) (v : SxVal) (hm : 0x20ce000008e &&& K = 0x20ce000008e := by decide) : KeptOut K s0 (execSxWrite v s) := by
  refine hk.out hm ?_
  have hk := Kept.refl 0x20ce000008e s
  unfold execSxWrite
  repeat' first | with_reducible assumption | with_reducible refine kept_sxApply ?_ _ (by decide) | with_reducible refine kept_mailbox ?_ _ _ ?_ (by decide) | with_reducible refine kept_smcNote ?_ _ _ (by decide) | with_reducible refine kept_audit ?_ _ _ _ _ (by decide) | with_reducible apply KeptOut.next | intro _ | dsimp only | split

theorem kept_execReverify {K : Nat} {s0 s : State} (hk : Kept K s0 s) (mask : Nat) (hm : 0x20ce000008e &&& K = 0x20ce000008e := by decide) : KeptOut K s0 (execReverify mask s) := by
  refine hk.out hm ?_
  have hk := Kept.refl 0x20ce000008e s
  unfold execReverify
  repeat' first | with_reducible assumption | with_reducible refine kept_verifierOnly ?_ _ _ ?_ (by decide) | with_reducible refine kept_smcNote ?_ _ _ (by decide) | with_reducible refine kept_audit ?_ _ _ _ _ (by decide) | with_reducible refine kept_clearChain ?_ _ (by decide) | with_reducible apply KeptOut.next | intro _ | dsimp only | split

theorem kept_execMarkSet {K : Nat} {s0 s : State} (hk : Kept K s0 s) (slot : Nat) (mark : Word) (hm : 0x20ce000008a &&& K = 0x20ce000008a := by decide) : KeptOut K s0 (execMarkSet slot mark s) := by
  refine hk.out hm ?_
  have hk := Kept.refl 0x20ce000008a s
  unfold execMarkSet
  repeat' first | with_reducible assumption | with_reducible refine kept_verifierOnly ?_ _ _ ?_ (by decide) | with_reducible refine kept_audit ?_ _ _ _ _ (by decide) | with_reducible refine kept_updSmc ?_ _ (by decide) | simp only [kept_is_mk] | with_reducible refine kept_mk ?_ | with_reducible apply KeptOut.next | intro _ | dsimp only | split

theorem kept_execFwInstall {K : Nat} {s0 s : State} (hk : Kept K s0 s) (image : List Byte) (hm : 0x20ce000008e &&& K = 0x20ce000008e := by decide) : KeptOut K s0 (execFwInstall image s) := by
  refine hk.out hm ?_
  have hk := Kept.refl 0x20ce000008e s
  unfold execFwInstall
  repeat' first | with_reducible assumption | with_reducible refine kept_verifierOnly ?_ _ _ ?_ (by decide) | with_reducible refine kept_smcNote ?_ _ _ (by decide) | with_reducible refine kept_audit ?_ _ _ _ _ (by decide) | with_reducible refine kept_updSmc ?_ _ (by decide) | simp only [kept_is_mk] | with_reducible refine kept_mk ?_ | with_reducible apply KeptOut.next | intro _ | dsimp only | split

theorem kept_stopNotes {K : Nat} {s0 s : State} (hk : Kept K s0 s) (hm : 0x82000008c &&& K = 0x82000008c := by decide) : Kept K s0 (State.stopNotes s) := by
  refine hk.into hm ?_
  have hk := Kept.refl 0x82000008c s
  unfold State.stopNotes
  repeat' first | with_reducible assumption | with_reducible refine kept_smcPause ?_ _ (by decide) | with_reducible refine kept_smcResume ?_ _ (by decide) | dsimp only | split

theorem kept_execClocheCheckpoint {K : Nat} {s0 s : State} (hk : Kept K s0 s) (_u : Unit) (hm : 0x82000038c &&& K = 0x82000038c := by decide) : KeptOut K s0 (execClocheCheckpoint _u s) := by
  refine hk.out hm ?_
  have hk := Kept.refl 0x82000038c s
  unfold execClocheCheckpoint
  repeat' first | with_reducible assumption | with_reducible refine kept_updSmc ?_ _ (by decide) | with_reducible refine kept_stopNotes ?_ (by decide) | with_reducible refine kept_after ?_ _ (by decide) | simp only [kept_is_mk] | with_reducible refine kept_mk ?_ | with_reducible apply KeptOut.next | dsimp only | split

theorem kept_execClocheSelftest {K : Nat} {s0 s : State} (hk : Kept K s0 s) (test : Fin 3) (fail : Bool) (hm : 0x8c0000088 &&& K = 0x8c0000088 := by decide) : KeptOut K s0 (execClocheSelftest test fail s) := by
  refine hk.out hm ?_
  have hk := Kept.refl 0x8c0000088 s
  unfold execClocheSelftest
  repeat' first | with_reducible assumption | with_reducible refine kept_finding ?_ _ _ _ _ _ _ _ (by decide) | with_reducible refine kept_evaluate ?_ _ _ _ (by decide) | with_reducible refine kept_updSmc ?_ _ (by decide) | simp only [kept_is_mk] | with_reducible refine kept_mk ?_ | (with_reducible refine Kept.of_fst (by assumption) ?_) | (with_reducible refine Kept.of_snd (by assumption) ?_) | with_reducible apply KeptOut.next | dsimp only | split

theorem kept_execTamper {K : Nat} {s0 s : State} (hk : Kept K s0 s) (hm : 0x8e000008c &&& K = 0x8e000008c := by decide) : KeptOut K s0 (execTamper s) := by
  refine hk.out hm ?_
  have hk := Kept.refl 0x8e000008c s
  unfold execTamper
  repeat' first | with_reducible assumption | with_reducible refine kept_setSeal ?_ _ (by decide) | with_reducible refine kept_logFinding ?_ _ _ _ _ _ (by decide) | with_reducible refine kept_raise ?_ _ _ (by decide) | with_reducible refine kept_smcNote ?_ _ _ (by decide) | with_reducible refine kept_evaluate ?_ _ _ _ (by decide) | with_reducible refine kept_audit ?_ _ _ _ _ (by decide) | with_reducible refine kept_updSmc ?_ _ (by decide) | simp only [kept_is_mk] | with_reducible refine kept_mk ?_ | (with_reducible refine Kept.of_fst (by assumption) ?_) | (with_reducible refine Kept.of_snd (by assumption) ?_) | with_reducible apply KeptOut.next | dsimp only | split

theorem kept_closeAtCheckpoints {K : Nat} {s0 s : State} (hk : Kept K s0 s) (hm : 0x82000008c &&& K = 0x82000008c := by decide) : Kept K s0 (State.closeAtCheckpoints s) := by
  refine hk.into hm ?_
  have hk := Kept.refl 0x82000008c s
  unfold State.closeAtCheckpoints
  repeat' first | with_reducible assumption | with_reducible refine kept_logLevels ?_ (by decide) | with_reducible refine kept_closeInterval ?_ _ _ _ _ (by decide) | with_reducible refine Kept.foldl (fun _ _ h => ?_) _ ?_ | dsimp only | split

theorem kept_execClochePowerRestore {K : Nat} {s0 s : State} (hk : Kept K s0 s) (secs : Nat) (hm : 0x82000008c &&& K = 0x82000008c := by decide) : KeptOut K s0 (execClochePowerRestore secs s) := by
  refine hk.out hm ?_
  have hk := Kept.refl 0x82000008c s
  unfold execClochePowerRestore
  repeat' first | with_reducible assumption | with_reducible refine kept_smcLate ?_ (by decide) | with_reducible refine kept_smcNote ?_ _ _ (by decide) | with_reducible refine kept_updSmc ?_ _ (by decide) | with_reducible refine kept_closeAtCheckpoints ?_ (by decide) | simp only [kept_is_mk] | with_reducible refine kept_mk ?_ | with_reducible apply KeptOut.next | dsimp only | split

end Sys2Proof.Machine
end

