-- ==== Sys2Proof/Laws/KeptQueues.lean ====
section
/-! SUPPORT. What every operation of Queues.lean keeps. -/

namespace Sys2Proof.Machine

set_option Elab.async false

set_option linter.unusedSimpArgs false

theorem kept_updQ {K : Nat} {s0 s : State} (hk : Kept K s0 s) (f : Queues → Queues) (hm : 0x20000000080 &&& K = 0x20000000080 := by decide) : Kept K s0 (State.updQ s f) := by
  refine hk.into hm ?_
  have hk := Kept.refl 0x20000000080 s
  unfold State.updQ
  repeat' first | with_reducible assumption | simp only [kept_is_mk] | with_reducible refine kept_mk ?_ | dsimp only | split

theorem kept_updTwb {K : Nat} {s0 s : State} (hk : Kept K s0 s) (f : Twb → Twb) (hm : 0x400000000 &&& K = 0x400000000 := by decide) : Kept K s0 (State.updTwb s f) := by
  refine hk.into hm ?_
  have hk := Kept.refl 0x400000000 s
  unfold State.updTwb
  repeat' first | with_reducible assumption | simp only [kept_is_mk] | with_reducible refine kept_mk ?_ | dsimp only | split

theorem kept_dropCommand {K : Nat} {s0 s : State} (hk : Kept K s0 s) (q : CQueue) (w : Waiting) (hm : 0x2042000008a &&& K = 0x2042000008a := by decide) : Kept K s0 (State.dropCommand s q w) := by
  refine hk.into hm ?_
  have hk := Kept.refl 0x2042000008a s
  unfold State.dropCommand
  repeat' first | with_reducible assumption | with_reducible refine kept_post ?_ _ _ _ _ (by decide) | with_reducible refine kept_updQ ?_ _ (by decide) | with_reducible refine kept_raise ?_ _ _ (by decide) | with_reducible refine kept_count ?_ _ _ _ (by decide) | simp only [kept_is_mk] | with_reducible refine kept_mk ?_ | dsimp only | split

theorem kept_acceptCommand {K : Nat} {s0 s : State} (hk : Kept K s0 s) (q : CQueue) (w : Waiting) (hm : 0x204e000008a &&& K = 0x204e000008a := by decide) : Kept K s0 (State.acceptCommand s q w) := by
  refine hk.into hm ?_
  have hk := Kept.refl 0x204e000008a s
  unfold State.acceptCommand
  repeat' first | with_reducible assumption | with_reducible refine kept_updQ ?_ _ (by decide) | with_reducible refine kept_flushForeign ?_ _ _ (by decide) | simp only [kept_is_mk] | with_reducible refine kept_mk ?_ | dsimp only | split

theorem kept_arriveCommand {K : Nat} {s0 s : State} (hk : Kept K s0 s) (q : CQueue) (w : Waiting) (hm : 0x204e000008a &&& K = 0x204e000008a := by decide) : Kept K s0 (State.arriveCommand s q w) := by
  refine hk.into hm ?_
  have hk := Kept.refl 0x204e000008a s
  unfold State.arriveCommand
  repeat' first | with_reducible assumption | with_reducible refine kept_dropCommand ?_ _ _ (by decide) | with_reducible refine kept_acceptCommand ?_ _ _ (by decide) | dsimp only | split

theorem kept_execCommandArrival {K : Nat} {s0 s : State} (hk : Kept K s0 s) (q : CQueue) (h : CmdHead) (hm : 0x204e000008a &&& K = 0x204e000008a := by decide) : KeptOut K s0 (execCommandArrival q h s) := by
  refine hk.out hm ?_
  have hk := Kept.refl 0x204e000008a s
  unfold execCommandArrival
  repeat' first | with_reducible assumption | with_reducible refine kept_arriveCommand ?_ _ _ (by decide) | with_reducible apply KeptOut.next | dsimp only | split

theorem kept_mboxIn {K : Nat} {s0 s : State} (hk : Kept K s0 s) (w : Word) (tagOk : Bool) (hm : 0x204e000008a &&& K = 0x204e000008a := by decide) : Kept K s0 (State.mboxIn s w tagOk) := by
  refine hk.into hm ?_
  have hk := Kept.refl 0x204e000008a s
  unfold State.mboxIn
  repeat' first | with_reducible assumption | with_reducible refine kept_updTwb ?_ _ (by decide) | with_reducible refine kept_arriveCommand ?_ _ _ (by decide) | simp only [kept_is_mk] | with_reducible refine kept_mk ?_ | dsimp only | split

theorem kept_mboxOut {K : Nat} {s0 s : State} (hk : Kept K s0 s) (hm : 0x400000000 &&& K = 0x400000000 := by decide) : Kept K s0 (State.mboxOut s) := by
  refine hk.into hm ?_
  have hk := Kept.refl 0x400000000 s
  unfold State.mboxOut
  repeat' first | with_reducible assumption | with_reducible refine kept_updTwb ?_ _ (by decide) | simp only [kept_is_mk] | with_reducible refine kept_mk ?_ | dsimp only | split

theorem kept_takeCtr {K : Nat} {s0 s : State} (hk : Kept K s0 s) (x : Option (Bool × KeySlot)) (hm : 0x20000000 &&& K = 0x20000000 := by decide) : Kept K s0 (State.takeCtr s x).2 := by
  refine hk.into hm ?_
  have hk := Kept.refl 0x20000000 s
  unfold State.takeCtr
  repeat' first | with_reducible assumption | with_reducible refine kept_setSession ?_ _ _ _ (by decide) | simp only [kept_is_mk] | with_reducible refine kept_mk ?_ | dsimp only | split

theorem kept_execEventPacketSend {K : Nat} {s0 s : State} (hk : Kept K s0 s) (owner : Nat) (room : Bool) (hm : 0x20020000080 &&& K = 0x20020000080 := by decide) : KeptOut K s0 (execEventPacketSend owner room s) := by
  refine hk.out hm ?_
  have hk := Kept.refl 0x20020000080 s
  unfold execEventPacketSend
  repeat' first | with_reducible assumption | with_reducible refine kept_takeCtr ?_ _ (by decide) | with_reducible refine kept_updQ ?_ _ (by decide) | simp only [kept_is_mk] | with_reducible refine kept_mk ?_ | (with_reducible refine Kept.of_fst (by assumption) ?_) | (with_reducible refine Kept.of_snd (by assumption) ?_) | with_reducible apply KeptOut.next | dsimp only | split

theorem kept_execBootComplete {K : Nat} {s0 s : State} (hk : Kept K s0 s) (modes : Vector (Option (BitVec 8)) 4) (hm : 0x83c00008d &&& K = 0x83c00008d := by decide) : KeptOut K s0 (execBootComplete modes s) := by
  refine hk.out hm ?_
  have hk := Kept.refl 0x83c00008d s
  unfold execBootComplete
  repeat' first | with_reducible assumption | with_reducible refine kept_pointsWait ?_ (by decide) | with_reducible refine kept_smcLate ?_ (by decide) | with_reducible refine kept_pmbProbe ?_ _ _ (by decide) | with_reducible refine kept_updPwr ?_ _ (by decide) | with_reducible refine kept_closeAtCheckpoints ?_ (by decide) | with_reducible refine kept_writeSetpoint ?_ _ (by decide) | simp only [kept_is_mk] | with_reducible refine kept_mk ?_ | with_reducible refine Kept.foldl (fun _ _ h => ?_) _ ?_ | with_reducible apply KeptOut.next | dsimp only | split

end Sys2Proof.Machine
end

