-- ==== Sys2Proof/Laws/KeptWrites.lean ====
section
/-! SUPPORT. What every operation of Writes.lean keeps. -/

namespace Sys2Proof.Machine

set_option Elab.async false

set_option linter.unusedSimpArgs false

theorem kept_sreset {K : Nat} {s0 s : State} (hk : Kept K s0 s) (role : Nat) (page : Nat) (hm : 0x18 &&& K = 0x18 := by decide) : Kept K s0 (State.sreset s role page) := by
  refine hk.into hm ?_
  have hk := Kept.refl 0x18 s
  unfold State.sreset
  repeat' first | with_reducible assumption | with_reducible refine kept_setReg ?_ _ _ (by decide) | with_reducible refine kept_put ?_ _ _ _ (by decide) | with_reducible refine kept_unstage ?_ _ _ (by decide) | dsimp only | split

theorem kept_portOff {K : Nat} {s0 s : State} (hk : Kept K s0 s) (p : Port) (hm : 0x302000088 &&& K = 0x302000088 := by decide) : Kept K s0 (State.portOff s p) := by
  refine hk.into hm ?_
  have hk := Kept.refl 0x302000088 s
  unfold State.portOff
  repeat' first | with_reducible assumption | with_reducible refine kept_clkEvaluate ?_ (by decide) | with_reducible refine kept_portDrop ?_ _ _ _ (by decide) | dsimp only | split

theorem kept_calWinWrite {K : Nat} {s0 s : State} (hk : Kept K s0 s) (w : Word) (hm : 0x8 &&& K = 0x8 := by decide) : Kept K s0 (State.calWinWrite s w) := by
  refine hk.into hm ?_
  have hk := Kept.refl 0x8 s
  unfold State.calWinWrite
  repeat' first | with_reducible assumption | with_reducible refine kept_setReg ?_ _ _ (by decide) | dsimp only | split

theorem kept_calWinNext {K : Nat} {s0 s : State} (hk : Kept K s0 s) (hm : 0x8 &&& K = 0x8 := by decide) : Kept K s0 (State.calWinNext s) := by
  refine hk.into hm ?_
  have hk := Kept.refl 0x8 s
  unfold State.calWinNext
  repeat' first | with_reducible assumption | with_reducible refine kept_put ?_ _ _ _ (by decide) | dsimp only | split

theorem kept_firWrite {K : Nat} {s0 s : State} (hk : Kept K s0 s) (w : Word) (hm : 0x8 &&& K = 0x8 := by decide) : Kept K s0 (State.firWrite s w) := by
  refine hk.into hm ?_
  have hk := Kept.refl 0x8 s
  unfold State.firWrite
  repeat' first | with_reducible assumption | with_reducible refine kept_setReg ?_ _ _ (by decide) | dsimp only | split

theorem kept_firNext {K : Nat} {s0 s : State} (hk : Kept K s0 s) (hm : 0x8 &&& K = 0x8 := by decide) : Kept K s0 (State.firNext s) := by
  refine hk.into hm ?_
  have hk := Kept.refl 0x8 s
  unfold State.firNext
  repeat' first | with_reducible assumption | with_reducible refine kept_put ?_ _ _ _ (by decide) | dsimp only | split

theorem kept_freeTag {K : Nat} {s0 s : State} (hk : Kept K s0 s) (hm : 0x4 &&& K = 0x4 := by decide) : Kept K s0 (State.freeTag s).2 := by
  refine hk.into hm ?_
  have hk := Kept.refl 0x4 s
  unfold State.freeTag
  repeat' first | with_reducible assumption | with_reducible refine kept_draw ?_ (by decide) | (with_reducible refine Kept.of_fst (by assumption) ?_) | (with_reducible refine Kept.of_snd (by assumption) ?_) | dsimp only | split

theorem kept_freeMode {K : Nat} {s0 s : State} (hk : Kept K s0 s) (hm : 0x4 &&& K = 0x4 := by decide) : Kept K s0 (State.freeMode s).2 := by
  refine hk.into hm ?_
  have hk := Kept.refl 0x4 s
  unfold State.freeMode
  repeat' first | with_reducible assumption | with_reducible refine kept_draw ?_ (by decide) | (with_reducible refine Kept.of_fst (by assumption) ?_) | (with_reducible refine Kept.of_snd (by assumption) ?_) | dsimp only | split

theorem kept_onWrite {K : Nat} {s0 old s : State} (hk : Kept K s0 old) (hk2 : Kept K s0 s) (key : Nat) (w : RegWrite) (new : Word) (hm : 0x3ffffffffff &&& K = 0x3ffffffffff := by decide) : Kept K s0 (State.onWrite old s key w new) := by
  unfold State.onWrite
  repeat' first | with_reducible assumption | with_reducible refine kept_calWinNext ?_ (mask_trans (by decide) hm) | with_reducible refine kept_mboxIn ?_ _ _ (mask_trans (by decide) hm) | with_reducible refine kept_calWinWrite ?_ _ (mask_trans (by decide) hm) | with_reducible refine kept_clearMask ?_ (mask_trans (by decide) hm) | with_reducible refine kept_freeMode ?_ (mask_trans (by decide) hm) | with_reducible refine kept_firNext ?_ (mask_trans (by decide) hm) | with_reducible refine kept_freeTag ?_ (mask_trans (by decide) hm) | with_reducible refine kept_firWrite ?_ _ (mask_trans (by decide) hm) | with_reducible refine kept_ackLog ?_ _ (mask_trans (by decide) hm) | with_reducible refine kept_pmbProbe ?_ _ _ (mask_trans (by decide) hm) | with_reducible refine kept_portOff ?_ _ (mask_trans (by decide) hm) | with_reducible refine kept_updPwr ?_ _ (mask_trans (by decide) hm) | with_reducible refine kept_returnWritten ?_ (mask_trans (by decide) hm) | with_reducible refine kept_writeTarget ?_ _ (mask_trans (by decide) hm) | simp only [kept_is_mk] | with_reducible refine kept_mk ?_ | (with_reducible refine Kept.of_fst (by assumption) ?_) | (with_reducible refine Kept.of_snd (by assumption) ?_) | dsimp only | split

theorem kept_stageReg {K : Nat} {s0 s : State} (hk : Kept K s0 s) (role : Nat) (w : RegWrite) (hm : 0x10 &&& K = 0x10 := by decide) : Kept K s0 (State.stageReg s role w) := by
  refine hk.into hm ?_
  have hk := Kept.refl 0x10 s
  unfold State.stageReg
  repeat' first | with_reducible assumption | with_reducible refine kept_stage ?_ _ _ _ (by decide) | dsimp only | split

theorem kept_writeReg {K : Nat} {s0 s : State} (hk : Kept K s0 s) (role : Nat) (w : RegWrite) (hm : 0x3ffffffffff &&& K = 0x3ffffffffff := by decide) : Kept K s0 (State.writeReg s role w) := by
  refine hk.into hm ?_
  have hk := Kept.refl 0x3ffffffffff s
  unfold State.writeReg
  repeat' first | with_reducible assumption | with_reducible refine kept_setReg ?_ _ _ (by decide) | with_reducible refine kept_onWrite ?_ ?_ _ _ _ (by decide) | with_reducible refine kept_stageReg ?_ _ _ (by decide) | with_reducible refine kept_sreset ?_ _ _ (by decide) | dsimp only | split

theorem kept_writeWith {K : Nat} {s0 s : State} (hk : Kept K s0 s) (each : State → RegWrite → State) (c : Caller) (ws : List RegWrite) (asked : Bool) (hf : ∀ y0 y1, Kept K s0 y0 → Kept K s0 (each y0 y1)) (hm : 0x3fff7ffffff &&& K = 0x3fff7ffffff := by decide) : Kept K s0 (State.writeWith s each c ws asked).1 := by
  unfold State.writeWith
  repeat' first | with_reducible assumption | with_reducible refine kept_commitPage ?_ ?_ _ _ _ (mask_trans (by decide) hm) | with_reducible refine kept_raiseAbsent ?_ _ _ (mask_trans (by decide) hm) | with_reducible refine kept_stageReg ?_ _ _ (mask_trans (by decide) hm) | with_reducible refine Kept.foldl (fun _ _ h => ?_) _ ?_ | (with_reducible refine Kept.of_fst (by assumption) ?_) | (with_reducible refine Kept.of_snd (by assumption) ?_) | with_reducible apply hf | dsimp only | split

theorem kept_writeCommand {K : Nat} {s0 s : State} (hk : Kept K s0 s) (c : Caller) (ws : List RegWrite) (asked : Bool) (hm : 0x3ffffffffff &&& K = 0x3ffffffffff := by decide) : Kept K s0 (State.writeCommand s c ws asked).1 := by
  refine hk.into hm ?_
  have hk := Kept.refl 0x3ffffffffff s
  unfold State.writeCommand
  repeat' first | with_reducible assumption | with_reducible refine kept_writeWith ?_ _ _ _ _ ?_ (by decide) | with_reducible refine kept_writeReg ?_ _ _ (by decide) | (with_reducible refine Kept.of_fst (by assumption) ?_) | (with_reducible refine Kept.of_snd (by assumption) ?_) | intro _ | dsimp only | split

theorem kept_onRead {K : Nat} {s0 s : State} (hk : Kept K s0 s) (role : Nat) (addr : Nat) (hm : 0x400000008 &&& K = 0x400000008 := by decide) : Kept K s0 (State.onRead s role addr) := by
  refine hk.into hm ?_
  have hk := Kept.refl 0x400000008 s
  unfold State.onRead
  repeat' first | with_reducible assumption | with_reducible refine kept_setReg ?_ _ _ (by decide) | with_reducible refine kept_calWinNext ?_ (by decide) | with_reducible refine kept_mboxOut ?_ (by decide) | with_reducible refine kept_firNext ?_ (by decide) | dsimp only | split

theorem kept_readCommand {K : Nat} {s0 s : State} (hk : Kept K s0 s) (c : Caller) (addr : Nat) (count : Nat) (hm : 0x400000008 &&& K = 0x400000008 := by decide) : Kept K s0 (State.readCommand s c addr count).1 := by
  refine hk.into hm ?_
  have hk := Kept.refl 0x400000008 s
  unfold State.readCommand
  repeat' first | with_reducible assumption | with_reducible refine kept_onRead ?_ _ _ (by decide) | with_reducible refine Kept.foldl (fun _ _ h => ?_) _ ?_ | dsimp only | split

end Sys2Proof.Machine
end

