-- ==== Sys2Proof/Laws/State.lean ====
section
/-! SUPPORT. What each small update leaves as it was: one lemma per field per update. -/

namespace Sys2Proof.Machine

set_option Elab.async false

/-! draw -/
@[simp] theorem fuse_draw (s : State) : ((s.draw).2).fuse = s.fuse := rfl
@[simp] theorem boot_draw (s : State) : ((s.draw).2).boot = s.boot := rfl
@[simp] theorem rseq_draw (s : State) : ((s.draw).2).rseq = s.rseq := rfl
@[simp] theorem pending_draw (s : State) : ((s.draw).2).pending = s.pending := rfl
@[simp] theorem regs_draw (s : State) : ((s.draw).2).regs = s.regs := rfl
@[simp] theorem staged_draw (s : State) : ((s.draw).2).staged = s.staged := rfl
@[simp] theorem captured_draw (s : State) : ((s.draw).2).captured = s.captured := rfl
@[simp] theorem lastStatus_draw (s : State) : ((s.draw).2).lastStatus = s.lastStatus := rfl
@[simp] theorem q_draw (s : State) : ((s.draw).2).q = s.q := rfl
@[simp] theorem time_draw (s : State) : ((s.draw).2).time = s.time := rfl
@[simp] theorem conds_draw (s : State) : ((s.draw).2).conds = s.conds := rfl
@[simp] theorem inputs_draw (s : State) : ((s.draw).2).inputs = s.inputs := rfl
@[simp] theorem slices_draw (s : State) : ((s.draw).2).slices = s.slices := rfl
@[simp] theorem demods_draw (s : State) : ((s.draw).2).demods = s.demods := rfl
@[simp] theorem planGen_draw (s : State) : ((s.draw).2).planGen = s.planGen := rfl
@[simp] theorem snaps_draw (s : State) : ((s.draw).2).snaps = s.snaps := rfl
@[simp] theorem beds_draw (s : State) : ((s.draw).2).beds = s.beds := rfl
@[simp] theorem decs_draw (s : State) : ((s.draw).2).decs = s.decs := rfl
@[simp] theorem slots_draw (s : State) : ((s.draw).2).slots = s.slots := rfl
@[simp] theorem afdb_draw (s : State) : ((s.draw).2).afdb = s.afdb := rfl
@[simp] theorem afNext_draw (s : State) : ((s.draw).2).afNext = s.afNext := rfl
@[simp] theorem survey_draw (s : State) : ((s.draw).2).survey = s.survey := rfl
@[simp] theorem strms_draw (s : State) : ((s.draw).2).strms = s.strms := rfl
@[simp] theorem bunds_draw (s : State) : ((s.draw).2).bunds = s.bunds := rfl
@[simp] theorem squeues_draw (s : State) : ((s.draw).2).squeues = s.squeues := rfl
@[simp] theorem skeys_draw (s : State) : ((s.draw).2).skeys = s.skeys := rfl
@[simp] theorem clk_draw (s : State) : ((s.draw).2).clk = s.clk := rfl
@[simp] theorem pwr_draw (s : State) : ((s.draw).2).pwr = s.pwr := rfl
@[simp] theorem pmb_draw (s : State) : ((s.draw).2).pmb = s.pmb := rfl
@[simp] theorem pmbSent_draw (s : State) : ((s.draw).2).pmbSent = s.pmbSent := rfl
@[simp] theorem sec_draw (s : State) : ((s.draw).2).sec = s.sec := rfl
@[simp] theorem log_draw (s : State) : ((s.draw).2).log = s.log := rfl
@[simp] theorem temps_draw (s : State) : ((s.draw).2).temps = s.temps := rfl
@[simp] theorem ports_draw (s : State) : ((s.draw).2).ports = s.ports := rfl
@[simp] theorem ring_draw (s : State) : ((s.draw).2).ring = s.ring := rfl
@[simp] theorem twb_draw (s : State) : ((s.draw).2).twb = s.twb := rfl
@[simp] theorem smc_draw (s : State) : ((s.draw).2).smc = s.smc := rfl
@[simp] theorem aud_draw (s : State) : ((s.draw).2).aud = s.aud := rfl
@[simp] theorem cal_draw (s : State) : ((s.draw).2).cal = s.cal := rfl
@[simp] theorem snd_draw (s : State) : ((s.draw).2).snd = s.snd := rfl
@[simp] theorem loam_draw (s : State) : ((s.draw).2).loam = s.loam := rfl
@[simp] theorem mfp_draw (s : State) : ((s.draw).2).mfp = s.mfp := rfl

/-! setReg -/
@[simp] theorem fuse_setReg (s : State) (key : Nat) (w : Word) : ((s.setReg key w)).fuse = s.fuse := rfl
@[simp] theorem boot_setReg (s : State) (key : Nat) (w : Word) : ((s.setReg key w)).boot = s.boot := rfl
@[simp] theorem rseq_setReg (s : State) (key : Nat) (w : Word) : ((s.setReg key w)).rseq = s.rseq := rfl
@[simp] theorem freeCtr_setReg (s : State) (key : Nat) (w : Word) : ((s.setReg key w)).freeCtr = s.freeCtr := rfl
@[simp] theorem pending_setReg (s : State) (key : Nat) (w : Word) : ((s.setReg key w)).pending = s.pending := rfl
@[simp] theorem staged_setReg (s : State) (key : Nat) (w : Word) : ((s.setReg key w)).staged = s.staged := rfl
@[simp] theorem captured_setReg (s : State) (key : Nat) (w : Word) : ((s.setReg key w)).captured = s.captured := rfl
@[simp] theorem lastStatus_setReg (s : State) (key : Nat) (w : Word) : ((s.setReg key w)).lastStatus = s.lastStatus := rfl
@[simp] theorem q_setReg (s : State) (key : Nat) (w : Word) : ((s.setReg key w)).q = s.q := rfl
@[simp] theorem time_setReg (s : State) (key : Nat) (w : Word) : ((s.setReg key w)).time = s.time := rfl
@[simp] theorem conds_setReg (s : State) (key : Nat) (w : Word) : ((s.setReg key w)).conds = s.conds := rfl
@[simp] theorem inputs_setReg (s : State) (key : Nat) (w : Word) : ((s.setReg key w)).inputs = s.inputs := rfl
@[simp] theorem slices_setReg (s : State) (key : Nat) (w : Word) : ((s.setReg key w)).slices = s.slices := rfl
@[simp] theorem demods_setReg (s : State) (key : Nat) (w : Word) : ((s.setReg key w)).demods = s.demods := rfl
@[simp] theorem planGen_setReg (s : State) (key : Nat) (w : Word) : ((s.setReg key w)).planGen = s.planGen := rfl
@[simp] theorem snaps_setReg (s : State) (key : Nat) (w : Word) : ((s.setReg key w)).snaps = s.snaps := rfl
@[simp] theorem beds_setReg (s : State) (key : Nat) (w : Word) : ((s.setReg key w)).beds = s.beds := rfl
@[simp] theorem decs_setReg (s : State) (key : Nat) (w : Word) : ((s.setReg key w)).decs = s.decs := rfl
@[simp] theorem slots_setReg (s : State) (key : Nat) (w : Word) : ((s.setReg key w)).slots = s.slots := rfl
@[simp] theorem afdb_setReg (s : State) (key : Nat) (w : Word) : ((s.setReg key w)).afdb = s.afdb := rfl
@[simp] theorem afNext_setReg (s : State) (key : Nat) (w : Word) : ((s.setReg key w)).afNext = s.afNext := rfl
@[simp] theorem survey_setReg (s : State) (key : Nat) (w : Word) : ((s.setReg key w)).survey = s.survey := rfl
@[simp] theorem strms_setReg (s : State) (key : Nat) (w : Word) : ((s.setReg key w)).strms = s.strms := rfl
@[simp] theorem bunds_setReg (s : State) (key : Nat) (w : Word) : ((s.setReg key w)).bunds = s.bunds := rfl
@[simp] theorem squeues_setReg (s : State) (key : Nat) (w : Word) : ((s.setReg key w)).squeues = s.squeues := rfl
@[simp] theorem skeys_setReg (s : State) (key : Nat) (w : Word) : ((s.setReg key w)).skeys = s.skeys := rfl
@[simp] theorem clk_setReg (s : State) (key : Nat) (w : Word) : ((s.setReg key w)).clk = s.clk := rfl
@[simp] theorem pwr_setReg (s : State) (key : Nat) (w : Word) : ((s.setReg key w)).pwr = s.pwr := rfl
@[simp] theorem pmb_setReg (s : State) (key : Nat) (w : Word) : ((s.setReg key w)).pmb = s.pmb := rfl
@[simp] theorem pmbSent_setReg (s : State) (key : Nat) (w : Word) : ((s.setReg key w)).pmbSent = s.pmbSent := rfl
@[simp] theorem sec_setReg (s : State) (key : Nat) (w : Word) : ((s.setReg key w)).sec = s.sec := rfl
@[simp] theorem log_setReg (s : State) (key : Nat) (w : Word) : ((s.setReg key w)).log = s.log := rfl
@[simp] theorem temps_setReg (s : State) (key : Nat) (w : Word) : ((s.setReg key w)).temps = s.temps := rfl
@[simp] theorem ports_setReg (s : State) (key : Nat) (w : Word) : ((s.setReg key w)).ports = s.ports := rfl
@[simp] theorem ring_setReg (s : State) (key : Nat) (w : Word) : ((s.setReg key w)).ring = s.ring := rfl
@[simp] theorem twb_setReg (s : State) (key : Nat) (w : Word) : ((s.setReg key w)).twb = s.twb := rfl
@[simp] theorem smc_setReg (s : State) (key : Nat) (w : Word) : ((s.setReg key w)).smc = s.smc := rfl
@[simp] theorem aud_setReg (s : State) (key : Nat) (w : Word) : ((s.setReg key w)).aud = s.aud := rfl
@[simp] theorem cal_setReg (s : State) (key : Nat) (w : Word) : ((s.setReg key w)).cal = s.cal := rfl
@[simp] theorem snd_setReg (s : State) (key : Nat) (w : Word) : ((s.setReg key w)).snd = s.snd := rfl
@[simp] theorem loam_setReg (s : State) (key : Nat) (w : Word) : ((s.setReg key w)).loam = s.loam := rfl
@[simp] theorem mfp_setReg (s : State) (key : Nat) (w : Word) : ((s.setReg key w)).mfp = s.mfp := rfl

/-! put -/
@[simp] theorem fuse_put (s : State) (page : Nat) (f : Fld) (v : Nat) : ((s.put page f v)).fuse = s.fuse := rfl
@[simp] theorem boot_put (s : State) (page : Nat) (f : Fld) (v : Nat) : ((s.put page f v)).boot = s.boot := rfl
@[simp] theorem rseq_put (s : State) (page : Nat) (f : Fld) (v : Nat) : ((s.put page f v)).rseq = s.rseq := rfl
@[simp] theorem freeCtr_put (s : State) (page : Nat) (f : Fld) (v : Nat) : ((s.put page f v)).freeCtr = s.freeCtr := rfl
@[simp] theorem pending_put (s : State) (page : Nat) (f : Fld) (v : Nat) : ((s.put page f v)).pending = s.pending := rfl
@[simp] theorem staged_put (s : State) (page : Nat) (f : Fld) (v : Nat) : ((s.put page f v)).staged = s.staged := rfl
@[simp] theorem captured_put (s : State) (page : Nat) (f : Fld) (v : Nat) : ((s.put page f v)).captured = s.captured := rfl
@[simp] theorem lastStatus_put (s : State) (page : Nat) (f : Fld) (v : Nat) : ((s.put page f v)).lastStatus = s.lastStatus := rfl
@[simp] theorem q_put (s : State) (page : Nat) (f : Fld) (v : Nat) : ((s.put page f v)).q = s.q := rfl
@[simp] theorem time_put (s : State) (page : Nat) (f : Fld) (v : Nat) : ((s.put page f v)).time = s.time := rfl
@[simp] theorem conds_put (s : State) (page : Nat) (f : Fld) (v : Nat) : ((s.put page f v)).conds = s.conds := rfl
@[simp] theorem inputs_put (s : State) (page : Nat) (f : Fld) (v : Nat) : ((s.put page f v)).inputs = s.inputs := rfl
@[simp] theorem slices_put (s : State) (page : Nat) (f : Fld) (v : Nat) : ((s.put page f v)).slices = s.slices := rfl
@[simp] theorem demods_put (s : State) (page : Nat) (f : Fld) (v : Nat) : ((s.put page f v)).demods = s.demods := rfl
@[simp] theorem planGen_put (s : State) (page : Nat) (f : Fld) (v : Nat) : ((s.put page f v)).planGen = s.planGen := rfl
@[simp] theorem snaps_put (s : State) (page : Nat) (f : Fld) (v : Nat) : ((s.put page f v)).snaps = s.snaps := rfl
@[simp] theorem beds_put (s : State) (page : Nat) (f : Fld) (v : Nat) : ((s.put page f v)).beds = s.beds := rfl
@[simp] theorem decs_put (s : State) (page : Nat) (f : Fld) (v : Nat) : ((s.put page f v)).decs = s.decs := rfl
@[simp] theorem slots_put (s : State) (page : Nat) (f : Fld) (v : Nat) : ((s.put page f v)).slots = s.slots := rfl
@[simp] theorem afdb_put (s : State) (page : Nat) (f : Fld) (v : Nat) : ((s.put page f v)).afdb = s.afdb := rfl
@[simp] theorem afNext_put (s : State) (page : Nat) (f : Fld) (v : Nat) : ((s.put page f v)).afNext = s.afNext := rfl
@[simp] theorem survey_put (s : State) (page : Nat) (f : Fld) (v : Nat) : ((s.put page f v)).survey = s.survey := rfl
@[simp] theorem strms_put (s : State) (page : Nat) (f : Fld) (v : Nat) : ((s.put page f v)).strms = s.strms := rfl
@[simp] theorem bunds_put (s : State) (page : Nat) (f : Fld) (v : Nat) : ((s.put page f v)).bunds = s.bunds := rfl
@[simp] theorem squeues_put (s : State) (page : Nat) (f : Fld) (v : Nat) : ((s.put page f v)).squeues = s.squeues := rfl
@[simp] theorem skeys_put (s : State) (page : Nat) (f : Fld) (v : Nat) : ((s.put page f v)).skeys = s.skeys := rfl
@[simp] theorem clk_put (s : State) (page : Nat) (f : Fld) (v : Nat) : ((s.put page f v)).clk = s.clk := rfl
@[simp] theorem pwr_put (s : State) (page : Nat) (f : Fld) (v : Nat) : ((s.put page f v)).pwr = s.pwr := rfl
@[simp] theorem pmb_put (s : State) (page : Nat) (f : Fld) (v : Nat) : ((s.put page f v)).pmb = s.pmb := rfl
@[simp] theorem pmbSent_put (s : State) (page : Nat) (f : Fld) (v : Nat) : ((s.put page f v)).pmbSent = s.pmbSent := rfl
@[simp] theorem sec_put (s : State) (page : Nat) (f : Fld) (v : Nat) : ((s.put page f v)).sec = s.sec := rfl
@[simp] theorem log_put (s : State) (page : Nat) (f : Fld) (v : Nat) : ((s.put page f v)).log = s.log := rfl
@[simp] theorem temps_put (s : State) (page : Nat) (f : Fld) (v : Nat) : ((s.put page f v)).temps = s.temps := rfl
@[simp] theorem ports_put (s : State) (page : Nat) (f : Fld) (v : Nat) : ((s.put page f v)).ports = s.ports := rfl
@[simp] theorem ring_put (s : State) (page : Nat) (f : Fld) (v : Nat) : ((s.put page f v)).ring = s.ring := rfl
@[simp] theorem twb_put (s : State) (page : Nat) (f : Fld) (v : Nat) : ((s.put page f v)).twb = s.twb := rfl
@[simp] theorem smc_put (s : State) (page : Nat) (f : Fld) (v : Nat) : ((s.put page f v)).smc = s.smc := rfl
@[simp] theorem aud_put (s : State) (page : Nat) (f : Fld) (v : Nat) : ((s.put page f v)).aud = s.aud := rfl
@[simp] theorem cal_put (s : State) (page : Nat) (f : Fld) (v : Nat) : ((s.put page f v)).cal = s.cal := rfl
@[simp] theorem snd_put (s : State) (page : Nat) (f : Fld) (v : Nat) : ((s.put page f v)).snd = s.snd := rfl
@[simp] theorem loam_put (s : State) (page : Nat) (f : Fld) (v : Nat) : ((s.put page f v)).loam = s.loam := rfl
@[simp] theorem mfp_put (s : State) (page : Nat) (f : Fld) (v : Nat) : ((s.put page f v)).mfp = s.mfp := rfl

/-! count -/
@[simp] theorem fuse_count (s : State) (page : Nat) (f : Fld) (n : Nat) : ((s.count page f n)).fuse = s.fuse := rfl
@[simp] theorem boot_count (s : State) (page : Nat) (f : Fld) (n : Nat) : ((s.count page f n)).boot = s.boot := rfl
@[simp] theorem rseq_count (s : State) (page : Nat) (f : Fld) (n : Nat) : ((s.count page f n)).rseq = s.rseq := rfl
@[simp] theorem freeCtr_count (s : State) (page : Nat) (f : Fld) (n : Nat) : ((s.count page f n)).freeCtr = s.freeCtr := rfl
@[simp] theorem pending_count (s : State) (page : Nat) (f : Fld) (n : Nat) : ((s.count page f n)).pending = s.pending := rfl
@[simp] theorem staged_count (s : State) (page : Nat) (f : Fld) (n : Nat) : ((s.count page f n)).staged = s.staged := rfl
@[simp] theorem captured_count (s : State) (page : Nat) (f : Fld) (n : Nat) : ((s.count page f n)).captured = s.captured := rfl
@[simp] theorem lastStatus_count (s : State) (page : Nat) (f : Fld) (n : Nat) : ((s.count page f n)).lastStatus = s.lastStatus := rfl
@[simp] theorem q_count (s : State) (page : Nat) (f : Fld) (n : Nat) : ((s.count page f n)).q = s.q := rfl
@[simp] theorem time_count (s : State) (page : Nat) (f : Fld) (n : Nat) : ((s.count page f n)).time = s.time := rfl
@[simp] theorem conds_count (s : State) (page : Nat) (f : Fld) (n : Nat) : ((s.count page f n)).conds = s.conds := rfl
@[simp] theorem inputs_count (s : State) (page : Nat) (f : Fld) (n : Nat) : ((s.count page f n)).inputs = s.inputs := rfl
@[simp] theorem slices_count (s : State) (page : Nat) (f : Fld) (n : Nat) : ((s.count page f n)).slices = s.slices := rfl
@[simp] theorem demods_count (s : State) (page : Nat) (f : Fld) (n : Nat) : ((s.count page f n)).demods = s.demods := rfl
@[simp] theorem planGen_count (s : State) (page : Nat) (f : Fld) (n : Nat) : ((s.count page f n)).planGen = s.planGen := rfl
@[simp] theorem snaps_count (s : State) (page : Nat) (f : Fld) (n : Nat) : ((s.count page f n)).snaps = s.snaps := rfl
@[simp] theorem beds_count (s : State) (page : Nat) (f : Fld) (n : Nat) : ((s.count page f n)).beds = s.beds := rfl
@[simp] theorem decs_count (s : State) (page : Nat) (f : Fld) (n : Nat) : ((s.count page f n)).decs = s.decs := rfl
@[simp] theorem slots_count (s : State) (page : Nat) (f : Fld) (n : Nat) : ((s.count page f n)).slots = s.slots := rfl
@[simp] theorem afdb_count (s : State) (page : Nat) (f : Fld) (n : Nat) : ((s.count page f n)).afdb = s.afdb := rfl
@[simp] theorem afNext_count (s : State) (page : Nat) (f : Fld) (n : Nat) : ((s.count page f n)).afNext = s.afNext := rfl
@[simp] theorem survey_count (s : State) (page : Nat) (f : Fld) (n : Nat) : ((s.count page f n)).survey = s.survey := rfl
@[simp] theorem strms_count (s : State) (page : Nat) (f : Fld) (n : Nat) : ((s.count page f n)).strms = s.strms := rfl
@[simp] theorem bunds_count (s : State) (page : Nat) (f : Fld) (n : Nat) : ((s.count page f n)).bunds = s.bunds := rfl
@[simp] theorem squeues_count (s : State) (page : Nat) (f : Fld) (n : Nat) : ((s.count page f n)).squeues = s.squeues := rfl
@[simp] theorem skeys_count (s : State) (page : Nat) (f : Fld) (n : Nat) : ((s.count page f n)).skeys = s.skeys := rfl
@[simp] theorem clk_count (s : State) (page : Nat) (f : Fld) (n : Nat) : ((s.count page f n)).clk = s.clk := rfl
@[simp] theorem pwr_count (s : State) (page : Nat) (f : Fld) (n : Nat) : ((s.count page f n)).pwr = s.pwr := rfl
@[simp] theorem pmb_count (s : State) (page : Nat) (f : Fld) (n : Nat) : ((s.count page f n)).pmb = s.pmb := rfl
@[simp] theorem pmbSent_count (s : State) (page : Nat) (f : Fld) (n : Nat) : ((s.count page f n)).pmbSent = s.pmbSent := rfl
@[simp] theorem sec_count (s : State) (page : Nat) (f : Fld) (n : Nat) : ((s.count page f n)).sec = s.sec := rfl
@[simp] theorem log_count (s : State) (page : Nat) (f : Fld) (n : Nat) : ((s.count page f n)).log = s.log := rfl
@[simp] theorem temps_count (s : State) (page : Nat) (f : Fld) (n : Nat) : ((s.count page f n)).temps = s.temps := rfl
@[simp] theorem ports_count (s : State) (page : Nat) (f : Fld) (n : Nat) : ((s.count page f n)).ports = s.ports := rfl
@[simp] theorem ring_count (s : State) (page : Nat) (f : Fld) (n : Nat) : ((s.count page f n)).ring = s.ring := rfl
@[simp] theorem twb_count (s : State) (page : Nat) (f : Fld) (n : Nat) : ((s.count page f n)).twb = s.twb := rfl
@[simp] theorem smc_count (s : State) (page : Nat) (f : Fld) (n : Nat) : ((s.count page f n)).smc = s.smc := rfl
@[simp] theorem aud_count (s : State) (page : Nat) (f : Fld) (n : Nat) : ((s.count page f n)).aud = s.aud := rfl
@[simp] theorem cal_count (s : State) (page : Nat) (f : Fld) (n : Nat) : ((s.count page f n)).cal = s.cal := rfl
@[simp] theorem snd_count (s : State) (page : Nat) (f : Fld) (n : Nat) : ((s.count page f n)).snd = s.snd := rfl
@[simp] theorem loam_count (s : State) (page : Nat) (f : Fld) (n : Nat) : ((s.count page f n)).loam = s.loam := rfl
@[simp] theorem mfp_count (s : State) (page : Nat) (f : Fld) (n : Nat) : ((s.count page f n)).mfp = s.mfp := rfl

/-! putPair -/
@[simp] theorem fuse_putPair (s : State) (page : Nat) (lo : Fld) (hi : Fld) (v : Nat) : ((s.putPair page lo hi v)).fuse = s.fuse := rfl
@[simp] theorem boot_putPair (s : State) (page : Nat) (lo : Fld) (hi : Fld) (v : Nat) : ((s.putPair page lo hi v)).boot = s.boot := rfl
@[simp] theorem rseq_putPair (s : State) (page : Nat) (lo : Fld) (hi : Fld) (v : Nat) : ((s.putPair page lo hi v)).rseq = s.rseq := rfl
@[simp] theorem freeCtr_putPair (s : State) (page : Nat) (lo : Fld) (hi : Fld) (v : Nat) : ((s.putPair page lo hi v)).freeCtr = s.freeCtr := rfl
@[simp] theorem pending_putPair (s : State) (page : Nat) (lo : Fld) (hi : Fld) (v : Nat) : ((s.putPair page lo hi v)).pending = s.pending := rfl
@[simp] theorem staged_putPair (s : State) (page : Nat) (lo : Fld) (hi : Fld) (v : Nat) : ((s.putPair page lo hi v)).staged = s.staged := rfl
@[simp] theorem captured_putPair (s : State) (page : Nat) (lo : Fld) (hi : Fld) (v : Nat) : ((s.putPair page lo hi v)).captured = s.captured := rfl
@[simp] theorem lastStatus_putPair (s : State) (page : Nat) (lo : Fld) (hi : Fld) (v : Nat) : ((s.putPair page lo hi v)).lastStatus = s.lastStatus := rfl
@[simp] theorem q_putPair (s : State) (page : Nat) (lo : Fld) (hi : Fld) (v : Nat) : ((s.putPair page lo hi v)).q = s.q := rfl
@[simp] theorem time_putPair (s : State) (page : Nat) (lo : Fld) (hi : Fld) (v : Nat) : ((s.putPair page lo hi v)).time = s.time := rfl
@[simp] theorem conds_putPair (s : State) (page : Nat) (lo : Fld) (hi : Fld) (v : Nat) : ((s.putPair page lo hi v)).conds = s.conds := rfl
@[simp] theorem inputs_putPair (s : State) (page : Nat) (lo : Fld) (hi : Fld) (v : Nat) : ((s.putPair page lo hi v)).inputs = s.inputs := rfl
@[simp] theorem slices_putPair (s : State) (page : Nat) (lo : Fld) (hi : Fld) (v : Nat) : ((s.putPair page lo hi v)).slices = s.slices := rfl
@[simp] theorem demods_putPair (s : State) (page : Nat) (lo : Fld) (hi : Fld) (v : Nat) : ((s.putPair page lo hi v)).demods = s.demods := rfl
@[simp] theorem planGen_putPair (s : State) (page : Nat) (lo : Fld) (hi : Fld) (v : Nat) : ((s.putPair page lo hi v)).planGen = s.planGen := rfl
@[simp] theorem snaps_putPair (s : State) (page : Nat) (lo : Fld) (hi : Fld) (v : Nat) : ((s.putPair page lo hi v)).snaps = s.snaps := rfl
@[simp] theorem beds_putPair (s : State) (page : Nat) (lo : Fld) (hi : Fld) (v : Nat) : ((s.putPair page lo hi v)).beds = s.beds := rfl
@[simp] theorem decs_putPair (s : State) (page : Nat) (lo : Fld) (hi : Fld) (v : Nat) : ((s.putPair page lo hi v)).decs = s.decs := rfl
@[simp] theorem slots_putPair (s : State) (page : Nat) (lo : Fld) (hi : Fld) (v : Nat) : ((s.putPair page lo hi v)).slots = s.slots := rfl
@[simp] theorem afdb_putPair (s : State) (page : Nat) (lo : Fld) (hi : Fld) (v : Nat) : ((s.putPair page lo hi v)).afdb = s.afdb := rfl
@[simp] theorem afNext_putPair (s : State) (page : Nat) (lo : Fld) (hi : Fld) (v : Nat) : ((s.putPair page lo hi v)).afNext = s.afNext := rfl
@[simp] theorem survey_putPair (s : State) (page : Nat) (lo : Fld) (hi : Fld) (v : Nat) : ((s.putPair page lo hi v)).survey = s.survey := rfl
@[simp] theorem strms_putPair (s : State) (page : Nat) (lo : Fld) (hi : Fld) (v : Nat) : ((s.putPair page lo hi v)).strms = s.strms := rfl
@[simp] theorem bunds_putPair (s : State) (page : Nat) (lo : Fld) (hi : Fld) (v : Nat) : ((s.putPair page lo hi v)).bunds = s.bunds := rfl
@[simp] theorem squeues_putPair (s : State) (page : Nat) (lo : Fld) (hi : Fld) (v : Nat) : ((s.putPair page lo hi v)).squeues = s.squeues := rfl
@[simp] theorem skeys_putPair (s : State) (page : Nat) (lo : Fld) (hi : Fld) (v : Nat) : ((s.putPair page lo hi v)).skeys = s.skeys := rfl
@[simp] theorem clk_putPair (s : State) (page : Nat) (lo : Fld) (hi : Fld) (v : Nat) : ((s.putPair page lo hi v)).clk = s.clk := rfl
@[simp] theorem pwr_putPair (s : State) (page : Nat) (lo : Fld) (hi : Fld) (v : Nat) : ((s.putPair page lo hi v)).pwr = s.pwr := rfl
@[simp] theorem pmb_putPair (s : State) (page : Nat) (lo : Fld) (hi : Fld) (v : Nat) : ((s.putPair page lo hi v)).pmb = s.pmb := rfl
@[simp] theorem pmbSent_putPair (s : State) (page : Nat) (lo : Fld) (hi : Fld) (v : Nat) : ((s.putPair page lo hi v)).pmbSent = s.pmbSent := rfl
@[simp] theorem sec_putPair (s : State) (page : Nat) (lo : Fld) (hi : Fld) (v : Nat) : ((s.putPair page lo hi v)).sec = s.sec := rfl
@[simp] theorem log_putPair (s : State) (page : Nat) (lo : Fld) (hi : Fld) (v : Nat) : ((s.putPair page lo hi v)).log = s.log := rfl
@[simp] theorem temps_putPair (s : State) (page : Nat) (lo : Fld) (hi : Fld) (v : Nat) : ((s.putPair page lo hi v)).temps = s.temps := rfl
@[simp] theorem ports_putPair (s : State) (page : Nat) (lo : Fld) (hi : Fld) (v : Nat) : ((s.putPair page lo hi v)).ports = s.ports := rfl
@[simp] theorem ring_putPair (s : State) (page : Nat) (lo : Fld) (hi : Fld) (v : Nat) : ((s.putPair page lo hi v)).ring = s.ring := rfl
@[simp] theorem twb_putPair (s : State) (page : Nat) (lo : Fld) (hi : Fld) (v : Nat) : ((s.putPair page lo hi v)).twb = s.twb := rfl
@[simp] theorem smc_putPair (s : State) (page : Nat) (lo : Fld) (hi : Fld) (v : Nat) : ((s.putPair page lo hi v)).smc = s.smc := rfl
@[simp] theorem aud_putPair (s : State) (page : Nat) (lo : Fld) (hi : Fld) (v : Nat) : ((s.putPair page lo hi v)).aud = s.aud := rfl
@[simp] theorem cal_putPair (s : State) (page : Nat) (lo : Fld) (hi : Fld) (v : Nat) : ((s.putPair page lo hi v)).cal = s.cal := rfl
@[simp] theorem snd_putPair (s : State) (page : Nat) (lo : Fld) (hi : Fld) (v : Nat) : ((s.putPair page lo hi v)).snd = s.snd := rfl
@[simp] theorem loam_putPair (s : State) (page : Nat) (lo : Fld) (hi : Fld) (v : Nat) : ((s.putPair page lo hi v)).loam = s.loam := rfl
@[simp] theorem mfp_putPair (s : State) (page : Nat) (lo : Fld) (hi : Fld) (v : Nat) : ((s.putPair page lo hi v)).mfp = s.mfp := rfl

/-! setBit -/
@[simp] theorem fuse_setBit (s : State) (page : Nat) (off : Nat) (b : Nat) : ((s.setBit page off b)).fuse = s.fuse := rfl
@[simp] theorem boot_setBit (s : State) (page : Nat) (off : Nat) (b : Nat) : ((s.setBit page off b)).boot = s.boot := rfl
@[simp] theorem rseq_setBit (s : State) (page : Nat) (off : Nat) (b : Nat) : ((s.setBit page off b)).rseq = s.rseq := rfl
@[simp] theorem freeCtr_setBit (s : State) (page : Nat) (off : Nat) (b : Nat) : ((s.setBit page off b)).freeCtr = s.freeCtr := rfl
@[simp] theorem pending_setBit (s : State) (page : Nat) (off : Nat) (b : Nat) : ((s.setBit page off b)).pending = s.pending := rfl
@[simp] theorem staged_setBit (s : State) (page : Nat) (off : Nat) (b : Nat) : ((s.setBit page off b)).staged = s.staged := rfl
@[simp] theorem captured_setBit (s : State) (page : Nat) (off : Nat) (b : Nat) : ((s.setBit page off b)).captured = s.captured := rfl
@[simp] theorem lastStatus_setBit (s : State) (page : Nat) (off : Nat) (b : Nat) : ((s.setBit page off b)).lastStatus = s.lastStatus := rfl
@[simp] theorem q_setBit (s : State) (page : Nat) (off : Nat) (b : Nat) : ((s.setBit page off b)).q = s.q := rfl
@[simp] theorem time_setBit (s : State) (page : Nat) (off : Nat) (b : Nat) : ((s.setBit page off b)).time = s.time := rfl
@[simp] theorem conds_setBit (s : State) (page : Nat) (off : Nat) (b : Nat) : ((s.setBit page off b)).conds = s.conds := rfl
@[simp] theorem inputs_setBit (s : State) (page : Nat) (off : Nat) (b : Nat) : ((s.setBit page off b)).inputs = s.inputs := rfl
@[simp] theorem slices_setBit (s : State) (page : Nat) (off : Nat) (b : Nat) : ((s.setBit page off b)).slices = s.slices := rfl
@[simp] theorem demods_setBit (s : State) (page : Nat) (off : Nat) (b : Nat) : ((s.setBit page off b)).demods = s.demods := rfl
@[simp] theorem planGen_setBit (s : State) (page : Nat) (off : Nat) (b : Nat) : ((s.setBit page off b)).planGen = s.planGen := rfl
@[simp] theorem snaps_setBit (s : State) (page : Nat) (off : Nat) (b : Nat) : ((s.setBit page off b)).snaps = s.snaps := rfl
@[simp] theorem beds_setBit (s : State) (page : Nat) (off : Nat) (b : Nat) : ((s.setBit page off b)).beds = s.beds := rfl
@[simp] theorem decs_setBit (s : State) (page : Nat) (off : Nat) (b : Nat) : ((s.setBit page off b)).decs = s.decs := rfl
@[simp] theorem slots_setBit (s : State) (page : Nat) (off : Nat) (b : Nat) : ((s.setBit page off b)).slots = s.slots := rfl
@[simp] theorem afdb_setBit (s : State) (page : Nat) (off : Nat) (b : Nat) : ((s.setBit page off b)).afdb = s.afdb := rfl
@[simp] theorem afNext_setBit (s : State) (page : Nat) (off : Nat) (b : Nat) : ((s.setBit page off b)).afNext = s.afNext := rfl
@[simp] theorem survey_setBit (s : State) (page : Nat) (off : Nat) (b : Nat) : ((s.setBit page off b)).survey = s.survey := rfl
@[simp] theorem strms_setBit (s : State) (page : Nat) (off : Nat) (b : Nat) : ((s.setBit page off b)).strms = s.strms := rfl
@[simp] theorem bunds_setBit (s : State) (page : Nat) (off : Nat) (b : Nat) : ((s.setBit page off b)).bunds = s.bunds := rfl
@[simp] theorem squeues_setBit (s : State) (page : Nat) (off : Nat) (b : Nat) : ((s.setBit page off b)).squeues = s.squeues := rfl
@[simp] theorem skeys_setBit (s : State) (page : Nat) (off : Nat) (b : Nat) : ((s.setBit page off b)).skeys = s.skeys := rfl
@[simp] theorem clk_setBit (s : State) (page : Nat) (off : Nat) (b : Nat) : ((s.setBit page off b)).clk = s.clk := rfl
@[simp] theorem pwr_setBit (s : State) (page : Nat) (off : Nat) (b : Nat) : ((s.setBit page off b)).pwr = s.pwr := rfl
@[simp] theorem pmb_setBit (s : State) (page : Nat) (off : Nat) (b : Nat) : ((s.setBit page off b)).pmb = s.pmb := rfl
@[simp] theorem pmbSent_setBit (s : State) (page : Nat) (off : Nat) (b : Nat) : ((s.setBit page off b)).pmbSent = s.pmbSent := rfl
@[simp] theorem sec_setBit (s : State) (page : Nat) (off : Nat) (b : Nat) : ((s.setBit page off b)).sec = s.sec := rfl
@[simp] theorem log_setBit (s : State) (page : Nat) (off : Nat) (b : Nat) : ((s.setBit page off b)).log = s.log := rfl
@[simp] theorem temps_setBit (s : State) (page : Nat) (off : Nat) (b : Nat) : ((s.setBit page off b)).temps = s.temps := rfl
@[simp] theorem ports_setBit (s : State) (page : Nat) (off : Nat) (b : Nat) : ((s.setBit page off b)).ports = s.ports := rfl
@[simp] theorem ring_setBit (s : State) (page : Nat) (off : Nat) (b : Nat) : ((s.setBit page off b)).ring = s.ring := rfl
@[simp] theorem twb_setBit (s : State) (page : Nat) (off : Nat) (b : Nat) : ((s.setBit page off b)).twb = s.twb := rfl
@[simp] theorem smc_setBit (s : State) (page : Nat) (off : Nat) (b : Nat) : ((s.setBit page off b)).smc = s.smc := rfl
@[simp] theorem aud_setBit (s : State) (page : Nat) (off : Nat) (b : Nat) : ((s.setBit page off b)).aud = s.aud := rfl
@[simp] theorem cal_setBit (s : State) (page : Nat) (off : Nat) (b : Nat) : ((s.setBit page off b)).cal = s.cal := rfl
@[simp] theorem snd_setBit (s : State) (page : Nat) (off : Nat) (b : Nat) : ((s.setBit page off b)).snd = s.snd := rfl
@[simp] theorem loam_setBit (s : State) (page : Nat) (off : Nat) (b : Nat) : ((s.setBit page off b)).loam = s.loam := rfl
@[simp] theorem mfp_setBit (s : State) (page : Nat) (off : Nat) (b : Nat) : ((s.setBit page off b)).mfp = s.mfp := rfl

/-! race -/
@[simp] theorem fuse_race (s : State) (page : Nat) : ((s.race page)).fuse = s.fuse := rfl
@[simp] theorem boot_race (s : State) (page : Nat) : ((s.race page)).boot = s.boot := rfl
@[simp] theorem rseq_race (s : State) (page : Nat) : ((s.race page)).rseq = s.rseq := rfl
@[simp] theorem freeCtr_race (s : State) (page : Nat) : ((s.race page)).freeCtr = s.freeCtr := rfl
@[simp] theorem pending_race (s : State) (page : Nat) : ((s.race page)).pending = s.pending := rfl
@[simp] theorem staged_race (s : State) (page : Nat) : ((s.race page)).staged = s.staged := rfl
@[simp] theorem captured_race (s : State) (page : Nat) : ((s.race page)).captured = s.captured := rfl
@[simp] theorem lastStatus_race (s : State) (page : Nat) : ((s.race page)).lastStatus = s.lastStatus := rfl
@[simp] theorem q_race (s : State) (page : Nat) : ((s.race page)).q = s.q := rfl
@[simp] theorem time_race (s : State) (page : Nat) : ((s.race page)).time = s.time := rfl
@[simp] theorem conds_race (s : State) (page : Nat) : ((s.race page)).conds = s.conds := rfl
@[simp] theorem inputs_race (s : State) (page : Nat) : ((s.race page)).inputs = s.inputs := rfl
@[simp] theorem slices_race (s : State) (page : Nat) : ((s.race page)).slices = s.slices := rfl
@[simp] theorem demods_race (s : State) (page : Nat) : ((s.race page)).demods = s.demods := rfl
@[simp] theorem planGen_race (s : State) (page : Nat) : ((s.race page)).planGen = s.planGen := rfl
@[simp] theorem snaps_race (s : State) (page : Nat) : ((s.race page)).snaps = s.snaps := rfl
@[simp] theorem beds_race (s : State) (page : Nat) : ((s.race page)).beds = s.beds := rfl
@[simp] theorem decs_race (s : State) (page : Nat) : ((s.race page)).decs = s.decs := rfl
@[simp] theorem slots_race (s : State) (page : Nat) : ((s.race page)).slots = s.slots := rfl
@[simp] theorem afdb_race (s : State) (page : Nat) : ((s.race page)).afdb = s.afdb := rfl
@[simp] theorem afNext_race (s : State) (page : Nat) : ((s.race page)).afNext = s.afNext := rfl
@[simp] theorem survey_race (s : State) (page : Nat) : ((s.race page)).survey = s.survey := rfl
@[simp] theorem strms_race (s : State) (page : Nat) : ((s.race page)).strms = s.strms := rfl
@[simp] theorem bunds_race (s : State) (page : Nat) : ((s.race page)).bunds = s.bunds := rfl
@[simp] theorem squeues_race (s : State) (page : Nat) : ((s.race page)).squeues = s.squeues := rfl
@[simp] theorem skeys_race (s : State) (page : Nat) : ((s.race page)).skeys = s.skeys := rfl
@[simp] theorem clk_race (s : State) (page : Nat) : ((s.race page)).clk = s.clk := rfl
@[simp] theorem pwr_race (s : State) (page : Nat) : ((s.race page)).pwr = s.pwr := rfl
@[simp] theorem pmb_race (s : State) (page : Nat) : ((s.race page)).pmb = s.pmb := rfl
@[simp] theorem pmbSent_race (s : State) (page : Nat) : ((s.race page)).pmbSent = s.pmbSent := rfl
@[simp] theorem sec_race (s : State) (page : Nat) : ((s.race page)).sec = s.sec := rfl
@[simp] theorem log_race (s : State) (page : Nat) : ((s.race page)).log = s.log := rfl
@[simp] theorem temps_race (s : State) (page : Nat) : ((s.race page)).temps = s.temps := rfl
@[simp] theorem ports_race (s : State) (page : Nat) : ((s.race page)).ports = s.ports := rfl
@[simp] theorem ring_race (s : State) (page : Nat) : ((s.race page)).ring = s.ring := rfl
@[simp] theorem twb_race (s : State) (page : Nat) : ((s.race page)).twb = s.twb := rfl
@[simp] theorem smc_race (s : State) (page : Nat) : ((s.race page)).smc = s.smc := rfl
@[simp] theorem aud_race (s : State) (page : Nat) : ((s.race page)).aud = s.aud := rfl
@[simp] theorem cal_race (s : State) (page : Nat) : ((s.race page)).cal = s.cal := rfl
@[simp] theorem snd_race (s : State) (page : Nat) : ((s.race page)).snd = s.snd := rfl
@[simp] theorem loam_race (s : State) (page : Nat) : ((s.race page)).loam = s.loam := rfl
@[simp] theorem mfp_race (s : State) (page : Nat) : ((s.race page)).mfp = s.mfp := rfl

/-! updInp -/
@[simp] theorem fuse_updInp (s : State) (i : Inp) (f : Input → Input) : ((s.updInp i f)).fuse = s.fuse := rfl
@[simp] theorem boot_updInp (s : State) (i : Inp) (f : Input → Input) : ((s.updInp i f)).boot = s.boot := rfl
@[simp] theorem rseq_updInp (s : State) (i : Inp) (f : Input → Input) : ((s.updInp i f)).rseq = s.rseq := rfl
@[simp] theorem freeCtr_updInp (s : State) (i : Inp) (f : Input → Input) : ((s.updInp i f)).freeCtr = s.freeCtr := rfl
@[simp] theorem pending_updInp (s : State) (i : Inp) (f : Input → Input) : ((s.updInp i f)).pending = s.pending := rfl
@[simp] theorem regs_updInp (s : State) (i : Inp) (f : Input → Input) : ((s.updInp i f)).regs = s.regs := rfl
@[simp] theorem staged_updInp (s : State) (i : Inp) (f : Input → Input) : ((s.updInp i f)).staged = s.staged := rfl
@[simp] theorem captured_updInp (s : State) (i : Inp) (f : Input → Input) : ((s.updInp i f)).captured = s.captured := rfl
@[simp] theorem lastStatus_updInp (s : State) (i : Inp) (f : Input → Input) : ((s.updInp i f)).lastStatus = s.lastStatus := rfl
@[simp] theorem q_updInp (s : State) (i : Inp) (f : Input → Input) : ((s.updInp i f)).q = s.q := rfl
@[simp] theorem time_updInp (s : State) (i : Inp) (f : Input → Input) : ((s.updInp i f)).time = s.time := rfl
@[simp] theorem conds_updInp (s : State) (i : Inp) (f : Input → Input) : ((s.updInp i f)).conds = s.conds := rfl
@[simp] theorem slices_updInp (s : State) (i : Inp) (f : Input → Input) : ((s.updInp i f)).slices = s.slices := rfl
@[simp] theorem demods_updInp (s : State) (i : Inp) (f : Input → Input) : ((s.updInp i f)).demods = s.demods := rfl
@[simp] theorem planGen_updInp (s : State) (i : Inp) (f : Input → Input) : ((s.updInp i f)).planGen = s.planGen := rfl
@[simp] theorem snaps_updInp (s : State) (i : Inp) (f : Input → Input) : ((s.updInp i f)).snaps = s.snaps := rfl
@[simp] theorem beds_updInp (s : State) (i : Inp) (f : Input → Input) : ((s.updInp i f)).beds = s.beds := rfl
@[simp] theorem decs_updInp (s : State) (i : Inp) (f : Input → Input) : ((s.updInp i f)).decs = s.decs := rfl
@[simp] theorem slots_updInp (s : State) (i : Inp) (f : Input → Input) : ((s.updInp i f)).slots = s.slots := rfl
@[simp] theorem afdb_updInp (s : State) (i : Inp) (f : Input → Input) : ((s.updInp i f)).afdb = s.afdb := rfl
@[simp] theorem afNext_updInp (s : State) (i : Inp) (f : Input → Input) : ((s.updInp i f)).afNext = s.afNext := rfl
@[simp] theorem survey_updInp (s : State) (i : Inp) (f : Input → Input) : ((s.updInp i f)).survey = s.survey := rfl
@[simp] theorem strms_updInp (s : State) (i : Inp) (f : Input → Input) : ((s.updInp i f)).strms = s.strms := rfl
@[simp] theorem bunds_updInp (s : State) (i : Inp) (f : Input → Input) : ((s.updInp i f)).bunds = s.bunds := rfl
@[simp] theorem squeues_updInp (s : State) (i : Inp) (f : Input → Input) : ((s.updInp i f)).squeues = s.squeues := rfl
@[simp] theorem skeys_updInp (s : State) (i : Inp) (f : Input → Input) : ((s.updInp i f)).skeys = s.skeys := rfl
@[simp] theorem clk_updInp (s : State) (i : Inp) (f : Input → Input) : ((s.updInp i f)).clk = s.clk := rfl
@[simp] theorem pwr_updInp (s : State) (i : Inp) (f : Input → Input) : ((s.updInp i f)).pwr = s.pwr := rfl
@[simp] theorem pmb_updInp (s : State) (i : Inp) (f : Input → Input) : ((s.updInp i f)).pmb = s.pmb := rfl
@[simp] theorem pmbSent_updInp (s : State) (i : Inp) (f : Input → Input) : ((s.updInp i f)).pmbSent = s.pmbSent := rfl
@[simp] theorem sec_updInp (s : State) (i : Inp) (f : Input → Input) : ((s.updInp i f)).sec = s.sec := rfl
@[simp] theorem log_updInp (s : State) (i : Inp) (f : Input → Input) : ((s.updInp i f)).log = s.log := rfl
@[simp] theorem temps_updInp (s : State) (i : Inp) (f : Input → Input) : ((s.updInp i f)).temps = s.temps := rfl
@[simp] theorem ports_updInp (s : State) (i : Inp) (f : Input → Input) : ((s.updInp i f)).ports = s.ports := rfl
@[simp] theorem ring_updInp (s : State) (i : Inp) (f : Input → Input) : ((s.updInp i f)).ring = s.ring := rfl
@[simp] theorem twb_updInp (s : State) (i : Inp) (f : Input → Input) : ((s.updInp i f)).twb = s.twb := rfl
@[simp] theorem smc_updInp (s : State) (i : Inp) (f : Input → Input) : ((s.updInp i f)).smc = s.smc := rfl
@[simp] theorem aud_updInp (s : State) (i : Inp) (f : Input → Input) : ((s.updInp i f)).aud = s.aud := rfl
@[simp] theorem cal_updInp (s : State) (i : Inp) (f : Input → Input) : ((s.updInp i f)).cal = s.cal := rfl
@[simp] theorem snd_updInp (s : State) (i : Inp) (f : Input → Input) : ((s.updInp i f)).snd = s.snd := rfl
@[simp] theorem loam_updInp (s : State) (i : Inp) (f : Input → Input) : ((s.updInp i f)).loam = s.loam := rfl
@[simp] theorem mfp_updInp (s : State) (i : Inp) (f : Input → Input) : ((s.updInp i f)).mfp = s.mfp := rfl

/-! updSlc -/
@[simp] theorem fuse_updSlc (s : State) (i : Slc) (f : SliceSt → SliceSt) : ((s.updSlc i f)).fuse = s.fuse := rfl
@[simp] theorem boot_updSlc (s : State) (i : Slc) (f : SliceSt → SliceSt) : ((s.updSlc i f)).boot = s.boot := rfl
@[simp] theorem rseq_updSlc (s : State) (i : Slc) (f : SliceSt → SliceSt) : ((s.updSlc i f)).rseq = s.rseq := rfl
@[simp] theorem freeCtr_updSlc (s : State) (i : Slc) (f : SliceSt → SliceSt) : ((s.updSlc i f)).freeCtr = s.freeCtr := rfl
@[simp] theorem pending_updSlc (s : State) (i : Slc) (f : SliceSt → SliceSt) : ((s.updSlc i f)).pending = s.pending := rfl
@[simp] theorem regs_updSlc (s : State) (i : Slc) (f : SliceSt → SliceSt) : ((s.updSlc i f)).regs = s.regs := rfl
@[simp] theorem staged_updSlc (s : State) (i : Slc) (f : SliceSt → SliceSt) : ((s.updSlc i f)).staged = s.staged := rfl
@[simp] theorem captured_updSlc (s : State) (i : Slc) (f : SliceSt → SliceSt) : ((s.updSlc i f)).captured = s.captured := rfl
@[simp] theorem lastStatus_updSlc (s : State) (i : Slc) (f : SliceSt → SliceSt) : ((s.updSlc i f)).lastStatus = s.lastStatus := rfl
@[simp] theorem q_updSlc (s : State) (i : Slc) (f : SliceSt → SliceSt) : ((s.updSlc i f)).q = s.q := rfl
@[simp] theorem time_updSlc (s : State) (i : Slc) (f : SliceSt → SliceSt) : ((s.updSlc i f)).time = s.time := rfl
@[simp] theorem conds_updSlc (s : State) (i : Slc) (f : SliceSt → SliceSt) : ((s.updSlc i f)).conds = s.conds := rfl
@[simp] theorem inputs_updSlc (s : State) (i : Slc) (f : SliceSt → SliceSt) : ((s.updSlc i f)).inputs = s.inputs := rfl
@[simp] theorem demods_updSlc (s : State) (i : Slc) (f : SliceSt → SliceSt) : ((s.updSlc i f)).demods = s.demods := rfl
@[simp] theorem planGen_updSlc (s : State) (i : Slc) (f : SliceSt → SliceSt) : ((s.updSlc i f)).planGen = s.planGen := rfl
@[simp] theorem snaps_updSlc (s : State) (i : Slc) (f : SliceSt → SliceSt) : ((s.updSlc i f)).snaps = s.snaps := rfl
@[simp] theorem beds_updSlc (s : State) (i : Slc) (f : SliceSt → SliceSt) : ((s.updSlc i f)).beds = s.beds := rfl
@[simp] theorem decs_updSlc (s : State) (i : Slc) (f : SliceSt → SliceSt) : ((s.updSlc i f)).decs = s.decs := rfl
@[simp] theorem slots_updSlc (s : State) (i : Slc) (f : SliceSt → SliceSt) : ((s.updSlc i f)).slots = s.slots := rfl
@[simp] theorem afdb_updSlc (s : State) (i : Slc) (f : SliceSt → SliceSt) : ((s.updSlc i f)).afdb = s.afdb := rfl
@[simp] theorem afNext_updSlc (s : State) (i : Slc) (f : SliceSt → SliceSt) : ((s.updSlc i f)).afNext = s.afNext := rfl
@[simp] theorem survey_updSlc (s : State) (i : Slc) (f : SliceSt → SliceSt) : ((s.updSlc i f)).survey = s.survey := rfl
@[simp] theorem strms_updSlc (s : State) (i : Slc) (f : SliceSt → SliceSt) : ((s.updSlc i f)).strms = s.strms := rfl
@[simp] theorem bunds_updSlc (s : State) (i : Slc) (f : SliceSt → SliceSt) : ((s.updSlc i f)).bunds = s.bunds := rfl
@[simp] theorem squeues_updSlc (s : State) (i : Slc) (f : SliceSt → SliceSt) : ((s.updSlc i f)).squeues = s.squeues := rfl
@[simp] theorem skeys_updSlc (s : State) (i : Slc) (f : SliceSt → SliceSt) : ((s.updSlc i f)).skeys = s.skeys := rfl
@[simp] theorem clk_updSlc (s : State) (i : Slc) (f : SliceSt → SliceSt) : ((s.updSlc i f)).clk = s.clk := rfl
@[simp] theorem pwr_updSlc (s : State) (i : Slc) (f : SliceSt → SliceSt) : ((s.updSlc i f)).pwr = s.pwr := rfl
@[simp] theorem pmb_updSlc (s : State) (i : Slc) (f : SliceSt → SliceSt) : ((s.updSlc i f)).pmb = s.pmb := rfl
@[simp] theorem pmbSent_updSlc (s : State) (i : Slc) (f : SliceSt → SliceSt) : ((s.updSlc i f)).pmbSent = s.pmbSent := rfl
@[simp] theorem sec_updSlc (s : State) (i : Slc) (f : SliceSt → SliceSt) : ((s.updSlc i f)).sec = s.sec := rfl
@[simp] theorem log_updSlc (s : State) (i : Slc) (f : SliceSt → SliceSt) : ((s.updSlc i f)).log = s.log := rfl
@[simp] theorem temps_updSlc (s : State) (i : Slc) (f : SliceSt → SliceSt) : ((s.updSlc i f)).temps = s.temps := rfl
@[simp] theorem ports_updSlc (s : State) (i : Slc) (f : SliceSt → SliceSt) : ((s.updSlc i f)).ports = s.ports := rfl
@[simp] theorem ring_updSlc (s : State) (i : Slc) (f : SliceSt → SliceSt) : ((s.updSlc i f)).ring = s.ring := rfl
@[simp] theorem twb_updSlc (s : State) (i : Slc) (f : SliceSt → SliceSt) : ((s.updSlc i f)).twb = s.twb := rfl
@[simp] theorem smc_updSlc (s : State) (i : Slc) (f : SliceSt → SliceSt) : ((s.updSlc i f)).smc = s.smc := rfl
@[simp] theorem aud_updSlc (s : State) (i : Slc) (f : SliceSt → SliceSt) : ((s.updSlc i f)).aud = s.aud := rfl
@[simp] theorem cal_updSlc (s : State) (i : Slc) (f : SliceSt → SliceSt) : ((s.updSlc i f)).cal = s.cal := rfl
@[simp] theorem snd_updSlc (s : State) (i : Slc) (f : SliceSt → SliceSt) : ((s.updSlc i f)).snd = s.snd := rfl
@[simp] theorem loam_updSlc (s : State) (i : Slc) (f : SliceSt → SliceSt) : ((s.updSlc i f)).loam = s.loam := rfl
@[simp] theorem mfp_updSlc (s : State) (i : Slc) (f : SliceSt → SliceSt) : ((s.updSlc i f)).mfp = s.mfp := rfl

/-! updDemod -/
@[simp] theorem fuse_updDemod (s : State) (i : Slc) (f : Demod → Demod) : ((s.updDemod i f)).fuse = s.fuse := rfl
@[simp] theorem boot_updDemod (s : State) (i : Slc) (f : Demod → Demod) : ((s.updDemod i f)).boot = s.boot := rfl
@[simp] theorem rseq_updDemod (s : State) (i : Slc) (f : Demod → Demod) : ((s.updDemod i f)).rseq = s.rseq := rfl
@[simp] theorem freeCtr_updDemod (s : State) (i : Slc) (f : Demod → Demod) : ((s.updDemod i f)).freeCtr = s.freeCtr := rfl
@[simp] theorem pending_updDemod (s : State) (i : Slc) (f : Demod → Demod) : ((s.updDemod i f)).pending = s.pending := rfl
@[simp] theorem regs_updDemod (s : State) (i : Slc) (f : Demod → Demod) : ((s.updDemod i f)).regs = s.regs := rfl
@[simp] theorem staged_updDemod (s : State) (i : Slc) (f : Demod → Demod) : ((s.updDemod i f)).staged = s.staged := rfl
@[simp] theorem captured_updDemod (s : State) (i : Slc) (f : Demod → Demod) : ((s.updDemod i f)).captured = s.captured := rfl
@[simp] theorem lastStatus_updDemod (s : State) (i : Slc) (f : Demod → Demod) : ((s.updDemod i f)).lastStatus = s.lastStatus := rfl
@[simp] theorem q_updDemod (s : State) (i : Slc) (f : Demod → Demod) : ((s.updDemod i f)).q = s.q := rfl
@[simp] theorem time_updDemod (s : State) (i : Slc) (f : Demod → Demod) : ((s.updDemod i f)).time = s.time := rfl
@[simp] theorem conds_updDemod (s : State) (i : Slc) (f : Demod → Demod) : ((s.updDemod i f)).conds = s.conds := rfl
@[simp] theorem inputs_updDemod (s : State) (i : Slc) (f : Demod → Demod) : ((s.updDemod i f)).inputs = s.inputs := rfl
@[simp] theorem slices_updDemod (s : State) (i : Slc) (f : Demod → Demod) : ((s.updDemod i f)).slices = s.slices := rfl
@[simp] theorem planGen_updDemod (s : State) (i : Slc) (f : Demod → Demod) : ((s.updDemod i f)).planGen = s.planGen := rfl
@[simp] theorem snaps_updDemod (s : State) (i : Slc) (f : Demod → Demod) : ((s.updDemod i f)).snaps = s.snaps := rfl
@[simp] theorem beds_updDemod (s : State) (i : Slc) (f : Demod → Demod) : ((s.updDemod i f)).beds = s.beds := rfl
@[simp] theorem decs_updDemod (s : State) (i : Slc) (f : Demod → Demod) : ((s.updDemod i f)).decs = s.decs := rfl
@[simp] theorem slots_updDemod (s : State) (i : Slc) (f : Demod → Demod) : ((s.updDemod i f)).slots = s.slots := rfl
@[simp] theorem afdb_updDemod (s : State) (i : Slc) (f : Demod → Demod) : ((s.updDemod i f)).afdb = s.afdb := rfl
@[simp] theorem afNext_updDemod (s : State) (i : Slc) (f : Demod → Demod) : ((s.updDemod i f)).afNext = s.afNext := rfl
@[simp] theorem survey_updDemod (s : State) (i : Slc) (f : Demod → Demod) : ((s.updDemod i f)).survey = s.survey := rfl
@[simp] theorem strms_updDemod (s : State) (i : Slc) (f : Demod → Demod) : ((s.updDemod i f)).strms = s.strms := rfl
@[simp] theorem bunds_updDemod (s : State) (i : Slc) (f : Demod → Demod) : ((s.updDemod i f)).bunds = s.bunds := rfl
@[simp] theorem squeues_updDemod (s : State) (i : Slc) (f : Demod → Demod) : ((s.updDemod i f)).squeues = s.squeues := rfl
@[simp] theorem skeys_updDemod (s : State) (i : Slc) (f : Demod → Demod) : ((s.updDemod i f)).skeys = s.skeys := rfl
@[simp] theorem clk_updDemod (s : State) (i : Slc) (f : Demod → Demod) : ((s.updDemod i f)).clk = s.clk := rfl
@[simp] theorem pwr_updDemod (s : State) (i : Slc) (f : Demod → Demod) : ((s.updDemod i f)).pwr = s.pwr := rfl
@[simp] theorem pmb_updDemod (s : State) (i : Slc) (f : Demod → Demod) : ((s.updDemod i f)).pmb = s.pmb := rfl
@[simp] theorem pmbSent_updDemod (s : State) (i : Slc) (f : Demod → Demod) : ((s.updDemod i f)).pmbSent = s.pmbSent := rfl
@[simp] theorem sec_updDemod (s : State) (i : Slc) (f : Demod → Demod) : ((s.updDemod i f)).sec = s.sec := rfl
@[simp] theorem log_updDemod (s : State) (i : Slc) (f : Demod → Demod) : ((s.updDemod i f)).log = s.log := rfl
@[simp] theorem temps_updDemod (s : State) (i : Slc) (f : Demod → Demod) : ((s.updDemod i f)).temps = s.temps := rfl
@[simp] theorem ports_updDemod (s : State) (i : Slc) (f : Demod → Demod) : ((s.updDemod i f)).ports = s.ports := rfl
@[simp] theorem ring_updDemod (s : State) (i : Slc) (f : Demod → Demod) : ((s.updDemod i f)).ring = s.ring := rfl
@[simp] theorem twb_updDemod (s : State) (i : Slc) (f : Demod → Demod) : ((s.updDemod i f)).twb = s.twb := rfl
@[simp] theorem smc_updDemod (s : State) (i : Slc) (f : Demod → Demod) : ((s.updDemod i f)).smc = s.smc := rfl
@[simp] theorem aud_updDemod (s : State) (i : Slc) (f : Demod → Demod) : ((s.updDemod i f)).aud = s.aud := rfl
@[simp] theorem cal_updDemod (s : State) (i : Slc) (f : Demod → Demod) : ((s.updDemod i f)).cal = s.cal := rfl
@[simp] theorem snd_updDemod (s : State) (i : Slc) (f : Demod → Demod) : ((s.updDemod i f)).snd = s.snd := rfl
@[simp] theorem loam_updDemod (s : State) (i : Slc) (f : Demod → Demod) : ((s.updDemod i f)).loam = s.loam := rfl
@[simp] theorem mfp_updDemod (s : State) (i : Slc) (f : Demod → Demod) : ((s.updDemod i f)).mfp = s.mfp := rfl

/-! updSnap -/
@[simp] theorem fuse_updSnap (s : State) (c : SnapCh) (f : Snap → Snap) : ((s.updSnap c f)).fuse = s.fuse := rfl
@[simp] theorem boot_updSnap (s : State) (c : SnapCh) (f : Snap → Snap) : ((s.updSnap c f)).boot = s.boot := rfl
@[simp] theorem rseq_updSnap (s : State) (c : SnapCh) (f : Snap → Snap) : ((s.updSnap c f)).rseq = s.rseq := rfl
@[simp] theorem freeCtr_updSnap (s : State) (c : SnapCh) (f : Snap → Snap) : ((s.updSnap c f)).freeCtr = s.freeCtr := rfl
@[simp] theorem pending_updSnap (s : State) (c : SnapCh) (f : Snap → Snap) : ((s.updSnap c f)).pending = s.pending := rfl
@[simp] theorem regs_updSnap (s : State) (c : SnapCh) (f : Snap → Snap) : ((s.updSnap c f)).regs = s.regs := rfl
@[simp] theorem staged_updSnap (s : State) (c : SnapCh) (f : Snap → Snap) : ((s.updSnap c f)).staged = s.staged := rfl
@[simp] theorem captured_updSnap (s : State) (c : SnapCh) (f : Snap → Snap) : ((s.updSnap c f)).captured = s.captured := rfl
@[simp] theorem lastStatus_updSnap (s : State) (c : SnapCh) (f : Snap → Snap) : ((s.updSnap c f)).lastStatus = s.lastStatus := rfl
@[simp] theorem q_updSnap (s : State) (c : SnapCh) (f : Snap → Snap) : ((s.updSnap c f)).q = s.q := rfl
@[simp] theorem time_updSnap (s : State) (c : SnapCh) (f : Snap → Snap) : ((s.updSnap c f)).time = s.time := rfl
@[simp] theorem conds_updSnap (s : State) (c : SnapCh) (f : Snap → Snap) : ((s.updSnap c f)).conds = s.conds := rfl
@[simp] theorem inputs_updSnap (s : State) (c : SnapCh) (f : Snap → Snap) : ((s.updSnap c f)).inputs = s.inputs := rfl
@[simp] theorem slices_updSnap (s : State) (c : SnapCh) (f : Snap → Snap) : ((s.updSnap c f)).slices = s.slices := rfl
@[simp] theorem demods_updSnap (s : State) (c : SnapCh) (f : Snap → Snap) : ((s.updSnap c f)).demods = s.demods := rfl
@[simp] theorem planGen_updSnap (s : State) (c : SnapCh) (f : Snap → Snap) : ((s.updSnap c f)).planGen = s.planGen := rfl
@[simp] theorem beds_updSnap (s : State) (c : SnapCh) (f : Snap → Snap) : ((s.updSnap c f)).beds = s.beds := rfl
@[simp] theorem decs_updSnap (s : State) (c : SnapCh) (f : Snap → Snap) : ((s.updSnap c f)).decs = s.decs := rfl
@[simp] theorem slots_updSnap (s : State) (c : SnapCh) (f : Snap → Snap) : ((s.updSnap c f)).slots = s.slots := rfl
@[simp] theorem afdb_updSnap (s : State) (c : SnapCh) (f : Snap → Snap) : ((s.updSnap c f)).afdb = s.afdb := rfl
@[simp] theorem afNext_updSnap (s : State) (c : SnapCh) (f : Snap → Snap) : ((s.updSnap c f)).afNext = s.afNext := rfl
@[simp] theorem survey_updSnap (s : State) (c : SnapCh) (f : Snap → Snap) : ((s.updSnap c f)).survey = s.survey := rfl
@[simp] theorem strms_updSnap (s : State) (c : SnapCh) (f : Snap → Snap) : ((s.updSnap c f)).strms = s.strms := rfl
@[simp] theorem bunds_updSnap (s : State) (c : SnapCh) (f : Snap → Snap) : ((s.updSnap c f)).bunds = s.bunds := rfl
@[simp] theorem squeues_updSnap (s : State) (c : SnapCh) (f : Snap → Snap) : ((s.updSnap c f)).squeues = s.squeues := rfl
@[simp] theorem skeys_updSnap (s : State) (c : SnapCh) (f : Snap → Snap) : ((s.updSnap c f)).skeys = s.skeys := rfl
@[simp] theorem clk_updSnap (s : State) (c : SnapCh) (f : Snap → Snap) : ((s.updSnap c f)).clk = s.clk := rfl
@[simp] theorem pwr_updSnap (s : State) (c : SnapCh) (f : Snap → Snap) : ((s.updSnap c f)).pwr = s.pwr := rfl
@[simp] theorem pmb_updSnap (s : State) (c : SnapCh) (f : Snap → Snap) : ((s.updSnap c f)).pmb = s.pmb := rfl
@[simp] theorem pmbSent_updSnap (s : State) (c : SnapCh) (f : Snap → Snap) : ((s.updSnap c f)).pmbSent = s.pmbSent := rfl
@[simp] theorem sec_updSnap (s : State) (c : SnapCh) (f : Snap → Snap) : ((s.updSnap c f)).sec = s.sec := rfl
@[simp] theorem log_updSnap (s : State) (c : SnapCh) (f : Snap → Snap) : ((s.updSnap c f)).log = s.log := rfl
@[simp] theorem temps_updSnap (s : State) (c : SnapCh) (f : Snap → Snap) : ((s.updSnap c f)).temps = s.temps := rfl
@[simp] theorem ports_updSnap (s : State) (c : SnapCh) (f : Snap → Snap) : ((s.updSnap c f)).ports = s.ports := rfl
@[simp] theorem ring_updSnap (s : State) (c : SnapCh) (f : Snap → Snap) : ((s.updSnap c f)).ring = s.ring := rfl
@[simp] theorem twb_updSnap (s : State) (c : SnapCh) (f : Snap → Snap) : ((s.updSnap c f)).twb = s.twb := rfl
@[simp] theorem smc_updSnap (s : State) (c : SnapCh) (f : Snap → Snap) : ((s.updSnap c f)).smc = s.smc := rfl
@[simp] theorem aud_updSnap (s : State) (c : SnapCh) (f : Snap → Snap) : ((s.updSnap c f)).aud = s.aud := rfl
@[simp] theorem cal_updSnap (s : State) (c : SnapCh) (f : Snap → Snap) : ((s.updSnap c f)).cal = s.cal := rfl
@[simp] theorem snd_updSnap (s : State) (c : SnapCh) (f : Snap → Snap) : ((s.updSnap c f)).snd = s.snd := rfl
@[simp] theorem loam_updSnap (s : State) (c : SnapCh) (f : Snap → Snap) : ((s.updSnap c f)).loam = s.loam := rfl
@[simp] theorem mfp_updSnap (s : State) (c : SnapCh) (f : Snap → Snap) : ((s.updSnap c f)).mfp = s.mfp := rfl

/-! updBed -/
@[simp] theorem fuse_updBed (s : State) (k : BedId) (f : Bed → Bed) : ((s.updBed k f)).fuse = s.fuse := rfl
@[simp] theorem boot_updBed (s : State) (k : BedId) (f : Bed → Bed) : ((s.updBed k f)).boot = s.boot := rfl
@[simp] theorem rseq_updBed (s : State) (k : BedId) (f : Bed → Bed) : ((s.updBed k f)).rseq = s.rseq := rfl
@[simp] theorem freeCtr_updBed (s : State) (k : BedId) (f : Bed → Bed) : ((s.updBed k f)).freeCtr = s.freeCtr := rfl
@[simp] theorem pending_updBed (s : State) (k : BedId) (f : Bed → Bed) : ((s.updBed k f)).pending = s.pending := rfl
@[simp] theorem regs_updBed (s : State) (k : BedId) (f : Bed → Bed) : ((s.updBed k f)).regs = s.regs := rfl
@[simp] theorem staged_updBed (s : State) (k : BedId) (f : Bed → Bed) : ((s.updBed k f)).staged = s.staged := rfl
@[simp] theorem captured_updBed (s : State) (k : BedId) (f : Bed → Bed) : ((s.updBed k f)).captured = s.captured := rfl
@[simp] theorem lastStatus_updBed (s : State) (k : BedId) (f : Bed → Bed) : ((s.updBed k f)).lastStatus = s.lastStatus := rfl
@[simp] theorem q_updBed (s : State) (k : BedId) (f : Bed → Bed) : ((s.updBed k f)).q = s.q := rfl
@[simp] theorem time_updBed (s : State) (k : BedId) (f : Bed → Bed) : ((s.updBed k f)).time = s.time := rfl
@[simp] theorem conds_updBed (s : State) (k : BedId) (f : Bed → Bed) : ((s.updBed k f)).conds = s.conds := rfl
@[simp] theorem inputs_updBed (s : State) (k : BedId) (f : Bed → Bed) : ((s.updBed k f)).inputs = s.inputs := rfl
@[simp] theorem slices_updBed (s : State) (k : BedId) (f : Bed → Bed) : ((s.updBed k f)).slices = s.slices := rfl
@[simp] theorem demods_updBed (s : State) (k : BedId) (f : Bed → Bed) : ((s.updBed k f)).demods = s.demods := rfl
@[simp] theorem planGen_updBed (s : State) (k : BedId) (f : Bed → Bed) : ((s.updBed k f)).planGen = s.planGen := rfl
@[simp] theorem snaps_updBed (s : State) (k : BedId) (f : Bed → Bed) : ((s.updBed k f)).snaps = s.snaps := rfl
@[simp] theorem decs_updBed (s : State) (k : BedId) (f : Bed → Bed) : ((s.updBed k f)).decs = s.decs := rfl
@[simp] theorem slots_updBed (s : State) (k : BedId) (f : Bed → Bed) : ((s.updBed k f)).slots = s.slots := rfl
@[simp] theorem afdb_updBed (s : State) (k : BedId) (f : Bed → Bed) : ((s.updBed k f)).afdb = s.afdb := rfl
@[simp] theorem afNext_updBed (s : State) (k : BedId) (f : Bed → Bed) : ((s.updBed k f)).afNext = s.afNext := rfl
@[simp] theorem survey_updBed (s : State) (k : BedId) (f : Bed → Bed) : ((s.updBed k f)).survey = s.survey := rfl
@[simp] theorem strms_updBed (s : State) (k : BedId) (f : Bed → Bed) : ((s.updBed k f)).strms = s.strms := rfl
@[simp] theorem bunds_updBed (s : State) (k : BedId) (f : Bed → Bed) : ((s.updBed k f)).bunds = s.bunds := rfl
@[simp] theorem squeues_updBed (s : State) (k : BedId) (f : Bed → Bed) : ((s.updBed k f)).squeues = s.squeues := rfl
@[simp] theorem skeys_updBed (s : State) (k : BedId) (f : Bed → Bed) : ((s.updBed k f)).skeys = s.skeys := rfl
@[simp] theorem clk_updBed (s : State) (k : BedId) (f : Bed → Bed) : ((s.updBed k f)).clk = s.clk := rfl
@[simp] theorem pwr_updBed (s : State) (k : BedId) (f : Bed → Bed) : ((s.updBed k f)).pwr = s.pwr := rfl
@[simp] theorem pmb_updBed (s : State) (k : BedId) (f : Bed → Bed) : ((s.updBed k f)).pmb = s.pmb := rfl
@[simp] theorem pmbSent_updBed (s : State) (k : BedId) (f : Bed → Bed) : ((s.updBed k f)).pmbSent = s.pmbSent := rfl
@[simp] theorem sec_updBed (s : State) (k : BedId) (f : Bed → Bed) : ((s.updBed k f)).sec = s.sec := rfl
@[simp] theorem log_updBed (s : State) (k : BedId) (f : Bed → Bed) : ((s.updBed k f)).log = s.log := rfl
@[simp] theorem temps_updBed (s : State) (k : BedId) (f : Bed → Bed) : ((s.updBed k f)).temps = s.temps := rfl
@[simp] theorem ports_updBed (s : State) (k : BedId) (f : Bed → Bed) : ((s.updBed k f)).ports = s.ports := rfl
@[simp] theorem ring_updBed (s : State) (k : BedId) (f : Bed → Bed) : ((s.updBed k f)).ring = s.ring := rfl
@[simp] theorem twb_updBed (s : State) (k : BedId) (f : Bed → Bed) : ((s.updBed k f)).twb = s.twb := rfl
@[simp] theorem smc_updBed (s : State) (k : BedId) (f : Bed → Bed) : ((s.updBed k f)).smc = s.smc := rfl
@[simp] theorem aud_updBed (s : State) (k : BedId) (f : Bed → Bed) : ((s.updBed k f)).aud = s.aud := rfl
@[simp] theorem cal_updBed (s : State) (k : BedId) (f : Bed → Bed) : ((s.updBed k f)).cal = s.cal := rfl
@[simp] theorem snd_updBed (s : State) (k : BedId) (f : Bed → Bed) : ((s.updBed k f)).snd = s.snd := rfl
@[simp] theorem loam_updBed (s : State) (k : BedId) (f : Bed → Bed) : ((s.updBed k f)).loam = s.loam := rfl
@[simp] theorem mfp_updBed (s : State) (k : BedId) (f : Bed → Bed) : ((s.updBed k f)).mfp = s.mfp := rfl

/-! updDec -/
@[simp] theorem fuse_updDec (s : State) (d : DecId) (f : Dec → Dec) : ((s.updDec d f)).fuse = s.fuse := rfl
@[simp] theorem boot_updDec (s : State) (d : DecId) (f : Dec → Dec) : ((s.updDec d f)).boot = s.boot := rfl
@[simp] theorem rseq_updDec (s : State) (d : DecId) (f : Dec → Dec) : ((s.updDec d f)).rseq = s.rseq := rfl
@[simp] theorem freeCtr_updDec (s : State) (d : DecId) (f : Dec → Dec) : ((s.updDec d f)).freeCtr = s.freeCtr := rfl
@[simp] theorem pending_updDec (s : State) (d : DecId) (f : Dec → Dec) : ((s.updDec d f)).pending = s.pending := rfl
@[simp] theorem regs_updDec (s : State) (d : DecId) (f : Dec → Dec) : ((s.updDec d f)).regs = s.regs := rfl
@[simp] theorem staged_updDec (s : State) (d : DecId) (f : Dec → Dec) : ((s.updDec d f)).staged = s.staged := rfl
@[simp] theorem captured_updDec (s : State) (d : DecId) (f : Dec → Dec) : ((s.updDec d f)).captured = s.captured := rfl
@[simp] theorem lastStatus_updDec (s : State) (d : DecId) (f : Dec → Dec) : ((s.updDec d f)).lastStatus = s.lastStatus := rfl
@[simp] theorem q_updDec (s : State) (d : DecId) (f : Dec → Dec) : ((s.updDec d f)).q = s.q := rfl
@[simp] theorem time_updDec (s : State) (d : DecId) (f : Dec → Dec) : ((s.updDec d f)).time = s.time := rfl
@[simp] theorem conds_updDec (s : State) (d : DecId) (f : Dec → Dec) : ((s.updDec d f)).conds = s.conds := rfl
@[simp] theorem inputs_updDec (s : State) (d : DecId) (f : Dec → Dec) : ((s.updDec d f)).inputs = s.inputs := rfl
@[simp] theorem slices_updDec (s : State) (d : DecId) (f : Dec → Dec) : ((s.updDec d f)).slices = s.slices := rfl
@[simp] theorem demods_updDec (s : State) (d : DecId) (f : Dec → Dec) : ((s.updDec d f)).demods = s.demods := rfl
@[simp] theorem planGen_updDec (s : State) (d : DecId) (f : Dec → Dec) : ((s.updDec d f)).planGen = s.planGen := rfl
@[simp] theorem snaps_updDec (s : State) (d : DecId) (f : Dec → Dec) : ((s.updDec d f)).snaps = s.snaps := rfl
@[simp] theorem beds_updDec (s : State) (d : DecId) (f : Dec → Dec) : ((s.updDec d f)).beds = s.beds := rfl
@[simp] theorem slots_updDec (s : State) (d : DecId) (f : Dec → Dec) : ((s.updDec d f)).slots = s.slots := rfl
@[simp] theorem afdb_updDec (s : State) (d : DecId) (f : Dec → Dec) : ((s.updDec d f)).afdb = s.afdb := rfl
@[simp] theorem afNext_updDec (s : State) (d : DecId) (f : Dec → Dec) : ((s.updDec d f)).afNext = s.afNext := rfl
@[simp] theorem survey_updDec (s : State) (d : DecId) (f : Dec → Dec) : ((s.updDec d f)).survey = s.survey := rfl
@[simp] theorem strms_updDec (s : State) (d : DecId) (f : Dec → Dec) : ((s.updDec d f)).strms = s.strms := rfl
@[simp] theorem bunds_updDec (s : State) (d : DecId) (f : Dec → Dec) : ((s.updDec d f)).bunds = s.bunds := rfl
@[simp] theorem squeues_updDec (s : State) (d : DecId) (f : Dec → Dec) : ((s.updDec d f)).squeues = s.squeues := rfl
@[simp] theorem skeys_updDec (s : State) (d : DecId) (f : Dec → Dec) : ((s.updDec d f)).skeys = s.skeys := rfl
@[simp] theorem clk_updDec (s : State) (d : DecId) (f : Dec → Dec) : ((s.updDec d f)).clk = s.clk := rfl
@[simp] theorem pwr_updDec (s : State) (d : DecId) (f : Dec → Dec) : ((s.updDec d f)).pwr = s.pwr := rfl
@[simp] theorem pmb_updDec (s : State) (d : DecId) (f : Dec → Dec) : ((s.updDec d f)).pmb = s.pmb := rfl
@[simp] theorem pmbSent_updDec (s : State) (d : DecId) (f : Dec → Dec) : ((s.updDec d f)).pmbSent = s.pmbSent := rfl
@[simp] theorem sec_updDec (s : State) (d : DecId) (f : Dec → Dec) : ((s.updDec d f)).sec = s.sec := rfl
@[simp] theorem log_updDec (s : State) (d : DecId) (f : Dec → Dec) : ((s.updDec d f)).log = s.log := rfl
@[simp] theorem temps_updDec (s : State) (d : DecId) (f : Dec → Dec) : ((s.updDec d f)).temps = s.temps := rfl
@[simp] theorem ports_updDec (s : State) (d : DecId) (f : Dec → Dec) : ((s.updDec d f)).ports = s.ports := rfl
@[simp] theorem ring_updDec (s : State) (d : DecId) (f : Dec → Dec) : ((s.updDec d f)).ring = s.ring := rfl
@[simp] theorem twb_updDec (s : State) (d : DecId) (f : Dec → Dec) : ((s.updDec d f)).twb = s.twb := rfl
@[simp] theorem smc_updDec (s : State) (d : DecId) (f : Dec → Dec) : ((s.updDec d f)).smc = s.smc := rfl
@[simp] theorem aud_updDec (s : State) (d : DecId) (f : Dec → Dec) : ((s.updDec d f)).aud = s.aud := rfl
@[simp] theorem cal_updDec (s : State) (d : DecId) (f : Dec → Dec) : ((s.updDec d f)).cal = s.cal := rfl
@[simp] theorem snd_updDec (s : State) (d : DecId) (f : Dec → Dec) : ((s.updDec d f)).snd = s.snd := rfl
@[simp] theorem loam_updDec (s : State) (d : DecId) (f : Dec → Dec) : ((s.updDec d f)).loam = s.loam := rfl
@[simp] theorem mfp_updDec (s : State) (d : DecId) (f : Dec → Dec) : ((s.updDec d f)).mfp = s.mfp := rfl

/-! updSlot -/
@[simp] theorem fuse_updSlot (s : State) (v : SvcId) (f : Slot → Slot) : ((s.updSlot v f)).fuse = s.fuse := rfl
@[simp] theorem boot_updSlot (s : State) (v : SvcId) (f : Slot → Slot) : ((s.updSlot v f)).boot = s.boot := rfl
@[simp] theorem rseq_updSlot (s : State) (v : SvcId) (f : Slot → Slot) : ((s.updSlot v f)).rseq = s.rseq := rfl
@[simp] theorem freeCtr_updSlot (s : State) (v : SvcId) (f : Slot → Slot) : ((s.updSlot v f)).freeCtr = s.freeCtr := rfl
@[simp] theorem pending_updSlot (s : State) (v : SvcId) (f : Slot → Slot) : ((s.updSlot v f)).pending = s.pending := rfl
@[simp] theorem regs_updSlot (s : State) (v : SvcId) (f : Slot → Slot) : ((s.updSlot v f)).regs = s.regs := rfl
@[simp] theorem staged_updSlot (s : State) (v : SvcId) (f : Slot → Slot) : ((s.updSlot v f)).staged = s.staged := rfl
@[simp] theorem captured_updSlot (s : State) (v : SvcId) (f : Slot → Slot) : ((s.updSlot v f)).captured = s.captured := rfl
@[simp] theorem lastStatus_updSlot (s : State) (v : SvcId) (f : Slot → Slot) : ((s.updSlot v f)).lastStatus = s.lastStatus := rfl
@[simp] theorem q_updSlot (s : State) (v : SvcId) (f : Slot → Slot) : ((s.updSlot v f)).q = s.q := rfl
@[simp] theorem time_updSlot (s : State) (v : SvcId) (f : Slot → Slot) : ((s.updSlot v f)).time = s.time := rfl
@[simp] theorem conds_updSlot (s : State) (v : SvcId) (f : Slot → Slot) : ((s.updSlot v f)).conds = s.conds := rfl
@[simp] theorem inputs_updSlot (s : State) (v : SvcId) (f : Slot → Slot) : ((s.updSlot v f)).inputs = s.inputs := rfl
@[simp] theorem slices_updSlot (s : State) (v : SvcId) (f : Slot → Slot) : ((s.updSlot v f)).slices = s.slices := rfl
@[simp] theorem demods_updSlot (s : State) (v : SvcId) (f : Slot → Slot) : ((s.updSlot v f)).demods = s.demods := rfl
@[simp] theorem planGen_updSlot (s : State) (v : SvcId) (f : Slot → Slot) : ((s.updSlot v f)).planGen = s.planGen := rfl
@[simp] theorem snaps_updSlot (s : State) (v : SvcId) (f : Slot → Slot) : ((s.updSlot v f)).snaps = s.snaps := rfl
@[simp] theorem beds_updSlot (s : State) (v : SvcId) (f : Slot → Slot) : ((s.updSlot v f)).beds = s.beds := rfl
@[simp] theorem decs_updSlot (s : State) (v : SvcId) (f : Slot → Slot) : ((s.updSlot v f)).decs = s.decs := rfl
@[simp] theorem afdb_updSlot (s : State) (v : SvcId) (f : Slot → Slot) : ((s.updSlot v f)).afdb = s.afdb := rfl
@[simp] theorem afNext_updSlot (s : State) (v : SvcId) (f : Slot → Slot) : ((s.updSlot v f)).afNext = s.afNext := rfl
@[simp] theorem survey_updSlot (s : State) (v : SvcId) (f : Slot → Slot) : ((s.updSlot v f)).survey = s.survey := rfl
@[simp] theorem strms_updSlot (s : State) (v : SvcId) (f : Slot → Slot) : ((s.updSlot v f)).strms = s.strms := rfl
@[simp] theorem bunds_updSlot (s : State) (v : SvcId) (f : Slot → Slot) : ((s.updSlot v f)).bunds = s.bunds := rfl
@[simp] theorem squeues_updSlot (s : State) (v : SvcId) (f : Slot → Slot) : ((s.updSlot v f)).squeues = s.squeues := rfl
@[simp] theorem skeys_updSlot (s : State) (v : SvcId) (f : Slot → Slot) : ((s.updSlot v f)).skeys = s.skeys := rfl
@[simp] theorem clk_updSlot (s : State) (v : SvcId) (f : Slot → Slot) : ((s.updSlot v f)).clk = s.clk := rfl
@[simp] theorem pwr_updSlot (s : State) (v : SvcId) (f : Slot → Slot) : ((s.updSlot v f)).pwr = s.pwr := rfl
@[simp] theorem pmb_updSlot (s : State) (v : SvcId) (f : Slot → Slot) : ((s.updSlot v f)).pmb = s.pmb := rfl
@[simp] theorem pmbSent_updSlot (s : State) (v : SvcId) (f : Slot → Slot) : ((s.updSlot v f)).pmbSent = s.pmbSent := rfl
@[simp] theorem sec_updSlot (s : State) (v : SvcId) (f : Slot → Slot) : ((s.updSlot v f)).sec = s.sec := rfl
@[simp] theorem log_updSlot (s : State) (v : SvcId) (f : Slot → Slot) : ((s.updSlot v f)).log = s.log := rfl
@[simp] theorem temps_updSlot (s : State) (v : SvcId) (f : Slot → Slot) : ((s.updSlot v f)).temps = s.temps := rfl
@[simp] theorem ports_updSlot (s : State) (v : SvcId) (f : Slot → Slot) : ((s.updSlot v f)).ports = s.ports := rfl
@[simp] theorem ring_updSlot (s : State) (v : SvcId) (f : Slot → Slot) : ((s.updSlot v f)).ring = s.ring := rfl
@[simp] theorem twb_updSlot (s : State) (v : SvcId) (f : Slot → Slot) : ((s.updSlot v f)).twb = s.twb := rfl
@[simp] theorem smc_updSlot (s : State) (v : SvcId) (f : Slot → Slot) : ((s.updSlot v f)).smc = s.smc := rfl
@[simp] theorem aud_updSlot (s : State) (v : SvcId) (f : Slot → Slot) : ((s.updSlot v f)).aud = s.aud := rfl
@[simp] theorem cal_updSlot (s : State) (v : SvcId) (f : Slot → Slot) : ((s.updSlot v f)).cal = s.cal := rfl
@[simp] theorem snd_updSlot (s : State) (v : SvcId) (f : Slot → Slot) : ((s.updSlot v f)).snd = s.snd := rfl
@[simp] theorem loam_updSlot (s : State) (v : SvcId) (f : Slot → Slot) : ((s.updSlot v f)).loam = s.loam := rfl
@[simp] theorem mfp_updSlot (s : State) (v : SvcId) (f : Slot → Slot) : ((s.updSlot v f)).mfp = s.mfp := rfl

/-! updCand -/
@[simp] theorem fuse_updCand (s : State) (v : SvcId) (n : CandId) (f : Cand → Cand) : ((s.updCand v n f)).fuse = s.fuse := rfl
@[simp] theorem boot_updCand (s : State) (v : SvcId) (n : CandId) (f : Cand → Cand) : ((s.updCand v n f)).boot = s.boot := rfl
@[simp] theorem rseq_updCand (s : State) (v : SvcId) (n : CandId) (f : Cand → Cand) : ((s.updCand v n f)).rseq = s.rseq := rfl
@[simp] theorem freeCtr_updCand (s : State) (v : SvcId) (n : CandId) (f : Cand → Cand) : ((s.updCand v n f)).freeCtr = s.freeCtr := rfl
@[simp] theorem pending_updCand (s : State) (v : SvcId) (n : CandId) (f : Cand → Cand) : ((s.updCand v n f)).pending = s.pending := rfl
@[simp] theorem regs_updCand (s : State) (v : SvcId) (n : CandId) (f : Cand → Cand) : ((s.updCand v n f)).regs = s.regs := rfl
@[simp] theorem staged_updCand (s : State) (v : SvcId) (n : CandId) (f : Cand → Cand) : ((s.updCand v n f)).staged = s.staged := rfl
@[simp] theorem captured_updCand (s : State) (v : SvcId) (n : CandId) (f : Cand → Cand) : ((s.updCand v n f)).captured = s.captured := rfl
@[simp] theorem lastStatus_updCand (s : State) (v : SvcId) (n : CandId) (f : Cand → Cand) : ((s.updCand v n f)).lastStatus = s.lastStatus := rfl
@[simp] theorem q_updCand (s : State) (v : SvcId) (n : CandId) (f : Cand → Cand) : ((s.updCand v n f)).q = s.q := rfl
@[simp] theorem time_updCand (s : State) (v : SvcId) (n : CandId) (f : Cand → Cand) : ((s.updCand v n f)).time = s.time := rfl
@[simp] theorem conds_updCand (s : State) (v : SvcId) (n : CandId) (f : Cand → Cand) : ((s.updCand v n f)).conds = s.conds := rfl
@[simp] theorem inputs_updCand (s : State) (v : SvcId) (n : CandId) (f : Cand → Cand) : ((s.updCand v n f)).inputs = s.inputs := rfl
@[simp] theorem slices_updCand (s : State) (v : SvcId) (n : CandId) (f : Cand → Cand) : ((s.updCand v n f)).slices = s.slices := rfl
@[simp] theorem demods_updCand (s : State) (v : SvcId) (n : CandId) (f : Cand → Cand) : ((s.updCand v n f)).demods = s.demods := rfl
@[simp] theorem planGen_updCand (s : State) (v : SvcId) (n : CandId) (f : Cand → Cand) : ((s.updCand v n f)).planGen = s.planGen := rfl
@[simp] theorem snaps_updCand (s : State) (v : SvcId) (n : CandId) (f : Cand → Cand) : ((s.updCand v n f)).snaps = s.snaps := rfl
@[simp] theorem beds_updCand (s : State) (v : SvcId) (n : CandId) (f : Cand → Cand) : ((s.updCand v n f)).beds = s.beds := rfl
@[simp] theorem decs_updCand (s : State) (v : SvcId) (n : CandId) (f : Cand → Cand) : ((s.updCand v n f)).decs = s.decs := rfl
@[simp] theorem afdb_updCand (s : State) (v : SvcId) (n : CandId) (f : Cand → Cand) : ((s.updCand v n f)).afdb = s.afdb := rfl
@[simp] theorem afNext_updCand (s : State) (v : SvcId) (n : CandId) (f : Cand → Cand) : ((s.updCand v n f)).afNext = s.afNext := rfl
@[simp] theorem survey_updCand (s : State) (v : SvcId) (n : CandId) (f : Cand → Cand) : ((s.updCand v n f)).survey = s.survey := rfl
@[simp] theorem strms_updCand (s : State) (v : SvcId) (n : CandId) (f : Cand → Cand) : ((s.updCand v n f)).strms = s.strms := rfl
@[simp] theorem bunds_updCand (s : State) (v : SvcId) (n : CandId) (f : Cand → Cand) : ((s.updCand v n f)).bunds = s.bunds := rfl
@[simp] theorem squeues_updCand (s : State) (v : SvcId) (n : CandId) (f : Cand → Cand) : ((s.updCand v n f)).squeues = s.squeues := rfl
@[simp] theorem skeys_updCand (s : State) (v : SvcId) (n : CandId) (f : Cand → Cand) : ((s.updCand v n f)).skeys = s.skeys := rfl
@[simp] theorem clk_updCand (s : State) (v : SvcId) (n : CandId) (f : Cand → Cand) : ((s.updCand v n f)).clk = s.clk := rfl
@[simp] theorem pwr_updCand (s : State) (v : SvcId) (n : CandId) (f : Cand → Cand) : ((s.updCand v n f)).pwr = s.pwr := rfl
@[simp] theorem pmb_updCand (s : State) (v : SvcId) (n : CandId) (f : Cand → Cand) : ((s.updCand v n f)).pmb = s.pmb := rfl
@[simp] theorem pmbSent_updCand (s : State) (v : SvcId) (n : CandId) (f : Cand → Cand) : ((s.updCand v n f)).pmbSent = s.pmbSent := rfl
@[simp] theorem sec_updCand (s : State) (v : SvcId) (n : CandId) (f : Cand → Cand) : ((s.updCand v n f)).sec = s.sec := rfl
@[simp] theorem log_updCand (s : State) (v : SvcId) (n : CandId) (f : Cand → Cand) : ((s.updCand v n f)).log = s.log := rfl
@[simp] theorem temps_updCand (s : State) (v : SvcId) (n : CandId) (f : Cand → Cand) : ((s.updCand v n f)).temps = s.temps := rfl
@[simp] theorem ports_updCand (s : State) (v : SvcId) (n : CandId) (f : Cand → Cand) : ((s.updCand v n f)).ports = s.ports := rfl
@[simp] theorem ring_updCand (s : State) (v : SvcId) (n : CandId) (f : Cand → Cand) : ((s.updCand v n f)).ring = s.ring := rfl
@[simp] theorem twb_updCand (s : State) (v : SvcId) (n : CandId) (f : Cand → Cand) : ((s.updCand v n f)).twb = s.twb := rfl
@[simp] theorem smc_updCand (s : State) (v : SvcId) (n : CandId) (f : Cand → Cand) : ((s.updCand v n f)).smc = s.smc := rfl
@[simp] theorem aud_updCand (s : State) (v : SvcId) (n : CandId) (f : Cand → Cand) : ((s.updCand v n f)).aud = s.aud := rfl
@[simp] theorem cal_updCand (s : State) (v : SvcId) (n : CandId) (f : Cand → Cand) : ((s.updCand v n f)).cal = s.cal := rfl
@[simp] theorem snd_updCand (s : State) (v : SvcId) (n : CandId) (f : Cand → Cand) : ((s.updCand v n f)).snd = s.snd := rfl
@[simp] theorem loam_updCand (s : State) (v : SvcId) (n : CandId) (f : Cand → Cand) : ((s.updCand v n f)).loam = s.loam := rfl
@[simp] theorem mfp_updCand (s : State) (v : SvcId) (n : CandId) (f : Cand → Cand) : ((s.updCand v n f)).mfp = s.mfp := rfl

/-! updStrm -/
@[simp] theorem fuse_updStrm (s : State) (i : StrmId) (f : Strm → Strm) : ((s.updStrm i f)).fuse = s.fuse := rfl
@[simp] theorem boot_updStrm (s : State) (i : StrmId) (f : Strm → Strm) : ((s.updStrm i f)).boot = s.boot := rfl
@[simp] theorem rseq_updStrm (s : State) (i : StrmId) (f : Strm → Strm) : ((s.updStrm i f)).rseq = s.rseq := rfl
@[simp] theorem freeCtr_updStrm (s : State) (i : StrmId) (f : Strm → Strm) : ((s.updStrm i f)).freeCtr = s.freeCtr := rfl
@[simp] theorem pending_updStrm (s : State) (i : StrmId) (f : Strm → Strm) : ((s.updStrm i f)).pending = s.pending := rfl
@[simp] theorem regs_updStrm (s : State) (i : StrmId) (f : Strm → Strm) : ((s.updStrm i f)).regs = s.regs := rfl
@[simp] theorem staged_updStrm (s : State) (i : StrmId) (f : Strm → Strm) : ((s.updStrm i f)).staged = s.staged := rfl
@[simp] theorem captured_updStrm (s : State) (i : StrmId) (f : Strm → Strm) : ((s.updStrm i f)).captured = s.captured := rfl
@[simp] theorem lastStatus_updStrm (s : State) (i : StrmId) (f : Strm → Strm) : ((s.updStrm i f)).lastStatus = s.lastStatus := rfl
@[simp] theorem q_updStrm (s : State) (i : StrmId) (f : Strm → Strm) : ((s.updStrm i f)).q = s.q := rfl
@[simp] theorem time_updStrm (s : State) (i : StrmId) (f : Strm → Strm) : ((s.updStrm i f)).time = s.time := rfl
@[simp] theorem conds_updStrm (s : State) (i : StrmId) (f : Strm → Strm) : ((s.updStrm i f)).conds = s.conds := rfl
@[simp] theorem inputs_updStrm (s : State) (i : StrmId) (f : Strm → Strm) : ((s.updStrm i f)).inputs = s.inputs := rfl
@[simp] theorem slices_updStrm (s : State) (i : StrmId) (f : Strm → Strm) : ((s.updStrm i f)).slices = s.slices := rfl
@[simp] theorem demods_updStrm (s : State) (i : StrmId) (f : Strm → Strm) : ((s.updStrm i f)).demods = s.demods := rfl
@[simp] theorem planGen_updStrm (s : State) (i : StrmId) (f : Strm → Strm) : ((s.updStrm i f)).planGen = s.planGen := rfl
@[simp] theorem snaps_updStrm (s : State) (i : StrmId) (f : Strm → Strm) : ((s.updStrm i f)).snaps = s.snaps := rfl
@[simp] theorem beds_updStrm (s : State) (i : StrmId) (f : Strm → Strm) : ((s.updStrm i f)).beds = s.beds := rfl
@[simp] theorem decs_updStrm (s : State) (i : StrmId) (f : Strm → Strm) : ((s.updStrm i f)).decs = s.decs := rfl
@[simp] theorem slots_updStrm (s : State) (i : StrmId) (f : Strm → Strm) : ((s.updStrm i f)).slots = s.slots := rfl
@[simp] theorem afdb_updStrm (s : State) (i : StrmId) (f : Strm → Strm) : ((s.updStrm i f)).afdb = s.afdb := rfl
@[simp] theorem afNext_updStrm (s : State) (i : StrmId) (f : Strm → Strm) : ((s.updStrm i f)).afNext = s.afNext := rfl
@[simp] theorem survey_updStrm (s : State) (i : StrmId) (f : Strm → Strm) : ((s.updStrm i f)).survey = s.survey := rfl
@[simp] theorem bunds_updStrm (s : State) (i : StrmId) (f : Strm → Strm) : ((s.updStrm i f)).bunds = s.bunds := rfl
@[simp] theorem squeues_updStrm (s : State) (i : StrmId) (f : Strm → Strm) : ((s.updStrm i f)).squeues = s.squeues := rfl
@[simp] theorem skeys_updStrm (s : State) (i : StrmId) (f : Strm → Strm) : ((s.updStrm i f)).skeys = s.skeys := rfl
@[simp] theorem clk_updStrm (s : State) (i : StrmId) (f : Strm → Strm) : ((s.updStrm i f)).clk = s.clk := rfl
@[simp] theorem pwr_updStrm (s : State) (i : StrmId) (f : Strm → Strm) : ((s.updStrm i f)).pwr = s.pwr := rfl
@[simp] theorem pmb_updStrm (s : State) (i : StrmId) (f : Strm → Strm) : ((s.updStrm i f)).pmb = s.pmb := rfl
@[simp] theorem pmbSent_updStrm (s : State) (i : StrmId) (f : Strm → Strm) : ((s.updStrm i f)).pmbSent = s.pmbSent := rfl
@[simp] theorem sec_updStrm (s : State) (i : StrmId) (f : Strm → Strm) : ((s.updStrm i f)).sec = s.sec := rfl
@[simp] theorem log_updStrm (s : State) (i : StrmId) (f : Strm → Strm) : ((s.updStrm i f)).log = s.log := rfl
@[simp] theorem temps_updStrm (s : State) (i : StrmId) (f : Strm → Strm) : ((s.updStrm i f)).temps = s.temps := rfl
@[simp] theorem ports_updStrm (s : State) (i : StrmId) (f : Strm → Strm) : ((s.updStrm i f)).ports = s.ports := rfl
@[simp] theorem ring_updStrm (s : State) (i : StrmId) (f : Strm → Strm) : ((s.updStrm i f)).ring = s.ring := rfl
@[simp] theorem twb_updStrm (s : State) (i : StrmId) (f : Strm → Strm) : ((s.updStrm i f)).twb = s.twb := rfl
@[simp] theorem smc_updStrm (s : State) (i : StrmId) (f : Strm → Strm) : ((s.updStrm i f)).smc = s.smc := rfl
@[simp] theorem aud_updStrm (s : State) (i : StrmId) (f : Strm → Strm) : ((s.updStrm i f)).aud = s.aud := rfl
@[simp] theorem cal_updStrm (s : State) (i : StrmId) (f : Strm → Strm) : ((s.updStrm i f)).cal = s.cal := rfl
@[simp] theorem snd_updStrm (s : State) (i : StrmId) (f : Strm → Strm) : ((s.updStrm i f)).snd = s.snd := rfl
@[simp] theorem loam_updStrm (s : State) (i : StrmId) (f : Strm → Strm) : ((s.updStrm i f)).loam = s.loam := rfl
@[simp] theorem mfp_updStrm (s : State) (i : StrmId) (f : Strm → Strm) : ((s.updStrm i f)).mfp = s.mfp := rfl

/-! updBund -/
@[simp] theorem fuse_updBund (s : State) (b : BundId) (f : Bund → Bund) : ((s.updBund b f)).fuse = s.fuse := rfl
@[simp] theorem boot_updBund (s : State) (b : BundId) (f : Bund → Bund) : ((s.updBund b f)).boot = s.boot := rfl
@[simp] theorem rseq_updBund (s : State) (b : BundId) (f : Bund → Bund) : ((s.updBund b f)).rseq = s.rseq := rfl
@[simp] theorem freeCtr_updBund (s : State) (b : BundId) (f : Bund → Bund) : ((s.updBund b f)).freeCtr = s.freeCtr := rfl
@[simp] theorem pending_updBund (s : State) (b : BundId) (f : Bund → Bund) : ((s.updBund b f)).pending = s.pending := rfl
@[simp] theorem regs_updBund (s : State) (b : BundId) (f : Bund → Bund) : ((s.updBund b f)).regs = s.regs := rfl
@[simp] theorem staged_updBund (s : State) (b : BundId) (f : Bund → Bund) : ((s.updBund b f)).staged = s.staged := rfl
@[simp] theorem captured_updBund (s : State) (b : BundId) (f : Bund → Bund) : ((s.updBund b f)).captured = s.captured := rfl
@[simp] theorem lastStatus_updBund (s : State) (b : BundId) (f : Bund → Bund) : ((s.updBund b f)).lastStatus = s.lastStatus := rfl
@[simp] theorem q_updBund (s : State) (b : BundId) (f : Bund → Bund) : ((s.updBund b f)).q = s.q := rfl
@[simp] theorem time_updBund (s : State) (b : BundId) (f : Bund → Bund) : ((s.updBund b f)).time = s.time := rfl
@[simp] theorem conds_updBund (s : State) (b : BundId) (f : Bund → Bund) : ((s.updBund b f)).conds = s.conds := rfl
@[simp] theorem inputs_updBund (s : State) (b : BundId) (f : Bund → Bund) : ((s.updBund b f)).inputs = s.inputs := rfl
@[simp] theorem slices_updBund (s : State) (b : BundId) (f : Bund → Bund) : ((s.updBund b f)).slices = s.slices := rfl
@[simp] theorem demods_updBund (s : State) (b : BundId) (f : Bund → Bund) : ((s.updBund b f)).demods = s.demods := rfl
@[simp] theorem planGen_updBund (s : State) (b : BundId) (f : Bund → Bund) : ((s.updBund b f)).planGen = s.planGen := rfl
@[simp] theorem snaps_updBund (s : State) (b : BundId) (f : Bund → Bund) : ((s.updBund b f)).snaps = s.snaps := rfl
@[simp] theorem beds_updBund (s : State) (b : BundId) (f : Bund → Bund) : ((s.updBund b f)).beds = s.beds := rfl
@[simp] theorem decs_updBund (s : State) (b : BundId) (f : Bund → Bund) : ((s.updBund b f)).decs = s.decs := rfl
@[simp] theorem slots_updBund (s : State) (b : BundId) (f : Bund → Bund) : ((s.updBund b f)).slots = s.slots := rfl
@[simp] theorem afdb_updBund (s : State) (b : BundId) (f : Bund → Bund) : ((s.updBund b f)).afdb = s.afdb := rfl
@[simp] theorem afNext_updBund (s : State) (b : BundId) (f : Bund → Bund) : ((s.updBund b f)).afNext = s.afNext := rfl
@[simp] theorem survey_updBund (s : State) (b : BundId) (f : Bund → Bund) : ((s.updBund b f)).survey = s.survey := rfl
@[simp] theorem strms_updBund (s : State) (b : BundId) (f : Bund → Bund) : ((s.updBund b f)).strms = s.strms := rfl
@[simp] theorem squeues_updBund (s : State) (b : BundId) (f : Bund → Bund) : ((s.updBund b f)).squeues = s.squeues := rfl
@[simp] theorem skeys_updBund (s : State) (b : BundId) (f : Bund → Bund) : ((s.updBund b f)).skeys = s.skeys := rfl
@[simp] theorem clk_updBund (s : State) (b : BundId) (f : Bund → Bund) : ((s.updBund b f)).clk = s.clk := rfl
@[simp] theorem pwr_updBund (s : State) (b : BundId) (f : Bund → Bund) : ((s.updBund b f)).pwr = s.pwr := rfl
@[simp] theorem pmb_updBund (s : State) (b : BundId) (f : Bund → Bund) : ((s.updBund b f)).pmb = s.pmb := rfl
@[simp] theorem pmbSent_updBund (s : State) (b : BundId) (f : Bund → Bund) : ((s.updBund b f)).pmbSent = s.pmbSent := rfl
@[simp] theorem sec_updBund (s : State) (b : BundId) (f : Bund → Bund) : ((s.updBund b f)).sec = s.sec := rfl
@[simp] theorem log_updBund (s : State) (b : BundId) (f : Bund → Bund) : ((s.updBund b f)).log = s.log := rfl
@[simp] theorem temps_updBund (s : State) (b : BundId) (f : Bund → Bund) : ((s.updBund b f)).temps = s.temps := rfl
@[simp] theorem ports_updBund (s : State) (b : BundId) (f : Bund → Bund) : ((s.updBund b f)).ports = s.ports := rfl
@[simp] theorem ring_updBund (s : State) (b : BundId) (f : Bund → Bund) : ((s.updBund b f)).ring = s.ring := rfl
@[simp] theorem twb_updBund (s : State) (b : BundId) (f : Bund → Bund) : ((s.updBund b f)).twb = s.twb := rfl
@[simp] theorem smc_updBund (s : State) (b : BundId) (f : Bund → Bund) : ((s.updBund b f)).smc = s.smc := rfl
@[simp] theorem aud_updBund (s : State) (b : BundId) (f : Bund → Bund) : ((s.updBund b f)).aud = s.aud := rfl
@[simp] theorem cal_updBund (s : State) (b : BundId) (f : Bund → Bund) : ((s.updBund b f)).cal = s.cal := rfl
@[simp] theorem snd_updBund (s : State) (b : BundId) (f : Bund → Bund) : ((s.updBund b f)).snd = s.snd := rfl
@[simp] theorem loam_updBund (s : State) (b : BundId) (f : Bund → Bund) : ((s.updBund b f)).loam = s.loam := rfl
@[simp] theorem mfp_updBund (s : State) (b : BundId) (f : Bund → Bund) : ((s.updBund b f)).mfp = s.mfp := rfl

/-! updQueue -/
@[simp] theorem fuse_updQueue (s : State) (q : SQueue) (f : StrmQueue → StrmQueue) : ((s.updQueue q f)).fuse = s.fuse := rfl
@[simp] theorem boot_updQueue (s : State) (q : SQueue) (f : StrmQueue → StrmQueue) : ((s.updQueue q f)).boot = s.boot := rfl
@[simp] theorem rseq_updQueue (s : State) (q : SQueue) (f : StrmQueue → StrmQueue) : ((s.updQueue q f)).rseq = s.rseq := rfl
@[simp] theorem freeCtr_updQueue (s : State) (q : SQueue) (f : StrmQueue → StrmQueue) : ((s.updQueue q f)).freeCtr = s.freeCtr := rfl
@[simp] theorem pending_updQueue (s : State) (q : SQueue) (f : StrmQueue → StrmQueue) : ((s.updQueue q f)).pending = s.pending := rfl
@[simp] theorem regs_updQueue (s : State) (q : SQueue) (f : StrmQueue → StrmQueue) : ((s.updQueue q f)).regs = s.regs := rfl
@[simp] theorem staged_updQueue (s : State) (q : SQueue) (f : StrmQueue → StrmQueue) : ((s.updQueue q f)).staged = s.staged := rfl
@[simp] theorem captured_updQueue (s : State) (q : SQueue) (f : StrmQueue → StrmQueue) : ((s.updQueue q f)).captured = s.captured := rfl
@[simp] theorem lastStatus_updQueue (s : State) (q : SQueue) (f : StrmQueue → StrmQueue) : ((s.updQueue q f)).lastStatus = s.lastStatus := rfl
@[simp] theorem q_updQueue (s : State) (q : SQueue) (f : StrmQueue → StrmQueue) : ((s.updQueue q f)).q = s.q := rfl
@[simp] theorem time_updQueue (s : State) (q : SQueue) (f : StrmQueue → StrmQueue) : ((s.updQueue q f)).time = s.time := rfl
@[simp] theorem conds_updQueue (s : State) (q : SQueue) (f : StrmQueue → StrmQueue) : ((s.updQueue q f)).conds = s.conds := rfl
@[simp] theorem inputs_updQueue (s : State) (q : SQueue) (f : StrmQueue → StrmQueue) : ((s.updQueue q f)).inputs = s.inputs := rfl
@[simp] theorem slices_updQueue (s : State) (q : SQueue) (f : StrmQueue → StrmQueue) : ((s.updQueue q f)).slices = s.slices := rfl
@[simp] theorem demods_updQueue (s : State) (q : SQueue) (f : StrmQueue → StrmQueue) : ((s.updQueue q f)).demods = s.demods := rfl
@[simp] theorem planGen_updQueue (s : State) (q : SQueue) (f : StrmQueue → StrmQueue) : ((s.updQueue q f)).planGen = s.planGen := rfl
@[simp] theorem snaps_updQueue (s : State) (q : SQueue) (f : StrmQueue → StrmQueue) : ((s.updQueue q f)).snaps = s.snaps := rfl
@[simp] theorem beds_updQueue (s : State) (q : SQueue) (f : StrmQueue → StrmQueue) : ((s.updQueue q f)).beds = s.beds := rfl
@[simp] theorem decs_updQueue (s : State) (q : SQueue) (f : StrmQueue → StrmQueue) : ((s.updQueue q f)).decs = s.decs := rfl
@[simp] theorem slots_updQueue (s : State) (q : SQueue) (f : StrmQueue → StrmQueue) : ((s.updQueue q f)).slots = s.slots := rfl
@[simp] theorem afdb_updQueue (s : State) (q : SQueue) (f : StrmQueue → StrmQueue) : ((s.updQueue q f)).afdb = s.afdb := rfl
@[simp] theorem afNext_updQueue (s : State) (q : SQueue) (f : StrmQueue → StrmQueue) : ((s.updQueue q f)).afNext = s.afNext := rfl
@[simp] theorem survey_updQueue (s : State) (q : SQueue) (f : StrmQueue → StrmQueue) : ((s.updQueue q f)).survey = s.survey := rfl
@[simp] theorem strms_updQueue (s : State) (q : SQueue) (f : StrmQueue → StrmQueue) : ((s.updQueue q f)).strms = s.strms := rfl
@[simp] theorem bunds_updQueue (s : State) (q : SQueue) (f : StrmQueue → StrmQueue) : ((s.updQueue q f)).bunds = s.bunds := rfl
@[simp] theorem skeys_updQueue (s : State) (q : SQueue) (f : StrmQueue → StrmQueue) : ((s.updQueue q f)).skeys = s.skeys := rfl
@[simp] theorem clk_updQueue (s : State) (q : SQueue) (f : StrmQueue → StrmQueue) : ((s.updQueue q f)).clk = s.clk := rfl
@[simp] theorem pwr_updQueue (s : State) (q : SQueue) (f : StrmQueue → StrmQueue) : ((s.updQueue q f)).pwr = s.pwr := rfl
@[simp] theorem pmb_updQueue (s : State) (q : SQueue) (f : StrmQueue → StrmQueue) : ((s.updQueue q f)).pmb = s.pmb := rfl
@[simp] theorem pmbSent_updQueue (s : State) (q : SQueue) (f : StrmQueue → StrmQueue) : ((s.updQueue q f)).pmbSent = s.pmbSent := rfl
@[simp] theorem sec_updQueue (s : State) (q : SQueue) (f : StrmQueue → StrmQueue) : ((s.updQueue q f)).sec = s.sec := rfl
@[simp] theorem log_updQueue (s : State) (q : SQueue) (f : StrmQueue → StrmQueue) : ((s.updQueue q f)).log = s.log := rfl
@[simp] theorem temps_updQueue (s : State) (q : SQueue) (f : StrmQueue → StrmQueue) : ((s.updQueue q f)).temps = s.temps := rfl
@[simp] theorem ports_updQueue (s : State) (q : SQueue) (f : StrmQueue → StrmQueue) : ((s.updQueue q f)).ports = s.ports := rfl
@[simp] theorem ring_updQueue (s : State) (q : SQueue) (f : StrmQueue → StrmQueue) : ((s.updQueue q f)).ring = s.ring := rfl
@[simp] theorem twb_updQueue (s : State) (q : SQueue) (f : StrmQueue → StrmQueue) : ((s.updQueue q f)).twb = s.twb := rfl
@[simp] theorem smc_updQueue (s : State) (q : SQueue) (f : StrmQueue → StrmQueue) : ((s.updQueue q f)).smc = s.smc := rfl
@[simp] theorem aud_updQueue (s : State) (q : SQueue) (f : StrmQueue → StrmQueue) : ((s.updQueue q f)).aud = s.aud := rfl
@[simp] theorem cal_updQueue (s : State) (q : SQueue) (f : StrmQueue → StrmQueue) : ((s.updQueue q f)).cal = s.cal := rfl
@[simp] theorem snd_updQueue (s : State) (q : SQueue) (f : StrmQueue → StrmQueue) : ((s.updQueue q f)).snd = s.snd := rfl
@[simp] theorem loam_updQueue (s : State) (q : SQueue) (f : StrmQueue → StrmQueue) : ((s.updQueue q f)).loam = s.loam := rfl
@[simp] theorem mfp_updQueue (s : State) (q : SQueue) (f : StrmQueue → StrmQueue) : ((s.updQueue q f)).mfp = s.mfp := rfl

/-! updPort -/
@[simp] theorem fuse_updPort (s : State) (p : Port) (f : Prt → Prt) : ((s.updPort p f)).fuse = s.fuse := rfl
@[simp] theorem boot_updPort (s : State) (p : Port) (f : Prt → Prt) : ((s.updPort p f)).boot = s.boot := rfl
@[simp] theorem rseq_updPort (s : State) (p : Port) (f : Prt → Prt) : ((s.updPort p f)).rseq = s.rseq := rfl
@[simp] theorem freeCtr_updPort (s : State) (p : Port) (f : Prt → Prt) : ((s.updPort p f)).freeCtr = s.freeCtr := rfl
@[simp] theorem pending_updPort (s : State) (p : Port) (f : Prt → Prt) : ((s.updPort p f)).pending = s.pending := rfl
@[simp] theorem regs_updPort (s : State) (p : Port) (f : Prt → Prt) : ((s.updPort p f)).regs = s.regs := rfl
@[simp] theorem staged_updPort (s : State) (p : Port) (f : Prt → Prt) : ((s.updPort p f)).staged = s.staged := rfl
@[simp] theorem captured_updPort (s : State) (p : Port) (f : Prt → Prt) : ((s.updPort p f)).captured = s.captured := rfl
@[simp] theorem lastStatus_updPort (s : State) (p : Port) (f : Prt → Prt) : ((s.updPort p f)).lastStatus = s.lastStatus := rfl
@[simp] theorem q_updPort (s : State) (p : Port) (f : Prt → Prt) : ((s.updPort p f)).q = s.q := rfl
@[simp] theorem time_updPort (s : State) (p : Port) (f : Prt → Prt) : ((s.updPort p f)).time = s.time := rfl
@[simp] theorem conds_updPort (s : State) (p : Port) (f : Prt → Prt) : ((s.updPort p f)).conds = s.conds := rfl
@[simp] theorem inputs_updPort (s : State) (p : Port) (f : Prt → Prt) : ((s.updPort p f)).inputs = s.inputs := rfl
@[simp] theorem slices_updPort (s : State) (p : Port) (f : Prt → Prt) : ((s.updPort p f)).slices = s.slices := rfl
@[simp] theorem demods_updPort (s : State) (p : Port) (f : Prt → Prt) : ((s.updPort p f)).demods = s.demods := rfl
@[simp] theorem planGen_updPort (s : State) (p : Port) (f : Prt → Prt) : ((s.updPort p f)).planGen = s.planGen := rfl
@[simp] theorem snaps_updPort (s : State) (p : Port) (f : Prt → Prt) : ((s.updPort p f)).snaps = s.snaps := rfl
@[simp] theorem beds_updPort (s : State) (p : Port) (f : Prt → Prt) : ((s.updPort p f)).beds = s.beds := rfl
@[simp] theorem decs_updPort (s : State) (p : Port) (f : Prt → Prt) : ((s.updPort p f)).decs = s.decs := rfl
@[simp] theorem slots_updPort (s : State) (p : Port) (f : Prt → Prt) : ((s.updPort p f)).slots = s.slots := rfl
@[simp] theorem afdb_updPort (s : State) (p : Port) (f : Prt → Prt) : ((s.updPort p f)).afdb = s.afdb := rfl
@[simp] theorem afNext_updPort (s : State) (p : Port) (f : Prt → Prt) : ((s.updPort p f)).afNext = s.afNext := rfl
@[simp] theorem survey_updPort (s : State) (p : Port) (f : Prt → Prt) : ((s.updPort p f)).survey = s.survey := rfl
@[simp] theorem strms_updPort (s : State) (p : Port) (f : Prt → Prt) : ((s.updPort p f)).strms = s.strms := rfl
@[simp] theorem bunds_updPort (s : State) (p : Port) (f : Prt → Prt) : ((s.updPort p f)).bunds = s.bunds := rfl
@[simp] theorem squeues_updPort (s : State) (p : Port) (f : Prt → Prt) : ((s.updPort p f)).squeues = s.squeues := rfl
@[simp] theorem skeys_updPort (s : State) (p : Port) (f : Prt → Prt) : ((s.updPort p f)).skeys = s.skeys := rfl
@[simp] theorem clk_updPort (s : State) (p : Port) (f : Prt → Prt) : ((s.updPort p f)).clk = s.clk := rfl
@[simp] theorem pwr_updPort (s : State) (p : Port) (f : Prt → Prt) : ((s.updPort p f)).pwr = s.pwr := rfl
@[simp] theorem pmb_updPort (s : State) (p : Port) (f : Prt → Prt) : ((s.updPort p f)).pmb = s.pmb := rfl
@[simp] theorem pmbSent_updPort (s : State) (p : Port) (f : Prt → Prt) : ((s.updPort p f)).pmbSent = s.pmbSent := rfl
@[simp] theorem sec_updPort (s : State) (p : Port) (f : Prt → Prt) : ((s.updPort p f)).sec = s.sec := rfl
@[simp] theorem log_updPort (s : State) (p : Port) (f : Prt → Prt) : ((s.updPort p f)).log = s.log := rfl
@[simp] theorem temps_updPort (s : State) (p : Port) (f : Prt → Prt) : ((s.updPort p f)).temps = s.temps := rfl
@[simp] theorem ring_updPort (s : State) (p : Port) (f : Prt → Prt) : ((s.updPort p f)).ring = s.ring := rfl
@[simp] theorem twb_updPort (s : State) (p : Port) (f : Prt → Prt) : ((s.updPort p f)).twb = s.twb := rfl
@[simp] theorem smc_updPort (s : State) (p : Port) (f : Prt → Prt) : ((s.updPort p f)).smc = s.smc := rfl
@[simp] theorem aud_updPort (s : State) (p : Port) (f : Prt → Prt) : ((s.updPort p f)).aud = s.aud := rfl
@[simp] theorem cal_updPort (s : State) (p : Port) (f : Prt → Prt) : ((s.updPort p f)).cal = s.cal := rfl
@[simp] theorem snd_updPort (s : State) (p : Port) (f : Prt → Prt) : ((s.updPort p f)).snd = s.snd := rfl
@[simp] theorem loam_updPort (s : State) (p : Port) (f : Prt → Prt) : ((s.updPort p f)).loam = s.loam := rfl
@[simp] theorem mfp_updPort (s : State) (p : Port) (f : Prt → Prt) : ((s.updPort p f)).mfp = s.mfp := rfl

/-! updClk -/
@[simp] theorem fuse_updClk (s : State) (f : Clk → Clk) : ((s.updClk f)).fuse = s.fuse := rfl
@[simp] theorem boot_updClk (s : State) (f : Clk → Clk) : ((s.updClk f)).boot = s.boot := rfl
@[simp] theorem rseq_updClk (s : State) (f : Clk → Clk) : ((s.updClk f)).rseq = s.rseq := rfl
@[simp] theorem freeCtr_updClk (s : State) (f : Clk → Clk) : ((s.updClk f)).freeCtr = s.freeCtr := rfl
@[simp] theorem pending_updClk (s : State) (f : Clk → Clk) : ((s.updClk f)).pending = s.pending := rfl
@[simp] theorem regs_updClk (s : State) (f : Clk → Clk) : ((s.updClk f)).regs = s.regs := rfl
@[simp] theorem staged_updClk (s : State) (f : Clk → Clk) : ((s.updClk f)).staged = s.staged := rfl
@[simp] theorem captured_updClk (s : State) (f : Clk → Clk) : ((s.updClk f)).captured = s.captured := rfl
@[simp] theorem lastStatus_updClk (s : State) (f : Clk → Clk) : ((s.updClk f)).lastStatus = s.lastStatus := rfl
@[simp] theorem q_updClk (s : State) (f : Clk → Clk) : ((s.updClk f)).q = s.q := rfl
@[simp] theorem time_updClk (s : State) (f : Clk → Clk) : ((s.updClk f)).time = s.time := rfl
@[simp] theorem conds_updClk (s : State) (f : Clk → Clk) : ((s.updClk f)).conds = s.conds := rfl
@[simp] theorem inputs_updClk (s : State) (f : Clk → Clk) : ((s.updClk f)).inputs = s.inputs := rfl
@[simp] theorem slices_updClk (s : State) (f : Clk → Clk) : ((s.updClk f)).slices = s.slices := rfl
@[simp] theorem demods_updClk (s : State) (f : Clk → Clk) : ((s.updClk f)).demods = s.demods := rfl
@[simp] theorem planGen_updClk (s : State) (f : Clk → Clk) : ((s.updClk f)).planGen = s.planGen := rfl
@[simp] theorem snaps_updClk (s : State) (f : Clk → Clk) : ((s.updClk f)).snaps = s.snaps := rfl
@[simp] theorem beds_updClk (s : State) (f : Clk → Clk) : ((s.updClk f)).beds = s.beds := rfl
@[simp] theorem decs_updClk (s : State) (f : Clk → Clk) : ((s.updClk f)).decs = s.decs := rfl
@[simp] theorem slots_updClk (s : State) (f : Clk → Clk) : ((s.updClk f)).slots = s.slots := rfl
@[simp] theorem afdb_updClk (s : State) (f : Clk → Clk) : ((s.updClk f)).afdb = s.afdb := rfl
@[simp] theorem afNext_updClk (s : State) (f : Clk → Clk) : ((s.updClk f)).afNext = s.afNext := rfl
@[simp] theorem survey_updClk (s : State) (f : Clk → Clk) : ((s.updClk f)).survey = s.survey := rfl
@[simp] theorem strms_updClk (s : State) (f : Clk → Clk) : ((s.updClk f)).strms = s.strms := rfl
@[simp] theorem bunds_updClk (s : State) (f : Clk → Clk) : ((s.updClk f)).bunds = s.bunds := rfl
@[simp] theorem squeues_updClk (s : State) (f : Clk → Clk) : ((s.updClk f)).squeues = s.squeues := rfl
@[simp] theorem skeys_updClk (s : State) (f : Clk → Clk) : ((s.updClk f)).skeys = s.skeys := rfl
@[simp] theorem pwr_updClk (s : State) (f : Clk → Clk) : ((s.updClk f)).pwr = s.pwr := rfl
@[simp] theorem pmb_updClk (s : State) (f : Clk → Clk) : ((s.updClk f)).pmb = s.pmb := rfl
@[simp] theorem pmbSent_updClk (s : State) (f : Clk → Clk) : ((s.updClk f)).pmbSent = s.pmbSent := rfl
@[simp] theorem sec_updClk (s : State) (f : Clk → Clk) : ((s.updClk f)).sec = s.sec := rfl
@[simp] theorem log_updClk (s : State) (f : Clk → Clk) : ((s.updClk f)).log = s.log := rfl
@[simp] theorem temps_updClk (s : State) (f : Clk → Clk) : ((s.updClk f)).temps = s.temps := rfl
@[simp] theorem ports_updClk (s : State) (f : Clk → Clk) : ((s.updClk f)).ports = s.ports := rfl
@[simp] theorem ring_updClk (s : State) (f : Clk → Clk) : ((s.updClk f)).ring = s.ring := rfl
@[simp] theorem twb_updClk (s : State) (f : Clk → Clk) : ((s.updClk f)).twb = s.twb := rfl
@[simp] theorem smc_updClk (s : State) (f : Clk → Clk) : ((s.updClk f)).smc = s.smc := rfl
@[simp] theorem aud_updClk (s : State) (f : Clk → Clk) : ((s.updClk f)).aud = s.aud := rfl
@[simp] theorem cal_updClk (s : State) (f : Clk → Clk) : ((s.updClk f)).cal = s.cal := rfl
@[simp] theorem snd_updClk (s : State) (f : Clk → Clk) : ((s.updClk f)).snd = s.snd := rfl
@[simp] theorem loam_updClk (s : State) (f : Clk → Clk) : ((s.updClk f)).loam = s.loam := rfl
@[simp] theorem mfp_updClk (s : State) (f : Clk → Clk) : ((s.updClk f)).mfp = s.mfp := rfl

/-! updRing -/
@[simp] theorem fuse_updRing (s : State) (f : Ring → Ring) : ((s.updRing f)).fuse = s.fuse := rfl
@[simp] theorem boot_updRing (s : State) (f : Ring → Ring) : ((s.updRing f)).boot = s.boot := rfl
@[simp] theorem rseq_updRing (s : State) (f : Ring → Ring) : ((s.updRing f)).rseq = s.rseq := rfl
@[simp] theorem freeCtr_updRing (s : State) (f : Ring → Ring) : ((s.updRing f)).freeCtr = s.freeCtr := rfl
@[simp] theorem pending_updRing (s : State) (f : Ring → Ring) : ((s.updRing f)).pending = s.pending := rfl
@[simp] theorem regs_updRing (s : State) (f : Ring → Ring) : ((s.updRing f)).regs = s.regs := rfl
@[simp] theorem staged_updRing (s : State) (f : Ring → Ring) : ((s.updRing f)).staged = s.staged := rfl
@[simp] theorem captured_updRing (s : State) (f : Ring → Ring) : ((s.updRing f)).captured = s.captured := rfl
@[simp] theorem lastStatus_updRing (s : State) (f : Ring → Ring) : ((s.updRing f)).lastStatus = s.lastStatus := rfl
@[simp] theorem q_updRing (s : State) (f : Ring → Ring) : ((s.updRing f)).q = s.q := rfl
@[simp] theorem time_updRing (s : State) (f : Ring → Ring) : ((s.updRing f)).time = s.time := rfl
@[simp] theorem conds_updRing (s : State) (f : Ring → Ring) : ((s.updRing f)).conds = s.conds := rfl
@[simp] theorem inputs_updRing (s : State) (f : Ring → Ring) : ((s.updRing f)).inputs = s.inputs := rfl
@[simp] theorem slices_updRing (s : State) (f : Ring → Ring) : ((s.updRing f)).slices = s.slices := rfl
@[simp] theorem demods_updRing (s : State) (f : Ring → Ring) : ((s.updRing f)).demods = s.demods := rfl
@[simp] theorem planGen_updRing (s : State) (f : Ring → Ring) : ((s.updRing f)).planGen = s.planGen := rfl
@[simp] theorem snaps_updRing (s : State) (f : Ring → Ring) : ((s.updRing f)).snaps = s.snaps := rfl
@[simp] theorem beds_updRing (s : State) (f : Ring → Ring) : ((s.updRing f)).beds = s.beds := rfl
@[simp] theorem decs_updRing (s : State) (f : Ring → Ring) : ((s.updRing f)).decs = s.decs := rfl
@[simp] theorem slots_updRing (s : State) (f : Ring → Ring) : ((s.updRing f)).slots = s.slots := rfl
@[simp] theorem afdb_updRing (s : State) (f : Ring → Ring) : ((s.updRing f)).afdb = s.afdb := rfl
@[simp] theorem afNext_updRing (s : State) (f : Ring → Ring) : ((s.updRing f)).afNext = s.afNext := rfl
@[simp] theorem survey_updRing (s : State) (f : Ring → Ring) : ((s.updRing f)).survey = s.survey := rfl
@[simp] theorem strms_updRing (s : State) (f : Ring → Ring) : ((s.updRing f)).strms = s.strms := rfl
@[simp] theorem bunds_updRing (s : State) (f : Ring → Ring) : ((s.updRing f)).bunds = s.bunds := rfl
@[simp] theorem squeues_updRing (s : State) (f : Ring → Ring) : ((s.updRing f)).squeues = s.squeues := rfl
@[simp] theorem skeys_updRing (s : State) (f : Ring → Ring) : ((s.updRing f)).skeys = s.skeys := rfl
@[simp] theorem clk_updRing (s : State) (f : Ring → Ring) : ((s.updRing f)).clk = s.clk := rfl
@[simp] theorem pwr_updRing (s : State) (f : Ring → Ring) : ((s.updRing f)).pwr = s.pwr := rfl
@[simp] theorem pmb_updRing (s : State) (f : Ring → Ring) : ((s.updRing f)).pmb = s.pmb := rfl
@[simp] theorem pmbSent_updRing (s : State) (f : Ring → Ring) : ((s.updRing f)).pmbSent = s.pmbSent := rfl
@[simp] theorem sec_updRing (s : State) (f : Ring → Ring) : ((s.updRing f)).sec = s.sec := rfl
@[simp] theorem log_updRing (s : State) (f : Ring → Ring) : ((s.updRing f)).log = s.log := rfl
@[simp] theorem temps_updRing (s : State) (f : Ring → Ring) : ((s.updRing f)).temps = s.temps := rfl
@[simp] theorem ports_updRing (s : State) (f : Ring → Ring) : ((s.updRing f)).ports = s.ports := rfl
@[simp] theorem twb_updRing (s : State) (f : Ring → Ring) : ((s.updRing f)).twb = s.twb := rfl
@[simp] theorem smc_updRing (s : State) (f : Ring → Ring) : ((s.updRing f)).smc = s.smc := rfl
@[simp] theorem aud_updRing (s : State) (f : Ring → Ring) : ((s.updRing f)).aud = s.aud := rfl
@[simp] theorem cal_updRing (s : State) (f : Ring → Ring) : ((s.updRing f)).cal = s.cal := rfl
@[simp] theorem snd_updRing (s : State) (f : Ring → Ring) : ((s.updRing f)).snd = s.snd := rfl
@[simp] theorem loam_updRing (s : State) (f : Ring → Ring) : ((s.updRing f)).loam = s.loam := rfl
@[simp] theorem mfp_updRing (s : State) (f : Ring → Ring) : ((s.updRing f)).mfp = s.mfp := rfl

/-! updTwb -/
@[simp] theorem fuse_updTwb (s : State) (f : Twb → Twb) : ((s.updTwb f)).fuse = s.fuse := rfl
@[simp] theorem boot_updTwb (s : State) (f : Twb → Twb) : ((s.updTwb f)).boot = s.boot := rfl
@[simp] theorem rseq_updTwb (s : State) (f : Twb → Twb) : ((s.updTwb f)).rseq = s.rseq := rfl
@[simp] theorem freeCtr_updTwb (s : State) (f : Twb → Twb) : ((s.updTwb f)).freeCtr = s.freeCtr := rfl
@[simp] theorem pending_updTwb (s : State) (f : Twb → Twb) : ((s.updTwb f)).pending = s.pending := rfl
@[simp] theorem regs_updTwb (s : State) (f : Twb → Twb) : ((s.updTwb f)).regs = s.regs := rfl
@[simp] theorem staged_updTwb (s : State) (f : Twb → Twb) : ((s.updTwb f)).staged = s.staged := rfl
@[simp] theorem captured_updTwb (s : State) (f : Twb → Twb) : ((s.updTwb f)).captured = s.captured := rfl
@[simp] theorem lastStatus_updTwb (s : State) (f : Twb → Twb) : ((s.updTwb f)).lastStatus = s.lastStatus := rfl
@[simp] theorem q_updTwb (s : State) (f : Twb → Twb) : ((s.updTwb f)).q = s.q := rfl
@[simp] theorem time_updTwb (s : State) (f : Twb → Twb) : ((s.updTwb f)).time = s.time := rfl
@[simp] theorem conds_updTwb (s : State) (f : Twb → Twb) : ((s.updTwb f)).conds = s.conds := rfl
@[simp] theorem inputs_updTwb (s : State) (f : Twb → Twb) : ((s.updTwb f)).inputs = s.inputs := rfl
@[simp] theorem slices_updTwb (s : State) (f : Twb → Twb) : ((s.updTwb f)).slices = s.slices := rfl
@[simp] theorem demods_updTwb (s : State) (f : Twb → Twb) : ((s.updTwb f)).demods = s.demods := rfl
@[simp] theorem planGen_updTwb (s : State) (f : Twb → Twb) : ((s.updTwb f)).planGen = s.planGen := rfl
@[simp] theorem snaps_updTwb (s : State) (f : Twb → Twb) : ((s.updTwb f)).snaps = s.snaps := rfl
@[simp] theorem beds_updTwb (s : State) (f : Twb → Twb) : ((s.updTwb f)).beds = s.beds := rfl
@[simp] theorem decs_updTwb (s : State) (f : Twb → Twb) : ((s.updTwb f)).decs = s.decs := rfl
@[simp] theorem slots_updTwb (s : State) (f : Twb → Twb) : ((s.updTwb f)).slots = s.slots := rfl
@[simp] theorem afdb_updTwb (s : State) (f : Twb → Twb) : ((s.updTwb f)).afdb = s.afdb := rfl
@[simp] theorem afNext_updTwb (s : State) (f : Twb → Twb) : ((s.updTwb f)).afNext = s.afNext := rfl
@[simp] theorem survey_updTwb (s : State) (f : Twb → Twb) : ((s.updTwb f)).survey = s.survey := rfl
@[simp] theorem strms_updTwb (s : State) (f : Twb → Twb) : ((s.updTwb f)).strms = s.strms := rfl
@[simp] theorem bunds_updTwb (s : State) (f : Twb → Twb) : ((s.updTwb f)).bunds = s.bunds := rfl
@[simp] theorem squeues_updTwb (s : State) (f : Twb → Twb) : ((s.updTwb f)).squeues = s.squeues := rfl
@[simp] theorem skeys_updTwb (s : State) (f : Twb → Twb) : ((s.updTwb f)).skeys = s.skeys := rfl
@[simp] theorem clk_updTwb (s : State) (f : Twb → Twb) : ((s.updTwb f)).clk = s.clk := rfl
@[simp] theorem pwr_updTwb (s : State) (f : Twb → Twb) : ((s.updTwb f)).pwr = s.pwr := rfl
@[simp] theorem pmb_updTwb (s : State) (f : Twb → Twb) : ((s.updTwb f)).pmb = s.pmb := rfl
@[simp] theorem pmbSent_updTwb (s : State) (f : Twb → Twb) : ((s.updTwb f)).pmbSent = s.pmbSent := rfl
@[simp] theorem sec_updTwb (s : State) (f : Twb → Twb) : ((s.updTwb f)).sec = s.sec := rfl
@[simp] theorem log_updTwb (s : State) (f : Twb → Twb) : ((s.updTwb f)).log = s.log := rfl
@[simp] theorem temps_updTwb (s : State) (f : Twb → Twb) : ((s.updTwb f)).temps = s.temps := rfl
@[simp] theorem ports_updTwb (s : State) (f : Twb → Twb) : ((s.updTwb f)).ports = s.ports := rfl
@[simp] theorem ring_updTwb (s : State) (f : Twb → Twb) : ((s.updTwb f)).ring = s.ring := rfl
@[simp] theorem smc_updTwb (s : State) (f : Twb → Twb) : ((s.updTwb f)).smc = s.smc := rfl
@[simp] theorem aud_updTwb (s : State) (f : Twb → Twb) : ((s.updTwb f)).aud = s.aud := rfl
@[simp] theorem cal_updTwb (s : State) (f : Twb → Twb) : ((s.updTwb f)).cal = s.cal := rfl
@[simp] theorem snd_updTwb (s : State) (f : Twb → Twb) : ((s.updTwb f)).snd = s.snd := rfl
@[simp] theorem loam_updTwb (s : State) (f : Twb → Twb) : ((s.updTwb f)).loam = s.loam := rfl
@[simp] theorem mfp_updTwb (s : State) (f : Twb → Twb) : ((s.updTwb f)).mfp = s.mfp := rfl

/-! updTenant -/
@[simp] theorem fuse_updTenant (s : State) (n : TenId) (f : TenantSlot → TenantSlot) : ((s.updTenant n f)).fuse = s.fuse := rfl
@[simp] theorem boot_updTenant (s : State) (n : TenId) (f : TenantSlot → TenantSlot) : ((s.updTenant n f)).boot = s.boot := rfl
@[simp] theorem rseq_updTenant (s : State) (n : TenId) (f : TenantSlot → TenantSlot) : ((s.updTenant n f)).rseq = s.rseq := rfl
@[simp] theorem freeCtr_updTenant (s : State) (n : TenId) (f : TenantSlot → TenantSlot) : ((s.updTenant n f)).freeCtr = s.freeCtr := rfl
@[simp] theorem pending_updTenant (s : State) (n : TenId) (f : TenantSlot → TenantSlot) : ((s.updTenant n f)).pending = s.pending := rfl
@[simp] theorem regs_updTenant (s : State) (n : TenId) (f : TenantSlot → TenantSlot) : ((s.updTenant n f)).regs = s.regs := rfl
@[simp] theorem staged_updTenant (s : State) (n : TenId) (f : TenantSlot → TenantSlot) : ((s.updTenant n f)).staged = s.staged := rfl
@[simp] theorem captured_updTenant (s : State) (n : TenId) (f : TenantSlot → TenantSlot) : ((s.updTenant n f)).captured = s.captured := rfl
@[simp] theorem lastStatus_updTenant (s : State) (n : TenId) (f : TenantSlot → TenantSlot) : ((s.updTenant n f)).lastStatus = s.lastStatus := rfl
@[simp] theorem q_updTenant (s : State) (n : TenId) (f : TenantSlot → TenantSlot) : ((s.updTenant n f)).q = s.q := rfl
@[simp] theorem time_updTenant (s : State) (n : TenId) (f : TenantSlot → TenantSlot) : ((s.updTenant n f)).time = s.time := rfl
@[simp] theorem conds_updTenant (s : State) (n : TenId) (f : TenantSlot → TenantSlot) : ((s.updTenant n f)).conds = s.conds := rfl
@[simp] theorem inputs_updTenant (s : State) (n : TenId) (f : TenantSlot → TenantSlot) : ((s.updTenant n f)).inputs = s.inputs := rfl
@[simp] theorem slices_updTenant (s : State) (n : TenId) (f : TenantSlot → TenantSlot) : ((s.updTenant n f)).slices = s.slices := rfl
@[simp] theorem demods_updTenant (s : State) (n : TenId) (f : TenantSlot → TenantSlot) : ((s.updTenant n f)).demods = s.demods := rfl
@[simp] theorem planGen_updTenant (s : State) (n : TenId) (f : TenantSlot → TenantSlot) : ((s.updTenant n f)).planGen = s.planGen := rfl
@[simp] theorem snaps_updTenant (s : State) (n : TenId) (f : TenantSlot → TenantSlot) : ((s.updTenant n f)).snaps = s.snaps := rfl
@[simp] theorem beds_updTenant (s : State) (n : TenId) (f : TenantSlot → TenantSlot) : ((s.updTenant n f)).beds = s.beds := rfl
@[simp] theorem decs_updTenant (s : State) (n : TenId) (f : TenantSlot → TenantSlot) : ((s.updTenant n f)).decs = s.decs := rfl
@[simp] theorem slots_updTenant (s : State) (n : TenId) (f : TenantSlot → TenantSlot) : ((s.updTenant n f)).slots = s.slots := rfl
@[simp] theorem afdb_updTenant (s : State) (n : TenId) (f : TenantSlot → TenantSlot) : ((s.updTenant n f)).afdb = s.afdb := rfl
@[simp] theorem afNext_updTenant (s : State) (n : TenId) (f : TenantSlot → TenantSlot) : ((s.updTenant n f)).afNext = s.afNext := rfl
@[simp] theorem survey_updTenant (s : State) (n : TenId) (f : TenantSlot → TenantSlot) : ((s.updTenant n f)).survey = s.survey := rfl
@[simp] theorem strms_updTenant (s : State) (n : TenId) (f : TenantSlot → TenantSlot) : ((s.updTenant n f)).strms = s.strms := rfl
@[simp] theorem bunds_updTenant (s : State) (n : TenId) (f : TenantSlot → TenantSlot) : ((s.updTenant n f)).bunds = s.bunds := rfl
@[simp] theorem squeues_updTenant (s : State) (n : TenId) (f : TenantSlot → TenantSlot) : ((s.updTenant n f)).squeues = s.squeues := rfl
@[simp] theorem skeys_updTenant (s : State) (n : TenId) (f : TenantSlot → TenantSlot) : ((s.updTenant n f)).skeys = s.skeys := rfl
@[simp] theorem clk_updTenant (s : State) (n : TenId) (f : TenantSlot → TenantSlot) : ((s.updTenant n f)).clk = s.clk := rfl
@[simp] theorem pwr_updTenant (s : State) (n : TenId) (f : TenantSlot → TenantSlot) : ((s.updTenant n f)).pwr = s.pwr := rfl
@[simp] theorem pmb_updTenant (s : State) (n : TenId) (f : TenantSlot → TenantSlot) : ((s.updTenant n f)).pmb = s.pmb := rfl
@[simp] theorem pmbSent_updTenant (s : State) (n : TenId) (f : TenantSlot → TenantSlot) : ((s.updTenant n f)).pmbSent = s.pmbSent := rfl
@[simp] theorem log_updTenant (s : State) (n : TenId) (f : TenantSlot → TenantSlot) : ((s.updTenant n f)).log = s.log := rfl
@[simp] theorem temps_updTenant (s : State) (n : TenId) (f : TenantSlot → TenantSlot) : ((s.updTenant n f)).temps = s.temps := rfl
@[simp] theorem ports_updTenant (s : State) (n : TenId) (f : TenantSlot → TenantSlot) : ((s.updTenant n f)).ports = s.ports := rfl
@[simp] theorem ring_updTenant (s : State) (n : TenId) (f : TenantSlot → TenantSlot) : ((s.updTenant n f)).ring = s.ring := rfl
@[simp] theorem twb_updTenant (s : State) (n : TenId) (f : TenantSlot → TenantSlot) : ((s.updTenant n f)).twb = s.twb := rfl
@[simp] theorem smc_updTenant (s : State) (n : TenId) (f : TenantSlot → TenantSlot) : ((s.updTenant n f)).smc = s.smc := rfl
@[simp] theorem aud_updTenant (s : State) (n : TenId) (f : TenantSlot → TenantSlot) : ((s.updTenant n f)).aud = s.aud := rfl
@[simp] theorem cal_updTenant (s : State) (n : TenId) (f : TenantSlot → TenantSlot) : ((s.updTenant n f)).cal = s.cal := rfl
@[simp] theorem snd_updTenant (s : State) (n : TenId) (f : TenantSlot → TenantSlot) : ((s.updTenant n f)).snd = s.snd := rfl
@[simp] theorem loam_updTenant (s : State) (n : TenId) (f : TenantSlot → TenantSlot) : ((s.updTenant n f)).loam = s.loam := rfl
@[simp] theorem mfp_updTenant (s : State) (n : TenId) (f : TenantSlot → TenantSlot) : ((s.updTenant n f)).mfp = s.mfp := rfl

/-! updSmc -/
@[simp] theorem fuse_updSmc (s : State) (f : Smc → Smc) : ((s.updSmc f)).fuse = s.fuse := rfl
@[simp] theorem boot_updSmc (s : State) (f : Smc → Smc) : ((s.updSmc f)).boot = s.boot := rfl
@[simp] theorem rseq_updSmc (s : State) (f : Smc → Smc) : ((s.updSmc f)).rseq = s.rseq := rfl
@[simp] theorem freeCtr_updSmc (s : State) (f : Smc → Smc) : ((s.updSmc f)).freeCtr = s.freeCtr := rfl
@[simp] theorem pending_updSmc (s : State) (f : Smc → Smc) : ((s.updSmc f)).pending = s.pending := rfl
@[simp] theorem regs_updSmc (s : State) (f : Smc → Smc) : ((s.updSmc f)).regs = s.regs := rfl
@[simp] theorem staged_updSmc (s : State) (f : Smc → Smc) : ((s.updSmc f)).staged = s.staged := rfl
@[simp] theorem captured_updSmc (s : State) (f : Smc → Smc) : ((s.updSmc f)).captured = s.captured := rfl
@[simp] theorem lastStatus_updSmc (s : State) (f : Smc → Smc) : ((s.updSmc f)).lastStatus = s.lastStatus := rfl
@[simp] theorem q_updSmc (s : State) (f : Smc → Smc) : ((s.updSmc f)).q = s.q := rfl
@[simp] theorem time_updSmc (s : State) (f : Smc → Smc) : ((s.updSmc f)).time = s.time := rfl
@[simp] theorem conds_updSmc (s : State) (f : Smc → Smc) : ((s.updSmc f)).conds = s.conds := rfl
@[simp] theorem inputs_updSmc (s : State) (f : Smc → Smc) : ((s.updSmc f)).inputs = s.inputs := rfl
@[simp] theorem slices_updSmc (s : State) (f : Smc → Smc) : ((s.updSmc f)).slices = s.slices := rfl
@[simp] theorem demods_updSmc (s : State) (f : Smc → Smc) : ((s.updSmc f)).demods = s.demods := rfl
@[simp] theorem planGen_updSmc (s : State) (f : Smc → Smc) : ((s.updSmc f)).planGen = s.planGen := rfl
@[simp] theorem snaps_updSmc (s : State) (f : Smc → Smc) : ((s.updSmc f)).snaps = s.snaps := rfl
@[simp] theorem beds_updSmc (s : State) (f : Smc → Smc) : ((s.updSmc f)).beds = s.beds := rfl
@[simp] theorem decs_updSmc (s : State) (f : Smc → Smc) : ((s.updSmc f)).decs = s.decs := rfl
@[simp] theorem slots_updSmc (s : State) (f : Smc → Smc) : ((s.updSmc f)).slots = s.slots := rfl
@[simp] theorem afdb_updSmc (s : State) (f : Smc → Smc) : ((s.updSmc f)).afdb = s.afdb := rfl
@[simp] theorem afNext_updSmc (s : State) (f : Smc → Smc) : ((s.updSmc f)).afNext = s.afNext := rfl
@[simp] theorem survey_updSmc (s : State) (f : Smc → Smc) : ((s.updSmc f)).survey = s.survey := rfl
@[simp] theorem strms_updSmc (s : State) (f : Smc → Smc) : ((s.updSmc f)).strms = s.strms := rfl
@[simp] theorem bunds_updSmc (s : State) (f : Smc → Smc) : ((s.updSmc f)).bunds = s.bunds := rfl
@[simp] theorem squeues_updSmc (s : State) (f : Smc → Smc) : ((s.updSmc f)).squeues = s.squeues := rfl
@[simp] theorem skeys_updSmc (s : State) (f : Smc → Smc) : ((s.updSmc f)).skeys = s.skeys := rfl
@[simp] theorem clk_updSmc (s : State) (f : Smc → Smc) : ((s.updSmc f)).clk = s.clk := rfl
@[simp] theorem pwr_updSmc (s : State) (f : Smc → Smc) : ((s.updSmc f)).pwr = s.pwr := rfl
@[simp] theorem pmb_updSmc (s : State) (f : Smc → Smc) : ((s.updSmc f)).pmb = s.pmb := rfl
@[simp] theorem pmbSent_updSmc (s : State) (f : Smc → Smc) : ((s.updSmc f)).pmbSent = s.pmbSent := rfl
@[simp] theorem sec_updSmc (s : State) (f : Smc → Smc) : ((s.updSmc f)).sec = s.sec := rfl
@[simp] theorem log_updSmc (s : State) (f : Smc → Smc) : ((s.updSmc f)).log = s.log := rfl
@[simp] theorem temps_updSmc (s : State) (f : Smc → Smc) : ((s.updSmc f)).temps = s.temps := rfl
@[simp] theorem ports_updSmc (s : State) (f : Smc → Smc) : ((s.updSmc f)).ports = s.ports := rfl
@[simp] theorem ring_updSmc (s : State) (f : Smc → Smc) : ((s.updSmc f)).ring = s.ring := rfl
@[simp] theorem twb_updSmc (s : State) (f : Smc → Smc) : ((s.updSmc f)).twb = s.twb := rfl
@[simp] theorem aud_updSmc (s : State) (f : Smc → Smc) : ((s.updSmc f)).aud = s.aud := rfl
@[simp] theorem cal_updSmc (s : State) (f : Smc → Smc) : ((s.updSmc f)).cal = s.cal := rfl
@[simp] theorem snd_updSmc (s : State) (f : Smc → Smc) : ((s.updSmc f)).snd = s.snd := rfl
@[simp] theorem loam_updSmc (s : State) (f : Smc → Smc) : ((s.updSmc f)).loam = s.loam := rfl
@[simp] theorem mfp_updSmc (s : State) (f : Smc → Smc) : ((s.updSmc f)).mfp = s.mfp := rfl

/-! updPmb -/
@[simp] theorem fuse_updPmb (s : State) (k : Fin 4) (f : PmbSlot → PmbSlot) : ((s.updPmb k f)).fuse = s.fuse := rfl
@[simp] theorem boot_updPmb (s : State) (k : Fin 4) (f : PmbSlot → PmbSlot) : ((s.updPmb k f)).boot = s.boot := rfl
@[simp] theorem rseq_updPmb (s : State) (k : Fin 4) (f : PmbSlot → PmbSlot) : ((s.updPmb k f)).rseq = s.rseq := rfl
@[simp] theorem freeCtr_updPmb (s : State) (k : Fin 4) (f : PmbSlot → PmbSlot) : ((s.updPmb k f)).freeCtr = s.freeCtr := rfl
@[simp] theorem pending_updPmb (s : State) (k : Fin 4) (f : PmbSlot → PmbSlot) : ((s.updPmb k f)).pending = s.pending := rfl
@[simp] theorem regs_updPmb (s : State) (k : Fin 4) (f : PmbSlot → PmbSlot) : ((s.updPmb k f)).regs = s.regs := rfl
@[simp] theorem staged_updPmb (s : State) (k : Fin 4) (f : PmbSlot → PmbSlot) : ((s.updPmb k f)).staged = s.staged := rfl
@[simp] theorem captured_updPmb (s : State) (k : Fin 4) (f : PmbSlot → PmbSlot) : ((s.updPmb k f)).captured = s.captured := rfl
@[simp] theorem lastStatus_updPmb (s : State) (k : Fin 4) (f : PmbSlot → PmbSlot) : ((s.updPmb k f)).lastStatus = s.lastStatus := rfl
@[simp] theorem q_updPmb (s : State) (k : Fin 4) (f : PmbSlot → PmbSlot) : ((s.updPmb k f)).q = s.q := rfl
@[simp] theorem time_updPmb (s : State) (k : Fin 4) (f : PmbSlot → PmbSlot) : ((s.updPmb k f)).time = s.time := rfl
@[simp] theorem conds_updPmb (s : State) (k : Fin 4) (f : PmbSlot → PmbSlot) : ((s.updPmb k f)).conds = s.conds := rfl
@[simp] theorem inputs_updPmb (s : State) (k : Fin 4) (f : PmbSlot → PmbSlot) : ((s.updPmb k f)).inputs = s.inputs := rfl
@[simp] theorem slices_updPmb (s : State) (k : Fin 4) (f : PmbSlot → PmbSlot) : ((s.updPmb k f)).slices = s.slices := rfl
@[simp] theorem demods_updPmb (s : State) (k : Fin 4) (f : PmbSlot → PmbSlot) : ((s.updPmb k f)).demods = s.demods := rfl
@[simp] theorem planGen_updPmb (s : State) (k : Fin 4) (f : PmbSlot → PmbSlot) : ((s.updPmb k f)).planGen = s.planGen := rfl
@[simp] theorem snaps_updPmb (s : State) (k : Fin 4) (f : PmbSlot → PmbSlot) : ((s.updPmb k f)).snaps = s.snaps := rfl
@[simp] theorem beds_updPmb (s : State) (k : Fin 4) (f : PmbSlot → PmbSlot) : ((s.updPmb k f)).beds = s.beds := rfl
@[simp] theorem decs_updPmb (s : State) (k : Fin 4) (f : PmbSlot → PmbSlot) : ((s.updPmb k f)).decs = s.decs := rfl
@[simp] theorem slots_updPmb (s : State) (k : Fin 4) (f : PmbSlot → PmbSlot) : ((s.updPmb k f)).slots = s.slots := rfl
@[simp] theorem afdb_updPmb (s : State) (k : Fin 4) (f : PmbSlot → PmbSlot) : ((s.updPmb k f)).afdb = s.afdb := rfl
@[simp] theorem afNext_updPmb (s : State) (k : Fin 4) (f : PmbSlot → PmbSlot) : ((s.updPmb k f)).afNext = s.afNext := rfl
@[simp] theorem survey_updPmb (s : State) (k : Fin 4) (f : PmbSlot → PmbSlot) : ((s.updPmb k f)).survey = s.survey := rfl
@[simp] theorem strms_updPmb (s : State) (k : Fin 4) (f : PmbSlot → PmbSlot) : ((s.updPmb k f)).strms = s.strms := rfl
@[simp] theorem bunds_updPmb (s : State) (k : Fin 4) (f : PmbSlot → PmbSlot) : ((s.updPmb k f)).bunds = s.bunds := rfl
@[simp] theorem squeues_updPmb (s : State) (k : Fin 4) (f : PmbSlot → PmbSlot) : ((s.updPmb k f)).squeues = s.squeues := rfl
@[simp] theorem skeys_updPmb (s : State) (k : Fin 4) (f : PmbSlot → PmbSlot) : ((s.updPmb k f)).skeys = s.skeys := rfl
@[simp] theorem clk_updPmb (s : State) (k : Fin 4) (f : PmbSlot → PmbSlot) : ((s.updPmb k f)).clk = s.clk := rfl
@[simp] theorem pwr_updPmb (s : State) (k : Fin 4) (f : PmbSlot → PmbSlot) : ((s.updPmb k f)).pwr = s.pwr := rfl
@[simp] theorem pmbSent_updPmb (s : State) (k : Fin 4) (f : PmbSlot → PmbSlot) : ((s.updPmb k f)).pmbSent = s.pmbSent := rfl
@[simp] theorem sec_updPmb (s : State) (k : Fin 4) (f : PmbSlot → PmbSlot) : ((s.updPmb k f)).sec = s.sec := rfl
@[simp] theorem log_updPmb (s : State) (k : Fin 4) (f : PmbSlot → PmbSlot) : ((s.updPmb k f)).log = s.log := rfl
@[simp] theorem temps_updPmb (s : State) (k : Fin 4) (f : PmbSlot → PmbSlot) : ((s.updPmb k f)).temps = s.temps := rfl
@[simp] theorem ports_updPmb (s : State) (k : Fin 4) (f : PmbSlot → PmbSlot) : ((s.updPmb k f)).ports = s.ports := rfl
@[simp] theorem ring_updPmb (s : State) (k : Fin 4) (f : PmbSlot → PmbSlot) : ((s.updPmb k f)).ring = s.ring := rfl
@[simp] theorem twb_updPmb (s : State) (k : Fin 4) (f : PmbSlot → PmbSlot) : ((s.updPmb k f)).twb = s.twb := rfl
@[simp] theorem smc_updPmb (s : State) (k : Fin 4) (f : PmbSlot → PmbSlot) : ((s.updPmb k f)).smc = s.smc := rfl
@[simp] theorem aud_updPmb (s : State) (k : Fin 4) (f : PmbSlot → PmbSlot) : ((s.updPmb k f)).aud = s.aud := rfl
@[simp] theorem cal_updPmb (s : State) (k : Fin 4) (f : PmbSlot → PmbSlot) : ((s.updPmb k f)).cal = s.cal := rfl
@[simp] theorem snd_updPmb (s : State) (k : Fin 4) (f : PmbSlot → PmbSlot) : ((s.updPmb k f)).snd = s.snd := rfl
@[simp] theorem loam_updPmb (s : State) (k : Fin 4) (f : PmbSlot → PmbSlot) : ((s.updPmb k f)).loam = s.loam := rfl
@[simp] theorem mfp_updPmb (s : State) (k : Fin 4) (f : PmbSlot → PmbSlot) : ((s.updPmb k f)).mfp = s.mfp := rfl

/-! updPwr -/
@[simp] theorem fuse_updPwr (s : State) (f : Pwr → Pwr) : ((s.updPwr f)).fuse = s.fuse := rfl
@[simp] theorem boot_updPwr (s : State) (f : Pwr → Pwr) : ((s.updPwr f)).boot = s.boot := rfl
@[simp] theorem rseq_updPwr (s : State) (f : Pwr → Pwr) : ((s.updPwr f)).rseq = s.rseq := rfl
@[simp] theorem freeCtr_updPwr (s : State) (f : Pwr → Pwr) : ((s.updPwr f)).freeCtr = s.freeCtr := rfl
@[simp] theorem pending_updPwr (s : State) (f : Pwr → Pwr) : ((s.updPwr f)).pending = s.pending := rfl
@[simp] theorem regs_updPwr (s : State) (f : Pwr → Pwr) : ((s.updPwr f)).regs = s.regs := rfl
@[simp] theorem staged_updPwr (s : State) (f : Pwr → Pwr) : ((s.updPwr f)).staged = s.staged := rfl
@[simp] theorem captured_updPwr (s : State) (f : Pwr → Pwr) : ((s.updPwr f)).captured = s.captured := rfl
@[simp] theorem lastStatus_updPwr (s : State) (f : Pwr → Pwr) : ((s.updPwr f)).lastStatus = s.lastStatus := rfl
@[simp] theorem q_updPwr (s : State) (f : Pwr → Pwr) : ((s.updPwr f)).q = s.q := rfl
@[simp] theorem time_updPwr (s : State) (f : Pwr → Pwr) : ((s.updPwr f)).time = s.time := rfl
@[simp] theorem conds_updPwr (s : State) (f : Pwr → Pwr) : ((s.updPwr f)).conds = s.conds := rfl
@[simp] theorem inputs_updPwr (s : State) (f : Pwr → Pwr) : ((s.updPwr f)).inputs = s.inputs := rfl
@[simp] theorem slices_updPwr (s : State) (f : Pwr → Pwr) : ((s.updPwr f)).slices = s.slices := rfl
@[simp] theorem demods_updPwr (s : State) (f : Pwr → Pwr) : ((s.updPwr f)).demods = s.demods := rfl
@[simp] theorem planGen_updPwr (s : State) (f : Pwr → Pwr) : ((s.updPwr f)).planGen = s.planGen := rfl
@[simp] theorem snaps_updPwr (s : State) (f : Pwr → Pwr) : ((s.updPwr f)).snaps = s.snaps := rfl
@[simp] theorem beds_updPwr (s : State) (f : Pwr → Pwr) : ((s.updPwr f)).beds = s.beds := rfl
@[simp] theorem decs_updPwr (s : State) (f : Pwr → Pwr) : ((s.updPwr f)).decs = s.decs := rfl
@[simp] theorem slots_updPwr (s : State) (f : Pwr → Pwr) : ((s.updPwr f)).slots = s.slots := rfl
@[simp] theorem afdb_updPwr (s : State) (f : Pwr → Pwr) : ((s.updPwr f)).afdb = s.afdb := rfl
@[simp] theorem afNext_updPwr (s : State) (f : Pwr → Pwr) : ((s.updPwr f)).afNext = s.afNext := rfl
@[simp] theorem survey_updPwr (s : State) (f : Pwr → Pwr) : ((s.updPwr f)).survey = s.survey := rfl
@[simp] theorem strms_updPwr (s : State) (f : Pwr → Pwr) : ((s.updPwr f)).strms = s.strms := rfl
@[simp] theorem bunds_updPwr (s : State) (f : Pwr → Pwr) : ((s.updPwr f)).bunds = s.bunds := rfl
@[simp] theorem squeues_updPwr (s : State) (f : Pwr → Pwr) : ((s.updPwr f)).squeues = s.squeues := rfl
@[simp] theorem skeys_updPwr (s : State) (f : Pwr → Pwr) : ((s.updPwr f)).skeys = s.skeys := rfl
@[simp] theorem clk_updPwr (s : State) (f : Pwr → Pwr) : ((s.updPwr f)).clk = s.clk := rfl
@[simp] theorem pmb_updPwr (s : State) (f : Pwr → Pwr) : ((s.updPwr f)).pmb = s.pmb := rfl
@[simp] theorem pmbSent_updPwr (s : State) (f : Pwr → Pwr) : ((s.updPwr f)).pmbSent = s.pmbSent := rfl
@[simp] theorem sec_updPwr (s : State) (f : Pwr → Pwr) : ((s.updPwr f)).sec = s.sec := rfl
@[simp] theorem log_updPwr (s : State) (f : Pwr → Pwr) : ((s.updPwr f)).log = s.log := rfl
@[simp] theorem temps_updPwr (s : State) (f : Pwr → Pwr) : ((s.updPwr f)).temps = s.temps := rfl
@[simp] theorem ports_updPwr (s : State) (f : Pwr → Pwr) : ((s.updPwr f)).ports = s.ports := rfl
@[simp] theorem ring_updPwr (s : State) (f : Pwr → Pwr) : ((s.updPwr f)).ring = s.ring := rfl
@[simp] theorem twb_updPwr (s : State) (f : Pwr → Pwr) : ((s.updPwr f)).twb = s.twb := rfl
@[simp] theorem smc_updPwr (s : State) (f : Pwr → Pwr) : ((s.updPwr f)).smc = s.smc := rfl
@[simp] theorem aud_updPwr (s : State) (f : Pwr → Pwr) : ((s.updPwr f)).aud = s.aud := rfl
@[simp] theorem cal_updPwr (s : State) (f : Pwr → Pwr) : ((s.updPwr f)).cal = s.cal := rfl
@[simp] theorem snd_updPwr (s : State) (f : Pwr → Pwr) : ((s.updPwr f)).snd = s.snd := rfl
@[simp] theorem loam_updPwr (s : State) (f : Pwr → Pwr) : ((s.updPwr f)).loam = s.loam := rfl
@[simp] theorem mfp_updPwr (s : State) (f : Pwr → Pwr) : ((s.updPwr f)).mfp = s.mfp := rfl

/-! updPoint -/
@[simp] theorem fuse_updPoint (s : State) (p : PtId) (f : Point → Point) : ((s.updPoint p f)).fuse = s.fuse := rfl
@[simp] theorem boot_updPoint (s : State) (p : PtId) (f : Point → Point) : ((s.updPoint p f)).boot = s.boot := rfl
@[simp] theorem rseq_updPoint (s : State) (p : PtId) (f : Point → Point) : ((s.updPoint p f)).rseq = s.rseq := rfl
@[simp] theorem freeCtr_updPoint (s : State) (p : PtId) (f : Point → Point) : ((s.updPoint p f)).freeCtr = s.freeCtr := rfl
@[simp] theorem pending_updPoint (s : State) (p : PtId) (f : Point → Point) : ((s.updPoint p f)).pending = s.pending := rfl
@[simp] theorem regs_updPoint (s : State) (p : PtId) (f : Point → Point) : ((s.updPoint p f)).regs = s.regs := rfl
@[simp] theorem staged_updPoint (s : State) (p : PtId) (f : Point → Point) : ((s.updPoint p f)).staged = s.staged := rfl
@[simp] theorem captured_updPoint (s : State) (p : PtId) (f : Point → Point) : ((s.updPoint p f)).captured = s.captured := rfl
@[simp] theorem lastStatus_updPoint (s : State) (p : PtId) (f : Point → Point) : ((s.updPoint p f)).lastStatus = s.lastStatus := rfl
@[simp] theorem q_updPoint (s : State) (p : PtId) (f : Point → Point) : ((s.updPoint p f)).q = s.q := rfl
@[simp] theorem time_updPoint (s : State) (p : PtId) (f : Point → Point) : ((s.updPoint p f)).time = s.time := rfl
@[simp] theorem conds_updPoint (s : State) (p : PtId) (f : Point → Point) : ((s.updPoint p f)).conds = s.conds := rfl
@[simp] theorem inputs_updPoint (s : State) (p : PtId) (f : Point → Point) : ((s.updPoint p f)).inputs = s.inputs := rfl
@[simp] theorem slices_updPoint (s : State) (p : PtId) (f : Point → Point) : ((s.updPoint p f)).slices = s.slices := rfl
@[simp] theorem demods_updPoint (s : State) (p : PtId) (f : Point → Point) : ((s.updPoint p f)).demods = s.demods := rfl
@[simp] theorem planGen_updPoint (s : State) (p : PtId) (f : Point → Point) : ((s.updPoint p f)).planGen = s.planGen := rfl
@[simp] theorem snaps_updPoint (s : State) (p : PtId) (f : Point → Point) : ((s.updPoint p f)).snaps = s.snaps := rfl
@[simp] theorem beds_updPoint (s : State) (p : PtId) (f : Point → Point) : ((s.updPoint p f)).beds = s.beds := rfl
@[simp] theorem decs_updPoint (s : State) (p : PtId) (f : Point → Point) : ((s.updPoint p f)).decs = s.decs := rfl
@[simp] theorem slots_updPoint (s : State) (p : PtId) (f : Point → Point) : ((s.updPoint p f)).slots = s.slots := rfl
@[simp] theorem afdb_updPoint (s : State) (p : PtId) (f : Point → Point) : ((s.updPoint p f)).afdb = s.afdb := rfl
@[simp] theorem afNext_updPoint (s : State) (p : PtId) (f : Point → Point) : ((s.updPoint p f)).afNext = s.afNext := rfl
@[simp] theorem survey_updPoint (s : State) (p : PtId) (f : Point → Point) : ((s.updPoint p f)).survey = s.survey := rfl
@[simp] theorem strms_updPoint (s : State) (p : PtId) (f : Point → Point) : ((s.updPoint p f)).strms = s.strms := rfl
@[simp] theorem bunds_updPoint (s : State) (p : PtId) (f : Point → Point) : ((s.updPoint p f)).bunds = s.bunds := rfl
@[simp] theorem squeues_updPoint (s : State) (p : PtId) (f : Point → Point) : ((s.updPoint p f)).squeues = s.squeues := rfl
@[simp] theorem skeys_updPoint (s : State) (p : PtId) (f : Point → Point) : ((s.updPoint p f)).skeys = s.skeys := rfl
@[simp] theorem clk_updPoint (s : State) (p : PtId) (f : Point → Point) : ((s.updPoint p f)).clk = s.clk := rfl
@[simp] theorem pwr_updPoint (s : State) (p : PtId) (f : Point → Point) : ((s.updPoint p f)).pwr = s.pwr := rfl
@[simp] theorem pmb_updPoint (s : State) (p : PtId) (f : Point → Point) : ((s.updPoint p f)).pmb = s.pmb := rfl
@[simp] theorem pmbSent_updPoint (s : State) (p : PtId) (f : Point → Point) : ((s.updPoint p f)).pmbSent = s.pmbSent := rfl
@[simp] theorem sec_updPoint (s : State) (p : PtId) (f : Point → Point) : ((s.updPoint p f)).sec = s.sec := rfl
@[simp] theorem log_updPoint (s : State) (p : PtId) (f : Point → Point) : ((s.updPoint p f)).log = s.log := rfl
@[simp] theorem temps_updPoint (s : State) (p : PtId) (f : Point → Point) : ((s.updPoint p f)).temps = s.temps := rfl
@[simp] theorem ports_updPoint (s : State) (p : PtId) (f : Point → Point) : ((s.updPoint p f)).ports = s.ports := rfl
@[simp] theorem ring_updPoint (s : State) (p : PtId) (f : Point → Point) : ((s.updPoint p f)).ring = s.ring := rfl
@[simp] theorem twb_updPoint (s : State) (p : PtId) (f : Point → Point) : ((s.updPoint p f)).twb = s.twb := rfl
@[simp] theorem aud_updPoint (s : State) (p : PtId) (f : Point → Point) : ((s.updPoint p f)).aud = s.aud := rfl
@[simp] theorem cal_updPoint (s : State) (p : PtId) (f : Point → Point) : ((s.updPoint p f)).cal = s.cal := rfl
@[simp] theorem snd_updPoint (s : State) (p : PtId) (f : Point → Point) : ((s.updPoint p f)).snd = s.snd := rfl
@[simp] theorem loam_updPoint (s : State) (p : PtId) (f : Point → Point) : ((s.updPoint p f)).loam = s.loam := rfl
@[simp] theorem mfp_updPoint (s : State) (p : PtId) (f : Point → Point) : ((s.updPoint p f)).mfp = s.mfp := rfl

/-! updSec -/
@[simp] theorem fuse_updSec (s : State) (f : Sec → Sec) : ((s.updSec f)).fuse = s.fuse := rfl
@[simp] theorem boot_updSec (s : State) (f : Sec → Sec) : ((s.updSec f)).boot = s.boot := rfl
@[simp] theorem rseq_updSec (s : State) (f : Sec → Sec) : ((s.updSec f)).rseq = s.rseq := rfl
@[simp] theorem freeCtr_updSec (s : State) (f : Sec → Sec) : ((s.updSec f)).freeCtr = s.freeCtr := rfl
@[simp] theorem pending_updSec (s : State) (f : Sec → Sec) : ((s.updSec f)).pending = s.pending := rfl
@[simp] theorem regs_updSec (s : State) (f : Sec → Sec) : ((s.updSec f)).regs = s.regs := rfl
@[simp] theorem staged_updSec (s : State) (f : Sec → Sec) : ((s.updSec f)).staged = s.staged := rfl
@[simp] theorem captured_updSec (s : State) (f : Sec → Sec) : ((s.updSec f)).captured = s.captured := rfl
@[simp] theorem lastStatus_updSec (s : State) (f : Sec → Sec) : ((s.updSec f)).lastStatus = s.lastStatus := rfl
@[simp] theorem q_updSec (s : State) (f : Sec → Sec) : ((s.updSec f)).q = s.q := rfl
@[simp] theorem time_updSec (s : State) (f : Sec → Sec) : ((s.updSec f)).time = s.time := rfl
@[simp] theorem conds_updSec (s : State) (f : Sec → Sec) : ((s.updSec f)).conds = s.conds := rfl
@[simp] theorem inputs_updSec (s : State) (f : Sec → Sec) : ((s.updSec f)).inputs = s.inputs := rfl
@[simp] theorem slices_updSec (s : State) (f : Sec → Sec) : ((s.updSec f)).slices = s.slices := rfl
@[simp] theorem demods_updSec (s : State) (f : Sec → Sec) : ((s.updSec f)).demods = s.demods := rfl
@[simp] theorem planGen_updSec (s : State) (f : Sec → Sec) : ((s.updSec f)).planGen = s.planGen := rfl
@[simp] theorem snaps_updSec (s : State) (f : Sec → Sec) : ((s.updSec f)).snaps = s.snaps := rfl
@[simp] theorem beds_updSec (s : State) (f : Sec → Sec) : ((s.updSec f)).beds = s.beds := rfl
@[simp] theorem decs_updSec (s : State) (f : Sec → Sec) : ((s.updSec f)).decs = s.decs := rfl
@[simp] theorem slots_updSec (s : State) (f : Sec → Sec) : ((s.updSec f)).slots = s.slots := rfl
@[simp] theorem afdb_updSec (s : State) (f : Sec → Sec) : ((s.updSec f)).afdb = s.afdb := rfl
@[simp] theorem afNext_updSec (s : State) (f : Sec → Sec) : ((s.updSec f)).afNext = s.afNext := rfl
@[simp] theorem survey_updSec (s : State) (f : Sec → Sec) : ((s.updSec f)).survey = s.survey := rfl
@[simp] theorem strms_updSec (s : State) (f : Sec → Sec) : ((s.updSec f)).strms = s.strms := rfl
@[simp] theorem bunds_updSec (s : State) (f : Sec → Sec) : ((s.updSec f)).bunds = s.bunds := rfl
@[simp] theorem squeues_updSec (s : State) (f : Sec → Sec) : ((s.updSec f)).squeues = s.squeues := rfl
@[simp] theorem skeys_updSec (s : State) (f : Sec → Sec) : ((s.updSec f)).skeys = s.skeys := rfl
@[simp] theorem clk_updSec (s : State) (f : Sec → Sec) : ((s.updSec f)).clk = s.clk := rfl
@[simp] theorem pwr_updSec (s : State) (f : Sec → Sec) : ((s.updSec f)).pwr = s.pwr := rfl
@[simp] theorem pmb_updSec (s : State) (f : Sec → Sec) : ((s.updSec f)).pmb = s.pmb := rfl
@[simp] theorem pmbSent_updSec (s : State) (f : Sec → Sec) : ((s.updSec f)).pmbSent = s.pmbSent := rfl
@[simp] theorem log_updSec (s : State) (f : Sec → Sec) : ((s.updSec f)).log = s.log := rfl
@[simp] theorem temps_updSec (s : State) (f : Sec → Sec) : ((s.updSec f)).temps = s.temps := rfl
@[simp] theorem ports_updSec (s : State) (f : Sec → Sec) : ((s.updSec f)).ports = s.ports := rfl
@[simp] theorem ring_updSec (s : State) (f : Sec → Sec) : ((s.updSec f)).ring = s.ring := rfl
@[simp] theorem twb_updSec (s : State) (f : Sec → Sec) : ((s.updSec f)).twb = s.twb := rfl
@[simp] theorem smc_updSec (s : State) (f : Sec → Sec) : ((s.updSec f)).smc = s.smc := rfl
@[simp] theorem aud_updSec (s : State) (f : Sec → Sec) : ((s.updSec f)).aud = s.aud := rfl
@[simp] theorem cal_updSec (s : State) (f : Sec → Sec) : ((s.updSec f)).cal = s.cal := rfl
@[simp] theorem snd_updSec (s : State) (f : Sec → Sec) : ((s.updSec f)).snd = s.snd := rfl
@[simp] theorem loam_updSec (s : State) (f : Sec → Sec) : ((s.updSec f)).loam = s.loam := rfl
@[simp] theorem mfp_updSec (s : State) (f : Sec → Sec) : ((s.updSec f)).mfp = s.mfp := rfl

end Sys2Proof.Machine
end

