-- ==== Sys2Proof/Laws/Events.lean ====
section
/-! SUPPORT. What raising an event, logging a finding and the groups of field writes leave as it was. -/

namespace Sys2Proof.Machine

set_option Elab.async false

/-! puts -/
@[simp] theorem fuse_puts (s : State) (page : Nat) (l : List (Fld × Nat)) : ((s.puts page l)).fuse = s.fuse := (kept_puts (Kept.refl 0x8 s) page l).fuse
@[simp] theorem boot_puts (s : State) (page : Nat) (l : List (Fld × Nat)) : ((s.puts page l)).boot = s.boot := (kept_puts (Kept.refl 0x8 s) page l).boot rfl
@[simp] theorem rseq_puts (s : State) (page : Nat) (l : List (Fld × Nat)) : ((s.puts page l)).rseq = s.rseq := (kept_puts (Kept.refl 0x8 s) page l).rseq rfl
@[simp] theorem freeCtr_puts (s : State) (page : Nat) (l : List (Fld × Nat)) : ((s.puts page l)).freeCtr = s.freeCtr := (kept_puts (Kept.refl 0x8 s) page l).freeCtr rfl
@[simp] theorem pending_puts (s : State) (page : Nat) (l : List (Fld × Nat)) : ((s.puts page l)).pending = s.pending := (kept_puts (Kept.refl 0x8 s) page l).pending
@[simp] theorem staged_puts (s : State) (page : Nat) (l : List (Fld × Nat)) : ((s.puts page l)).staged = s.staged := (kept_puts (Kept.refl 0x8 s) page l).staged rfl
@[simp] theorem captured_puts (s : State) (page : Nat) (l : List (Fld × Nat)) : ((s.puts page l)).captured = s.captured := (kept_puts (Kept.refl 0x8 s) page l).captured rfl
@[simp] theorem lastStatus_puts (s : State) (page : Nat) (l : List (Fld × Nat)) : ((s.puts page l)).lastStatus = s.lastStatus := (kept_puts (Kept.refl 0x8 s) page l).lastStatus rfl
@[simp] theorem q_puts (s : State) (page : Nat) (l : List (Fld × Nat)) : ((s.puts page l)).q = s.q := (kept_puts (Kept.refl 0x8 s) page l).q rfl
@[simp] theorem time_puts (s : State) (page : Nat) (l : List (Fld × Nat)) : ((s.puts page l)).time = s.time := (kept_puts (Kept.refl 0x8 s) page l).time rfl
@[simp] theorem conds_puts (s : State) (page : Nat) (l : List (Fld × Nat)) : ((s.puts page l)).conds = s.conds := (kept_puts (Kept.refl 0x8 s) page l).conds rfl
@[simp] theorem inputs_puts (s : State) (page : Nat) (l : List (Fld × Nat)) : ((s.puts page l)).inputs = s.inputs := (kept_puts (Kept.refl 0x8 s) page l).inputs rfl
@[simp] theorem slices_puts (s : State) (page : Nat) (l : List (Fld × Nat)) : ((s.puts page l)).slices = s.slices := (kept_puts (Kept.refl 0x8 s) page l).slices rfl
@[simp] theorem demods_puts (s : State) (page : Nat) (l : List (Fld × Nat)) : ((s.puts page l)).demods = s.demods := (kept_puts (Kept.refl 0x8 s) page l).demods rfl
@[simp] theorem planGen_puts (s : State) (page : Nat) (l : List (Fld × Nat)) : ((s.puts page l)).planGen = s.planGen := (kept_puts (Kept.refl 0x8 s) page l).planGen rfl
@[simp] theorem snaps_puts (s : State) (page : Nat) (l : List (Fld × Nat)) : ((s.puts page l)).snaps = s.snaps := (kept_puts (Kept.refl 0x8 s) page l).snaps rfl
@[simp] theorem beds_puts (s : State) (page : Nat) (l : List (Fld × Nat)) : ((s.puts page l)).beds = s.beds := (kept_puts (Kept.refl 0x8 s) page l).beds rfl
@[simp] theorem decs_puts (s : State) (page : Nat) (l : List (Fld × Nat)) : ((s.puts page l)).decs = s.decs := (kept_puts (Kept.refl 0x8 s) page l).decs rfl
@[simp] theorem slots_puts (s : State) (page : Nat) (l : List (Fld × Nat)) : ((s.puts page l)).slots = s.slots := (kept_puts (Kept.refl 0x8 s) page l).slots rfl
@[simp] theorem afdb_puts (s : State) (page : Nat) (l : List (Fld × Nat)) : ((s.puts page l)).afdb = s.afdb := (kept_puts (Kept.refl 0x8 s) page l).afdb rfl
@[simp] theorem afNext_puts (s : State) (page : Nat) (l : List (Fld × Nat)) : ((s.puts page l)).afNext = s.afNext := (kept_puts (Kept.refl 0x8 s) page l).afNext rfl
@[simp] theorem survey_puts (s : State) (page : Nat) (l : List (Fld × Nat)) : ((s.puts page l)).survey = s.survey := (kept_puts (Kept.refl 0x8 s) page l).survey rfl
@[simp] theorem strms_puts (s : State) (page : Nat) (l : List (Fld × Nat)) : ((s.puts page l)).strms = s.strms := (kept_puts (Kept.refl 0x8 s) page l).strms rfl
@[simp] theorem bunds_puts (s : State) (page : Nat) (l : List (Fld × Nat)) : ((s.puts page l)).bunds = s.bunds := (kept_puts (Kept.refl 0x8 s) page l).bunds rfl
@[simp] theorem squeues_puts (s : State) (page : Nat) (l : List (Fld × Nat)) : ((s.puts page l)).squeues = s.squeues := (kept_puts (Kept.refl 0x8 s) page l).squeues rfl
@[simp] theorem skeys_puts (s : State) (page : Nat) (l : List (Fld × Nat)) : ((s.puts page l)).skeys = s.skeys := (kept_puts (Kept.refl 0x8 s) page l).skeys rfl
@[simp] theorem clk_puts (s : State) (page : Nat) (l : List (Fld × Nat)) : ((s.puts page l)).clk = s.clk := (kept_puts (Kept.refl 0x8 s) page l).clk rfl
@[simp] theorem pwr_puts (s : State) (page : Nat) (l : List (Fld × Nat)) : ((s.puts page l)).pwr = s.pwr := (kept_puts (Kept.refl 0x8 s) page l).pwr rfl
@[simp] theorem pmb_puts (s : State) (page : Nat) (l : List (Fld × Nat)) : ((s.puts page l)).pmb = s.pmb := (kept_puts (Kept.refl 0x8 s) page l).pmb rfl
@[simp] theorem pmbSent_puts (s : State) (page : Nat) (l : List (Fld × Nat)) : ((s.puts page l)).pmbSent = s.pmbSent := (kept_puts (Kept.refl 0x8 s) page l).pmbSent rfl
@[simp] theorem sec_puts (s : State) (page : Nat) (l : List (Fld × Nat)) : ((s.puts page l)).sec = s.sec := (kept_puts (Kept.refl 0x8 s) page l).sec rfl
@[simp] theorem log_puts (s : State) (page : Nat) (l : List (Fld × Nat)) : ((s.puts page l)).log = s.log := (kept_puts (Kept.refl 0x8 s) page l).log rfl
@[simp] theorem temps_puts (s : State) (page : Nat) (l : List (Fld × Nat)) : ((s.puts page l)).temps = s.temps := (kept_puts (Kept.refl 0x8 s) page l).temps rfl
@[simp] theorem ports_puts (s : State) (page : Nat) (l : List (Fld × Nat)) : ((s.puts page l)).ports = s.ports := (kept_puts (Kept.refl 0x8 s) page l).ports rfl
@[simp] theorem ring_puts (s : State) (page : Nat) (l : List (Fld × Nat)) : ((s.puts page l)).ring = s.ring := (kept_puts (Kept.refl 0x8 s) page l).ring rfl
@[simp] theorem twb_puts (s : State) (page : Nat) (l : List (Fld × Nat)) : ((s.puts page l)).twb = s.twb := (kept_puts (Kept.refl 0x8 s) page l).twb rfl
@[simp] theorem smc_puts (s : State) (page : Nat) (l : List (Fld × Nat)) : ((s.puts page l)).smc = s.smc := (kept_puts (Kept.refl 0x8 s) page l).smc rfl
@[simp] theorem aud_puts (s : State) (page : Nat) (l : List (Fld × Nat)) : ((s.puts page l)).aud = s.aud := (kept_puts (Kept.refl 0x8 s) page l).aud rfl
@[simp] theorem cal_puts (s : State) (page : Nat) (l : List (Fld × Nat)) : ((s.puts page l)).cal = s.cal := (kept_puts (Kept.refl 0x8 s) page l).cal rfl
@[simp] theorem snd_puts (s : State) (page : Nat) (l : List (Fld × Nat)) : ((s.puts page l)).snd = s.snd := (kept_puts (Kept.refl 0x8 s) page l).snd rfl
@[simp] theorem loam_puts (s : State) (page : Nat) (l : List (Fld × Nat)) : ((s.puts page l)).loam = s.loam := (kept_puts (Kept.refl 0x8 s) page l).loam rfl
@[simp] theorem mfp_puts (s : State) (page : Nat) (l : List (Fld × Nat)) : ((s.puts page l)).mfp = s.mfp := (kept_puts (Kept.refl 0x8 s) page l).mfp rfl

/-! gather -/
@[simp] theorem fuse_gather (s : State) (page : Nat) (ev : Ev) (owner : Nat) : ((s.gather page ev owner)).fuse = s.fuse := (kept_gather (Kept.refl 0x80 s) page ev owner).fuse
@[simp] theorem boot_gather (s : State) (page : Nat) (ev : Ev) (owner : Nat) : ((s.gather page ev owner)).boot = s.boot := (kept_gather (Kept.refl 0x80 s) page ev owner).boot rfl
@[simp] theorem rseq_gather (s : State) (page : Nat) (ev : Ev) (owner : Nat) : ((s.gather page ev owner)).rseq = s.rseq := (kept_gather (Kept.refl 0x80 s) page ev owner).rseq rfl
@[simp] theorem freeCtr_gather (s : State) (page : Nat) (ev : Ev) (owner : Nat) : ((s.gather page ev owner)).freeCtr = s.freeCtr := (kept_gather (Kept.refl 0x80 s) page ev owner).freeCtr rfl
@[simp] theorem pending_gather (s : State) (page : Nat) (ev : Ev) (owner : Nat) : ((s.gather page ev owner)).pending = s.pending := (kept_gather (Kept.refl 0x80 s) page ev owner).pending
@[simp] theorem regs_gather (s : State) (page : Nat) (ev : Ev) (owner : Nat) : ((s.gather page ev owner)).regs = s.regs := (kept_gather (Kept.refl 0x80 s) page ev owner).regs rfl
@[simp] theorem staged_gather (s : State) (page : Nat) (ev : Ev) (owner : Nat) : ((s.gather page ev owner)).staged = s.staged := (kept_gather (Kept.refl 0x80 s) page ev owner).staged rfl
@[simp] theorem captured_gather (s : State) (page : Nat) (ev : Ev) (owner : Nat) : ((s.gather page ev owner)).captured = s.captured := (kept_gather (Kept.refl 0x80 s) page ev owner).captured rfl
@[simp] theorem lastStatus_gather (s : State) (page : Nat) (ev : Ev) (owner : Nat) : ((s.gather page ev owner)).lastStatus = s.lastStatus := (kept_gather (Kept.refl 0x80 s) page ev owner).lastStatus rfl
@[simp] theorem time_gather (s : State) (page : Nat) (ev : Ev) (owner : Nat) : ((s.gather page ev owner)).time = s.time := (kept_gather (Kept.refl 0x80 s) page ev owner).time rfl
@[simp] theorem conds_gather (s : State) (page : Nat) (ev : Ev) (owner : Nat) : ((s.gather page ev owner)).conds = s.conds := (kept_gather (Kept.refl 0x80 s) page ev owner).conds rfl
@[simp] theorem inputs_gather (s : State) (page : Nat) (ev : Ev) (owner : Nat) : ((s.gather page ev owner)).inputs = s.inputs := (kept_gather (Kept.refl 0x80 s) page ev owner).inputs rfl
@[simp] theorem slices_gather (s : State) (page : Nat) (ev : Ev) (owner : Nat) : ((s.gather page ev owner)).slices = s.slices := (kept_gather (Kept.refl 0x80 s) page ev owner).slices rfl
@[simp] theorem demods_gather (s : State) (page : Nat) (ev : Ev) (owner : Nat) : ((s.gather page ev owner)).demods = s.demods := (kept_gather (Kept.refl 0x80 s) page ev owner).demods rfl
@[simp] theorem planGen_gather (s : State) (page : Nat) (ev : Ev) (owner : Nat) : ((s.gather page ev owner)).planGen = s.planGen := (kept_gather (Kept.refl 0x80 s) page ev owner).planGen rfl
@[simp] theorem snaps_gather (s : State) (page : Nat) (ev : Ev) (owner : Nat) : ((s.gather page ev owner)).snaps = s.snaps := (kept_gather (Kept.refl 0x80 s) page ev owner).snaps rfl
@[simp] theorem beds_gather (s : State) (page : Nat) (ev : Ev) (owner : Nat) : ((s.gather page ev owner)).beds = s.beds := (kept_gather (Kept.refl 0x80 s) page ev owner).beds rfl
@[simp] theorem decs_gather (s : State) (page : Nat) (ev : Ev) (owner : Nat) : ((s.gather page ev owner)).decs = s.decs := (kept_gather (Kept.refl 0x80 s) page ev owner).decs rfl
@[simp] theorem slots_gather (s : State) (page : Nat) (ev : Ev) (owner : Nat) : ((s.gather page ev owner)).slots = s.slots := (kept_gather (Kept.refl 0x80 s) page ev owner).slots rfl
@[simp] theorem afdb_gather (s : State) (page : Nat) (ev : Ev) (owner : Nat) : ((s.gather page ev owner)).afdb = s.afdb := (kept_gather (Kept.refl 0x80 s) page ev owner).afdb rfl
@[simp] theorem afNext_gather (s : State) (page : Nat) (ev : Ev) (owner : Nat) : ((s.gather page ev owner)).afNext = s.afNext := (kept_gather (Kept.refl 0x80 s) page ev owner).afNext rfl
@[simp] theorem survey_gather (s : State) (page : Nat) (ev : Ev) (owner : Nat) : ((s.gather page ev owner)).survey = s.survey := (kept_gather (Kept.refl 0x80 s) page ev owner).survey rfl
@[simp] theorem strms_gather (s : State) (page : Nat) (ev : Ev) (owner : Nat) : ((s.gather page ev owner)).strms = s.strms := (kept_gather (Kept.refl 0x80 s) page ev owner).strms rfl
@[simp] theorem bunds_gather (s : State) (page : Nat) (ev : Ev) (owner : Nat) : ((s.gather page ev owner)).bunds = s.bunds := (kept_gather (Kept.refl 0x80 s) page ev owner).bunds rfl
@[simp] theorem squeues_gather (s : State) (page : Nat) (ev : Ev) (owner : Nat) : ((s.gather page ev owner)).squeues = s.squeues := (kept_gather (Kept.refl 0x80 s) page ev owner).squeues rfl
@[simp] theorem skeys_gather (s : State) (page : Nat) (ev : Ev) (owner : Nat) : ((s.gather page ev owner)).skeys = s.skeys := (kept_gather (Kept.refl 0x80 s) page ev owner).skeys rfl
@[simp] theorem clk_gather (s : State) (page : Nat) (ev : Ev) (owner : Nat) : ((s.gather page ev owner)).clk = s.clk := (kept_gather (Kept.refl 0x80 s) page ev owner).clk rfl
@[simp] theorem pwr_gather (s : State) (page : Nat) (ev : Ev) (owner : Nat) : ((s.gather page ev owner)).pwr = s.pwr := (kept_gather (Kept.refl 0x80 s) page ev owner).pwr rfl
@[simp] theorem pmb_gather (s : State) (page : Nat) (ev : Ev) (owner : Nat) : ((s.gather page ev owner)).pmb = s.pmb := (kept_gather (Kept.refl 0x80 s) page ev owner).pmb rfl
@[simp] theorem pmbSent_gather (s : State) (page : Nat) (ev : Ev) (owner : Nat) : ((s.gather page ev owner)).pmbSent = s.pmbSent := (kept_gather (Kept.refl 0x80 s) page ev owner).pmbSent rfl
@[simp] theorem sec_gather (s : State) (page : Nat) (ev : Ev) (owner : Nat) : ((s.gather page ev owner)).sec = s.sec := (kept_gather (Kept.refl 0x80 s) page ev owner).sec rfl
@[simp] theorem log_gather (s : State) (page : Nat) (ev : Ev) (owner : Nat) : ((s.gather page ev owner)).log = s.log := (kept_gather (Kept.refl 0x80 s) page ev owner).log rfl
@[simp] theorem temps_gather (s : State) (page : Nat) (ev : Ev) (owner : Nat) : ((s.gather page ev owner)).temps = s.temps := (kept_gather (Kept.refl 0x80 s) page ev owner).temps rfl
@[simp] theorem ports_gather (s : State) (page : Nat) (ev : Ev) (owner : Nat) : ((s.gather page ev owner)).ports = s.ports := (kept_gather (Kept.refl 0x80 s) page ev owner).ports rfl
@[simp] theorem ring_gather (s : State) (page : Nat) (ev : Ev) (owner : Nat) : ((s.gather page ev owner)).ring = s.ring := (kept_gather (Kept.refl 0x80 s) page ev owner).ring rfl
@[simp] theorem twb_gather (s : State) (page : Nat) (ev : Ev) (owner : Nat) : ((s.gather page ev owner)).twb = s.twb := (kept_gather (Kept.refl 0x80 s) page ev owner).twb rfl
@[simp] theorem smc_gather (s : State) (page : Nat) (ev : Ev) (owner : Nat) : ((s.gather page ev owner)).smc = s.smc := (kept_gather (Kept.refl 0x80 s) page ev owner).smc rfl
@[simp] theorem aud_gather (s : State) (page : Nat) (ev : Ev) (owner : Nat) : ((s.gather page ev owner)).aud = s.aud := (kept_gather (Kept.refl 0x80 s) page ev owner).aud rfl
@[simp] theorem cal_gather (s : State) (page : Nat) (ev : Ev) (owner : Nat) : ((s.gather page ev owner)).cal = s.cal := (kept_gather (Kept.refl 0x80 s) page ev owner).cal rfl
@[simp] theorem snd_gather (s : State) (page : Nat) (ev : Ev) (owner : Nat) : ((s.gather page ev owner)).snd = s.snd := (kept_gather (Kept.refl 0x80 s) page ev owner).snd rfl
@[simp] theorem loam_gather (s : State) (page : Nat) (ev : Ev) (owner : Nat) : ((s.gather page ev owner)).loam = s.loam := (kept_gather (Kept.refl 0x80 s) page ev owner).loam rfl
@[simp] theorem mfp_gather (s : State) (page : Nat) (ev : Ev) (owner : Nat) : ((s.gather page ev owner)).mfp = s.mfp := (kept_gather (Kept.refl 0x80 s) page ev owner).mfp rfl

/-! raiseTo -/
@[simp] theorem fuse_raiseTo (s : State) (page : Nat) (ev : Ev) (owner : Nat) : ((s.raiseTo page ev owner)).fuse = s.fuse := (kept_raiseTo (Kept.refl 0x88 s) page ev owner).fuse
@[simp] theorem boot_raiseTo (s : State) (page : Nat) (ev : Ev) (owner : Nat) : ((s.raiseTo page ev owner)).boot = s.boot := (kept_raiseTo (Kept.refl 0x88 s) page ev owner).boot rfl
@[simp] theorem rseq_raiseTo (s : State) (page : Nat) (ev : Ev) (owner : Nat) : ((s.raiseTo page ev owner)).rseq = s.rseq := (kept_raiseTo (Kept.refl 0x88 s) page ev owner).rseq rfl
@[simp] theorem freeCtr_raiseTo (s : State) (page : Nat) (ev : Ev) (owner : Nat) : ((s.raiseTo page ev owner)).freeCtr = s.freeCtr := (kept_raiseTo (Kept.refl 0x88 s) page ev owner).freeCtr rfl
@[simp] theorem pending_raiseTo (s : State) (page : Nat) (ev : Ev) (owner : Nat) : ((s.raiseTo page ev owner)).pending = s.pending := (kept_raiseTo (Kept.refl 0x88 s) page ev owner).pending
@[simp] theorem staged_raiseTo (s : State) (page : Nat) (ev : Ev) (owner : Nat) : ((s.raiseTo page ev owner)).staged = s.staged := (kept_raiseTo (Kept.refl 0x88 s) page ev owner).staged rfl
@[simp] theorem captured_raiseTo (s : State) (page : Nat) (ev : Ev) (owner : Nat) : ((s.raiseTo page ev owner)).captured = s.captured := (kept_raiseTo (Kept.refl 0x88 s) page ev owner).captured rfl
@[simp] theorem lastStatus_raiseTo (s : State) (page : Nat) (ev : Ev) (owner : Nat) : ((s.raiseTo page ev owner)).lastStatus = s.lastStatus := (kept_raiseTo (Kept.refl 0x88 s) page ev owner).lastStatus rfl
@[simp] theorem time_raiseTo (s : State) (page : Nat) (ev : Ev) (owner : Nat) : ((s.raiseTo page ev owner)).time = s.time := (kept_raiseTo (Kept.refl 0x88 s) page ev owner).time rfl
@[simp] theorem conds_raiseTo (s : State) (page : Nat) (ev : Ev) (owner : Nat) : ((s.raiseTo page ev owner)).conds = s.conds := (kept_raiseTo (Kept.refl 0x88 s) page ev owner).conds rfl
@[simp] theorem inputs_raiseTo (s : State) (page : Nat) (ev : Ev) (owner : Nat) : ((s.raiseTo page ev owner)).inputs = s.inputs := (kept_raiseTo (Kept.refl 0x88 s) page ev owner).inputs rfl
@[simp] theorem slices_raiseTo (s : State) (page : Nat) (ev : Ev) (owner : Nat) : ((s.raiseTo page ev owner)).slices = s.slices := (kept_raiseTo (Kept.refl 0x88 s) page ev owner).slices rfl
@[simp] theorem demods_raiseTo (s : State) (page : Nat) (ev : Ev) (owner : Nat) : ((s.raiseTo page ev owner)).demods = s.demods := (kept_raiseTo (Kept.refl 0x88 s) page ev owner).demods rfl
@[simp] theorem planGen_raiseTo (s : State) (page : Nat) (ev : Ev) (owner : Nat) : ((s.raiseTo page ev owner)).planGen = s.planGen := (kept_raiseTo (Kept.refl 0x88 s) page ev owner).planGen rfl
@[simp] theorem snaps_raiseTo (s : State) (page : Nat) (ev : Ev) (owner : Nat) : ((s.raiseTo page ev owner)).snaps = s.snaps := (kept_raiseTo (Kept.refl 0x88 s) page ev owner).snaps rfl
@[simp] theorem beds_raiseTo (s : State) (page : Nat) (ev : Ev) (owner : Nat) : ((s.raiseTo page ev owner)).beds = s.beds := (kept_raiseTo (Kept.refl 0x88 s) page ev owner).beds rfl
@[simp] theorem decs_raiseTo (s : State) (page : Nat) (ev : Ev) (owner : Nat) : ((s.raiseTo page ev owner)).decs = s.decs := (kept_raiseTo (Kept.refl 0x88 s) page ev owner).decs rfl
@[simp] theorem slots_raiseTo (s : State) (page : Nat) (ev : Ev) (owner : Nat) : ((s.raiseTo page ev owner)).slots = s.slots := (kept_raiseTo (Kept.refl 0x88 s) page ev owner).slots rfl
@[simp] theorem afdb_raiseTo (s : State) (page : Nat) (ev : Ev) (owner : Nat) : ((s.raiseTo page ev owner)).afdb = s.afdb := (kept_raiseTo (Kept.refl 0x88 s) page ev owner).afdb rfl
@[simp] theorem afNext_raiseTo (s : State) (page : Nat) (ev : Ev) (owner : Nat) : ((s.raiseTo page ev owner)).afNext = s.afNext := (kept_raiseTo (Kept.refl 0x88 s) page ev owner).afNext rfl
@[simp] theorem survey_raiseTo (s : State) (page : Nat) (ev : Ev) (owner : Nat) : ((s.raiseTo page ev owner)).survey = s.survey := (kept_raiseTo (Kept.refl 0x88 s) page ev owner).survey rfl
@[simp] theorem strms_raiseTo (s : State) (page : Nat) (ev : Ev) (owner : Nat) : ((s.raiseTo page ev owner)).strms = s.strms := (kept_raiseTo (Kept.refl 0x88 s) page ev owner).strms rfl
@[simp] theorem bunds_raiseTo (s : State) (page : Nat) (ev : Ev) (owner : Nat) : ((s.raiseTo page ev owner)).bunds = s.bunds := (kept_raiseTo (Kept.refl 0x88 s) page ev owner).bunds rfl
@[simp] theorem squeues_raiseTo (s : State) (page : Nat) (ev : Ev) (owner : Nat) : ((s.raiseTo page ev owner)).squeues = s.squeues := (kept_raiseTo (Kept.refl 0x88 s) page ev owner).squeues rfl
@[simp] theorem skeys_raiseTo (s : State) (page : Nat) (ev : Ev) (owner : Nat) : ((s.raiseTo page ev owner)).skeys = s.skeys := (kept_raiseTo (Kept.refl 0x88 s) page ev owner).skeys rfl
@[simp] theorem clk_raiseTo (s : State) (page : Nat) (ev : Ev) (owner : Nat) : ((s.raiseTo page ev owner)).clk = s.clk := (kept_raiseTo (Kept.refl 0x88 s) page ev owner).clk rfl
@[simp] theorem pwr_raiseTo (s : State) (page : Nat) (ev : Ev) (owner : Nat) : ((s.raiseTo page ev owner)).pwr = s.pwr := (kept_raiseTo (Kept.refl 0x88 s) page ev owner).pwr rfl
@[simp] theorem pmb_raiseTo (s : State) (page : Nat) (ev : Ev) (owner : Nat) : ((s.raiseTo page ev owner)).pmb = s.pmb := (kept_raiseTo (Kept.refl 0x88 s) page ev owner).pmb rfl
@[simp] theorem pmbSent_raiseTo (s : State) (page : Nat) (ev : Ev) (owner : Nat) : ((s.raiseTo page ev owner)).pmbSent = s.pmbSent := (kept_raiseTo (Kept.refl 0x88 s) page ev owner).pmbSent rfl
@[simp] theorem sec_raiseTo (s : State) (page : Nat) (ev : Ev) (owner : Nat) : ((s.raiseTo page ev owner)).sec = s.sec := (kept_raiseTo (Kept.refl 0x88 s) page ev owner).sec rfl
@[simp] theorem log_raiseTo (s : State) (page : Nat) (ev : Ev) (owner : Nat) : ((s.raiseTo page ev owner)).log = s.log := (kept_raiseTo (Kept.refl 0x88 s) page ev owner).log rfl
@[simp] theorem temps_raiseTo (s : State) (page : Nat) (ev : Ev) (owner : Nat) : ((s.raiseTo page ev owner)).temps = s.temps := (kept_raiseTo (Kept.refl 0x88 s) page ev owner).temps rfl
@[simp] theorem ports_raiseTo (s : State) (page : Nat) (ev : Ev) (owner : Nat) : ((s.raiseTo page ev owner)).ports = s.ports := (kept_raiseTo (Kept.refl 0x88 s) page ev owner).ports rfl
@[simp] theorem ring_raiseTo (s : State) (page : Nat) (ev : Ev) (owner : Nat) : ((s.raiseTo page ev owner)).ring = s.ring := (kept_raiseTo (Kept.refl 0x88 s) page ev owner).ring rfl
@[simp] theorem twb_raiseTo (s : State) (page : Nat) (ev : Ev) (owner : Nat) : ((s.raiseTo page ev owner)).twb = s.twb := (kept_raiseTo (Kept.refl 0x88 s) page ev owner).twb rfl
@[simp] theorem smc_raiseTo (s : State) (page : Nat) (ev : Ev) (owner : Nat) : ((s.raiseTo page ev owner)).smc = s.smc := (kept_raiseTo (Kept.refl 0x88 s) page ev owner).smc rfl
@[simp] theorem aud_raiseTo (s : State) (page : Nat) (ev : Ev) (owner : Nat) : ((s.raiseTo page ev owner)).aud = s.aud := (kept_raiseTo (Kept.refl 0x88 s) page ev owner).aud rfl
@[simp] theorem cal_raiseTo (s : State) (page : Nat) (ev : Ev) (owner : Nat) : ((s.raiseTo page ev owner)).cal = s.cal := (kept_raiseTo (Kept.refl 0x88 s) page ev owner).cal rfl
@[simp] theorem snd_raiseTo (s : State) (page : Nat) (ev : Ev) (owner : Nat) : ((s.raiseTo page ev owner)).snd = s.snd := (kept_raiseTo (Kept.refl 0x88 s) page ev owner).snd rfl
@[simp] theorem loam_raiseTo (s : State) (page : Nat) (ev : Ev) (owner : Nat) : ((s.raiseTo page ev owner)).loam = s.loam := (kept_raiseTo (Kept.refl 0x88 s) page ev owner).loam rfl
@[simp] theorem mfp_raiseTo (s : State) (page : Nat) (ev : Ev) (owner : Nat) : ((s.raiseTo page ev owner)).mfp = s.mfp := (kept_raiseTo (Kept.refl 0x88 s) page ev owner).mfp rfl

/-! raise -/
@[simp] theorem fuse_raise (s : State) (page : Nat) (ev : Ev) : ((s.raise page ev)).fuse = s.fuse := (kept_raise (Kept.refl 0x88 s) page ev).fuse
@[simp] theorem boot_raise (s : State) (page : Nat) (ev : Ev) : ((s.raise page ev)).boot = s.boot := (kept_raise (Kept.refl 0x88 s) page ev).boot rfl
@[simp] theorem rseq_raise (s : State) (page : Nat) (ev : Ev) : ((s.raise page ev)).rseq = s.rseq := (kept_raise (Kept.refl 0x88 s) page ev).rseq rfl
@[simp] theorem freeCtr_raise (s : State) (page : Nat) (ev : Ev) : ((s.raise page ev)).freeCtr = s.freeCtr := (kept_raise (Kept.refl 0x88 s) page ev).freeCtr rfl
@[simp] theorem pending_raise (s : State) (page : Nat) (ev : Ev) : ((s.raise page ev)).pending = s.pending := (kept_raise (Kept.refl 0x88 s) page ev).pending
@[simp] theorem staged_raise (s : State) (page : Nat) (ev : Ev) : ((s.raise page ev)).staged = s.staged := (kept_raise (Kept.refl 0x88 s) page ev).staged rfl
@[simp] theorem captured_raise (s : State) (page : Nat) (ev : Ev) : ((s.raise page ev)).captured = s.captured := (kept_raise (Kept.refl 0x88 s) page ev).captured rfl
@[simp] theorem lastStatus_raise (s : State) (page : Nat) (ev : Ev) : ((s.raise page ev)).lastStatus = s.lastStatus := (kept_raise (Kept.refl 0x88 s) page ev).lastStatus rfl
@[simp] theorem time_raise (s : State) (page : Nat) (ev : Ev) : ((s.raise page ev)).time = s.time := (kept_raise (Kept.refl 0x88 s) page ev).time rfl
@[simp] theorem conds_raise (s : State) (page : Nat) (ev : Ev) : ((s.raise page ev)).conds = s.conds := (kept_raise (Kept.refl 0x88 s) page ev).conds rfl
@[simp] theorem inputs_raise (s : State) (page : Nat) (ev : Ev) : ((s.raise page ev)).inputs = s.inputs := (kept_raise (Kept.refl 0x88 s) page ev).inputs rfl
@[simp] theorem slices_raise (s : State) (page : Nat) (ev : Ev) : ((s.raise page ev)).slices = s.slices := (kept_raise (Kept.refl 0x88 s) page ev).slices rfl
@[simp] theorem demods_raise (s : State) (page : Nat) (ev : Ev) : ((s.raise page ev)).demods = s.demods := (kept_raise (Kept.refl 0x88 s) page ev).demods rfl
@[simp] theorem planGen_raise (s : State) (page : Nat) (ev : Ev) : ((s.raise page ev)).planGen = s.planGen := (kept_raise (Kept.refl 0x88 s) page ev).planGen rfl
@[simp] theorem snaps_raise (s : State) (page : Nat) (ev : Ev) : ((s.raise page ev)).snaps = s.snaps := (kept_raise (Kept.refl 0x88 s) page ev).snaps rfl
@[simp] theorem beds_raise (s : State) (page : Nat) (ev : Ev) : ((s.raise page ev)).beds = s.beds := (kept_raise (Kept.refl 0x88 s) page ev).beds rfl
@[simp] theorem decs_raise (s : State) (page : Nat) (ev : Ev) : ((s.raise page ev)).decs = s.decs := (kept_raise (Kept.refl 0x88 s) page ev).decs rfl
@[simp] theorem slots_raise (s : State) (page : Nat) (ev : Ev) : ((s.raise page ev)).slots = s.slots := (kept_raise (Kept.refl 0x88 s) page ev).slots rfl
@[simp] theorem afdb_raise (s : State) (page : Nat) (ev : Ev) : ((s.raise page ev)).afdb = s.afdb := (kept_raise (Kept.refl 0x88 s) page ev).afdb rfl
@[simp] theorem afNext_raise (s : State) (page : Nat) (ev : Ev) : ((s.raise page ev)).afNext = s.afNext := (kept_raise (Kept.refl 0x88 s) page ev).afNext rfl
@[simp] theorem survey_raise (s : State) (page : Nat) (ev : Ev) : ((s.raise page ev)).survey = s.survey := (kept_raise (Kept.refl 0x88 s) page ev).survey rfl
@[simp] theorem strms_raise (s : State) (page : Nat) (ev : Ev) : ((s.raise page ev)).strms = s.strms := (kept_raise (Kept.refl 0x88 s) page ev).strms rfl
@[simp] theorem bunds_raise (s : State) (page : Nat) (ev : Ev) : ((s.raise page ev)).bunds = s.bunds := (kept_raise (Kept.refl 0x88 s) page ev).bunds rfl
@[simp] theorem squeues_raise (s : State) (page : Nat) (ev : Ev) : ((s.raise page ev)).squeues = s.squeues := (kept_raise (Kept.refl 0x88 s) page ev).squeues rfl
@[simp] theorem skeys_raise (s : State) (page : Nat) (ev : Ev) : ((s.raise page ev)).skeys = s.skeys := (kept_raise (Kept.refl 0x88 s) page ev).skeys rfl
@[simp] theorem clk_raise (s : State) (page : Nat) (ev : Ev) : ((s.raise page ev)).clk = s.clk := (kept_raise (Kept.refl 0x88 s) page ev).clk rfl
@[simp] theorem pwr_raise (s : State) (page : Nat) (ev : Ev) : ((s.raise page ev)).pwr = s.pwr := (kept_raise (Kept.refl 0x88 s) page ev).pwr rfl
@[simp] theorem pmb_raise (s : State) (page : Nat) (ev : Ev) : ((s.raise page ev)).pmb = s.pmb := (kept_raise (Kept.refl 0x88 s) page ev).pmb rfl
@[simp] theorem pmbSent_raise (s : State) (page : Nat) (ev : Ev) : ((s.raise page ev)).pmbSent = s.pmbSent := (kept_raise (Kept.refl 0x88 s) page ev).pmbSent rfl
@[simp] theorem sec_raise (s : State) (page : Nat) (ev : Ev) : ((s.raise page ev)).sec = s.sec := (kept_raise (Kept.refl 0x88 s) page ev).sec rfl
@[simp] theorem log_raise (s : State) (page : Nat) (ev : Ev) : ((s.raise page ev)).log = s.log := (kept_raise (Kept.refl 0x88 s) page ev).log rfl
@[simp] theorem temps_raise (s : State) (page : Nat) (ev : Ev) : ((s.raise page ev)).temps = s.temps := (kept_raise (Kept.refl 0x88 s) page ev).temps rfl
@[simp] theorem ports_raise (s : State) (page : Nat) (ev : Ev) : ((s.raise page ev)).ports = s.ports := (kept_raise (Kept.refl 0x88 s) page ev).ports rfl
@[simp] theorem ring_raise (s : State) (page : Nat) (ev : Ev) : ((s.raise page ev)).ring = s.ring := (kept_raise (Kept.refl 0x88 s) page ev).ring rfl
@[simp] theorem twb_raise (s : State) (page : Nat) (ev : Ev) : ((s.raise page ev)).twb = s.twb := (kept_raise (Kept.refl 0x88 s) page ev).twb rfl
@[simp] theorem smc_raise (s : State) (page : Nat) (ev : Ev) : ((s.raise page ev)).smc = s.smc := (kept_raise (Kept.refl 0x88 s) page ev).smc rfl
@[simp] theorem aud_raise (s : State) (page : Nat) (ev : Ev) : ((s.raise page ev)).aud = s.aud := (kept_raise (Kept.refl 0x88 s) page ev).aud rfl
@[simp] theorem cal_raise (s : State) (page : Nat) (ev : Ev) : ((s.raise page ev)).cal = s.cal := (kept_raise (Kept.refl 0x88 s) page ev).cal rfl
@[simp] theorem snd_raise (s : State) (page : Nat) (ev : Ev) : ((s.raise page ev)).snd = s.snd := (kept_raise (Kept.refl 0x88 s) page ev).snd rfl
@[simp] theorem loam_raise (s : State) (page : Nat) (ev : Ev) : ((s.raise page ev)).loam = s.loam := (kept_raise (Kept.refl 0x88 s) page ev).loam rfl
@[simp] theorem mfp_raise (s : State) (page : Nat) (ev : Ev) : ((s.raise page ev)).mfp = s.mfp := (kept_raise (Kept.refl 0x88 s) page ev).mfp rfl

/-! raiseAbsent -/
@[simp] theorem fuse_raiseAbsent (s : State) (page : Nat) (writer : Nat) : ((s.raiseAbsent page writer)).fuse = s.fuse := (kept_raiseAbsent (Kept.refl 0x80 s) page writer).fuse
@[simp] theorem boot_raiseAbsent (s : State) (page : Nat) (writer : Nat) : ((s.raiseAbsent page writer)).boot = s.boot := (kept_raiseAbsent (Kept.refl 0x80 s) page writer).boot rfl
@[simp] theorem rseq_raiseAbsent (s : State) (page : Nat) (writer : Nat) : ((s.raiseAbsent page writer)).rseq = s.rseq := (kept_raiseAbsent (Kept.refl 0x80 s) page writer).rseq rfl
@[simp] theorem freeCtr_raiseAbsent (s : State) (page : Nat) (writer : Nat) : ((s.raiseAbsent page writer)).freeCtr = s.freeCtr := (kept_raiseAbsent (Kept.refl 0x80 s) page writer).freeCtr rfl
@[simp] theorem pending_raiseAbsent (s : State) (page : Nat) (writer : Nat) : ((s.raiseAbsent page writer)).pending = s.pending := (kept_raiseAbsent (Kept.refl 0x80 s) page writer).pending
@[simp] theorem regs_raiseAbsent (s : State) (page : Nat) (writer : Nat) : ((s.raiseAbsent page writer)).regs = s.regs := (kept_raiseAbsent (Kept.refl 0x80 s) page writer).regs rfl
@[simp] theorem staged_raiseAbsent (s : State) (page : Nat) (writer : Nat) : ((s.raiseAbsent page writer)).staged = s.staged := (kept_raiseAbsent (Kept.refl 0x80 s) page writer).staged rfl
@[simp] theorem captured_raiseAbsent (s : State) (page : Nat) (writer : Nat) : ((s.raiseAbsent page writer)).captured = s.captured := (kept_raiseAbsent (Kept.refl 0x80 s) page writer).captured rfl
@[simp] theorem lastStatus_raiseAbsent (s : State) (page : Nat) (writer : Nat) : ((s.raiseAbsent page writer)).lastStatus = s.lastStatus := (kept_raiseAbsent (Kept.refl 0x80 s) page writer).lastStatus rfl
@[simp] theorem time_raiseAbsent (s : State) (page : Nat) (writer : Nat) : ((s.raiseAbsent page writer)).time = s.time := (kept_raiseAbsent (Kept.refl 0x80 s) page writer).time rfl
@[simp] theorem conds_raiseAbsent (s : State) (page : Nat) (writer : Nat) : ((s.raiseAbsent page writer)).conds = s.conds := (kept_raiseAbsent (Kept.refl 0x80 s) page writer).conds rfl
@[simp] theorem inputs_raiseAbsent (s : State) (page : Nat) (writer : Nat) : ((s.raiseAbsent page writer)).inputs = s.inputs := (kept_raiseAbsent (Kept.refl 0x80 s) page writer).inputs rfl
@[simp] theorem slices_raiseAbsent (s : State) (page : Nat) (writer : Nat) : ((s.raiseAbsent page writer)).slices = s.slices := (kept_raiseAbsent (Kept.refl 0x80 s) page writer).slices rfl
@[simp] theorem demods_raiseAbsent (s : State) (page : Nat) (writer : Nat) : ((s.raiseAbsent page writer)).demods = s.demods := (kept_raiseAbsent (Kept.refl 0x80 s) page writer).demods rfl
@[simp] theorem planGen_raiseAbsent (s : State) (page : Nat) (writer : Nat) : ((s.raiseAbsent page writer)).planGen = s.planGen := (kept_raiseAbsent (Kept.refl 0x80 s) page writer).planGen rfl
@[simp] theorem snaps_raiseAbsent (s : State) (page : Nat) (writer : Nat) : ((s.raiseAbsent page writer)).snaps = s.snaps := (kept_raiseAbsent (Kept.refl 0x80 s) page writer).snaps rfl
@[simp] theorem beds_raiseAbsent (s : State) (page : Nat) (writer : Nat) : ((s.raiseAbsent page writer)).beds = s.beds := (kept_raiseAbsent (Kept.refl 0x80 s) page writer).beds rfl
@[simp] theorem decs_raiseAbsent (s : State) (page : Nat) (writer : Nat) : ((s.raiseAbsent page writer)).decs = s.decs := (kept_raiseAbsent (Kept.refl 0x80 s) page writer).decs rfl
@[simp] theorem slots_raiseAbsent (s : State) (page : Nat) (writer : Nat) : ((s.raiseAbsent page writer)).slots = s.slots := (kept_raiseAbsent (Kept.refl 0x80 s) page writer).slots rfl
@[simp] theorem afdb_raiseAbsent (s : State) (page : Nat) (writer : Nat) : ((s.raiseAbsent page writer)).afdb = s.afdb := (kept_raiseAbsent (Kept.refl 0x80 s) page writer).afdb rfl
@[simp] theorem afNext_raiseAbsent (s : State) (page : Nat) (writer : Nat) : ((s.raiseAbsent page writer)).afNext = s.afNext := (kept_raiseAbsent (Kept.refl 0x80 s) page writer).afNext rfl
@[simp] theorem survey_raiseAbsent (s : State) (page : Nat) (writer : Nat) : ((s.raiseAbsent page writer)).survey = s.survey := (kept_raiseAbsent (Kept.refl 0x80 s) page writer).survey rfl
@[simp] theorem strms_raiseAbsent (s : State) (page : Nat) (writer : Nat) : ((s.raiseAbsent page writer)).strms = s.strms := (kept_raiseAbsent (Kept.refl 0x80 s) page writer).strms rfl
@[simp] theorem bunds_raiseAbsent (s : State) (page : Nat) (writer : Nat) : ((s.raiseAbsent page writer)).bunds = s.bunds := (kept_raiseAbsent (Kept.refl 0x80 s) page writer).bunds rfl
@[simp] theorem squeues_raiseAbsent (s : State) (page : Nat) (writer : Nat) : ((s.raiseAbsent page writer)).squeues = s.squeues := (kept_raiseAbsent (Kept.refl 0x80 s) page writer).squeues rfl
@[simp] theorem skeys_raiseAbsent (s : State) (page : Nat) (writer : Nat) : ((s.raiseAbsent page writer)).skeys = s.skeys := (kept_raiseAbsent (Kept.refl 0x80 s) page writer).skeys rfl
@[simp] theorem clk_raiseAbsent (s : State) (page : Nat) (writer : Nat) : ((s.raiseAbsent page writer)).clk = s.clk := (kept_raiseAbsent (Kept.refl 0x80 s) page writer).clk rfl
@[simp] theorem pwr_raiseAbsent (s : State) (page : Nat) (writer : Nat) : ((s.raiseAbsent page writer)).pwr = s.pwr := (kept_raiseAbsent (Kept.refl 0x80 s) page writer).pwr rfl
@[simp] theorem pmb_raiseAbsent (s : State) (page : Nat) (writer : Nat) : ((s.raiseAbsent page writer)).pmb = s.pmb := (kept_raiseAbsent (Kept.refl 0x80 s) page writer).pmb rfl
@[simp] theorem pmbSent_raiseAbsent (s : State) (page : Nat) (writer : Nat) : ((s.raiseAbsent page writer)).pmbSent = s.pmbSent := (kept_raiseAbsent (Kept.refl 0x80 s) page writer).pmbSent rfl
@[simp] theorem sec_raiseAbsent (s : State) (page : Nat) (writer : Nat) : ((s.raiseAbsent page writer)).sec = s.sec := (kept_raiseAbsent (Kept.refl 0x80 s) page writer).sec rfl
@[simp] theorem log_raiseAbsent (s : State) (page : Nat) (writer : Nat) : ((s.raiseAbsent page writer)).log = s.log := (kept_raiseAbsent (Kept.refl 0x80 s) page writer).log rfl
@[simp] theorem temps_raiseAbsent (s : State) (page : Nat) (writer : Nat) : ((s.raiseAbsent page writer)).temps = s.temps := (kept_raiseAbsent (Kept.refl 0x80 s) page writer).temps rfl
@[simp] theorem ports_raiseAbsent (s : State) (page : Nat) (writer : Nat) : ((s.raiseAbsent page writer)).ports = s.ports := (kept_raiseAbsent (Kept.refl 0x80 s) page writer).ports rfl
@[simp] theorem ring_raiseAbsent (s : State) (page : Nat) (writer : Nat) : ((s.raiseAbsent page writer)).ring = s.ring := (kept_raiseAbsent (Kept.refl 0x80 s) page writer).ring rfl
@[simp] theorem twb_raiseAbsent (s : State) (page : Nat) (writer : Nat) : ((s.raiseAbsent page writer)).twb = s.twb := (kept_raiseAbsent (Kept.refl 0x80 s) page writer).twb rfl
@[simp] theorem smc_raiseAbsent (s : State) (page : Nat) (writer : Nat) : ((s.raiseAbsent page writer)).smc = s.smc := (kept_raiseAbsent (Kept.refl 0x80 s) page writer).smc rfl
@[simp] theorem aud_raiseAbsent (s : State) (page : Nat) (writer : Nat) : ((s.raiseAbsent page writer)).aud = s.aud := (kept_raiseAbsent (Kept.refl 0x80 s) page writer).aud rfl
@[simp] theorem cal_raiseAbsent (s : State) (page : Nat) (writer : Nat) : ((s.raiseAbsent page writer)).cal = s.cal := (kept_raiseAbsent (Kept.refl 0x80 s) page writer).cal rfl
@[simp] theorem snd_raiseAbsent (s : State) (page : Nat) (writer : Nat) : ((s.raiseAbsent page writer)).snd = s.snd := (kept_raiseAbsent (Kept.refl 0x80 s) page writer).snd rfl
@[simp] theorem loam_raiseAbsent (s : State) (page : Nat) (writer : Nat) : ((s.raiseAbsent page writer)).loam = s.loam := (kept_raiseAbsent (Kept.refl 0x80 s) page writer).loam rfl
@[simp] theorem mfp_raiseAbsent (s : State) (page : Nat) (writer : Nat) : ((s.raiseAbsent page writer)).mfp = s.mfp := (kept_raiseAbsent (Kept.refl 0x80 s) page writer).mfp rfl

/-! logFinding -/
@[simp] theorem fuse_logFinding (s : State) (event : Word) (page : Nat) (det : Nat) (src : Nat) (detail : Word) : ((s.logFinding event page det src detail)).fuse = s.fuse := (kept_logFinding (Kept.refl 0xc0000088 s) event page det src detail).fuse
@[simp] theorem boot_logFinding (s : State) (event : Word) (page : Nat) (det : Nat) (src : Nat) (detail : Word) : ((s.logFinding event page det src detail)).boot = s.boot := (kept_logFinding (Kept.refl 0xc0000088 s) event page det src detail).boot rfl
@[simp] theorem rseq_logFinding (s : State) (event : Word) (page : Nat) (det : Nat) (src : Nat) (detail : Word) : ((s.logFinding event page det src detail)).rseq = s.rseq := (kept_logFinding (Kept.refl 0xc0000088 s) event page det src detail).rseq rfl
@[simp] theorem freeCtr_logFinding (s : State) (event : Word) (page : Nat) (det : Nat) (src : Nat) (detail : Word) : ((s.logFinding event page det src detail)).freeCtr = s.freeCtr := (kept_logFinding (Kept.refl 0xc0000088 s) event page det src detail).freeCtr rfl
@[simp] theorem pending_logFinding (s : State) (event : Word) (page : Nat) (det : Nat) (src : Nat) (detail : Word) : ((s.logFinding event page det src detail)).pending = s.pending := (kept_logFinding (Kept.refl 0xc0000088 s) event page det src detail).pending
@[simp] theorem staged_logFinding (s : State) (event : Word) (page : Nat) (det : Nat) (src : Nat) (detail : Word) : ((s.logFinding event page det src detail)).staged = s.staged := (kept_logFinding (Kept.refl 0xc0000088 s) event page det src detail).staged rfl
@[simp] theorem captured_logFinding (s : State) (event : Word) (page : Nat) (det : Nat) (src : Nat) (detail : Word) : ((s.logFinding event page det src detail)).captured = s.captured := (kept_logFinding (Kept.refl 0xc0000088 s) event page det src detail).captured rfl
@[simp] theorem lastStatus_logFinding (s : State) (event : Word) (page : Nat) (det : Nat) (src : Nat) (detail : Word) : ((s.logFinding event page det src detail)).lastStatus = s.lastStatus := (kept_logFinding (Kept.refl 0xc0000088 s) event page det src detail).lastStatus rfl
@[simp] theorem time_logFinding (s : State) (event : Word) (page : Nat) (det : Nat) (src : Nat) (detail : Word) : ((s.logFinding event page det src detail)).time = s.time := (kept_logFinding (Kept.refl 0xc0000088 s) event page det src detail).time rfl
@[simp] theorem conds_logFinding (s : State) (event : Word) (page : Nat) (det : Nat) (src : Nat) (detail : Word) : ((s.logFinding event page det src detail)).conds = s.conds := (kept_logFinding (Kept.refl 0xc0000088 s) event page det src detail).conds rfl
@[simp] theorem inputs_logFinding (s : State) (event : Word) (page : Nat) (det : Nat) (src : Nat) (detail : Word) : ((s.logFinding event page det src detail)).inputs = s.inputs := (kept_logFinding (Kept.refl 0xc0000088 s) event page det src detail).inputs rfl
@[simp] theorem slices_logFinding (s : State) (event : Word) (page : Nat) (det : Nat) (src : Nat) (detail : Word) : ((s.logFinding event page det src detail)).slices = s.slices := (kept_logFinding (Kept.refl 0xc0000088 s) event page det src detail).slices rfl
@[simp] theorem demods_logFinding (s : State) (event : Word) (page : Nat) (det : Nat) (src : Nat) (detail : Word) : ((s.logFinding event page det src detail)).demods = s.demods := (kept_logFinding (Kept.refl 0xc0000088 s) event page det src detail).demods rfl
@[simp] theorem planGen_logFinding (s : State) (event : Word) (page : Nat) (det : Nat) (src : Nat) (detail : Word) : ((s.logFinding event page det src detail)).planGen = s.planGen := (kept_logFinding (Kept.refl 0xc0000088 s) event page det src detail).planGen rfl
@[simp] theorem snaps_logFinding (s : State) (event : Word) (page : Nat) (det : Nat) (src : Nat) (detail : Word) : ((s.logFinding event page det src detail)).snaps = s.snaps := (kept_logFinding (Kept.refl 0xc0000088 s) event page det src detail).snaps rfl
@[simp] theorem beds_logFinding (s : State) (event : Word) (page : Nat) (det : Nat) (src : Nat) (detail : Word) : ((s.logFinding event page det src detail)).beds = s.beds := (kept_logFinding (Kept.refl 0xc0000088 s) event page det src detail).beds rfl
@[simp] theorem decs_logFinding (s : State) (event : Word) (page : Nat) (det : Nat) (src : Nat) (detail : Word) : ((s.logFinding event page det src detail)).decs = s.decs := (kept_logFinding (Kept.refl 0xc0000088 s) event page det src detail).decs rfl
@[simp] theorem slots_logFinding (s : State) (event : Word) (page : Nat) (det : Nat) (src : Nat) (detail : Word) : ((s.logFinding event page det src detail)).slots = s.slots := (kept_logFinding (Kept.refl 0xc0000088 s) event page det src detail).slots rfl
@[simp] theorem afdb_logFinding (s : State) (event : Word) (page : Nat) (det : Nat) (src : Nat) (detail : Word) : ((s.logFinding event page det src detail)).afdb = s.afdb := (kept_logFinding (Kept.refl 0xc0000088 s) event page det src detail).afdb rfl
@[simp] theorem afNext_logFinding (s : State) (event : Word) (page : Nat) (det : Nat) (src : Nat) (detail : Word) : ((s.logFinding event page det src detail)).afNext = s.afNext := (kept_logFinding (Kept.refl 0xc0000088 s) event page det src detail).afNext rfl
@[simp] theorem survey_logFinding (s : State) (event : Word) (page : Nat) (det : Nat) (src : Nat) (detail : Word) : ((s.logFinding event page det src detail)).survey = s.survey := (kept_logFinding (Kept.refl 0xc0000088 s) event page det src detail).survey rfl
@[simp] theorem strms_logFinding (s : State) (event : Word) (page : Nat) (det : Nat) (src : Nat) (detail : Word) : ((s.logFinding event page det src detail)).strms = s.strms := (kept_logFinding (Kept.refl 0xc0000088 s) event page det src detail).strms rfl
@[simp] theorem bunds_logFinding (s : State) (event : Word) (page : Nat) (det : Nat) (src : Nat) (detail : Word) : ((s.logFinding event page det src detail)).bunds = s.bunds := (kept_logFinding (Kept.refl 0xc0000088 s) event page det src detail).bunds rfl
@[simp] theorem squeues_logFinding (s : State) (event : Word) (page : Nat) (det : Nat) (src : Nat) (detail : Word) : ((s.logFinding event page det src detail)).squeues = s.squeues := (kept_logFinding (Kept.refl 0xc0000088 s) event page det src detail).squeues rfl
@[simp] theorem skeys_logFinding (s : State) (event : Word) (page : Nat) (det : Nat) (src : Nat) (detail : Word) : ((s.logFinding event page det src detail)).skeys = s.skeys := (kept_logFinding (Kept.refl 0xc0000088 s) event page det src detail).skeys rfl
@[simp] theorem clk_logFinding (s : State) (event : Word) (page : Nat) (det : Nat) (src : Nat) (detail : Word) : ((s.logFinding event page det src detail)).clk = s.clk := (kept_logFinding (Kept.refl 0xc0000088 s) event page det src detail).clk rfl
@[simp] theorem pwr_logFinding (s : State) (event : Word) (page : Nat) (det : Nat) (src : Nat) (detail : Word) : ((s.logFinding event page det src detail)).pwr = s.pwr := (kept_logFinding (Kept.refl 0xc0000088 s) event page det src detail).pwr rfl
@[simp] theorem pmb_logFinding (s : State) (event : Word) (page : Nat) (det : Nat) (src : Nat) (detail : Word) : ((s.logFinding event page det src detail)).pmb = s.pmb := (kept_logFinding (Kept.refl 0xc0000088 s) event page det src detail).pmb rfl
@[simp] theorem pmbSent_logFinding (s : State) (event : Word) (page : Nat) (det : Nat) (src : Nat) (detail : Word) : ((s.logFinding event page det src detail)).pmbSent = s.pmbSent := (kept_logFinding (Kept.refl 0xc0000088 s) event page det src detail).pmbSent rfl
@[simp] theorem sec_logFinding (s : State) (event : Word) (page : Nat) (det : Nat) (src : Nat) (detail : Word) : ((s.logFinding event page det src detail)).sec = s.sec := (kept_logFinding (Kept.refl 0xc0000088 s) event page det src detail).sec rfl
@[simp] theorem ports_logFinding (s : State) (event : Word) (page : Nat) (det : Nat) (src : Nat) (detail : Word) : ((s.logFinding event page det src detail)).ports = s.ports := (kept_logFinding (Kept.refl 0xc0000088 s) event page det src detail).ports rfl
@[simp] theorem ring_logFinding (s : State) (event : Word) (page : Nat) (det : Nat) (src : Nat) (detail : Word) : ((s.logFinding event page det src detail)).ring = s.ring := (kept_logFinding (Kept.refl 0xc0000088 s) event page det src detail).ring rfl
@[simp] theorem twb_logFinding (s : State) (event : Word) (page : Nat) (det : Nat) (src : Nat) (detail : Word) : ((s.logFinding event page det src detail)).twb = s.twb := (kept_logFinding (Kept.refl 0xc0000088 s) event page det src detail).twb rfl
@[simp] theorem smc_logFinding (s : State) (event : Word) (page : Nat) (det : Nat) (src : Nat) (detail : Word) : ((s.logFinding event page det src detail)).smc = s.smc := (kept_logFinding (Kept.refl 0xc0000088 s) event page det src detail).smc rfl
@[simp] theorem aud_logFinding (s : State) (event : Word) (page : Nat) (det : Nat) (src : Nat) (detail : Word) : ((s.logFinding event page det src detail)).aud = s.aud := (kept_logFinding (Kept.refl 0xc0000088 s) event page det src detail).aud rfl
@[simp] theorem cal_logFinding (s : State) (event : Word) (page : Nat) (det : Nat) (src : Nat) (detail : Word) : ((s.logFinding event page det src detail)).cal = s.cal := (kept_logFinding (Kept.refl 0xc0000088 s) event page det src detail).cal rfl
@[simp] theorem snd_logFinding (s : State) (event : Word) (page : Nat) (det : Nat) (src : Nat) (detail : Word) : ((s.logFinding event page det src detail)).snd = s.snd := (kept_logFinding (Kept.refl 0xc0000088 s) event page det src detail).snd rfl
@[simp] theorem loam_logFinding (s : State) (event : Word) (page : Nat) (det : Nat) (src : Nat) (detail : Word) : ((s.logFinding event page det src detail)).loam = s.loam := (kept_logFinding (Kept.refl 0xc0000088 s) event page det src detail).loam rfl
@[simp] theorem mfp_logFinding (s : State) (event : Word) (page : Nat) (det : Nat) (src : Nat) (detail : Word) : ((s.logFinding event page det src detail)).mfp = s.mfp := (kept_logFinding (Kept.refl 0xc0000088 s) event page det src detail).mfp rfl

/-! finding -/
@[simp] theorem fuse_finding (s : State) (page : Nat) (det : Nat) (evPage : Nat) (ev : Ev) (owner : Nat) (src : Nat) (detail : Word) : ((s.finding page det evPage ev owner src detail)).fuse = s.fuse := (kept_finding (Kept.refl 0xc0000088 s) page det evPage ev owner src detail).fuse
@[simp] theorem boot_finding (s : State) (page : Nat) (det : Nat) (evPage : Nat) (ev : Ev) (owner : Nat) (src : Nat) (detail : Word) : ((s.finding page det evPage ev owner src detail)).boot = s.boot := (kept_finding (Kept.refl 0xc0000088 s) page det evPage ev owner src detail).boot rfl
@[simp] theorem rseq_finding (s : State) (page : Nat) (det : Nat) (evPage : Nat) (ev : Ev) (owner : Nat) (src : Nat) (detail : Word) : ((s.finding page det evPage ev owner src detail)).rseq = s.rseq := (kept_finding (Kept.refl 0xc0000088 s) page det evPage ev owner src detail).rseq rfl
@[simp] theorem freeCtr_finding (s : State) (page : Nat) (det : Nat) (evPage : Nat) (ev : Ev) (owner : Nat) (src : Nat) (detail : Word) : ((s.finding page det evPage ev owner src detail)).freeCtr = s.freeCtr := (kept_finding (Kept.refl 0xc0000088 s) page det evPage ev owner src detail).freeCtr rfl
@[simp] theorem pending_finding (s : State) (page : Nat) (det : Nat) (evPage : Nat) (ev : Ev) (owner : Nat) (src : Nat) (detail : Word) : ((s.finding page det evPage ev owner src detail)).pending = s.pending := (kept_finding (Kept.refl 0xc0000088 s) page det evPage ev owner src detail).pending
@[simp] theorem staged_finding (s : State) (page : Nat) (det : Nat) (evPage : Nat) (ev : Ev) (owner : Nat) (src : Nat) (detail : Word) : ((s.finding page det evPage ev owner src detail)).staged = s.staged := (kept_finding (Kept.refl 0xc0000088 s) page det evPage ev owner src detail).staged rfl
@[simp] theorem captured_finding (s : State) (page : Nat) (det : Nat) (evPage : Nat) (ev : Ev) (owner : Nat) (src : Nat) (detail : Word) : ((s.finding page det evPage ev owner src detail)).captured = s.captured := (kept_finding (Kept.refl 0xc0000088 s) page det evPage ev owner src detail).captured rfl
@[simp] theorem lastStatus_finding (s : State) (page : Nat) (det : Nat) (evPage : Nat) (ev : Ev) (owner : Nat) (src : Nat) (detail : Word) : ((s.finding page det evPage ev owner src detail)).lastStatus = s.lastStatus := (kept_finding (Kept.refl 0xc0000088 s) page det evPage ev owner src detail).lastStatus rfl
@[simp] theorem time_finding (s : State) (page : Nat) (det : Nat) (evPage : Nat) (ev : Ev) (owner : Nat) (src : Nat) (detail : Word) : ((s.finding page det evPage ev owner src detail)).time = s.time := (kept_finding (Kept.refl 0xc0000088 s) page det evPage ev owner src detail).time rfl
@[simp] theorem conds_finding (s : State) (page : Nat) (det : Nat) (evPage : Nat) (ev : Ev) (owner : Nat) (src : Nat) (detail : Word) : ((s.finding page det evPage ev owner src detail)).conds = s.conds := (kept_finding (Kept.refl 0xc0000088 s) page det evPage ev owner src detail).conds rfl
@[simp] theorem inputs_finding (s : State) (page : Nat) (det : Nat) (evPage : Nat) (ev : Ev) (owner : Nat) (src : Nat) (detail : Word) : ((s.finding page det evPage ev owner src detail)).inputs = s.inputs := (kept_finding (Kept.refl 0xc0000088 s) page det evPage ev owner src detail).inputs rfl
@[simp] theorem slices_finding (s : State) (page : Nat) (det : Nat) (evPage : Nat) (ev : Ev) (owner : Nat) (src : Nat) (detail : Word) : ((s.finding page det evPage ev owner src detail)).slices = s.slices := (kept_finding (Kept.refl 0xc0000088 s) page det evPage ev owner src detail).slices rfl
@[simp] theorem demods_finding (s : State) (page : Nat) (det : Nat) (evPage : Nat) (ev : Ev) (owner : Nat) (src : Nat) (detail : Word) : ((s.finding page det evPage ev owner src detail)).demods = s.demods := (kept_finding (Kept.refl 0xc0000088 s) page det evPage ev owner src detail).demods rfl
@[simp] theorem planGen_finding (s : State) (page : Nat) (det : Nat) (evPage : Nat) (ev : Ev) (owner : Nat) (src : Nat) (detail : Word) : ((s.finding page det evPage ev owner src detail)).planGen = s.planGen := (kept_finding (Kept.refl 0xc0000088 s) page det evPage ev owner src detail).planGen rfl
@[simp] theorem snaps_finding (s : State) (page : Nat) (det : Nat) (evPage : Nat) (ev : Ev) (owner : Nat) (src : Nat) (detail : Word) : ((s.finding page det evPage ev owner src detail)).snaps = s.snaps := (kept_finding (Kept.refl 0xc0000088 s) page det evPage ev owner src detail).snaps rfl
@[simp] theorem beds_finding (s : State) (page : Nat) (det : Nat) (evPage : Nat) (ev : Ev) (owner : Nat) (src : Nat) (detail : Word) : ((s.finding page det evPage ev owner src detail)).beds = s.beds := (kept_finding (Kept.refl 0xc0000088 s) page det evPage ev owner src detail).beds rfl
@[simp] theorem decs_finding (s : State) (page : Nat) (det : Nat) (evPage : Nat) (ev : Ev) (owner : Nat) (src : Nat) (detail : Word) : ((s.finding page det evPage ev owner src detail)).decs = s.decs := (kept_finding (Kept.refl 0xc0000088 s) page det evPage ev owner src detail).decs rfl
@[simp] theorem slots_finding (s : State) (page : Nat) (det : Nat) (evPage : Nat) (ev : Ev) (owner : Nat) (src : Nat) (detail : Word) : ((s.finding page det evPage ev owner src detail)).slots = s.slots := (kept_finding (Kept.refl 0xc0000088 s) page det evPage ev owner src detail).slots rfl
@[simp] theorem afdb_finding (s : State) (page : Nat) (det : Nat) (evPage : Nat) (ev : Ev) (owner : Nat) (src : Nat) (detail : Word) : ((s.finding page det evPage ev owner src detail)).afdb = s.afdb := (kept_finding (Kept.refl 0xc0000088 s) page det evPage ev owner src detail).afdb rfl
@[simp] theorem afNext_finding (s : State) (page : Nat) (det : Nat) (evPage : Nat) (ev : Ev) (owner : Nat) (src : Nat) (detail : Word) : ((s.finding page det evPage ev owner src detail)).afNext = s.afNext := (kept_finding (Kept.refl 0xc0000088 s) page det evPage ev owner src detail).afNext rfl
@[simp] theorem survey_finding (s : State) (page : Nat) (det : Nat) (evPage : Nat) (ev : Ev) (owner : Nat) (src : Nat) (detail : Word) : ((s.finding page det evPage ev owner src detail)).survey = s.survey := (kept_finding (Kept.refl 0xc0000088 s) page det evPage ev owner src detail).survey rfl
@[simp] theorem strms_finding (s : State) (page : Nat) (det : Nat) (evPage : Nat) (ev : Ev) (owner : Nat) (src : Nat) (detail : Word) : ((s.finding page det evPage ev owner src detail)).strms = s.strms := (kept_finding (Kept.refl 0xc0000088 s) page det evPage ev owner src detail).strms rfl
@[simp] theorem bunds_finding (s : State) (page : Nat) (det : Nat) (evPage : Nat) (ev : Ev) (owner : Nat) (src : Nat) (detail : Word) : ((s.finding page det evPage ev owner src detail)).bunds = s.bunds := (kept_finding (Kept.refl 0xc0000088 s) page det evPage ev owner src detail).bunds rfl
@[simp] theorem squeues_finding (s : State) (page : Nat) (det : Nat) (evPage : Nat) (ev : Ev) (owner : Nat) (src : Nat) (detail : Word) : ((s.finding page det evPage ev owner src detail)).squeues = s.squeues := (kept_finding (Kept.refl 0xc0000088 s) page det evPage ev owner src detail).squeues rfl
@[simp] theorem skeys_finding (s : State) (page : Nat) (det : Nat) (evPage : Nat) (ev : Ev) (owner : Nat) (src : Nat) (detail : Word) : ((s.finding page det evPage ev owner src detail)).skeys = s.skeys := (kept_finding (Kept.refl 0xc0000088 s) page det evPage ev owner src detail).skeys rfl
@[simp] theorem clk_finding (s : State) (page : Nat) (det : Nat) (evPage : Nat) (ev : Ev) (owner : Nat) (src : Nat) (detail : Word) : ((s.finding page det evPage ev owner src detail)).clk = s.clk := (kept_finding (Kept.refl 0xc0000088 s) page det evPage ev owner src detail).clk rfl
@[simp] theorem pwr_finding (s : State) (page : Nat) (det : Nat) (evPage : Nat) (ev : Ev) (owner : Nat) (src : Nat) (detail : Word) : ((s.finding page det evPage ev owner src detail)).pwr = s.pwr := (kept_finding (Kept.refl 0xc0000088 s) page det evPage ev owner src detail).pwr rfl
@[simp] theorem pmb_finding (s : State) (page : Nat) (det : Nat) (evPage : Nat) (ev : Ev) (owner : Nat) (src : Nat) (detail : Word) : ((s.finding page det evPage ev owner src detail)).pmb = s.pmb := (kept_finding (Kept.refl 0xc0000088 s) page det evPage ev owner src detail).pmb rfl
@[simp] theorem pmbSent_finding (s : State) (page : Nat) (det : Nat) (evPage : Nat) (ev : Ev) (owner : Nat) (src : Nat) (detail : Word) : ((s.finding page det evPage ev owner src detail)).pmbSent = s.pmbSent := (kept_finding (Kept.refl 0xc0000088 s) page det evPage ev owner src detail).pmbSent rfl
@[simp] theorem sec_finding (s : State) (page : Nat) (det : Nat) (evPage : Nat) (ev : Ev) (owner : Nat) (src : Nat) (detail : Word) : ((s.finding page det evPage ev owner src detail)).sec = s.sec := (kept_finding (Kept.refl 0xc0000088 s) page det evPage ev owner src detail).sec rfl
@[simp] theorem ports_finding (s : State) (page : Nat) (det : Nat) (evPage : Nat) (ev : Ev) (owner : Nat) (src : Nat) (detail : Word) : ((s.finding page det evPage ev owner src detail)).ports = s.ports := (kept_finding (Kept.refl 0xc0000088 s) page det evPage ev owner src detail).ports rfl
@[simp] theorem ring_finding (s : State) (page : Nat) (det : Nat) (evPage : Nat) (ev : Ev) (owner : Nat) (src : Nat) (detail : Word) : ((s.finding page det evPage ev owner src detail)).ring = s.ring := (kept_finding (Kept.refl 0xc0000088 s) page det evPage ev owner src detail).ring rfl
@[simp] theorem twb_finding (s : State) (page : Nat) (det : Nat) (evPage : Nat) (ev : Ev) (owner : Nat) (src : Nat) (detail : Word) : ((s.finding page det evPage ev owner src detail)).twb = s.twb := (kept_finding (Kept.refl 0xc0000088 s) page det evPage ev owner src detail).twb rfl
@[simp] theorem smc_finding (s : State) (page : Nat) (det : Nat) (evPage : Nat) (ev : Ev) (owner : Nat) (src : Nat) (detail : Word) : ((s.finding page det evPage ev owner src detail)).smc = s.smc := (kept_finding (Kept.refl 0xc0000088 s) page det evPage ev owner src detail).smc rfl
@[simp] theorem aud_finding (s : State) (page : Nat) (det : Nat) (evPage : Nat) (ev : Ev) (owner : Nat) (src : Nat) (detail : Word) : ((s.finding page det evPage ev owner src detail)).aud = s.aud := (kept_finding (Kept.refl 0xc0000088 s) page det evPage ev owner src detail).aud rfl
@[simp] theorem cal_finding (s : State) (page : Nat) (det : Nat) (evPage : Nat) (ev : Ev) (owner : Nat) (src : Nat) (detail : Word) : ((s.finding page det evPage ev owner src detail)).cal = s.cal := (kept_finding (Kept.refl 0xc0000088 s) page det evPage ev owner src detail).cal rfl
@[simp] theorem snd_finding (s : State) (page : Nat) (det : Nat) (evPage : Nat) (ev : Ev) (owner : Nat) (src : Nat) (detail : Word) : ((s.finding page det evPage ev owner src detail)).snd = s.snd := (kept_finding (Kept.refl 0xc0000088 s) page det evPage ev owner src detail).snd rfl
@[simp] theorem loam_finding (s : State) (page : Nat) (det : Nat) (evPage : Nat) (ev : Ev) (owner : Nat) (src : Nat) (detail : Word) : ((s.finding page det evPage ev owner src detail)).loam = s.loam := (kept_finding (Kept.refl 0xc0000088 s) page det evPage ev owner src detail).loam rfl
@[simp] theorem mfp_finding (s : State) (page : Nat) (det : Nat) (evPage : Nat) (ev : Ev) (owner : Nat) (src : Nat) (detail : Word) : ((s.finding page det evPage ev owner src detail)).mfp = s.mfp := (kept_finding (Kept.refl 0xc0000088 s) page det evPage ev owner src detail).mfp rfl

/-! consumeInj -/
@[simp] theorem fuse_consumeInj (s : State) (page : Nat) : ((s.consumeInj page)).fuse = s.fuse := (kept_consumeInj (Kept.refl 0x8 s) page).fuse
@[simp] theorem boot_consumeInj (s : State) (page : Nat) : ((s.consumeInj page)).boot = s.boot := (kept_consumeInj (Kept.refl 0x8 s) page).boot rfl
@[simp] theorem rseq_consumeInj (s : State) (page : Nat) : ((s.consumeInj page)).rseq = s.rseq := (kept_consumeInj (Kept.refl 0x8 s) page).rseq rfl
@[simp] theorem freeCtr_consumeInj (s : State) (page : Nat) : ((s.consumeInj page)).freeCtr = s.freeCtr := (kept_consumeInj (Kept.refl 0x8 s) page).freeCtr rfl
@[simp] theorem pending_consumeInj (s : State) (page : Nat) : ((s.consumeInj page)).pending = s.pending := (kept_consumeInj (Kept.refl 0x8 s) page).pending
@[simp] theorem staged_consumeInj (s : State) (page : Nat) : ((s.consumeInj page)).staged = s.staged := (kept_consumeInj (Kept.refl 0x8 s) page).staged rfl
@[simp] theorem captured_consumeInj (s : State) (page : Nat) : ((s.consumeInj page)).captured = s.captured := (kept_consumeInj (Kept.refl 0x8 s) page).captured rfl
@[simp] theorem lastStatus_consumeInj (s : State) (page : Nat) : ((s.consumeInj page)).lastStatus = s.lastStatus := (kept_consumeInj (Kept.refl 0x8 s) page).lastStatus rfl
@[simp] theorem q_consumeInj (s : State) (page : Nat) : ((s.consumeInj page)).q = s.q := (kept_consumeInj (Kept.refl 0x8 s) page).q rfl
@[simp] theorem time_consumeInj (s : State) (page : Nat) : ((s.consumeInj page)).time = s.time := (kept_consumeInj (Kept.refl 0x8 s) page).time rfl
@[simp] theorem conds_consumeInj (s : State) (page : Nat) : ((s.consumeInj page)).conds = s.conds := (kept_consumeInj (Kept.refl 0x8 s) page).conds rfl
@[simp] theorem inputs_consumeInj (s : State) (page : Nat) : ((s.consumeInj page)).inputs = s.inputs := (kept_consumeInj (Kept.refl 0x8 s) page).inputs rfl
@[simp] theorem slices_consumeInj (s : State) (page : Nat) : ((s.consumeInj page)).slices = s.slices := (kept_consumeInj (Kept.refl 0x8 s) page).slices rfl
@[simp] theorem demods_consumeInj (s : State) (page : Nat) : ((s.consumeInj page)).demods = s.demods := (kept_consumeInj (Kept.refl 0x8 s) page).demods rfl
@[simp] theorem planGen_consumeInj (s : State) (page : Nat) : ((s.consumeInj page)).planGen = s.planGen := (kept_consumeInj (Kept.refl 0x8 s) page).planGen rfl
@[simp] theorem snaps_consumeInj (s : State) (page : Nat) : ((s.consumeInj page)).snaps = s.snaps := (kept_consumeInj (Kept.refl 0x8 s) page).snaps rfl
@[simp] theorem beds_consumeInj (s : State) (page : Nat) : ((s.consumeInj page)).beds = s.beds := (kept_consumeInj (Kept.refl 0x8 s) page).beds rfl
@[simp] theorem decs_consumeInj (s : State) (page : Nat) : ((s.consumeInj page)).decs = s.decs := (kept_consumeInj (Kept.refl 0x8 s) page).decs rfl
@[simp] theorem slots_consumeInj (s : State) (page : Nat) : ((s.consumeInj page)).slots = s.slots := (kept_consumeInj (Kept.refl 0x8 s) page).slots rfl
@[simp] theorem afdb_consumeInj (s : State) (page : Nat) : ((s.consumeInj page)).afdb = s.afdb := (kept_consumeInj (Kept.refl 0x8 s) page).afdb rfl
@[simp] theorem afNext_consumeInj (s : State) (page : Nat) : ((s.consumeInj page)).afNext = s.afNext := (kept_consumeInj (Kept.refl 0x8 s) page).afNext rfl
@[simp] theorem survey_consumeInj (s : State) (page : Nat) : ((s.consumeInj page)).survey = s.survey := (kept_consumeInj (Kept.refl 0x8 s) page).survey rfl
@[simp] theorem strms_consumeInj (s : State) (page : Nat) : ((s.consumeInj page)).strms = s.strms := (kept_consumeInj (Kept.refl 0x8 s) page).strms rfl
@[simp] theorem bunds_consumeInj (s : State) (page : Nat) : ((s.consumeInj page)).bunds = s.bunds := (kept_consumeInj (Kept.refl 0x8 s) page).bunds rfl
@[simp] theorem squeues_consumeInj (s : State) (page : Nat) : ((s.consumeInj page)).squeues = s.squeues := (kept_consumeInj (Kept.refl 0x8 s) page).squeues rfl
@[simp] theorem skeys_consumeInj (s : State) (page : Nat) : ((s.consumeInj page)).skeys = s.skeys := (kept_consumeInj (Kept.refl 0x8 s) page).skeys rfl
@[simp] theorem clk_consumeInj (s : State) (page : Nat) : ((s.consumeInj page)).clk = s.clk := (kept_consumeInj (Kept.refl 0x8 s) page).clk rfl
@[simp] theorem pwr_consumeInj (s : State) (page : Nat) : ((s.consumeInj page)).pwr = s.pwr := (kept_consumeInj (Kept.refl 0x8 s) page).pwr rfl
@[simp] theorem pmb_consumeInj (s : State) (page : Nat) : ((s.consumeInj page)).pmb = s.pmb := (kept_consumeInj (Kept.refl 0x8 s) page).pmb rfl
@[simp] theorem pmbSent_consumeInj (s : State) (page : Nat) : ((s.consumeInj page)).pmbSent = s.pmbSent := (kept_consumeInj (Kept.refl 0x8 s) page).pmbSent rfl
@[simp] theorem sec_consumeInj (s : State) (page : Nat) : ((s.consumeInj page)).sec = s.sec := (kept_consumeInj (Kept.refl 0x8 s) page).sec rfl
@[simp] theorem log_consumeInj (s : State) (page : Nat) : ((s.consumeInj page)).log = s.log := (kept_consumeInj (Kept.refl 0x8 s) page).log rfl
@[simp] theorem temps_consumeInj (s : State) (page : Nat) : ((s.consumeInj page)).temps = s.temps := (kept_consumeInj (Kept.refl 0x8 s) page).temps rfl
@[simp] theorem ports_consumeInj (s : State) (page : Nat) : ((s.consumeInj page)).ports = s.ports := (kept_consumeInj (Kept.refl 0x8 s) page).ports rfl
@[simp] theorem ring_consumeInj (s : State) (page : Nat) : ((s.consumeInj page)).ring = s.ring := (kept_consumeInj (Kept.refl 0x8 s) page).ring rfl
@[simp] theorem twb_consumeInj (s : State) (page : Nat) : ((s.consumeInj page)).twb = s.twb := (kept_consumeInj (Kept.refl 0x8 s) page).twb rfl
@[simp] theorem smc_consumeInj (s : State) (page : Nat) : ((s.consumeInj page)).smc = s.smc := (kept_consumeInj (Kept.refl 0x8 s) page).smc rfl
@[simp] theorem aud_consumeInj (s : State) (page : Nat) : ((s.consumeInj page)).aud = s.aud := (kept_consumeInj (Kept.refl 0x8 s) page).aud rfl
@[simp] theorem cal_consumeInj (s : State) (page : Nat) : ((s.consumeInj page)).cal = s.cal := (kept_consumeInj (Kept.refl 0x8 s) page).cal rfl
@[simp] theorem snd_consumeInj (s : State) (page : Nat) : ((s.consumeInj page)).snd = s.snd := (kept_consumeInj (Kept.refl 0x8 s) page).snd rfl
@[simp] theorem loam_consumeInj (s : State) (page : Nat) : ((s.consumeInj page)).loam = s.loam := (kept_consumeInj (Kept.refl 0x8 s) page).loam rfl
@[simp] theorem mfp_consumeInj (s : State) (page : Nat) : ((s.consumeInj page)).mfp = s.mfp := (kept_consumeInj (Kept.refl 0x8 s) page).mfp rfl

end Sys2Proof.Machine
end

