-- ==== Sys2Proof/Laws/Fields.lean ====
section
/-! SUPPORT. Laws of bit fields and of table elements: a field read after a write of the same field, of a disjoint field, and of another register; an element after an update. -/

namespace Sys2Proof.Machine

set_option Elab.async false

theorem testBit_fieldOf (w : Word) (hi lo i : Nat) : (fieldOf w hi lo).testBit i = (decide (i < hi + 1 - lo) && w.getLsbD (lo + i)) := by
  unfold fieldOf
  rw [Nat.testBit_mod_two_pow, Nat.testBit_div_two_pow, BitVec.getLsbD, Nat.add_comm i lo]

theorem getLsbD_place (hi lo v i : Nat) (h : i < 32) : (place hi lo v).getLsbD i = (decide (lo ≤ i) && decide (i < hi + 1) && v.testBit (i - lo)) := by
  unfold place
  rw [BitVec.getLsbD_ofNat, Nat.testBit_mul_two_pow, Nat.testBit_mod_two_pow]
  by_cases h1 : lo ≤ i
  · by_cases h2 : i < hi + 1
    · have : i - lo < hi + 1 - lo := by omega
      simp [h, h1, h2, this]
    · have : ¬ i - lo < hi + 1 - lo := by omega
      simp [h, h2, this]
  · simp [h1]

theorem getLsbD_maskOf (hi lo i : Nat) (h : i < 32) : (maskOf hi lo).getLsbD i = (decide (lo ≤ i) && decide (i < hi + 1)) := by
  unfold maskOf
  rw [getLsbD_place hi lo _ i h, Nat.testBit_two_pow_sub_one]
  by_cases h1 : lo ≤ i
  · by_cases h2 : i < hi + 1
    · have : i - lo < hi + 1 - lo := by omega
      simp [h1, h2, this]
    · simp [h2]
  · simp [h1]

/-- Bit i of a word with one field replaced. -/
theorem getLsbD_withField (w : Word) (hi lo v i : Nat) (h : i < 32) :
    (withField w hi lo v).getLsbD i = if lo ≤ i ∧ i ≤ hi then v.testBit (i - lo) else w.getLsbD i := by
  unfold withField
  rw [BitVec.getLsbD_or, BitVec.getLsbD_and, BitVec.getLsbD_not, getLsbD_maskOf hi lo i h, getLsbD_place hi lo v i h]
  by_cases h1 : lo ≤ i
  · by_cases h2 : i ≤ hi
    · have : i < hi + 1 := by omega
      simp [h1, h2, this]
    · have : ¬ i < hi + 1 := by omega
      simp [h, h1, h2, this]
  · simp [h, h1]

/-- A field read back after it was written. -/
theorem fieldOf_withField (w : Word) (hi lo v : Nat) (h : hi < 32) : fieldOf (withField w hi lo v) hi lo = v % 2 ^ (hi + 1 - lo) := by
  apply Nat.eq_of_testBit_eq
  intro i
  rw [testBit_fieldOf, Nat.testBit_mod_two_pow]
  by_cases hi' : i < hi + 1 - lo
  · rw [getLsbD_withField _ _ _ _ _ (by omega), if_pos (by omega), Nat.add_sub_cancel_left]
  · simp [hi']

/-- A field read after a disjoint one was written. -/
theorem fieldOf_withField_ne (w : Word) (hi lo v hi' lo' : Nat) (h : hi' < 32) (hd : hi' < lo ∨ hi < lo') :
    fieldOf (withField w hi lo v) hi' lo' = fieldOf w hi' lo' := by
  apply Nat.eq_of_testBit_eq
  intro i
  rw [testBit_fieldOf, testBit_fieldOf]
  by_cases hi2 : i < hi' + 1 - lo'
  · rw [getLsbD_withField _ _ _ _ _ (by omega), if_neg (by omega)]
  · simp [hi2]

/-- A field read back after it was written. -/
theorem get_put (s : State) (page : Nat) (f : Fld) (v : Nat) (h : f.hi < 32) : (s.put page f v).get page f = v % 2 ^ (f.hi + 1 - f.lo) := by
  unfold State.get State.put
  rw [reg_setReg_self, fieldOf_withField _ _ _ _ h]

/-- A field read back after a value that fits was written. -/
theorem get_put_fits (s : State) (page : Nat) (f : Fld) (v : Nat) (h : f.hi < 32) (hv : v < 2 ^ (f.hi + 1 - f.lo)) : (s.put page f v).get page f = v := by
  rw [get_put s page f v h, Nat.mod_eq_of_lt hv]

/-- A field of another register after a write. -/
theorem get_put_key (s : State) (page page' : Nat) (f f' : Fld) (v : Nat) (h : keyOf page' f' ≠ keyOf page f) : (s.put page f v).get page' f' = s.get page' f' := by
  unfold State.get State.put
  rw [reg_setReg_ne _ _ _ _ h]

/-- A disjoint field of the same page after a write. -/
theorem get_put_bits (s : State) (page : Nat) (f f' : Fld) (v : Nat) (h : f'.hi < 32) (hd : f'.hi < f.lo ∨ f.hi < f'.lo) : (s.put page f v).get page f' = s.get page f' := by
  by_cases e : keyOf page f' = keyOf page f
  · unfold State.get State.put
    rw [e, reg_setReg_self, fieldOf_withField_ne _ _ _ _ _ _ h hd]
  · exact get_put_key s page page f f' v e

/-- A register of another key after a field write. -/
theorem reg_put_ne (s : State) (page : Nat) (f : Fld) (v k : Nat) (h : k ≠ keyOf page f) : (s.put page f v).reg k = s.reg k :=
  reg_setReg_ne s _ _ _ h

theorem reg_count_ne (s : State) (page : Nat) (f : Fld) (n k : Nat) (h : k ≠ keyOf page f) : (s.count page f n).reg k = s.reg k :=
  reg_setReg_ne s _ _ _ h

/-- A counter after it counted. -/
theorem get_count (s : State) (page : Nat) (f : Fld) (n : Nat) (h : f.hi < 32) :
    (s.count page f n).get page f = min (s.get page f + n) (2 ^ (f.hi + 1 - f.lo) - 1) := by
  refine get_put_fits s page f _ h ?_
  have : 0 < 2 ^ (f.hi + 1 - f.lo) := Nat.two_pow_pos _
  omega

theorem get_count_key (s : State) (page page' : Nat) (f f' : Fld) (n : Nat) (h : keyOf page' f' ≠ keyOf page f) : (s.count page f n).get page' f' = s.get page' f' :=
  get_put_key s page page' f f' _ h

/-- Fields of two pages lie in different registers. -/
theorem keyOf_ne (page page' : Nat) (f f' : Fld) (h : page ≠ page') (hf : f.off < 0x400) (hf' : f'.off < 0x400) : keyOf page f ≠ keyOf page' f' := by
  unfold keyOf
  omega

/-- Fields of one page at different offsets lie in different registers. -/
theorem keyOf_ne_off (page : Nat) (f f' : Fld) (h : f.off ≠ f'.off) : keyOf page f ≠ keyOf page f' := by
  unfold keyOf
  omega

/-! ### Elements of tables -/

@[simp] theorem upd_self {α : Type} {n : Nat} (v : Vector α n) (i : Fin n) (f : α → α) : (upd v i f)[i] = f v[i] := by
  simp [upd]

theorem upd_ne {α : Type} {n : Nat} (v : Vector α n) (i j : Fin n) (f : α → α) (h : j ≠ i) : (upd v i f)[j] = v[j] := by
  have h' : ¬ i.val = j.val := fun e => h (Fin.ext e.symm)
  simp [upd, Vector.getElem_set_ne, h']

@[simp] theorem upd_self_val {α : Type} {n : Nat} (v : Vector α n) (i : Fin n) (f : α → α) : (upd v i f)[i.val] = f v[i.val] := upd_self v i f

theorem upd_ne_val {α : Type} {n : Nat} (v : Vector α n) (i j : Fin n) (f : α → α) (h : j ≠ i) : (upd v i f)[j.val] = v[j.val] := upd_ne v i j f h

end Sys2Proof.Machine
end

