-- ==== Sys2Proof/Laws/Raising.lean ====
section
/-! SUPPORT. What raising an event and logging a finding do to the registers. -/

namespace Sys2Proof.Machine

set_option Elab.async false

open Sys2Proof.Safety

theorem reg_gather (s : State) (page : Nat) (ev : Ev) (o k : Nat) : (s.gather page ev o).reg k = s.reg k := by
  unfold State.gather
  split <;> rfl

theorem reg_setBit_ne (s : State) (page off b k : Nat) (h : k ≠ page * 0x400 + off) : (s.setBit page off b).reg k = s.reg k :=
  reg_setReg_ne s _ _ _ h

theorem getLsbD_place_bit (b i : Nat) (h : i < 32) : (place b b 1).getLsbD i = decide (i = b) := by
  rw [getLsbD_place b b 1 i h]
  by_cases e : i = b
  · subst e
    simp
  · by_cases h1 : b ≤ i
    · have : ¬ i < b + 1 := by omega
      simp [e, this]
    · simp [e, h1]

/-- Raising an event leaves every register but RAW and PEND of its page. -/
theorem reg_raiseTo_ne (s : State) (page : Nat) (ev : Ev) (o k : Nat) (h1 : k ≠ page * 0x400 + 0x010) (h2 : k ≠ page * 0x400 + 0x018) :
    (s.raiseTo page ev o).reg k = s.reg k := by
  unfold State.raiseTo
  dsimp only
  split
  · split
    · rw [reg_gather, reg_setBit_ne _ _ _ _ _ h2, reg_setBit_ne _ _ _ _ _ h1]
    · rw [reg_setBit_ne _ _ _ _ _ h2, reg_setBit_ne _ _ _ _ _ h1]
  · rw [reg_setBit_ne _ _ _ _ _ h1]

theorem reg_raise_ne (s : State) (page : Nat) (ev : Ev) (k : Nat) (h1 : k ≠ page * 0x400 + 0x010) (h2 : k ≠ page * 0x400 + 0x018) :
    (s.raise page ev).reg k = s.reg k := reg_raiseTo_ne s page ev _ k h1 h2

/-- RAW of the page after an event: its bit is set, the others are as they were. -/
theorem raw_raiseTo (s : State) (page : Nat) (ev : Ev) (o i : Nat) (hi : i < 32) :
    ((s.raiseTo page ev o).reg (page * 0x400 + 0x010)).getLsbD i = ((s.reg (page * 0x400 + 0x010)).getLsbD i || decide (i = ev.num - 1)) := by
  have h0 : page * 0x400 + 0x010 ≠ page * 0x400 + 0x018 := by omega
  have base : ((s.setBit page 0x010 (ev.num - 1)).reg (page * 0x400 + 0x010)).getLsbD i =
      ((s.reg (page * 0x400 + 0x010)).getLsbD i || decide (i = ev.num - 1)) := by
    unfold State.setBit
    rw [reg_setReg_self, BitVec.getLsbD_or, getLsbD_place_bit _ _ hi]
  unfold State.raiseTo
  dsimp only
  split
  · split
    · rw [reg_gather, reg_setBit_ne _ _ _ _ _ h0, base]
    · rw [reg_setBit_ne _ _ _ _ _ h0, base]
  · exact base

theorem raised_raiseTo (s : State) (page : Nat) (ev : Ev) (o : Nat) (h : ev.num ≤ 32) : Raised (s.raiseTo page ev o) page ev := by
  unfold Raised
  rw [raw_raiseTo s page ev o _ (by omega)]
  simp

theorem raised_raise (s : State) (page : Nat) (ev : Ev) (h : ev.num ≤ 32) : Raised (s.raise page ev) page ev := raised_raiseTo s page ev _ h

/-- A field away from RAW and PEND after an event. -/
theorem get_raiseTo (s : State) (page : Nat) (ev : Ev) (o p : Nat) (f : Fld) (h : f.off < 0x400) (h1 : f.off ≠ 0x010) (h2 : f.off ≠ 0x018) :
    (s.raiseTo page ev o).get p f = s.get p f := by
  unfold State.get
  rw [reg_raiseTo_ne _ _ _ _ _ (by unfold keyOf; omega) (by unfold keyOf; omega)]

theorem get_raise (s : State) (page : Nat) (ev : Ev) (p : Nat) (f : Fld) (h : f.off < 0x400) (h1 : f.off ≠ 0x010) (h2 : f.off ≠ 0x018) :
    (s.raise page ev).get p f = s.get p f := get_raiseTo s page ev _ p f h h1 h2

theorem reg_of_regs {s t : State} (h : t.regs = s.regs) (k : Nat) : t.reg k = s.reg k := by
  unfold State.reg
  rw [h]

theorem get_of_regs {s t : State} (h : t.regs = s.regs) (p : Nat) (f : Fld) : t.get p f = s.get p f := by
  unfold State.get State.reg
  rw [h]

theorem keyOf_page (p : Nat) (f : Fld) (h : f.off < 0x400) : keyOf p f / 0x400 = p := by
  unfold keyOf
  omega

theorem reg_ite {c : Prop} [Decidable c] {a b : State} {k : Nat} {w : Word} (ha : a.reg k = w) (hb : b.reg k = w) : (if c then a else b).reg k = w := by
  by_cases h : c
  · rw [if_pos h]; exact ha
  · rw [if_neg h]; exact hb

/-- Logging an overflow, a new entry or a finding changes no register outside the FLT page. -/
theorem reg_logOverflow_ne (s : State) (sev k : Nat) (h : k / 0x400 ≠ pgFlt) : (s.logOverflow sev).reg k = s.reg k := by
  have hf : ∀ n, (ovfField n).off < 0x400 := by
    intro n
    unfold ovfField
    split <;> decide
  have hk : k ≠ keyOf pgFlt (ovfField sev) := fun e => h (by rw [e, keyOf_page _ _ (hf sev)])
  have h1 : k ≠ pgFlt * 0x400 + 0x010 := fun e => h (by rw [e]; decide)
  have h2 : k ≠ pgFlt * 0x400 + 0x018 := fun e => h (by rw [e]; decide)
  unfold State.logOverflow
  dsimp only
  refine reg_ite ?_ ?_
  · exact (reg_raise_ne _ _ _ _ h1 h2).trans (reg_count_ne _ _ _ _ _ hk)
  · exact reg_count_ne _ _ _ _ _ hk

theorem reg_logNew_ne (s : State) (e : LogEntry) (k : Nat) (h : k / 0x400 ≠ pgFlt) : (s.logNew e).reg k = s.reg k := by
  have hk : k ≠ keyOf pgFlt fltLoamDrop := fun e => h (by rw [e]; decide)
  have h1 : k ≠ pgFlt * 0x400 + 0x010 := fun e => h (by rw [e]; decide)
  have h2 : k ≠ pgFlt * 0x400 + 0x018 := fun e => h (by rw [e]; decide)
  unfold State.logNew
  dsimp only
  refine reg_ite ?_ ?_
  · refine (reg_raise_ne _ _ _ _ h1 h2).trans (reg_ite ?_ rfl)
    exact reg_count_ne _ _ _ _ _ hk
  · refine reg_ite ?_ rfl
    exact reg_count_ne _ _ _ _ _ hk

theorem reg_logFinding_ne (s : State) (event : Word) (page det src : Nat) (detail : Word) (k : Nat) (h : k / 0x400 ≠ pgFlt) :
    (s.logFinding event page det src detail).reg k = s.reg k := by
  have hk : k ≠ keyOf pgFlt fltInjCnt := fun e => h (by rw [e]; decide)
  have base : (if 2 ≤ src then s.count pgFlt fltInjCnt 1 else s).reg k = s.reg k := reg_ite (reg_count_ne _ _ _ _ _ hk) rfl
  have hf : ∀ n, (ovfField n).off < 0x400 := by
    intro n
    unfold ovfField
    split <;> decide
  unfold State.logFinding
  dsimp only
  refine reg_ite ((reg_count_ne _ _ _ _ _ fun e => h (by rw [e, keyOf_page _ _ (hf _)])).trans base) (reg_ite base (reg_ite ?_ ?_))
  · exact (reg_logOverflow_ne _ _ _ h).trans base
  · exact (reg_logNew_ne _ _ _ h).trans base

/-- An evaluation of a detector that no injection acts on uses nothing up and finds what is there. -/
theorem evaluate_of_not_injected (s : State) (page det : Nat) (real : Bool) (h : s.injected page det = false) :
    s.evaluate page det real = (bit real, s) := by
  unfold State.evaluate
  simp [h, findingSrc, bit]

end Sys2Proof.Machine

namespace Sys2Proof.Safety

open Sys2Proof.Machine

/-- A RAW bit stays set when another event is raised. -/
theorem Raised.raiseTo {s : State} {page : Nat} {ev : Ev} (hr : Raised s page ev) (page' : Nat) (ev' : Ev) (o : Nat) (h : ev.num ≤ 32) : Raised (s.raiseTo page' ev' o) page ev := by
  unfold Raised at hr ⊢
  by_cases e : page' = page
  · subst e
    rw [raw_raiseTo _ _ _ _ _ (by omega), hr, Bool.true_or]
  · rw [reg_raiseTo_ne _ _ _ _ _ (by omega) (by omega), hr]

/-- A RAW bit stays set through a write of another register. -/
theorem Raised.setReg {s : State} {page : Nat} {ev : Ev} (hr : Raised s page ev) (k : Nat) (w : Word) (h : k ≠ page * 0x400 + 0x010) : Raised (s.setReg k w) page ev := by
  unfold Raised at hr ⊢
  rw [reg_setReg_ne _ _ _ _ h.symm, hr]

theorem Raised.put {s : State} {page : Nat} {ev : Ev} (hr : Raised s page ev) (p : Nat) (f : Fld) (v : Nat) (h : keyOf p f ≠ page * 0x400 + 0x010) : Raised (s.put p f v) page ev :=
  Raised.setReg hr _ _ h

theorem Raised.of_regs {s t : State} {page : Nat} {ev : Ev} (hr : Raised s page ev) (h : t.regs = s.regs) : Raised t page ev := by
  unfold Raised State.reg at hr ⊢
  rw [h]; exact hr

end Sys2Proof.Safety
end

