-- ==== Sys2Proof/Laws/Pages.lean ====
section
/-! SUPPORT. Which pages an operation leaves as they were, in the form that lets operations chain. -/

namespace Sys2Proof.Safety

open Sys2Proof.Machine

theorem SamePages.refl (s : State) (ps : List Nat) : SamePages s s ps := fun _ _ => rfl

theorem SamePages.of_regs {s a b : State} {ps : List Nat} (h : SamePages s a ps) (e : b.regs = a.regs) : SamePages s b ps :=
  fun k hk => (reg_of_regs e k).trans (h k hk)

theorem SamePages.of_eq {s b : State} {ps : List Nat} (e : b.regs = s.regs) : SamePages s b ps := SamePages.of_regs (SamePages.refl s ps) e

theorem SamePages.setReg {s a : State} {ps : List Nat} (h : SamePages s a ps) (key : Nat) (w : Word) (hp : key / 0x400 ∈ ps) : SamePages s (a.setReg key w) ps := by
  intro k hk
  rw [reg_setReg_ne _ _ _ _ (by rintro rfl; exact hk hp)]
  exact h k hk

theorem SamePages.put {s a : State} {ps : List Nat} (h : SamePages s a ps) (p : Nat) (f : Fld) (v : Nat) (hp : p ∈ ps) (hf : f.off < 0x400 := by decide) :
    SamePages s (a.put p f v) ps :=
  SamePages.setReg h _ _ (by rw [keyOf_page p f hf]; exact hp)

theorem SamePages.count {s a : State} {ps : List Nat} (h : SamePages s a ps) (p : Nat) (f : Fld) (n : Nat) (hp : p ∈ ps) (hf : f.off < 0x400 := by decide) :
    SamePages s (a.count p f n) ps :=
  SamePages.put h p f _ hp hf

theorem SamePages.raiseTo {s a : State} {ps : List Nat} (h : SamePages s a ps) (p : Nat) (ev : Ev) (o : Nat) (hp : p ∈ ps) : SamePages s (a.raiseTo p ev o) ps := by
  intro k hk
  have h1 : ∀ off, off < 0x400 → k ≠ p * 0x400 + off := by
    intro off ho e
    exact hk (by rw [e]; have : (p * 0x400 + off) / 0x400 = p := by omega
                 rw [this]; exact hp)
  rw [reg_raiseTo_ne _ _ _ _ _ (h1 _ (by decide)) (h1 _ (by decide))]
  exact h k hk

theorem SamePages.raise {s a : State} {ps : List Nat} (h : SamePages s a ps) (p : Nat) (ev : Ev) (hp : p ∈ ps) : SamePages s (a.raise p ev) ps :=
  SamePages.raiseTo h p ev _ hp

theorem SamePages.logFinding {s a : State} {ps : List Nat} (h : SamePages s a ps) (e : Word) (p d src : Nat) (w : Word) (hp : pgFlt ∈ ps) :
    SamePages s (a.logFinding e p d src w) ps := by
  intro k hk
  rw [reg_logFinding_ne _ _ _ _ _ _ _ (fun e => hk (by rw [e]; exact hp))]
  exact h k hk

theorem SamePages.ite {s a b : State} {ps : List Nat} {c : Prop} [Decidable c] (ha : SamePages s a ps) (hb : SamePages s b ps) : SamePages s (if c then a else b) ps := by
  by_cases h : c
  · rw [if_pos h]; exact ha
  · rw [if_neg h]; exact hb

theorem SamePages.mono {s a : State} {ps qs : List Nat} (h : SamePages s a ps) (hs : ∀ p, p ∈ ps → p ∈ qs) : SamePages s a qs :=
  fun k hk => h k (fun e => hk (hs _ e))

theorem sameBut_upd {α : Type} {n : Nat} (v : Vector α n) (i : Fin n) (f : α → α) : SameBut v (upd v i f) i := fun j h => upd_ne v i j f h

end Sys2Proof.Safety
end

