-- ==== Sys2Proof/Laws/Staging.lean ====
section
/-! SUPPORT. What putting a staging copy in force does to a register. -/

namespace Sys2Proof.Machine

set_option Elab.async false

open Sys2Proof.Safety

theorem merge_merge (a b d m : Word) : merge (merge a b m) d m = merge a d m := by
  unfold merge
  ext i h
  simp only [BitVec.getElem_or, BitVec.getElem_and, BitVec.getElem_not]
  cases a[i] <;> cases b[i] <;> cases d[i] <;> cases m[i] <;> rfl

theorem merge_zero (a b : Word) : merge a b 0 = a := by
  unfold merge
  ext i h
  simp only [BitVec.getElem_or, BitVec.getElem_and, BitVec.getElem_not]
  rw [show (0 : Word)[i] = false from BitVec.getElem_zero h, Bool.not_false, Bool.and_true, Bool.and_false, Bool.or_false]

/-- A register after the words of a staging copy have been put in force: the first word for it, in its staged bits. -/
theorem reg_applyWords (s : State) (ws : List (Nat × Word)) (k : Nat) :
    (s.applyWords ws).reg k = match ws.find? (fun x => decide (x.1 = k)) with
      | some x => if isCandKey k then s.reg k else merge (s.reg k) x.2 (rsMask k)
      | none => s.reg k := by
  unfold State.applyWords
  induction ws with
  | nil => rfl
  | cons x ws ih =>
    rw [List.reverse_cons, List.foldl_append, List.foldl_cons, List.foldl_nil]
    by_cases hx : x.1 = k
    · rw [List.find?_cons_of_pos (by simpa using hx)]
      dsimp only
      rw [← hx] at ih ⊢
      by_cases hc : isCandKey x.1 = true
      · rw [if_pos hc, if_pos hc, ih]
        split
        · rw [if_pos hc]
        · rfl
      · rw [if_neg hc, if_neg hc, reg_setReg_self, ih]
        split
        · rw [if_neg hc, merge_merge]
        · rfl
    · rw [List.find?_cons_of_neg (by simpa using hx)]
      by_cases hc : isCandKey x.1 = true
      · rw [if_pos hc, ih]
      · rw [if_neg hc, reg_setReg_ne _ _ _ _ (fun e => hx e.symm), ih]

theorem find_stagedOf (s : State) (page role k : Nat) (h : homePage k = page) :
    ((s.stagedOf page role).find? (fun x => decide (x.1 = k))).map (·.2) = s.staged? role k := by
  unfold State.stagedOf State.staged?
  induction s.staged with
  | nil => rfl
  | cons x l ih =>
    by_cases hk : x.key = k
    · by_cases hr : x.role = role
      · simp [hk, hr, h]
      · rw [List.filter_cons_of_neg (by simp [hr]), List.find?_cons_of_neg (by simp [hr])]
        exact ih
    · rw [List.find?_cons_of_neg (by simp [hk])]
      by_cases hp : (decide (x.role = role) && decide (homePage x.key = page)) = true
      · simp only [List.filter_cons, hp, if_true, List.map_cons]
        rw [List.find?_cons_of_neg (by simpa using hk)]
        exact ih
      · simp only [List.filter_cons, hp]
        exact ih

/-- A register of another page is as it was. -/
theorem find_stagedOf_ne (s : State) (page role k : Nat) (h : homePage k ≠ page) : (s.stagedOf page role).find? (fun x => decide (x.1 = k)) = none := by
  rw [List.find?_eq_none]
  intro x hx
  unfold State.stagedOf at hx
  rw [List.mem_map] at hx
  obtain ⟨y, hy, rfl⟩ := hx
  rw [List.mem_filter] at hy
  have := hy.2
  simp only [Bool.and_eq_true, decide_eq_true_eq] at this
  simp only [decide_eq_true_eq]
  rintro rfl
  exact h this.2

/-- A register of a page after a commit at its response: its staged bits hold what was staged for them. -/
theorem reg_applyStaged (s : State) (page role k : Nat) (h : homePage k = page) (hs : k ≠ keyOf page pgCommitSeq) (hc : isCandKey k = false) :
    (s.applyStaged page role).reg k = match s.staged? role k with
      | some w => merge (s.reg k) w (rsMask k)
      | none => s.reg k := by
  unfold State.applyStaged State.bumpSeq
  rw [reg_put_ne _ _ _ _ _ hs]
  have e : ∀ a : State, (a.unstage page role).reg k = a.reg k := fun _ => rfl
  rw [e, reg_applyWords, ← find_stagedOf s page role k h]
  cases (s.stagedOf page role).find? (fun x => decide (x.1 = k)) with
  | none => rfl
  | some x =>
    dsimp only [Option.map_some]
    rw [if_neg (by rw [hc]; decide)]

theorem homePage_main (k : Nat) (h : k / 0x400 < 0x400) : homePage k = k / 0x400 := by
  unfold homePage
  dsimp only
  rw [if_pos h]

/-- A commit at its response changes no register of another page. -/
theorem sameMain_applyStaged (s : State) (page role : Nat) : SameMain s (s.applyStaged page role) [page] := by
  intro k hk hp
  have hp' : k / 0x400 ≠ page := by simpa using hp
  unfold State.applyStaged State.bumpSeq
  rw [reg_put_ne]
  · have e : ∀ a : State, (a.unstage page role).reg k = a.reg k := fun _ => rfl
    rw [e, reg_applyWords, find_stagedOf_ne]
    rw [homePage_main k hk]
    exact hp'
  · rintro rfl
    exact hp' (keyOf_page _ _ (by decide))

theorem commitSeq_applyStaged (s : State) (page role : Nat) :
    (s.applyStaged page role).get page pgCommitSeq = (s.get page pgCommitSeq + 1) % 2 ^ 31 := by
  have hm : rsMask (keyOf page pgCommitSeq) = 0 := by
    unfold rsMask rowOf
    rw [keyOf_page _ _ (by decide), show keyOf page pgCommitSeq % 0x400 = pgCommitSeq.off by unfold keyOf pgCommitSeq; dsimp only; omega]
    have e : ∀ k, (match (layout k).find? (fun r => r.covers pgCommitSeq.off) with
        | some r => BitVec.ofNat 32 r.rs
        | none => (0 : Word)) = 0 := by
      intro k; cases k <;> decide
    cases kindOfPage page with
    | none => rfl
    | some k => exact e k
  have hr : ((s.applyWords (s.stagedOf page role)).unstage page role).get page pgCommitSeq = s.get page pgCommitSeq := by
    unfold State.get
    rw [show ((s.applyWords (s.stagedOf page role)).unstage page role).reg (keyOf page pgCommitSeq) = (s.applyWords (s.stagedOf page role)).reg (keyOf page pgCommitSeq)
      from rfl, reg_applyWords, hm]
    split
    · split
      · rfl
      · rw [merge_zero]
    · rfl
  unfold State.applyStaged State.bumpSeq
  rw [get_put_fits _ _ _ _ (by decide) (by exact Nat.mod_lt _ (by decide)), hr]

theorem SameMain.of_pages {s t : State} {ps : List Nat} (h : SamePages s t ps) : SameMain s t ps := fun k _ hp => h k hp

theorem SameMain.trans {s t u : State} {ps qs : List Nat} (h : SameMain s t ps) (g : SameMain t u qs) : SameMain s u (ps ++ qs) := by
  intro k hk hp
  rw [List.mem_append, not_or] at hp
  exact (g k hk hp.2).trans (h k hk hp.1)

theorem SameMain.mono {s t : State} {ps qs : List Nat} (h : SameMain s t ps) (hs : ∀ p, p ∈ ps → p ∈ qs) : SameMain s t qs :=
  fun k hk hp => h k hk (fun e => hp (hs _ e))

theorem SameMain.of_regs {s t u : State} {ps : List Nat} (h : SameMain s t ps) (e : u.regs = t.regs) : SameMain s u ps :=
  fun k hk hp => (reg_of_regs e k).trans (h k hk hp)

end Sys2Proof.Machine
end

