-- ==== Sys2Proof/Laws/Served.lean ====
section
/-! SUPPORT. What the front of a queue and the direct window do once their checks have passed: the command's own meaning, then its answer. -/

namespace Sys2Proof.Machine

set_option Elab.async false

open Sys2Proof.Safety

/-- A command taken off a queue leaves what waited behind it. -/
theorem popCmd_cmd (s : State) (q : CQueue) : (s.popCmd q).q.cmd[q] = (s.q.cmd[q]).tail := by
  unfold State.popCmd
  simp [upd]

/-- The checks take nothing off a queue. -/
theorem check_cmd (s : State) (q : CQueue) (w : Waiting) : (s.check q w).1.q.cmd = s.q.cmd :=
  (kept_check (Kept.refl 0xe0000088 s) q w).cmd (by decide)

theorem answer_cmd (s : State) (c : Caller) (addr : Nat) (r : Reply) : (s.answer c addr r).q.cmd = s.q.cmd :=
  (kept_answer (Kept.refl 0x42000008a s) c addr r).cmd (by decide)

theorem reply_cmd (c : Caller) (addr : Nat) (x : State × Option Reply) : (State.reply c addr x).q.cmd = x.1.q.cmd := by
  unfold State.reply
  split
  · exact answer_cmd _ _ _ _
  · rfl

/-- Where what waits at the front belongs to the queue, nothing is answered in passing. -/
theorem flushForeign_fits (s : State) (q : CQueue) (n : Nat) (h : ∀ x, (s.q.cmd[q]).head? = some x → queueOps q x.head.op = true) : s.flushForeign q n = s := by
  cases n with
  | zero => rfl
  | succ n =>
    unfold State.flushForeign
    split
    · rfl
    · rename_i w l e
      rw [if_pos (h w (by rw [e]; rfl))]

/-- A command at the front of a queue that passes its checks does what its own rules say, and its answer follows. -/
theorem serve_runs {s s1 : State} {q : CQueue} {ops ops' : List Nat} {n : Nat} {c : Caller} {act : Caller → State → State × Option Reply}
    (h : FrontRuns s q ops' n s1 c) (ho : ∀ op, op ∈ ops' → op ∈ ops) (hc : (act c s1).1.q.cmd = s1.q.cmd) : s.serve q ops act = State.reply c 0 (act c s1) := by
  obtain ⟨w, rest, r, ses, hq, hr, hs, hop, hf, _, h2, hk, rfl⟩ := h
  unfold State.serve
  rw [hq]
  dsimp only
  rw [if_pos ⟨hs, List.contains_iff_mem.mpr (ho _ hop)⟩]
  unfold State.serveFront
  dsimp only
  have hcl : ¬ (q.val = 2 ∧ (!(s.popCmd q).fuse.variant.cloche) = true) := by
    rintro ⟨a, b⟩
    have := h2 a
    rw [show (s.popCmd q).fuse = s.fuse from rfl, this] at b
    exact absurd b (by decide)
  rw [if_neg hcl, hk]
  dsimp only
  rw [if_pos hf]
  apply flushForeign_fits
  intro x hx
  apply hr x
  rw [reply_cmd, hc] at hx
  have e : s1.q.cmd = (s.popCmd q).q.cmd := by
    have := check_cmd (s.popCmd q) q w
    rw [hk] at this
    exact this
  rw [e, popCmd_cmd, hq] at hx
  exact hx

/-- The form of a caller's packet is the one its opcodes ask. -/
theorem runs_form {s s1 : State} {src : Src} {ops : List Nat} {n : Nat} {c : Caller} (h : Runs s src ops n s1 c) : formFits c ops n = true := by
  cases src with
  | window =>
    obtain ⟨-, -, rfl⟩ := h
    rfl
  | cmd q =>
    obtain ⟨-, w, rest, r, ses, -, -, -, hop, -, hn, -, -, rfl⟩ := h
    simp [formFits, hop, hn]

/-- A register access that runs does what its own rules say, and its answer follows. -/
theorem viaOps_runs {s s1 : State} {src : Src} {ops : List Nat} {n addr : Nat} {c : Caller} {act : Caller → State → State × Option Reply}
    (h : Runs s src ops n s1 c) (hc : (act c s1).1.q.cmd = s1.q.cmd) : s.viaOps ops src addr act = State.reply c (if c.q = none then addr else 0) (act c s1) := by
  cases src with
  | window =>
    obtain ⟨hw, rfl, rfl⟩ := h
    unfold State.viaOps
    dsimp only
    rw [if_pos hw, if_pos rfl]
  | cmd q =>
    obtain ⟨h2, hf⟩ := h
    have hcq : c.q = some q := by
      obtain ⟨w, rest, r, ses, -, -, -, -, -, -, -, -, rfl⟩ := hf
      rfl
    unfold State.viaOps
    dsimp only
    rw [if_neg h2, serve_runs hf (fun _ h => h) hc, hcq, if_neg (by simp)]

/-- The role that the rows which name a commit look for is the role in which it runs. -/
theorem srcRole_runs {s s1 : State} {src : Src} {ops : List Nat} {n : Nat} {c : Caller} (h : Runs s src ops n s1 c) : s.srcRole src = roleCode c.role := by
  cases src with
  | window =>
    obtain ⟨-, -, rfl⟩ := h
    rfl
  | cmd q =>
    obtain ⟨hq2, w, rest, r, ses, hq, -, -, -, -, -, -, hk, rfl⟩ := h
    unfold State.srcRole
    dsimp only
    rw [hq]
    dsimp only
    unfold State.check at hk
    rcases ha : w.head.auth with _ | a
    · rw [ha] at hk
      cases hk
      rfl
    · rw [ha] at hk
      dsimp only at hk ⊢
      unfold State.checkAuth at hk
      dsimp only at hk
      split at hk
      · cases hk
      · split at hk
        · cases hk
        · rename_i k hs
          have e : decide (q.val = 2) = false := decide_eq_false hq2
          rw [e] at hs
          have hs' : s.findSession false a.sid = some k := hs
          rw [hs']
          dsimp only
          rw [e] at hk
          split at hk
          · cases hk
          · split at hk
            · cases hk
            · split at hk
              · cases hk
              · split at hk
                · cases hk
                · cases hk
                  rfl

/-- A write that passes every check and asks for no commit writes its registers one after another and answers OK. -/
theorem writeWith_ok {s : State} {each : State → RegWrite → State} {c : Caller} {w : RegWrite} {ws : List RegWrite}
    (hr : s.writeRefusal c.role w.addr (w :: ws).length = .ok) (hv : s.valueStatus (roleCode c.role) (w.addr / 0x400) (w :: ws) = .ok)
    (hn : (w :: ws).any (·.commits) = false) : s.writeWith each c (w :: ws) false = ((w :: ws).foldl each s, some (.st .ok)) := by
  unfold State.writeWith
  dsimp only
  rw [hr]
  dsimp only
  rw [hv]
  dsimp only
  rw [if_neg (by rw [hn]; decide)]

/-- A write that passes every check and asks for a commit writes its registers and commits the page. -/
theorem writeWith_commit {s : State} {each : State → RegWrite → State} {c : Caller} {w : RegWrite} {ws : List RegWrite} {asked : Bool}
    (hr : s.writeRefusal c.role w.addr (w :: ws).length = .ok) (hv : s.valueStatus (roleCode c.role) (w.addr / 0x400) (w :: ws) = .ok)
    (hn : asked = true ∨ (w :: ws).any (·.commits) = true) :
    s.writeWith each c (w :: ws) asked =
      State.commitPage ((w :: ws).foldl each s) ((w :: ws).foldl (fun s w => s.stageReg (roleCode c.role) w) s) c (w.addr / 0x400) asked := by
  unfold State.writeWith
  dsimp only
  rw [hr]
  dsimp only
  rw [hv]
  dsimp only
  rw [if_pos hn]

/-- One register written whole by a source whose write passes every check. -/
theorem writeOne_runs {s s1 : State} {src : Src} {addr : Nat} {w : Word} {c : Caller} (h : WriteRuns s src [⟨addr, w, BitVec.allOnes 32⟩] s1 c)
    (hn : (RegWrite.mk addr w (BitVec.allOnes 32)).commits = false) (hc : (s1.writeReg (roleCode c.role) ⟨addr, w, BitVec.allOnes 32⟩).q.cmd = s1.q.cmd) :
    s.writeOne src addr w = (s1.writeReg (roleCode c.role) ⟨addr, w, BitVec.allOnes 32⟩).answer c (if c.q = none then addr else 0) (.st .ok) := by
  obtain ⟨hrun, hr, hv⟩ := h
  have e : s1.writeWith (fun s x => s.writeReg (roleCode c.role) x) c [⟨addr, w, BitVec.allOnes 32⟩] false =
      (s1.writeReg (roleCode c.role) ⟨addr, w, BitVec.allOnes 32⟩, some (.st .ok)) :=
    writeWith_ok hr hv (by rw [List.any_cons, hn]; rfl)
  unfold State.writeOne State.writeVia State.viaWrite
  rw [viaOps_runs hrun]
  · rw [if_pos (runs_form hrun)]
    exact congrArg (State.reply c _) e
  · rw [if_pos (runs_form hrun)]
    exact (congrArg (fun x => x.1.q.cmd) e).trans hc

/-- The row of the commit register holds no staged, plain or W1C bits on any page that has it. -/
theorem rowOf_commit (page : Nat) (r : RegRow) (h : rowOf (page * 0x400 + 0x02C) = some r) : r.rs = 0 ∧ r.rw = 0 ∧ r.w1c = 0 := by
  unfold rowOf at h
  rw [show (page * 0x400 + 0x02C) / 0x400 = page by omega, show (page * 0x400 + 0x02C) % 0x400 = 0x02C by omega] at h
  split at h
  · rename_i k _
    have e : ∀ k, (layout k).find? (fun r => r.covers 0x02C) = none ∨
        (layout k).find? (fun r => r.covers 0x02C) = some ⟨0x2C, 0, 1, 0, 0, 0, 0x1, 0, 0, 0⟩ := by
      intro k; cases k <;> decide
    rcases e k with e | e
    · rw [e] at h; cases h
    · rw [e] at h; cases h; exact ⟨rfl, rfl, rfl⟩
  · cases h

/-- The word that a commit writes. -/
def commitWord (page : Nat) : RegWrite := ⟨page * 0x400 + 0x02C, 1, 1⟩

theorem writeKey_commit (s : State) (role page : Nat) : s.writeKey role (page * 0x400 + 0x02C) = some (page * 0x400 + 0x02C) := by
  have hw : isWindowKey (page * 0x400 + 0x02C) = false := by
    unfold isWindowKey
    rw [show (page * 0x400 + 0x02C) % 0x400 = 0x02C by omega]
    simp
  unfold State.writeKey
  rw [hw, if_neg (by decide)]
  unfold State.resolve
  dsimp only
  rw [show (page * 0x400 + 0x02C) % 0x400 = 0x02C by omega, show (page * 0x400 + 0x02C) / 0x400 = page by omega]
  split
  · simp
  · split
    · rw [if_neg (by omega)]
    · rfl

theorem stageMask_commit (page : Nat) : stageMask (page * 0x400 + 0x02C) = 0 := by
  unfold stageMask
  split
  · rename_i r hr
    obtain ⟨h1, -, -⟩ := rowOf_commit page r hr
    rw [if_neg, h1]
    · rfl
    · rw [show (page * 0x400 + 0x02C) % 0x400 = 0x02C by omega]
      rintro (⟨a, -⟩ | a)
      · exact absurd a (by decide)
      · unfold keyOf pgSnd sndGo at a
        dsimp only at a
        omega
  · rfl

theorem stageReg_commit (s : State) (role page : Nat) : s.stageReg role (commitWord page) = s := by
  unfold State.stageReg
  rw [show (commitWord page).addr = page * 0x400 + 0x02C from rfl, writeKey_commit]
  dsimp only
  rw [if_pos (stageMask_commit page)]

/-- Writing the commit register changes nothing by itself. -/
theorem writeReg_commit (s : State) (role page : Nat) : s.writeReg role (commitWord page) = s := by
  unfold State.writeReg
  rw [show (commitWord page).addr = page * 0x400 + 0x02C from rfl, writeKey_commit]
  dsimp only
  split
  · rfl
  · rename_i r hr
    obtain ⟨h1, h2, h3⟩ := rowOf_commit page r hr
    rw [if_neg (by rw [show (page * 0x400 + 0x02C) % 0x400 = 0x02C by omega]; rintro ⟨a, -⟩; exact absurd a (by decide)), if_pos h2, if_pos h3,
      stageReg_commit]
    unfold State.onWrite
    dsimp only
    rw [show (page * 0x400 + 0x02C) % 0x400 = 0x02C by omega, show (page * 0x400 + 0x02C) / 0x400 = page by omega]
    have hp : pmbSlotAt 0x02C = none := by decide
    rw [hp]
    split <;> simp

/-- The values that a commit writes are in range. -/
theorem valueStatus_commit (s : State) (role page : Nat) : s.valueStatus role page [commitWord page] = .ok := by
  have hv : s.valueOk role (commitWord page) = true := by
    unfold State.valueOk
    rw [show (commitWord page).addr = page * 0x400 + 0x02C from rfl, writeKey_commit]
    dsimp only
    split
    · rename_i r k hr hk
      rw [show (page * 0x400 + 0x02C) % 0x400 = 0x02C by omega]
      have h1 : ∀ k, (rangesOf k).all (fun x => !x.covers 0x02C) = true := by intro k; cases k <;> decide
      have h2 : relationsOk (page * 0x400 + 0x02C) (s.newWord role (page * 0x400 + 0x02C) (commitWord page)) = true := by
        unfold relationsOk keyOf pgPwr pwrVmax pgTel telTempCrit
        dsimp only
        rw [if_neg (by omega), if_neg (by omega)]
      rw [h2, Bool.and_true, List.all_eq_true]
      intro x hx
      have := List.all_eq_true.mp (h1 k) x hx
      simp only [this, Bool.true_or]
    · rfl
  have hi : s.injectOk role page [commitWord page] = true := by
    unfold State.injectOk
    dsimp only
    rw [if_neg]
    rw [List.any_cons, List.any_nil, Bool.or_false, decide_eq_true_eq]
    unfold commitWord
    dsimp only
    omega
  unfold State.valueStatus
  rw [if_neg, List.find?_cons_of_neg, List.find?_nil]
  · rw [Bool.and_eq_true, decide_eq_true_eq]
    rintro ⟨a, -⟩
    unfold commitWord keyOf pgPwr pwrTarget at a
    dsimp only at a
    omega
  · rw [List.any_cons, List.any_nil, hv, hi]
    decide

theorem commits_commitWord (page : Nat) : (commitWord page).commits = true := by
  unfold RegWrite.commits RegWrite.act commitWord
  dsimp only
  rw [show (page * 0x400 + 0x02C) % 0x400 = 0x02C by omega]
  decide

theorem commitPage_cmd (s : State) (c : Caller) (page : Nat) (asked : Bool) : (s.commitPage s c page asked).1.q.cmd = s.q.cmd :=
  (kept_commitPage (Kept.refl 0xf000e7f8fe s) (Kept.refl 0xf000e7f8fe s) c page asked).cmd (by decide)

/-- An accepted commit commits the page as it stands, and its answer follows. -/
theorem commitVia_runs {s s1 : State} {src : Src} {page : Nat} {c : Caller} (h : CommitRuns s src page s1 c) :
    s.commitVia src page = State.reply c (if c.q = none then page * 0x400 + 0x02C else 0) (s1.commitPage s1 c page (decide (c.q ≠ none))) := by
  obtain ⟨hrun, hr, -⟩ := h
  have e : s1.writeCommand c [⟨page * 0x400 + 0x02C, 1, 1⟩] (decide (c.q ≠ none)) = s1.commitPage s1 c page (decide (c.q ≠ none)) := by
    unfold State.writeCommand
    rw [show [RegWrite.mk (page * 0x400 + 0x02C) 1 1] = [commitWord page] from rfl, writeWith_commit (w := commitWord page) (ws := []) hr]
    · rw [List.foldl_cons, List.foldl_nil, List.foldl_cons, List.foldl_nil, writeReg_commit, stageReg_commit,
        show (commitWord page).addr / 0x400 = page by unfold commitWord; dsimp only; omega]
    · rw [show (commitWord page).addr / 0x400 = page by unfold commitWord; dsimp only; omega]
      exact valueStatus_commit _ _ _
    · rw [List.any_cons, commits_commitWord]
      exact .inr rfl
  unfold State.commitVia State.viaWrite
  rw [viaOps_runs hrun]
  · rw [if_pos (runs_form hrun), e]
  · rw [if_pos (runs_form hrun), e]
    exact commitPage_cmd _ _ _ _

/-- What an accepted commit that asks for no packet does: its effect, LAST_STATUS OK, its answer. -/
theorem commitPage_ok {s : State} {c : Caller} {page : Nat} {asked : Bool} (h : s.commitStatus (roleCode c.role) page = .ok)
    (hg : (decide (page = pgSnd) && s.goStaged) = false) :
    s.commitPage s c page asked = (((s.commitResult page).2.commitApply (roleCode c.role) page).setLast page (stageRole page (roleCode c.role)) .ok,
      some ⟨.ok, if asked = true then (s.commitResult page).1 else 0, []⟩) := by
  unfold State.commitPage
  dsimp only
  rw [h]
  dsimp only
  rw [hg, if_neg (by decide)]

/-- An accepted commit that asks for no packet: its effect, LAST_STATUS OK, its answer. -/
theorem commitVia_done {s s1 : State} {src : Src} {page : Nat} {c : Caller} (h : CommitRuns s src page s1 c) (hg : page ≠ pgSnd ∨ s1.goStaged = false) :
    s.commitVia src page = (((s1.commitResult page).2.commitApply (roleCode c.role) page).setLast page (stageRole page (roleCode c.role)) .ok).answer c
      (if c.q = none then page * 0x400 + 0x02C else 0) ⟨.ok, if c.q ≠ none then (s1.commitResult page).1 else 0, []⟩ := by
  rw [commitVia_runs h, commitPage_ok h.2.2]
  · simp only [decide_eq_true_eq]
    rfl
  · rcases hg with hg | hg
    · rw [decide_eq_false hg, Bool.false_and]
    · rw [hg, Bool.and_false]

/-- The rows that name what is staged do the commit when it is. -/
theorem commitIf_runs {s s1 : State} {src : Src} {page : Nat} {c : Caller} {staged : Nat → Bool} (h : CommitRuns s src page s1 c)
    (hs : staged (roleCode c.role) = true) : s.commitIf src page staged = .next (s.commitVia src page) := by
  unfold State.commitIf
  rw [srcRole_runs h.1, if_pos hs]

/-! ### What an answer leaves -/

theorem samePages_mboxPut {s a : State} (ws : List Word) (h : a.regs = s.regs) : SamePages s (a.mboxPut ws) [pgTwb] := by
  unfold State.mboxPut
  split
  · exact SamePages.of_eq h
  · exact SamePages.raise (SamePages.put (SamePages.of_eq h) _ _ _ (by simp)) _ _ (by simp)

theorem regs_setSession (s : State) (cl : Bool) (k : KeySlot) (x : Option Session) : (s.setSession cl k x).regs = s.regs := by
  unfold State.setSession State.setSessions
  split <;> rfl

theorem samePages_post (s : State) (q : CQueue) (w : Waiting) (ses : Option KeySlot) (r : Reply) : SamePages s (s.post q w ses r) [pgTwb] := by
  have hr : ∀ o : Option (KeySlot × Session), (match o with
      | some (k, x) => ((s.takeRseq.2.setSession (decide (q.val = 2)) k (some { x with ctrOut := x.ctrOut + 1 }), some ⟨x.id, x.ctrOut + 1, x.keys⟩) : State × Option Under)
      | none => (s.takeRseq.2, none)).1.regs = s.regs := by
    intro o
    rcases o with _ | ⟨k, x⟩
    · rfl
    · exact regs_setSession _ _ _ _
  unfold State.post
  dsimp only
  exact SamePages.ite (samePages_mboxPut _ (hr _)) (SamePages.ite (SamePages.of_eq (hr _)) (SamePages.of_eq (hr _)))

/-- An answer changes no register outside the two-wire page. -/
theorem samePages_answer (s : State) (c : Caller) (addr : Nat) (r : Reply) : SamePages s (s.answer c addr r) [pgTwb] := by
  unfold State.answer
  split
  · exact samePages_post s _ _ _ _
  · have h1 : SamePages s ((s.put pgTwb twbLastAddr addr).put pgTwb twbLastStatus r.status.code) [pgTwb] :=
      SamePages.put (SamePages.put (SamePages.refl s [pgTwb]) pgTwb twbLastAddr addr (by simp)) pgTwb twbLastStatus r.status.code (by simp)
    unfold State.windowDone State.windowSeq State.takeRseq
    dsimp only
    generalize (s.put pgTwb twbLastAddr addr).put pgTwb twbLastStatus r.status.code = a at h1 ⊢
    split
    · exact SamePages.put (SamePages.of_regs h1 rfl) pgTwb twbLastRseq _ (by simp)
    · exact h1

/-- An answer leaves every field but RSEQ, the queues of answers, the sessions, the two-wire block and registers as it was. -/
theorem kept_of_answer (s : State) (c : Caller) (addr : Nat) (r : Reply) : Kept 0x42000008a s (s.answer c addr r) := kept_answer (Kept.refl _ s) c addr r

/-- A field of another page reads as before an answer. -/
theorem get_answer (s : State) (c : Caller) (addr : Nat) (r : Reply) (p : Nat) (f : Fld) (hp : p ≠ pgTwb) (hf : f.off < 0x400 := by decide) :
    (s.answer c addr r).get p f = s.get p f := by
  unfold State.get
  rw [samePages_answer s c addr r (keyOf p f) (by rw [keyOf_page p f hf]; simpa using hp)]

/-! ### What the checks leave -/

theorem samePages_consumeInj (s : State) (p : Nat) : SamePages s (s.consumeInj p) [p] := by
  unfold State.consumeInj
  split
  · exact SamePages.put (SamePages.refl s _) _ _ _ (by simp)
  · dsimp only
    exact SamePages.ite (SamePages.put (SamePages.put (SamePages.refl s _) _ _ _ (by simp)) _ _ _ (by simp)) (SamePages.put (SamePages.refl s _) _ _ _ (by simp))
  · exact SamePages.refl s _

/-- A command that passes its checks has changed no register outside the SEC page. -/
theorem samePages_check {s s1 : State} {q : CQueue} {w : Waiting} {r : Role} {ses : Option KeySlot} (h : s.check q w = (s1, .accepted r ses)) :
    SamePages s s1 [pgSec] := by
  unfold State.check at h
  split at h
  · rename_i a _
    unfold State.checkAuth at h
    dsimp only at h
    split at h
    · cases h
    · split at h
      · cases h
      · split at h
        · cases h
        · split at h
          · cases h
          · split at h
            · cases h
            · split at h
              · cases h
              · cases h
                refine SamePages.ite ?_ (SamePages.of_eq (regs_setSession _ _ _ _))
                unfold State.endSession
                split
                · exact SamePages.raise (SamePages.of_eq ((regs_setSession _ _ _ _).trans (regs_setSession _ _ _ _))) _ _ (by simp)
                · exact SamePages.of_eq (regs_setSession _ _ _ _)
  · cases h
    exact SamePages.refl s _

/-- A register access that runs has changed no register outside the SEC page on its way. -/
theorem samePages_runs {s s1 : State} {src : Src} {ops : List Nat} {n : Nat} {c : Caller} (h : Runs s src ops n s1 c) : SamePages s s1 [pgSec] := by
  cases src with
  | window =>
    obtain ⟨-, rfl, -⟩ := h
    exact SamePages.refl s1 _
  | cmd q =>
    obtain ⟨-, w, rest, r, ses, -, -, -, -, -, -, -, hk, -⟩ := h
    have := samePages_check hk
    exact fun k hk' => this k hk'

/-- A register access that runs has changed sessions, queues and registers alone on its way. -/
theorem kept_runs {s s1 : State} {src : Src} {ops : List Nat} {n : Nat} {c : Caller} (h : Runs s src ops n s1 c) : Kept 0x200e0000088 s s1 := by
  cases src with
  | window =>
    obtain ⟨-, rfl, -⟩ := h
    exact Kept.refl _ s1
  | cmd q =>
    obtain ⟨-, w, rest, r, ses, -, -, -, -, -, -, -, hk, -⟩ := h
    have := kept_check (kept_popCmd (Kept.refl 0x200e0000088 s) q) q w
    rw [hk] at this
    exact this

end Sys2Proof.Machine
end

