-- ==== Sys2Proof/Laws/Commits.lean ====
section
/-! SUPPORT. What an accepted commit leaves: staging copies, LAST_STATUS, what a boundary will apply. -/

namespace Sys2Proof.Machine

set_option Elab.async false

open Sys2Proof.Safety

theorem ite_some {α : Type} {c : Prop} [Decidable c] {a b : Option α} {x : α} : ((if c then a else b) = some x) ↔ (c ∧ a = some x) ∨ (¬ c ∧ b = some x) := by
  by_cases hc : c
  · rw [if_pos hc]; simp [hc]
  · rw [if_neg hc]; simp [hc]

theorem kind_slc (page : Nat) (h : kindOfPage page = some .slc) : 0x040 ≤ page ∧ page ≤ 0x09F := by
  unfold kindOfPage at h
  simp only [ite_some, Option.some.injEq, reduceCtorEq, and_false, and_true, false_or, or_false] at h
  omega

theorem kind_bed (page : Nat) (h : kindOfPage page = some .bed) : 0x020 ≤ page ∧ page ≤ 0x02B := by
  unfold kindOfPage at h
  simp only [ite_some, Option.some.injEq, reduceCtorEq, and_false, and_true, false_or, or_false] at h
  omega

theorem kind_svc (page : Nat) (h : kindOfPage page = some .svc) : 0x0C0 ≤ page ∧ page ≤ 0x0DF := by
  unfold kindOfPage at h
  simp only [ite_some, Option.some.injEq, reduceCtorEq, and_false, and_true, false_or, or_false] at h
  omega

theorem kind_inp (page : Nat) (h : kindOfPage page = some .inp) : 0x010 ≤ page ∧ page ≤ 0x013 := by
  unfold kindOfPage at h
  simp only [ite_some, Option.some.injEq, reduceCtorEq, and_false, and_true, false_or, or_false] at h
  omega

theorem stagedOf_eq {a b : State} (h : a.staged = b.staged) (p r : Nat) : a.stagedOf p r = b.stagedOf p r := by unfold State.stagedOf; rw [h]

theorem stagedOf_unstage (a : State) (p r : Nat) : (a.unstage p r).stagedOf p r = [] := by
  unfold State.stagedOf State.unstage
  simp [List.filter_filter]

theorem lastStatus_eq {a b : State} (h : a.lastStatus = b.lastStatus) (p r : Nat) : a.lastStatusOf p r = b.lastStatusOf p r := by unfold State.lastStatusOf; rw [h]

theorem lastStatus_setLast (a : State) (p r : Nat) (st : Status) : (a.setLast p r st).lastStatusOf p r = st := by
  unfold State.lastStatusOf State.setLast
  by_cases h : st = .ok
  · rw [if_pos h, h]
    dsimp only
    rw [List.nil_append]
    have : (a.lastStatus.filter (fun x => !(decide (x.page = p) && decide (x.role = r)))).find? (fun x => decide (x.page = p) && decide (x.role = r)) = none := by
      rw [List.find?_eq_none]
      intro x hx
      rw [List.mem_filter] at hx
      have := hx.2
      by_cases h1 : x.page = p <;> by_cases h2 : x.role = r <;> simp_all
    rw [this]; rfl
  · rw [if_neg h]
    simp

theorem slcClaim_kept (s : State) (i : Slc) : Kept (2^11) s (s.slcClaim i) := by
  have := kept_slcClaim (Kept.refl (2^11) s) i (by decide)
  exact this

theorem bedClaim_kept (s : State) (i : BedId) : Kept (2^11 ||| 2^15) s (s.bedClaim i) := by
  have := kept_bedClaim (Kept.refl (2^11 ||| 2^15) s) i (by decide)
  exact this

theorem capture_facts {a b : State} (h : Kept (2^11 ||| 2^15 ||| 2^36) a b) (p r : Nat) :
   (b.capture p r).captured = a.captured ++ [⟨p, r, a.time.grid, commitDue a.time (kindCode p), a.stagedOf p r⟩] ∧ (b.capture p r).stagedOf p r = [] ∧ (b.capture p r).time = a.time ∧ (b.capture p r).regs = a.regs := by
  refine ⟨?_, stagedOf_unstage b p r, h.time (by decide), h.regs (by decide)⟩
  show b.captured ++ _ = _
  rw [h.captured (by decide), h.time (by decide), stagedOf_eq (h.staged (by decide))]

theorem kindCode_bound (page : Nat) (h1 : 1 ≤ kindCode page) (h2 : kindCode page ≤ 4) :
    kindOfPage page = some .inp ∨ kindOfPage page = some .cal ∨ kindOfPage page = some .sieve ∨ kindOfPage page = some .slc ∨ kindOfPage page = some .bed := by
  unfold kindCode at h1 h2
  cases h : kindOfPage page with
  | none => rw [h] at h1; exact absurd h1 (by decide)
  | some k =>
    rw [h] at h1 h2
    cases k <;> first | exact absurd h1 (by decide) | exact absurd h2 (by decide) | simp

/-- What an accepted commit does on a page with a boundary. -/
theorem apply_boundary (s1 : State) (page role : Nat) (h1 : 1 ≤ kindCode page) (h2 : kindCode page ≤ 4) :
    (s1.commitApply role page).captured = s1.captured ++ [⟨page, stageRole page role, s1.time.grid, commitDue s1.time (kindCode page), s1.stagedOf page (stageRole page role)⟩] ∧
    (s1.commitApply role page).stagedOf page (stageRole page role) = [] ∧ (s1.commitApply role page).time = s1.time ∧ (s1.commitApply role page).regs = s1.regs := by
  unfold State.commitApply
  rcases kindCode_bound page h1 h2 with hk | hk | hk | hk | hk
  · rw [hk]; exact capture_facts (Kept.refl _ s1) _ _
  · rw [hk]; exact capture_facts (Kept.refl _ s1) _ _
  · rw [hk]; exact capture_facts (Kept.refl _ s1) _ _
  · rw [hk]
    have := kind_slc page hk
    dsimp only
    rw [dif_pos (by omega)]
    exact capture_facts ((slcClaim_kept s1 _).mono (by decide)) _ _
  · rw [hk]
    have := kind_bed page hk
    dsimp only
    rw [dif_pos (by omega)]
    exact capture_facts ((bedClaim_kept s1 _).mono (by decide)) _ _

/-- RESULT of a commit takes a free value on the AUD page alone. -/
theorem commitResult_state (s : State) (p : Nat) (h : kindCode p ≠ 5) : (s.commitResult p).2 = s := by
  unfold State.commitResult
  rw [if_neg h]
  split <;> rfl

end Sys2Proof.Machine
end

