-- ==== Sys2Proof/Laws/Firmware.lean ====
section
/-! SUPPORT. Laws of a firmware slot's words: every write keeps their canonical form. -/

namespace Sys2Proof.Machine

set_option Elab.async false

theorem fwWf_iff (l : List (Nat × Quad)) : fwWf l = true ↔ (∀ x ∈ l, x.2 ≠ 0) ∧ l.Pairwise (fun a b => a.1 < b.1) := by
  simp [fwWf]

theorem insertFw_mem (l : List (Nat × Quad)) (i : Nat) (w : Quad) (x : Nat × Quad) (h : x ∈ insertFw l i w) : x = (i, w) ∨ x ∈ l := by
  induction l with
  | nil => exact .inl (by simpa [insertFw] using h)
  | cons y l ih =>
    simp only [insertFw] at h
    split at h
    · simpa using h
    · split at h
      · rcases List.mem_cons.mp h with h | h
        · exact .inl h
        · exact .inr (List.mem_cons_of_mem _ h)
      · rcases List.mem_cons.mp h with h | h
        · exact .inr (h ▸ List.mem_cons_self)
        · exact (ih h).imp id (List.mem_cons_of_mem _)

theorem insertFw_rising (l : List (Nat × Quad)) (i : Nat) (w : Quad) (h : l.Pairwise (fun a b => a.1 < b.1)) :
    (insertFw l i w).Pairwise (fun a b => a.1 < b.1) := by
  induction l with
  | nil => simp [insertFw]
  | cons y l ih =>
    have hy := List.pairwise_cons.mp h
    simp only [insertFw]
    split
    · rename_i hi
      refine List.pairwise_cons.mpr ⟨fun z hz => ?_, h⟩
      rcases List.mem_cons.mp hz with e | hz
      · exact e ▸ hi
      · exact Nat.lt_trans hi (hy.1 z hz)
    · split
      · rename_i _ e
        exact List.pairwise_cons.mpr ⟨fun z hz => e ▸ hy.1 z hz, hy.2⟩
      · rename_i h1 h2
        refine List.pairwise_cons.mpr ⟨fun z hz => ?_, ih hy.2⟩
        rcases insertFw_mem l i w z hz with e | hz
        · subst e; simp only; omega
        · exact hy.1 z hz

/-- A word written keeps the canonical form. -/
theorem fwWf_putFw (l : List (Nat × Quad)) (i : Nat) (w : Quad) (h : fwWf l = true) : fwWf (putFw l i w) = true := by
  rw [fwWf_iff] at h ⊢
  unfold putFw
  split
  · exact ⟨fun x hx => h.1 x ((List.mem_filter.mp hx).1), h.2.filter _⟩
  · rename_i hw
    refine ⟨fun x hx => ?_, insertFw_rising l i w h.2⟩
    rcases insertFw_mem l i w x hx with e | hx
    · subst e; exact hw
    · exact h.1 x hx

/-- A write of consecutive words keeps the canonical form. -/
theorem fwWf_write (x : FwSlot) (first : Nat) (data : List Quad) (h : fwWf x.words = true) : fwWf (x.write first data).words = true := by
  unfold FwSlot.write
  generalize data.mapIdx (fun i w => (first + i, w)) = ps
  show fwWf (ps.foldl (fun l p => putFw l p.1 p.2) x.words) = true
  generalize x.words = l at h
  induction ps generalizing l with
  | nil => exact h
  | cons p ps ih => exact ih _ (fwWf_putFw l p.1 p.2 h)

end Sys2Proof.Machine
end

