-- ==== Sys2Proof/Laws/KeptPeriods.lean ====
section
/-! SUPPORT. What every operation of Periods.lean keeps. -/

namespace Sys2Proof.Machine

set_option Elab.async false

set_option linter.unusedSimpArgs false

theorem kept_iqCount {K : Nat} {s0 s : State} (hk : Kept K s0 s) (d : StrmDef) (p : Nat) (stop : Nat) (n : Nat) (hm : 0x8c88 &&& K = 0x8c88 := by decide) : Kept K s0 (State.iqCount s d p stop n) := by
  refine hk.into hm ?_
  have hk := Kept.refl 0x8c88 s
  unfold State.iqCount
  repeat' first | with_reducible assumption | with_reducible refine kept_updSlc ?_ _ _ (by decide) | with_reducible refine kept_updBed ?_ _ _ (by decide) | with_reducible refine kept_raise ?_ _ _ (by decide) | with_reducible refine kept_updInp ?_ _ _ (by decide) | with_reducible refine kept_count ?_ _ _ _ (by decide) | simp only [kept_is_mk] | with_reducible refine kept_mk ?_ | dsimp only | split

theorem kept_iqPacket {K : Nat} {s0 s : State} (hk : Kept K s0 s) (d : StrmDef) (p : Nat) (iq : List (Int × Int)) (hm : 0x8c88 &&& K = 0x8c88 := by decide) : Kept K s0 (State.iqPacket s d p iq).2 := by
  refine hk.into hm ?_
  have hk := Kept.refl 0x8c88 s
  unfold State.iqPacket
  repeat' first | with_reducible assumption | with_reducible refine kept_iqCount ?_ _ _ _ _ (by decide) | dsimp only | split

theorem kept_sourceCheck {K : Nat} {s0 s : State} (hk : Kept K s0 s) (i : StrmId) (mulch : Bool) (hm : 0x200088 &&& K = 0x200088 := by decide) : Kept K s0 (State.sourceCheck s i mulch) := by
  refine hk.into hm ?_
  have hk := Kept.refl 0x200088 s
  unfold State.sourceCheck
  repeat' first | with_reducible assumption | with_reducible refine kept_raiseTo ?_ _ _ _ (by decide) | with_reducible refine kept_updStrm ?_ _ _ (by decide) | simp only [kept_is_mk] | with_reducible refine kept_mk ?_ | dsimp only | split

theorem kept_sampledPacket {K : Nat} {s0 s : State} (hk : Kept K s0 s) (i : StrmId) (m : PktMeas) (hm : 0xe08c88 &&& K = 0xe08c88 := by decide) : Kept K s0 (State.sampledPacket s i m) := by
  refine hk.into hm ?_
  have hk := Kept.refl 0xe08c88 s
  unfold State.sampledPacket
  repeat' first | with_reducible assumption | with_reducible refine kept_sourceCheck ?_ _ _ (by decide) | with_reducible refine kept_formPacket ?_ _ _ (by decide) | with_reducible refine kept_iqPacket ?_ _ _ _ (by decide) | with_reducible refine kept_updStrm ?_ _ _ (by decide) | simp only [kept_is_mk] | with_reducible refine kept_mk ?_ | (with_reducible refine Kept.of_fst (by assumption) ?_) | (with_reducible refine Kept.of_snd (by assumption) ?_) | dsimp only | split

theorem kept_sampledPeriod {K : Nat} {s0 s : State} (hk : Kept K s0 s) (i : StrmId) (m : PktMeas) (hm : 0xe08c88 &&& K = 0xe08c88 := by decide) : Kept K s0 (State.sampledPeriod s i m) := by
  refine hk.into hm ?_
  have hk := Kept.refl 0xe08c88 s
  unfold State.sampledPeriod
  repeat' first | with_reducible assumption | with_reducible refine kept_sampledPacket ?_ _ _ (by decide) | with_reducible refine kept_updStrm ?_ _ _ (by decide) | simp only [kept_is_mk] | with_reducible refine kept_mk ?_ | dsimp only | split

theorem kept_keepMeas {K : Nat} {s0 s : State} (hk : Kept K s0 s) (i : StrmId) (hm : 0x200000 &&& K = 0x200000 := by decide) : Kept K s0 (State.keepMeas s i) := by
  refine hk.into hm ?_
  have hk := Kept.refl 0x200000 s
  unfold State.keepMeas
  repeat' first | with_reducible assumption | with_reducible refine kept_updStrm ?_ _ _ (by decide) | simp only [kept_is_mk] | with_reducible refine kept_mk ?_ | dsimp only | split

theorem kept_measBlock {K : Nat} {s0 s : State} (hk : Kept K s0 s) (hm : 0x200000 &&& K = 0x200000 := by decide) : Kept K s0 (State.measBlock s) := by
  refine hk.into hm ?_
  have hk := Kept.refl 0x200000 s
  unfold State.measBlock
  repeat' first | with_reducible assumption | with_reducible refine kept_keepMeas ?_ _ (by decide) | with_reducible refine Kept.foldl (fun _ _ h => ?_) _ ?_ | dsimp only | split

theorem kept_measurePeriod {K : Nat} {s0 s : State} (hk : Kept K s0 s) (i : StrmId) (hm : 0xe00088 &&& K = 0xe00088 := by decide) : Kept K s0 (State.measurePeriod s i) := by
  refine hk.into hm ?_
  have hk := Kept.refl 0xe00088 s
  unfold State.measurePeriod
  repeat' first | with_reducible assumption | with_reducible refine kept_formPacket ?_ _ _ (by decide) | with_reducible refine kept_updStrm ?_ _ _ (by decide) | simp only [kept_is_mk] | with_reducible refine kept_mk ?_ | dsimp only | split

theorem kept_drmUnit {K : Nat} {s0 s : State} (hk : Kept K s0 s) (i : StrmId) (u : Unit_) (hm : 0xe00088 &&& K = 0xe00088 := by decide) : Kept K s0 (State.drmUnit s i u) := by
  refine hk.into hm ?_
  have hk := Kept.refl 0xe00088 s
  unfold State.drmUnit
  repeat' first | with_reducible assumption | with_reducible refine kept_formPacket ?_ _ _ (by decide) | simp only [kept_is_mk] | with_reducible refine kept_mk ?_ | dsimp only | split

theorem kept_snapPeriod {K : Nat} {s0 s : State} (hk : Kept K s0 s) (i : StrmId) (bad : List Nat) (hm : 0xc0e04088 &&& K = 0xc0e04088 := by decide) : Kept K s0 (State.snapPeriod s i bad) := by
  refine hk.into hm ?_
  have hk := Kept.refl 0xc0e04088 s
  unfold State.snapPeriod
  repeat' first | with_reducible assumption | with_reducible refine kept_snapPacket ?_ _ _ _ (by decide) | dsimp only | split

theorem kept_execPacketPeriod {K : Nat} {s0 s : State} (hk : Kept K s0 s) (i : StrmId) (m : PktMeas) (hm : 0xc0e0cc88 &&& K = 0xc0e0cc88 := by decide) : KeptOut K s0 (execPacketPeriod i m s) := by
  refine hk.out hm ?_
  have hk := Kept.refl 0xc0e0cc88 s
  unfold execPacketPeriod
  repeat' first | with_reducible assumption | with_reducible refine kept_drmUnit ?_ _ _ (by decide) | with_reducible refine kept_measurePeriod ?_ _ (by decide) | with_reducible refine kept_snapPeriod ?_ _ _ (by decide) | with_reducible refine kept_sampledPeriod ?_ _ _ (by decide) | with_reducible apply KeptOut.next | dsimp only | split

end Sys2Proof.Machine
end

