-- ==== Sys2Proof/Laws/KeptTaps.lean ====
section
/-! SUPPORT. What every operation of Taps.lean keeps. -/

namespace Sys2Proof.Machine

set_option Elab.async false

set_option linter.unusedSimpArgs false

theorem kept_tapBlock {K : Nat} {s0 s : State} (hk : Kept K s0 s) (taps : List TapMeas) (p : PtId) (hm : 0x800000004 &&& K = 0x800000004 := by decide) : Kept K s0 (State.tapBlock s taps p) := by
  refine hk.into hm ?_
  have hk := Kept.refl 0x800000004 s
  unfold State.tapBlock
  repeat' first | with_reducible assumption | with_reducible refine kept_updPoint ?_ _ _ (by decide) | with_reducible refine kept_draw ?_ (by decide) | simp only [kept_is_mk] | with_reducible refine kept_mk ?_ | (with_reducible refine Kept.of_fst (by assumption) ?_) | (with_reducible refine Kept.of_snd (by assumption) ?_) | dsimp only | split

theorem kept_tapsBlock {K : Nat} {s0 s : State} (hk : Kept K s0 s) (taps : List TapMeas) (hm : 0x800000004 &&& K = 0x800000004 := by decide) : Kept K s0 (State.tapsBlock s taps) := by
  refine hk.into hm ?_
  have hk := Kept.refl 0x800000004 s
  unfold State.tapsBlock
  repeat' first | with_reducible assumption | with_reducible refine kept_tapBlock ?_ _ _ (by decide) | with_reducible refine Kept.foldl (fun _ _ h => ?_) _ ?_ | dsimp only | split

end Sys2Proof.Machine
end

