-- ==== Sys2Proof/Laws/KeptBoundary.lean ====
section
/-! SUPPORT. What every operation of Boundary.lean keeps. -/

namespace Sys2Proof.Machine

set_option Elab.async false

set_option linter.unusedSimpArgs false

theorem kept_execSieveEpochBoundary {K : Nat} {s0 s : State} (hk : Kept K s0 s) (m : Vector EpochMeas 4) (slack : List Nat) (clk : ClkMeas) (hm : 0x16bd6e047ac &&& K = 0x16bd6e047ac := by decide) : KeptOut K s0 (execSieveEpochBoundary m slack clk s) := by
  refine hk.out hm ?_
  have hk := Kept.refl 0x16bd6e047ac s
  unfold execSieveEpochBoundary
  repeat' first | with_reducible assumption | with_reducible refine kept_clkInjected ?_ (by decide) | with_reducible refine kept_coefsDue ?_ (by decide) | with_reducible refine kept_clkMeters ?_ _ (by decide) | with_reducible refine kept_inputEpoch ?_ _ _ (by decide) | with_reducible refine kept_powerEpoch ?_ _ (by decide) | with_reducible refine kept_frameUnseen ?_ (by decide) | with_reducible refine kept_epochCommits ?_ (by decide) | with_reducible refine kept_putPair ?_ _ _ _ _ (by decide) | with_reducible refine kept_advance ?_ _ (by decide) | with_reducible refine Kept.foldl (fun _ _ h => ?_) _ ?_ | with_reducible apply KeptOut.next | dsimp only | split

theorem kept_execSliceBlockBoundary {K : Nat} {s0 s : State} (hk : Kept K s0 s) (m : BoundaryMeas) (hm : 0x28c0e3ffac &&& K = 0x28c0e3ffac := by decide) : KeptOut K s0 (execSliceBlockBoundary m s) := by
  refine hk.out hm ?_
  have hk := Kept.refl 0x28c0e3ffac s
  unfold execSliceBlockBoundary
  repeat' first | with_reducible assumption | with_reducible refine kept_measBlock ?_ (by decide) | with_reducible refine kept_tapsBlock ?_ _ (by decide) | with_reducible refine kept_streamsBlock ?_ (by decide) | with_reducible refine kept_closeSides ?_ (by decide) | with_reducible refine kept_bedsBlock ?_ (by decide) | with_reducible refine kept_stallsInjected ?_ (by decide) | with_reducible refine kept_slicesBlock ?_ _ (by decide) | with_reducible refine kept_bedsWake ?_ (by decide) | with_reducible refine kept_advance ?_ _ (by decide) | with_reducible refine kept_followBlock ?_ (by decide) | with_reducible apply KeptOut.next | dsimp only | split

theorem kept_execBedCommitBoundary {K : Nat} {s0 s : State} (hk : Kept K s0 s) (hm : 0x21aba8 &&& K = 0x21aba8 := by decide) : KeptOut K s0 (execBedCommitBoundary s) := by
  refine hk.out hm ?_
  have hk := Kept.refl 0x21aba8 s
  unfold execBedCommitBoundary
  repeat' first | with_reducible assumption | with_reducible refine kept_bedCommits ?_ (by decide) | with_reducible refine kept_advance ?_ _ (by decide) | with_reducible apply KeptOut.next | dsimp only | split

theorem kept_execRefCheckDone {K : Nat} {s0 s : State} (hk : Kept K s0 s) (tones : Vector Int 4) (hm : 0x2c2000048e &&& K = 0x2c2000048e := by decide) : KeptOut K s0 (execRefCheckDone tones s) := by
  refine hk.out hm ?_
  have hk := Kept.refl 0x2c2000048e s
  unfold execRefCheckDone
  repeat' first | with_reducible assumption | with_reducible refine kept_answer ?_ _ _ _ (by decide) | with_reducible refine kept_checkLeave ?_ _ (by decide) | with_reducible refine kept_smcNote ?_ _ _ (by decide) | with_reducible refine kept_clearChain ?_ _ (by decide) | simp only [kept_is_mk] | with_reducible refine kept_mk ?_ | with_reducible refine Kept.foldl (fun _ _ h => ?_) _ ?_ | with_reducible apply KeptOut.next | dsimp only | split

end Sys2Proof.Machine
end

