-- ==== Sys2Proof/Laws/KeptCommands.lean ====
section
/-! SUPPORT. What every operation of Commands.lean keeps. -/

namespace Sys2Proof.Machine

set_option Elab.async false

set_option linter.unusedSimpArgs false

theorem kept_execRegRead {K : Nat} {s0 s : State} (hk : Kept K s0 s) (q : CQueue) (addr : Nat) (count : Nat) (hm : 0x204e000008a &&& K = 0x204e000008a := by decide) : KeptOut K s0 (execRegRead q addr count s) := by
  refine hk.out hm ?_
  have hk := Kept.refl 0x204e000008a s
  unfold execRegRead
  repeat' first | with_reducible assumption | with_reducible refine kept_readCommand ?_ _ _ _ (by decide) | with_reducible refine kept_viaOps ?_ _ _ _ _ ?_ (by decide) | (with_reducible refine Kept.of_fst (by assumption) ?_) | (with_reducible refine Kept.of_snd (by assumption) ?_) | with_reducible apply KeptOut.next | intro _ | dsimp only | split

theorem kept_execRegWrite {K : Nat} {s0 s : State} (hk : Kept K s0 s) (q : CQueue) (addr : Nat) (count : Nat) (words : List Word) (commit : Bool) (hm : 0x3ffffffffff &&& K = 0x3ffffffffff := by decide) : KeptOut K s0 (execRegWrite q addr count words commit s) := by
  refine hk.out hm ?_
  have hk := Kept.refl 0x3ffffffffff s
  unfold execRegWrite
  repeat' first | with_reducible assumption | with_reducible refine kept_writeCommand ?_ _ _ _ (by decide) | with_reducible refine kept_viaOps ?_ _ _ _ _ ?_ (by decide) | (with_reducible refine Kept.of_fst (by assumption) ?_) | (with_reducible refine Kept.of_snd (by assumption) ?_) | with_reducible apply KeptOut.next | intro _ | dsimp only | split

theorem kept_execRegModify {K : Nat} {s0 s : State} (hk : Kept K s0 s) (q : CQueue) (addr : Nat) (mask : Word) (value : Word) (commit : Bool) (hm : 0x3ffffffffff &&& K = 0x3ffffffffff := by decide) : KeptOut K s0 (execRegModify q addr mask value commit s) := by
  refine hk.out hm ?_
  have hk := Kept.refl 0x3ffffffffff s
  unfold execRegModify
  repeat' first | with_reducible assumption | with_reducible refine kept_writeCommand ?_ _ _ _ (by decide) | with_reducible refine kept_viaOps ?_ _ _ _ _ ?_ (by decide) | (with_reducible refine Kept.of_fst (by assumption) ?_) | (with_reducible refine Kept.of_snd (by assumption) ?_) | with_reducible apply KeptOut.next | intro _ | dsimp only | split

theorem kept_writeVia {K : Nat} {s0 s : State} (hk : Kept K s0 s) (src : Src) (ws : List (Nat × Word)) (each : State → Nat → RegWrite → State) (asked : Bool) (hf : ∀ y0 y1 y2, Kept K s0 y0 → Kept K s0 (each y0 y1 y2)) (hm : 0x3fff7ffffff &&& K = 0x3fff7ffffff := by decide) : Kept K s0 (State.writeVia s src ws each asked) := by
  unfold State.writeVia
  repeat' first | with_reducible assumption | with_reducible refine kept_writeWith ?_ _ _ _ _ ?_ (mask_trans (by decide) hm) | with_reducible refine kept_viaWrite ?_ _ _ _ ?_ (mask_trans (by decide) hm) | (with_reducible refine Kept.of_fst (by assumption) ?_) | (with_reducible refine Kept.of_snd (by assumption) ?_) | with_reducible apply hf | intro _ | dsimp only | split

theorem kept_writeOne {K : Nat} {s0 s : State} (hk : Kept K s0 s) (src : Src) (addr : Nat) (w : Word) (hm : 0x3ffffffffff &&& K = 0x3ffffffffff := by decide) : Kept K s0 (State.writeOne s src addr w) := by
  refine hk.into hm ?_
  have hk := Kept.refl 0x3ffffffffff s
  unfold State.writeOne
  repeat' first | with_reducible assumption | with_reducible refine kept_writeVia ?_ _ _ _ _ ?_ (by decide) | with_reducible refine kept_writeReg ?_ _ _ (by decide) | intro _ | dsimp only | split

theorem kept_execPlainRegisterWrite {K : Nat} {s0 s : State} (hk : Kept K s0 s) (src : Src) (addr : Nat) (w : Word) (hm : 0x3ffffffffff &&& K = 0x3ffffffffff := by decide) : KeptOut K s0 (execPlainRegisterWrite src addr w s) := by
  refine hk.out hm ?_
  have hk := Kept.refl 0x3ffffffffff s
  unfold execPlainRegisterWrite
  repeat' first | with_reducible assumption | with_reducible refine kept_writeOne ?_ _ _ _ (by decide) | with_reducible apply KeptOut.next | dsimp only | split

theorem kept_execSreset {K : Nat} {s0 s : State} (hk : Kept K s0 s) (src : Src) (page : Nat) (hm : 0x3ffffffffff &&& K = 0x3ffffffffff := by decide) : KeptOut K s0 (execSreset src page s) := by
  refine hk.out hm ?_
  have hk := Kept.refl 0x3ffffffffff s
  unfold execSreset
  repeat' first | with_reducible assumption | with_reducible refine kept_viaWrite ?_ _ _ _ ?_ (by decide) | with_reducible refine kept_writeCommand ?_ _ _ _ (by decide) | (with_reducible refine Kept.of_fst (by assumption) ?_) | (with_reducible refine Kept.of_snd (by assumption) ?_) | with_reducible apply KeptOut.next | intro _ | dsimp only | split

theorem kept_execEvtPendClear {K : Nat} {s0 s : State} (hk : Kept K s0 s) (src : Src) (page : Nat) (w : Word) (hm : 0x3ffffffffff &&& K = 0x3ffffffffff := by decide) : KeptOut K s0 (execEvtPendClear src page w s) := by
  refine hk.out hm ?_
  have hk := Kept.refl 0x3ffffffffff s
  unfold execEvtPendClear
  repeat' first | with_reducible assumption | with_reducible refine kept_writeOne ?_ _ _ _ (by decide) | with_reducible apply KeptOut.next | dsimp only | split

theorem kept_execInjectArm {K : Nat} {s0 s : State} (hk : Kept K s0 s) (src : Src) (page : Nat) (mode : Nat) (det : Nat) (count : Nat) (hm : 0x3ffffffffff &&& K = 0x3ffffffffff := by decide) : KeptOut K s0 (execInjectArm src page mode det count s) := by
  refine hk.out hm ?_
  have hk := Kept.refl 0x3ffffffffff s
  unfold execInjectArm
  repeat' first | with_reducible assumption | with_reducible refine kept_writeVia ?_ _ _ _ _ ?_ (by decide) | with_reducible refine kept_writeOne ?_ _ _ _ (by decide) | with_reducible refine kept_writeReg ?_ _ _ (by decide) | with_reducible apply KeptOut.next | intro _ | dsimp only | split

theorem kept_execRungTargetWrite {K : Nat} {s0 s : State} (hk : Kept K s0 s) (src : Src) (w : Word) (hm : 0x3ffffffffff &&& K = 0x3ffffffffff := by decide) : KeptOut K s0 (execRungTargetWrite src w s) := by
  refine hk.out hm ?_
  have hk := Kept.refl 0x3ffffffffff s
  unfold execRungTargetWrite
  repeat' first | with_reducible assumption | with_reducible refine kept_writeOne ?_ _ _ _ (by decide) | with_reducible apply KeptOut.next | dsimp only | split

theorem kept_execHrcfgWrite {K : Nat} {s0 s : State} (hk : Kept K s0 s) (src : Src) (w : Word) (hm : 0x3ffffffffff &&& K = 0x3ffffffffff := by decide) : KeptOut K s0 (execHrcfgWrite src w s) := by
  refine hk.out hm ?_
  have hk := Kept.refl 0x3ffffffffff s
  unfold execHrcfgWrite
  repeat' first | with_reducible assumption | with_reducible refine kept_writeOne ?_ _ _ _ (by decide) | with_reducible apply KeptOut.next | dsimp only | split

theorem kept_addrWrite {K : Nat} {s0 s : State} (hk : Kept K s0 s) (slot : Fin 4) (mode : Option (BitVec 8)) (role : Nat) (w : RegWrite) (hm : 0x18000008 &&& K = 0x18000008 := by decide) : Kept K s0 (State.addrWrite s slot mode role w) := by
  refine hk.into hm ?_
  have hk := Kept.refl 0x18000008 s
  unfold State.addrWrite
  repeat' first | with_reducible assumption | with_reducible refine kept_setReg ?_ _ _ (by decide) | with_reducible refine kept_pmbProbe ?_ _ _ (by decide) | dsimp only | split

theorem kept_execPmbAddrWrite {K : Nat} {s0 s : State} (hk : Kept K s0 s) (src : Src) (slot : Fin 4) (w : Word) (mode : Option (BitVec 8)) (hm : 0x3ffffffffff &&& K = 0x3ffffffffff := by decide) : KeptOut K s0 (execPmbAddrWrite src slot w mode s) := by
  refine hk.out hm ?_
  have hk := Kept.refl 0x3ffffffffff s
  unfold execPmbAddrWrite
  repeat' first | with_reducible assumption | with_reducible refine kept_writeVia ?_ _ _ _ _ ?_ (by decide) | with_reducible refine kept_addrWrite ?_ _ _ _ _ (by decide) | with_reducible apply KeptOut.next | intro _ | dsimp only | split

theorem kept_modifyVia {K : Nat} {s0 s : State} (hk : Kept K s0 s) (src : Src) (page : Nat) (f : Fld) (v : Nat) (hm : 0x3ffffffffff &&& K = 0x3ffffffffff := by decide) : Kept K s0 (State.modifyVia s src page f v) := by
  refine hk.into hm ?_
  have hk := Kept.refl 0x3ffffffffff s
  unfold State.modifyVia
  repeat' first | with_reducible assumption | with_reducible refine kept_viaWrite ?_ _ _ _ ?_ (by decide) | with_reducible refine kept_writeCommand ?_ _ _ _ (by decide) | (with_reducible refine Kept.of_fst (by assumption) ?_) | (with_reducible refine Kept.of_snd (by assumption) ?_) | intro _ | dsimp only | split

theorem kept_execTxReturnWrite {K : Nat} {s0 s : State} (hk : Kept K s0 s) (src : Src) (ret : Nat) (hm : 0x3ffffffffff &&& K = 0x3ffffffffff := by decide) : KeptOut K s0 (execTxReturnWrite src ret s) := by
  refine hk.out hm ?_
  have hk := Kept.refl 0x3ffffffffff s
  unfold execTxReturnWrite
  repeat' first | with_reducible assumption | with_reducible refine kept_modifyVia ?_ _ _ _ _ (by decide) | with_reducible apply KeptOut.next | dsimp only | split

theorem kept_execMaskClear {K : Nat} {s0 s : State} (hk : Kept K s0 s) (src : Src) (hm : 0x3ffffffffff &&& K = 0x3ffffffffff := by decide) : KeptOut K s0 (execMaskClear src s) := by
  refine hk.out hm ?_
  have hk := Kept.refl 0x3ffffffffff s
  unfold execMaskClear
  repeat' first | with_reducible assumption | with_reducible refine kept_modifyVia ?_ _ _ _ _ (by decide) | with_reducible apply KeptOut.next | dsimp only | split

theorem kept_execPortDisable {K : Nat} {s0 s : State} (hk : Kept K s0 s) (src : Src) (p : Port) (hm : 0x3ffffffffff &&& K = 0x3ffffffffff := by decide) : KeptOut K s0 (execPortDisable src p s) := by
  refine hk.out hm ?_
  have hk := Kept.refl 0x3ffffffffff s
  unfold execPortDisable
  repeat' first | with_reducible assumption | with_reducible refine kept_modifyVia ?_ _ _ _ _ (by decide) | with_reducible apply KeptOut.next | dsimp only | split

theorem kept_execFltLogAck {K : Nat} {s0 s : State} (hk : Kept K s0 s) (src : Src) (seq : Nat) (hm : 0x3ffffffffff &&& K = 0x3ffffffffff := by decide) : KeptOut K s0 (execFltLogAck src seq s) := by
  refine hk.out hm ?_
  have hk := Kept.refl 0x3ffffffffff s
  unfold execFltLogAck
  repeat' first | with_reducible assumption | with_reducible refine kept_writeOne ?_ _ _ _ (by decide) | with_reducible apply KeptOut.next | dsimp only | split

theorem kept_execMboxInWord {K : Nat} {s0 s : State} (hk : Kept K s0 s) (src : Src) (w : Word) (tagOk : Bool) (hm : 0x3fff7ffffff &&& K = 0x3fff7ffffff := by decide) : KeptOut K s0 (execMboxInWord src w tagOk s) := by
  refine hk.out hm ?_
  have hk := Kept.refl 0x3fff7ffffff s
  unfold execMboxInWord
  repeat' first | with_reducible assumption | with_reducible refine kept_writeVia ?_ _ _ _ _ ?_ (by decide) | with_reducible refine kept_mboxIn ?_ _ _ (by decide) | with_reducible apply KeptOut.next | intro _ | dsimp only | split

theorem kept_readVia {K : Nat} {s0 s : State} (hk : Kept K s0 s) (src : Src) (addr : Nat) (hm : 0x204e000008a &&& K = 0x204e000008a := by decide) : Kept K s0 (State.readVia s src addr) := by
  refine hk.into hm ?_
  have hk := Kept.refl 0x204e000008a s
  unfold State.readVia
  repeat' first | with_reducible assumption | with_reducible refine kept_updTwb ?_ _ (by decide) | with_reducible refine kept_readCommand ?_ _ _ _ (by decide) | with_reducible refine kept_put ?_ _ _ _ (by decide) | with_reducible refine kept_viaOps ?_ _ _ _ _ ?_ (by decide) | simp only [kept_is_mk] | with_reducible refine kept_mk ?_ | (with_reducible refine Kept.of_fst (by assumption) ?_) | (with_reducible refine Kept.of_snd (by assumption) ?_) | intro _ | dsimp only | split

theorem kept_execMboxOutRead {K : Nat} {s0 s : State} (hk : Kept K s0 s) (src : Src) (hm : 0x204e000008a &&& K = 0x204e000008a := by decide) : KeptOut K s0 (execMboxOutRead src s) := by
  refine hk.out hm ?_
  have hk := Kept.refl 0x204e000008a s
  unfold execMboxOutRead
  repeat' first | with_reducible assumption | with_reducible refine kept_readVia ?_ _ _ (by decide) | with_reducible apply KeptOut.next | dsimp only | split

theorem kept_execCalWinAccess {K : Nat} {s0 s : State} (hk : Kept K s0 s) (src : Src) (w : Option Word) (hm : 0x3ffffffffff &&& K = 0x3ffffffffff := by decide) : KeptOut K s0 (execCalWinAccess src w s) := by
  refine hk.out hm ?_
  have hk := Kept.refl 0x3ffffffffff s
  unfold execCalWinAccess
  repeat' first | with_reducible assumption | with_reducible refine kept_readVia ?_ _ _ (by decide) | with_reducible refine kept_writeOne ?_ _ _ _ (by decide) | with_reducible apply KeptOut.next | dsimp only | split

theorem kept_execFirTapAccess {K : Nat} {s0 s : State} (hk : Kept K s0 s) (src : Src) (w : Option Word) (hm : 0x3ffffffffff &&& K = 0x3ffffffffff := by decide) : KeptOut K s0 (execFirTapAccess src w s) := by
  refine hk.out hm ?_
  have hk := Kept.refl 0x3ffffffffff s
  unfold execFirTapAccess
  repeat' first | with_reducible assumption | with_reducible refine kept_readVia ?_ _ _ (by decide) | with_reducible refine kept_writeOne ?_ _ _ _ (by decide) | with_reducible apply KeptOut.next | dsimp only | split

theorem kept_commitVia {K : Nat} {s0 s : State} (hk : Kept K s0 s) (src : Src) (page : Nat) (hm : 0x3ffffffffff &&& K = 0x3ffffffffff := by decide) : Kept K s0 (State.commitVia s src page) := by
  refine hk.into hm ?_
  have hk := Kept.refl 0x3ffffffffff s
  unfold State.commitVia
  repeat' first | with_reducible assumption | with_reducible refine kept_viaWrite ?_ _ _ _ ?_ (by decide) | with_reducible refine kept_writeCommand ?_ _ _ _ (by decide) | (with_reducible refine Kept.of_fst (by assumption) ?_) | (with_reducible refine Kept.of_snd (by assumption) ?_) | intro _ | dsimp only | split

theorem kept_commitIf {K : Nat} {s0 s : State} (hk : Kept K s0 s) (src : Src) (page : Nat) (staged : Nat → Bool) (hm : 0x3ffffffffff &&& K = 0x3ffffffffff := by decide) : KeptOut K s0 (State.commitIf s src page staged) := by
  refine hk.out hm ?_
  have hk := Kept.refl 0x3ffffffffff s
  unfold State.commitIf
  repeat' first | with_reducible assumption | with_reducible refine kept_commitVia ?_ _ _ (by decide) | with_reducible apply KeptOut.next | dsimp only | split

theorem kept_execCommit {K : Nat} {s0 s : State} (hk : Kept K s0 s) (src : Src) (page : Nat) (hm : 0x3ffffffffff &&& K = 0x3ffffffffff := by decide) : KeptOut K s0 (execCommit src page s) := by
  refine hk.out hm ?_
  have hk := Kept.refl 0x3ffffffffff s
  unfold execCommit
  repeat' first | with_reducible assumption | with_reducible refine kept_commitVia ?_ _ _ (by decide) | with_reducible apply KeptOut.next | dsimp only | split

theorem kept_execSnapArm {K : Nat} {s0 s : State} (hk : Kept K s0 s) (src : Src) (c : SnapCh) (hm : 0x3ffffffffff &&& K = 0x3ffffffffff := by decide) : KeptOut K s0 (execSnapArm src c s) := by
  refine hk.out hm ?_
  have hk := Kept.refl 0x3ffffffffff s
  unfold execSnapArm
  repeat' first | with_reducible assumption | with_reducible refine kept_commitIf ?_ _ _ _ (by decide) | with_reducible apply KeptOut.next | dsimp only | split

theorem kept_execSnapRead {K : Nat} {s0 s : State} (hk : Kept K s0 s) (src : Src) (c : SnapCh) (hm : 0x3ffffffffff &&& K = 0x3ffffffffff := by decide) : KeptOut K s0 (execSnapRead src c s) := by
  refine hk.out hm ?_
  have hk := Kept.refl 0x3ffffffffff s
  unfold execSnapRead
  repeat' first | with_reducible assumption | with_reducible refine kept_commitIf ?_ _ _ _ (by decide) | with_reducible apply KeptOut.next | dsimp only | split

theorem kept_execSnapDiscard {K : Nat} {s0 s : State} (hk : Kept K s0 s) (src : Src) (c : SnapCh) (hm : 0x3ffffffffff &&& K = 0x3ffffffffff := by decide) : KeptOut K s0 (execSnapDiscard src c s) := by
  refine hk.out hm ?_
  have hk := Kept.refl 0x3ffffffffff s
  unfold execSnapDiscard
  repeat' first | with_reducible assumption | with_reducible refine kept_commitIf ?_ _ _ _ (by decide) | with_reducible apply KeptOut.next | dsimp only | split

theorem kept_execDecEnable {K : Nat} {s0 s : State} (hk : Kept K s0 s) (src : Src) (d : DecId) (hm : 0x3ffffffffff &&& K = 0x3ffffffffff := by decide) : KeptOut K s0 (execDecEnable src d s) := by
  refine hk.out hm ?_
  have hk := Kept.refl 0x3ffffffffff s
  unfold execDecEnable
  repeat' first | with_reducible assumption | with_reducible refine kept_commitIf ?_ _ _ _ (by decide) | with_reducible apply KeptOut.next | dsimp only | split

theorem kept_execDecDisable {K : Nat} {s0 s : State} (hk : Kept K s0 s) (src : Src) (d : DecId) (hm : 0x3ffffffffff &&& K = 0x3ffffffffff := by decide) : KeptOut K s0 (execDecDisable src d s) := by
  refine hk.out hm ?_
  have hk := Kept.refl 0x3ffffffffff s
  unfold execDecDisable
  repeat' first | with_reducible assumption | with_reducible refine kept_commitIf ?_ _ _ _ (by decide) | with_reducible apply KeptOut.next | dsimp only | split

theorem kept_execSvcEnable {K : Nat} {s0 s : State} (hk : Kept K s0 s) (src : Src) (v : SvcId) (hm : 0x3ffffffffff &&& K = 0x3ffffffffff := by decide) : KeptOut K s0 (execSvcEnable src v s) := by
  refine hk.out hm ?_
  have hk := Kept.refl 0x3ffffffffff s
  unfold execSvcEnable
  repeat' first | with_reducible assumption | with_reducible refine kept_commitIf ?_ _ _ _ (by decide) | with_reducible apply KeptOut.next | dsimp only | split

theorem kept_execSvcDisable {K : Nat} {s0 s : State} (hk : Kept K s0 s) (src : Src) (v : SvcId) (hm : 0x3ffffffffff &&& K = 0x3ffffffffff := by decide) : KeptOut K s0 (execSvcDisable src v s) := by
  refine hk.out hm ?_
  have hk := Kept.refl 0x3ffffffffff s
  unfold execSvcDisable
  repeat' first | with_reducible assumption | with_reducible refine kept_commitIf ?_ _ _ _ (by decide) | with_reducible apply KeptOut.next | dsimp only | split

theorem kept_execCandWrite {K : Nat} {s0 s : State} (hk : Kept K s0 s) (src : Src) (v : SvcId) (n : CandId) (w : Word) (hm : 0x3ffffffffff &&& K = 0x3ffffffffff := by decide) : KeptOut K s0 (execCandWrite src v n w s) := by
  refine hk.out hm ?_
  have hk := Kept.refl 0x3ffffffffff s
  unfold execCandWrite
  repeat' first | with_reducible assumption | with_reducible refine kept_writeVia ?_ _ _ _ _ ?_ (by decide) | with_reducible refine kept_writeReg ?_ _ _ (by decide) | with_reducible apply KeptOut.next | intro _ | dsimp only | split

theorem kept_execStreamCommit {K : Nat} {s0 s : State} (hk : Kept K s0 s) (src : Src) (hm : 0x3ffffffffff &&& K = 0x3ffffffffff := by decide) : KeptOut K s0 (execStreamCommit src s) := by
  refine hk.out hm ?_
  have hk := Kept.refl 0x3ffffffffff s
  unfold execStreamCommit
  repeat' first | with_reducible assumption | with_reducible refine kept_commitIf ?_ _ _ _ (by decide) | with_reducible apply KeptOut.next | dsimp only | split

theorem kept_execBundleCommit {K : Nat} {s0 s : State} (hk : Kept K s0 s) (src : Src) (hm : 0x3ffffffffff &&& K = 0x3ffffffffff := by decide) : KeptOut K s0 (execBundleCommit src s) := by
  refine hk.out hm ?_
  have hk := Kept.refl 0x3ffffffffff s
  unfold execBundleCommit
  repeat' first | with_reducible assumption | with_reducible refine kept_commitIf ?_ _ _ _ (by decide) | with_reducible apply KeptOut.next | dsimp only | split

theorem kept_execQueueReset {K : Nat} {s0 s : State} (hk : Kept K s0 s) (src : Src) (q : SQueue) (hm : 0x3ffffffffff &&& K = 0x3ffffffffff := by decide) : KeptOut K s0 (execQueueReset src q s) := by
  refine hk.out hm ?_
  have hk := Kept.refl 0x3ffffffffff s
  unfold execQueueReset
  repeat' first | with_reducible assumption | with_reducible refine kept_commitIf ?_ _ _ _ (by decide) | with_reducible apply KeptOut.next | dsimp only | split

theorem kept_execCalRun {K : Nat} {s0 s : State} (hk : Kept K s0 s) (src : Src) (hm : 0x3ffffffffff &&& K = 0x3ffffffffff := by decide) : KeptOut K s0 (execCalRun src s) := by
  refine hk.out hm ?_
  have hk := Kept.refl 0x3ffffffffff s
  unfold execCalRun
  repeat' first | with_reducible assumption | with_reducible refine kept_commitIf ?_ _ _ _ (by decide) | with_reducible apply KeptOut.next | dsimp only | split

theorem kept_execCalLoad {K : Nat} {s0 s : State} (hk : Kept K s0 s) (src : Src) (hm : 0x3ffffffffff &&& K = 0x3ffffffffff := by decide) : KeptOut K s0 (execCalLoad src s) := by
  refine hk.out hm ?_
  have hk := Kept.refl 0x3ffffffffff s
  unfold execCalLoad
  repeat' first | with_reducible assumption | with_reducible refine kept_commitIf ?_ _ _ _ (by decide) | with_reducible apply KeptOut.next | dsimp only | split

theorem kept_execCalAbort {K : Nat} {s0 s : State} (hk : Kept K s0 s) (src : Src) (hm : 0x3ffffffffff &&& K = 0x3ffffffffff := by decide) : KeptOut K s0 (execCalAbort src s) := by
  refine hk.out hm ?_
  have hk := Kept.refl 0x3ffffffffff s
  unfold execCalAbort
  repeat' first | with_reducible assumption | with_reducible refine kept_commitIf ?_ _ _ _ (by decide) | with_reducible apply KeptOut.next | dsimp only | split

theorem kept_execTxRequest {K : Nat} {s0 s : State} (hk : Kept K s0 s) (src : Src) (hm : 0x3ffffffffff &&& K = 0x3ffffffffff := by decide) : KeptOut K s0 (execTxRequest src s) := by
  refine hk.out hm ?_
  have hk := Kept.refl 0x3ffffffffff s
  unfold execTxRequest
  repeat' first | with_reducible assumption | with_reducible refine kept_commitIf ?_ _ _ _ (by decide) | with_reducible apply KeptOut.next | dsimp only | split

theorem kept_execProfileCommit {K : Nat} {s0 s : State} (hk : Kept K s0 s) (src : Src) (hm : 0x3ffffffffff &&& K = 0x3ffffffffff := by decide) : KeptOut K s0 (execProfileCommit src s) := by
  refine hk.out hm ?_
  have hk := Kept.refl 0x3ffffffffff s
  unfold execProfileCommit
  repeat' first | with_reducible assumption | with_reducible refine kept_commitIf ?_ _ _ _ (by decide) | with_reducible apply KeptOut.next | dsimp only | split

theorem kept_execSndDesignate {K : Nat} {s0 s : State} (hk : Kept K s0 s) (src : Src) (hm : 0x3ffffffffff &&& K = 0x3ffffffffff := by decide) : KeptOut K s0 (execSndDesignate src s) := by
  refine hk.out hm ?_
  have hk := Kept.refl 0x3ffffffffff s
  unfold execSndDesignate
  repeat' first | with_reducible assumption | with_reducible refine kept_commitIf ?_ _ _ _ (by decide) | with_reducible apply KeptOut.next | dsimp only | split

theorem kept_execSecRowCommit {K : Nat} {s0 s : State} (hk : Kept K s0 s) (src : Src) (hm : 0x3ffffffffff &&& K = 0x3ffffffffff := by decide) : KeptOut K s0 (execSecRowCommit src s) := by
  refine hk.out hm ?_
  have hk := Kept.refl 0x3ffffffffff s
  unfold execSecRowCommit
  repeat' first | with_reducible assumption | with_reducible refine kept_commitIf ?_ _ _ _ (by decide) | with_reducible apply KeptOut.next | dsimp only | split

end Sys2Proof.Machine
end

