-- ==== Sys2Proof/Laws/KeptDrm.lean ====
section
/-! SUPPORT. What every operation of Drm.lean keeps. -/

namespace Sys2Proof.Machine

set_option Elab.async false

set_option linter.unusedSimpArgs false

theorem kept_putServices {K : Nat} {s0 s : State} (hk : Kept K s0 s) (i : Slc) (l : List DrmService) (hm : 0x8 &&& K = 0x8 := by decide) : Kept K s0 (State.putServices s i l) := by
  refine hk.into hm ?_
  have hk := Kept.refl 0x8 s
  unfold State.putServices
  repeat' first | with_reducible assumption | with_reducible refine kept_puts ?_ _ _ (by decide) | with_reducible refine Kept.foldl (fun _ _ h => ?_) _ ?_ | dsimp only | split

theorem kept_putStreams {K : Nat} {s0 s : State} (hk : Kept K s0 s) (i : Slc) (l : List DrmStream) (hm : 0x8 &&& K = 0x8 := by decide) : Kept K s0 (State.putStreams s i l) := by
  refine hk.into hm ?_
  have hk := Kept.refl 0x8 s
  unfold State.putStreams
  repeat' first | with_reducible assumption | with_reducible refine kept_puts ?_ _ _ (by decide) | with_reducible refine Kept.foldl (fun _ _ h => ?_) _ ?_ | dsimp only | split

theorem kept_drmDecsCheck {K : Nat} {s0 s : State} (hk : Kept K s0 s) (i : Slc) (hm : 0x10088 &&& K = 0x10088 := by decide) : Kept K s0 (State.drmDecsCheck s i) := by
  refine hk.into hm ?_
  have hk := Kept.refl 0x10088 s
  unfold State.drmDecsCheck
  repeat' first | with_reducible assumption | with_reducible refine kept_decsGone ?_ _ (by decide) | dsimp only | split

theorem kept_drmLost {K : Nat} {s0 s : State} (hk : Kept K s0 s) (i : Slc) (hm : 0x11088 &&& K = 0x11088 := by decide) : Kept K s0 (State.drmLost s i) := by
  refine hk.into hm ?_
  have hk := Kept.refl 0x11088 s
  unfold State.drmLost
  repeat' first | with_reducible assumption | with_reducible refine kept_slcDecsGone ?_ _ (by decide) | with_reducible refine kept_puts ?_ _ _ (by decide) | with_reducible refine kept_updDemod ?_ _ _ (by decide) | with_reducible refine kept_raise ?_ _ _ (by decide) | with_reducible refine kept_clearRegs ?_ _ _ _ (by decide) | simp only [kept_is_mk] | with_reducible refine kept_mk ?_ | dsimp only | split

theorem kept_drmMeasure {K : Nat} {s0 s : State} (hk : Kept K s0 s) (i : Slc) (m : DrmMeas) (hm : 0x8 &&& K = 0x8 := by decide) : Kept K s0 (State.drmMeasure s i m) := by
  refine hk.into hm ?_
  have hk := Kept.refl 0x8 s
  unfold State.drmMeasure
  repeat' first | with_reducible assumption | with_reducible refine kept_puts ?_ _ _ (by decide) | dsimp only | split

theorem kept_facBad {K : Nat} {s0 s : State} (hk : Kept K s0 s) (i : Slc) (hm : 0x11088 &&& K = 0x11088 := by decide) : Kept K s0 (State.facBad s i) := by
  refine hk.into hm ?_
  have hk := Kept.refl 0x11088 s
  unfold State.facBad
  repeat' first | with_reducible assumption | with_reducible refine kept_updDemod ?_ _ _ (by decide) | with_reducible refine kept_put ?_ _ _ _ (by decide) | with_reducible refine kept_count ?_ _ _ _ (by decide) | with_reducible refine kept_drmLost ?_ _ (by decide) | simp only [kept_is_mk] | with_reducible refine kept_mk ?_ | dsimp only | split

theorem kept_facGood {K : Nat} {s0 s : State} (hk : Kept K s0 s) (i : Slc) (f : Fac) (ago : Nat) (hm : 0xe01088 &&& K = 0xe01088 := by decide) : Kept K s0 (State.facGood s i f ago) := by
  refine hk.into hm ?_
  have hk := Kept.refl 0xe01088 s
  unfold State.facGood
  repeat' first | with_reducible assumption | with_reducible refine kept_puts ?_ _ _ (by decide) | with_reducible refine kept_updDemod ?_ _ _ (by decide) | with_reducible refine kept_sideRecord ?_ _ _ _ _ _ (by decide) | with_reducible refine kept_raise ?_ _ _ (by decide) | with_reducible refine kept_putServices ?_ _ _ (by decide) | with_reducible refine kept_count ?_ _ _ _ (by decide) | simp only [kept_is_mk] | with_reducible refine kept_mk ?_ | dsimp only | split

theorem kept_textRecords {K : Nat} {s0 s : State} (hk : Kept K s0 s) (i : Slc) (texts : List TextMsg) (ago : Nat) (hm : 0xe00088 &&& K = 0xe00088 := by decide) : Kept K s0 (State.textRecords s i texts ago) := by
  refine hk.into hm ?_
  have hk := Kept.refl 0xe00088 s
  unfold State.textRecords
  repeat' first | with_reducible assumption | with_reducible refine kept_sideRecord ?_ _ _ _ _ _ (by decide) | with_reducible refine Kept.foldl (fun _ _ h => ?_) _ ?_ | dsimp only | split

theorem kept_execDrmFac {K : Nat} {s0 s : State} (hk : Kept K s0 s) (i : Slc) (f : Option Fac) (m : DrmMeas) (texts : List TextMsg) (ago : Nat) (hm : 0xe11088 &&& K = 0xe11088 := by decide) : KeptOut K s0 (execDrmFac i f m texts ago s) := by
  refine hk.out hm ?_
  have hk := Kept.refl 0xe11088 s
  unfold execDrmFac
  repeat' first | with_reducible assumption | with_reducible refine kept_facBad ?_ _ (by decide) | with_reducible refine kept_textRecords ?_ _ _ _ (by decide) | with_reducible refine kept_drmMeasure ?_ _ _ (by decide) | with_reducible refine kept_facGood ?_ _ _ _ (by decide) | simp only [kept_is_mk] | with_reducible refine kept_mk ?_ | with_reducible apply KeptOut.next | dsimp only | split

theorem kept_sdcGood {K : Nat} {s0 s : State} (hk : Kept K s0 s) (i : Slc) (x : Sdc) (ago : Nat) (hm : 0xe11088 &&& K = 0xe11088 := by decide) : Kept K s0 (State.sdcGood s i x ago) := by
  refine hk.into hm ?_
  have hk := Kept.refl 0xe11088 s
  unfold State.sdcGood
  repeat' first | with_reducible assumption | with_reducible refine kept_putStreams ?_ _ _ (by decide) | with_reducible refine kept_updDemod ?_ _ _ (by decide) | with_reducible refine kept_drmDecsCheck ?_ _ (by decide) | with_reducible refine kept_sideRecord ?_ _ _ _ _ _ (by decide) | with_reducible refine kept_raise ?_ _ _ (by decide) | with_reducible refine kept_put ?_ _ _ _ (by decide) | with_reducible refine kept_count ?_ _ _ _ (by decide) | simp only [kept_is_mk] | with_reducible refine kept_mk ?_ | dsimp only | split

theorem kept_execDrmSdc {K : Nat} {s0 s : State} (hk : Kept K s0 s) (i : Slc) (ok : Bool) (x : Sdc) (ago : Nat) (hm : 0xe11088 &&& K = 0xe11088 := by decide) : KeptOut K s0 (execDrmSdc i ok x ago s) := by
  refine hk.out hm ?_
  have hk := Kept.refl 0xe11088 s
  unfold execDrmSdc
  repeat' first | with_reducible assumption | with_reducible refine kept_sdcGood ?_ _ _ _ (by decide) | with_reducible refine kept_put ?_ _ _ _ (by decide) | with_reducible refine kept_count ?_ _ _ _ (by decide) | with_reducible apply KeptOut.next | dsimp only | split

theorem kept_execDrmReconfigApply {K : Nat} {s0 s : State} (hk : Kept K s0 s) (i : Slc) (hm : 0x11088 &&& K = 0x11088 := by decide) : KeptOut K s0 (execDrmReconfigApply i s) := by
  refine hk.out hm ?_
  have hk := Kept.refl 0x11088 s
  unfold execDrmReconfigApply
  repeat' first | with_reducible assumption | with_reducible refine kept_putStreams ?_ _ _ (by decide) | with_reducible refine kept_updDemod ?_ _ _ (by decide) | with_reducible refine kept_drmDecsCheck ?_ _ (by decide) | with_reducible refine kept_putServices ?_ _ _ (by decide) | simp only [kept_is_mk] | with_reducible refine kept_mk ?_ | with_reducible apply KeptOut.next | dsimp only | split

theorem kept_execDrmSyncLost {K : Nat} {s0 s : State} (hk : Kept K s0 s) (i : Slc) (gap : Bool) (hm : 0x11888 &&& K = 0x11888 := by decide) : KeptOut K s0 (execDrmSyncLost i gap s) := by
  refine hk.out hm ?_
  have hk := Kept.refl 0x11888 s
  unfold execDrmSyncLost
  repeat' first | with_reducible assumption | with_reducible refine kept_updSlc ?_ _ _ (by decide) | with_reducible refine kept_drmLost ?_ _ (by decide) | simp only [kept_is_mk] | with_reducible refine kept_mk ?_ | with_reducible apply KeptOut.next | dsimp only | split

end Sys2Proof.Machine
end

