-- ==== Sys2Proof/Laws/KeptFirmware.lean ====
section
/-! SUPPORT. What every operation of Firmware.lean keeps. -/

namespace Sys2Proof.Machine

set_option Elab.async false

set_option linter.unusedSimpArgs false

theorem kept_updFw {K : Nat} {s0 s : State} (hk : Kept K s0 s) (k : Fin 2) (f : FwSlot → FwSlot) (hm : 0x8000000000 &&& K = 0x8000000000 := by decide) : Kept K s0 (State.updFw s k f) := by
  refine hk.into hm ?_
  have hk := Kept.refl 0x8000000000 s
  unfold State.updFw
  repeat' first | with_reducible assumption | simp only [kept_is_mk] | with_reducible refine kept_mk ?_ | dsimp only | split

theorem kept_bankCommand {K : Nat} {s0 s : State} (hk : Kept K s0 s) (op : Nat) (act : Caller → State → State × Reply) (hf : ∀ y0 y1, Kept K s0 y1 → Kept K s0 (act y0 y1).1) (hm : 0x204e000008a &&& K = 0x204e000008a := by decide) : Kept K s0 (State.bankCommand s op act) := by
  unfold State.bankCommand
  repeat' first | with_reducible assumption | with_reducible refine kept_serve ?_ _ _ _ ?_ (mask_trans (by decide) hm) | with_reducible apply hf | intro _ | dsimp only | split

theorem kept_execFwOpen {K : Nat} {s0 s : State} (hk : Kept K s0 s) (slot : Nat) (hm : 0x284e000008a &&& K = 0x284e000008a := by decide) : KeptOut K s0 (execFwOpen slot s) := by
  refine hk.out hm ?_
  have hk := Kept.refl 0x284e000008a s
  unfold execFwOpen
  repeat' first | with_reducible assumption | with_reducible refine kept_bankCommand ?_ _ _ ?_ (by decide) | with_reducible refine kept_updFw ?_ _ _ (by decide) | with_reducible apply KeptOut.next | intro _ | dsimp only | split

theorem kept_execFwWrite {K : Nat} {s0 s : State} (hk : Kept K s0 s) (off : Nat) (data : List Quad) (hm : 0x284e000008a &&& K = 0x284e000008a := by decide) : KeptOut K s0 (execFwWrite off data s) := by
  refine hk.out hm ?_
  have hk := Kept.refl 0x284e000008a s
  unfold execFwWrite
  repeat' first | with_reducible assumption | with_reducible refine kept_bankCommand ?_ _ _ ?_ (by decide) | with_reducible refine kept_updFw ?_ _ _ (by decide) | with_reducible apply KeptOut.next | intro _ | dsimp only | split

theorem kept_execFwCheck {K : Nat} {s0 s : State} (hk : Kept K s0 s) (slot : Nat) (hm : 0x284e000008a &&& K = 0x284e000008a := by decide) : KeptOut K s0 (execFwCheck slot s) := by
  refine hk.out hm ?_
  have hk := Kept.refl 0x284e000008a s
  unfold execFwCheck
  repeat' first | with_reducible assumption | with_reducible refine kept_bankCommand ?_ _ _ ?_ (by decide) | with_reducible refine kept_updFw ?_ _ _ (by decide) | with_reducible refine kept_raise ?_ _ _ (by decide) | simp only [kept_is_mk] | with_reducible refine kept_mk ?_ | with_reducible apply KeptOut.next | intro _ | dsimp only | split

theorem kept_execFwSwitch {K : Nat} {s0 s : State} (hk : Kept K s0 s) (arg : Nat) (hm : 0x284e000008a &&& K = 0x284e000008a := by decide) : KeptOut K s0 (execFwSwitch arg s) := by
  refine hk.out hm ?_
  have hk := Kept.refl 0x284e000008a s
  unfold execFwSwitch
  repeat' first | with_reducible assumption | with_reducible refine kept_bankCommand ?_ _ _ ?_ (by decide) | with_reducible refine kept_journal ?_ _ _ _ _ _ (by decide) | simp only [kept_is_mk] | with_reducible refine kept_mk ?_ | (with_reducible refine Kept.of_fst (by assumption) ?_) | (with_reducible refine Kept.of_snd (by assumption) ?_) | with_reducible apply KeptOut.next | intro _ | dsimp only | split

theorem kept_execFwSwitchRestart {K : Nat} {s0 s : State} (hk : Kept K s0 s) (hm : 0x3ffffffffff &&& K = 0x3ffffffffff := by decide) : KeptOut K s0 (execFwSwitchRestart s) := by
  refine hk.out hm ?_
  have hk := Kept.refl 0x3ffffffffff s
  unfold execFwSwitchRestart
  repeat' first | with_reducible assumption | with_reducible refine kept_resetPart ?_ (by decide) | with_reducible apply KeptOut.next | dsimp only | split

theorem kept_tearRecord {K : Nat} {s0 s : State} (hk : Kept K s0 s) (gran : Nat) (hm : 0x80c0000088 &&& K = 0x80c0000088 := by decide) : Kept K s0 (State.tearRecord s gran) := by
  refine hk.into hm ?_
  have hk := Kept.refl 0x80c0000088 s
  unfold State.tearRecord
  repeat' first | with_reducible assumption | with_reducible refine kept_finding ?_ _ _ _ _ _ _ _ (by decide) | with_reducible refine kept_count ?_ _ _ _ (by decide) | simp only [kept_is_mk] | with_reducible refine kept_mk ?_ | dsimp only | split

theorem kept_loseAnchor {K : Nat} {s0 s : State} (hk : Kept K s0 s) (gran : Nat) (hm : 0x8000000000 &&& K = 0x8000000000 := by decide) : Kept K s0 (State.loseAnchor s gran) := by
  refine hk.into hm ?_
  have hk := Kept.refl 0x8000000000 s
  unfold State.loseAnchor
  repeat' first | with_reducible assumption | simp only [kept_is_mk] | with_reducible refine kept_mk ?_ | dsimp only | split

theorem kept_mramLost {K : Nat} {s0 s : State} (hk : Kept K s0 s) (region : Nat) (addr : Nat) (hm : 0x80c0000088 &&& K = 0x80c0000088 := by decide) : Kept K s0 (State.mramLost s region addr) := by
  refine hk.into hm ?_
  have hk := Kept.refl 0x80c0000088 s
  unfold State.mramLost
  repeat' first | with_reducible assumption | with_reducible refine kept_updFw ?_ _ _ (by decide) | with_reducible refine kept_tearRecord ?_ _ (by decide) | with_reducible refine kept_loseAnchor ?_ _ (by decide) | simp only [kept_is_mk] | with_reducible refine kept_mk ?_ | dsimp only | split

theorem kept_execMramScrub {K : Nat} {s0 s : State} (hk : Kept K s0 s) (region : Nat) (addr : Nat) (bad : Nat) (hm : 0x80c0000088 &&& K = 0x80c0000088 := by decide) : KeptOut K s0 (execMramScrub region addr bad s) := by
  refine hk.out hm ?_
  have hk := Kept.refl 0x80c0000088 s
  unfold execMramScrub
  repeat' first | with_reducible assumption | with_reducible refine kept_finding ?_ _ _ _ _ _ _ _ (by decide) | with_reducible refine kept_mramLost ?_ _ _ (by decide) | with_reducible refine kept_evaluate ?_ _ _ _ (by decide) | with_reducible refine kept_count ?_ _ _ _ (by decide) | (with_reducible refine Kept.of_fst (by assumption) ?_) | (with_reducible refine Kept.of_snd (by assumption) ?_) | with_reducible apply KeptOut.next | dsimp only | split

end Sys2Proof.Machine
end

