-- ==== Sys2Proof/Laws/KeptProfiles.lean ====
section
/-! SUPPORT. What every operation of Profiles.lean keeps. -/

namespace Sys2Proof.Machine

set_option Elab.async false

set_option linter.unusedSimpArgs false

theorem kept_profileCommand {K : Nat} {s0 s : State} (hk : Kept K s0 s) (n : Nat) (act : Caller → State → State × Reply) (hf : ∀ y0 y1, Kept K s0 y1 → Kept K s0 (act y0 y1).1) (hm : 0x204e000008a &&& K = 0x204e000008a := by decide) : Kept K s0 (State.profileCommand s n act) := by
  unfold State.profileCommand
  repeat' first | with_reducible assumption | with_reducible refine kept_serve ?_ _ _ _ ?_ (mask_trans (by decide) hm) | with_reducible apply hf | intro _ | dsimp only | split

theorem kept_execProfSave {K : Nat} {s0 s : State} (hk : Kept K s0 s) (n : Nat) (hm : 0x284e000008a &&& K = 0x284e000008a := by decide) : KeptOut K s0 (execProfSave n s) := by
  refine hk.out hm ?_
  have hk := Kept.refl 0x284e000008a s
  unfold execProfSave
  repeat' first | with_reducible assumption | with_reducible refine kept_profileCommand ?_ _ _ ?_ (by decide) | with_reducible refine kept_journal ?_ _ _ _ _ _ (by decide) | (with_reducible refine Kept.of_fst (by assumption) ?_) | (with_reducible refine Kept.of_snd (by assumption) ?_) | with_reducible apply KeptOut.next | intro _ | dsimp only | split

theorem kept_loadPage {K : Nat} {s0 s : State} (hk : Kept K s0 s) (c : Caller) (page : Nat) (l : List (Nat × Word)) (hm : 0x3ffffffffff &&& K = 0x3ffffffffff := by decide) : Kept K s0 (State.loadPage s c page l).1 := by
  refine hk.into hm ?_
  have hk := Kept.refl 0x3ffffffffff s
  unfold State.loadPage
  repeat' first | with_reducible assumption | with_reducible refine kept_commitPage ?_ ?_ _ _ _ (by decide) | with_reducible refine kept_stageReg ?_ _ _ (by decide) | with_reducible refine kept_writeReg ?_ _ _ (by decide) | with_reducible refine Kept.foldl (fun _ _ h => ?_) _ ?_ | with_reducible refine Kept.foldl_fst (fun _ _ h => ?_) _ ?_ | (with_reducible refine Kept.of_fst (by assumption) ?_) | (with_reducible refine Kept.of_snd (by assumption) ?_) | dsimp only | split

theorem kept_execProfLoad {K : Nat} {s0 s : State} (hk : Kept K s0 s) (n : Nat) (hm : 0x3ffffffffff &&& K = 0x3ffffffffff := by decide) : KeptOut K s0 (execProfLoad n s) := by
  refine hk.out hm ?_
  have hk := Kept.refl 0x3ffffffffff s
  unfold execProfLoad
  repeat' first | with_reducible assumption | with_reducible refine kept_profileCommand ?_ _ _ ?_ (by decide) | with_reducible refine kept_loadPage ?_ _ _ _ (by decide) | with_reducible refine Kept.foldl (fun _ _ h => ?_) _ ?_ | with_reducible refine Kept.foldl_fst (fun _ _ h => ?_) _ ?_ | (with_reducible refine Kept.of_fst (by assumption) ?_) | (with_reducible refine Kept.of_snd (by assumption) ?_) | with_reducible apply KeptOut.next | intro _ | dsimp only | split

theorem kept_execProfErase {K : Nat} {s0 s : State} (hk : Kept K s0 s) (n : Nat) (hm : 0x284e000008a &&& K = 0x284e000008a := by decide) : KeptOut K s0 (execProfErase n s) := by
  refine hk.out hm ?_
  have hk := Kept.refl 0x284e000008a s
  unfold execProfErase
  repeat' first | with_reducible assumption | with_reducible refine kept_profileCommand ?_ _ _ ?_ (by decide) | with_reducible refine kept_journal ?_ _ _ _ _ _ (by decide) | (with_reducible refine Kept.of_fst (by assumption) ?_) | (with_reducible refine Kept.of_snd (by assumption) ?_) | with_reducible apply KeptOut.next | intro _ | dsimp only | split

end Sys2Proof.Machine
end

