-- ==== Sys2Proof/Laws/KeptTraining.lean ====
section
/-! SUPPORT. What every operation of Training.lean keeps. -/

namespace Sys2Proof.Machine

set_option Elab.async false

set_option linter.unusedSimpArgs false

theorem kept_startTraining {K : Nat} {s0 s : State} (hk : Kept K s0 s) (p : Port) (hm : 0x100000000 &&& K = 0x100000000 := by decide) : Kept K s0 (State.startTraining s p) := by
  refine hk.into hm ?_
  have hk := Kept.refl 0x100000000 s
  unfold State.startTraining
  repeat' first | with_reducible assumption | with_reducible refine kept_trainOn ?_ _ (by decide) | with_reducible refine kept_updPort ?_ _ _ (by decide) | simp only [kept_is_mk] | with_reducible refine kept_mk ?_ | dsimp only | split

theorem kept_execPortEnable {K : Nat} {s0 s : State} (hk : Kept K s0 s) (p : Port) (hm : 0x100000000 &&& K = 0x100000000 := by decide) : KeptOut K s0 (execPortEnable p s) := by
  refine hk.out hm ?_
  have hk := Kept.refl 0x100000000 s
  unfold execPortEnable
  repeat' first | with_reducible assumption | with_reducible refine kept_startTraining ?_ _ (by decide) | with_reducible apply KeptOut.next | dsimp only | split

theorem kept_execRetrainTimer {K : Nat} {s0 s : State} (hk : Kept K s0 s) (p : Port) (hm : 0x100000000 &&& K = 0x100000000 := by decide) : KeptOut K s0 (execRetrainTimer p s) := by
  refine hk.out hm ?_
  have hk := Kept.refl 0x100000000 s
  unfold execRetrainTimer
  repeat' first | with_reducible assumption | with_reducible refine kept_startTraining ?_ _ (by decide) | with_reducible apply KeptOut.next | dsimp only | split

theorem kept_execBitLock {K : Nat} {s0 s : State} (hk : Kept K s0 s) (p : Port) (hm : 0x100000000 &&& K = 0x100000000 := by decide) : KeptOut K s0 (execBitLock p s) := by
  refine hk.out hm ?_
  have hk := Kept.refl 0x100000000 s
  unfold execBitLock
  repeat' first | with_reducible assumption | with_reducible refine kept_updPort ?_ _ _ (by decide) | simp only [kept_is_mk] | with_reducible refine kept_mk ?_ | with_reducible apply KeptOut.next | dsimp only | split

theorem kept_execBlockLock {K : Nat} {s0 s : State} (hk : Kept K s0 s) (p : Port) (hm : 0x100000000 &&& K = 0x100000000 := by decide) : KeptOut K s0 (execBlockLock p s) := by
  refine hk.out hm ?_
  have hk := Kept.refl 0x100000000 s
  unfold execBlockLock
  repeat' first | with_reducible assumption | with_reducible refine kept_updPort ?_ _ _ (by decide) | simp only [kept_is_mk] | with_reducible refine kept_mk ?_ | with_reducible apply KeptOut.next | dsimp only | split

theorem kept_execTs1 {K : Nat} {s0 s : State} (hk : Kept K s0 s) (p : Port) (lane : Fin 2) (peerB : Bool) (peerLane : Fin 2) (serial : BitVec 64) (inverted : Bool) (hm : 0x302000088 &&& K = 0x302000088 := by decide) : KeptOut K s0 (execTs1 p lane peerB peerLane serial inverted s) := by
  refine hk.out hm ?_
  have hk := Kept.refl 0x302000088 s
  unfold execTs1
  repeat' first | with_reducible assumption | with_reducible refine kept_portFall ?_ _ _ (by decide) | with_reducible refine kept_puts ?_ _ _ (by decide) | with_reducible refine kept_sendTs ?_ _ _ (by decide) | with_reducible refine kept_updPort ?_ _ _ (by decide) | simp only [kept_is_mk] | with_reducible refine kept_mk ?_ | with_reducible apply KeptOut.next | dsimp only | split

theorem kept_execTs2 {K : Nat} {s0 s : State} (hk : Kept K s0 s) (p : Port) (hm : 0x100000000 &&& K = 0x100000000 := by decide) : KeptOut K s0 (execTs2 p s) := by
  refine hk.out hm ?_
  have hk := Kept.refl 0x100000000 s
  unfold execTs2
  repeat' first | with_reducible assumption | with_reducible refine kept_sendDelayReq ?_ _ (by decide) | with_reducible refine kept_updPort ?_ _ _ (by decide) | simp only [kept_is_mk] | with_reducible refine kept_mk ?_ | with_reducible apply KeptOut.next | dsimp only | split

theorem kept_execDelayReq {K : Nat} {s0 s : State} (hk : Kept K s0 s) (p : Port) (sendAt : Nat) (recvAt : Nat) (respAt : Nat) (hm : 0x100000000 &&& K = 0x100000000 := by decide) : KeptOut K s0 (execDelayReq p sendAt recvAt respAt s) := by
  refine hk.out hm ?_
  have hk := Kept.refl 0x100000000 s
  unfold execDelayReq
  repeat' first | with_reducible assumption | with_reducible refine kept_send ?_ _ _ (by decide) | with_reducible apply KeptOut.next | dsimp only | split

theorem kept_hello {K : Nat} {s0 s : State} (hk : Kept K s0 s) (result : Nat) (hm : 0x80 &&& K = 0x80 := by decide) : Kept K s0 (State.hello s result) := by
  refine hk.into hm ?_
  have hk := Kept.refl 0x80 s
  unfold State.hello
  repeat' first | with_reducible assumption | simp only [kept_is_mk] | with_reducible refine kept_mk ?_ | dsimp only | split

theorem kept_portUp {K : Nat} {s0 s : State} (hk : Kept K s0 s) (p : Port) (d : Int) (hm : 0x302000088 &&& K = 0x302000088 := by decide) : Kept K s0 (State.portUp s p d) := by
  refine hk.into hm ?_
  have hk := Kept.refl 0x302000088 s
  unfold State.portUp
  repeat' first | with_reducible assumption | with_reducible refine kept_updClkPort ?_ _ _ (by decide) | with_reducible refine kept_refreshElig ?_ _ (by decide) | with_reducible refine kept_clkEvaluate ?_ (by decide) | with_reducible refine kept_raise ?_ _ _ (by decide) | with_reducible refine kept_put ?_ _ _ _ (by decide) | with_reducible refine kept_hello ?_ _ (by decide) | with_reducible refine kept_updPort ?_ _ _ (by decide) | simp only [kept_is_mk] | with_reducible refine kept_mk ?_ | dsimp only | split

theorem kept_resumeTime {K : Nat} {s0 s : State} (hk : Kept K s0 s) (p : Port) (t3 : Nat) (d : Int) (hm : 0x600528 &&& K = 0x600528 := by decide) : Kept K s0 (State.resumeTime s p t3 d) := by
  refine hk.into hm ?_
  have hk := Kept.refl 0x600528 s
  unfold State.resumeTime
  repeat' first | with_reducible assumption | with_reducible refine kept_startConvs ?_ (by decide) | simp only [kept_is_mk] | with_reducible refine kept_mk ?_ | dsimp only | split

theorem kept_execDelayResp {K : Nat} {s0 s : State} (hk : Kept K s0 s) (p : Port) (t1 : Nat) (t2 : Nat) (t3 : Nat) (t4 : Nat) (hm : 0x3026005a8 &&& K = 0x3026005a8 := by decide) : KeptOut K s0 (execDelayResp p t1 t2 t3 t4 s) := by
  refine hk.out hm ?_
  have hk := Kept.refl 0x3026005a8 s
  unfold execDelayResp
  repeat' first | with_reducible assumption | with_reducible refine kept_portUp ?_ _ _ (by decide) | with_reducible refine kept_resumeTime ?_ _ _ _ (by decide) | with_reducible refine kept_sendDelayReq ?_ _ (by decide) | with_reducible refine kept_updPort ?_ _ _ (by decide) | simp only [kept_is_mk] | with_reducible refine kept_mk ?_ | with_reducible apply KeptOut.next | dsimp only | split

theorem kept_execTrainingTimeout {K : Nat} {s0 s : State} (hk : Kept K s0 s) (p : Port) (hm : 0x302000088 &&& K = 0x302000088 := by decide) : KeptOut K s0 (execTrainingTimeout p s) := by
  refine hk.out hm ?_
  have hk := Kept.refl 0x302000088 s
  unfold execTrainingTimeout
  repeat' first | with_reducible assumption | with_reducible refine kept_portDrop ?_ _ _ _ (by decide) | with_reducible apply KeptOut.next | dsimp only | split

theorem kept_healDone {K : Nat} {s0 s : State} (hk : Kept K s0 s) (p : Port) (hm : 0x300000088 &&& K = 0x300000088 := by decide) : Kept K s0 (State.healDone s p) := by
  refine hk.into hm ?_
  have hk := Kept.refl 0x300000088 s
  unfold State.healDone
  repeat' first | with_reducible assumption | with_reducible refine kept_ringSettle ?_ (by decide) | with_reducible refine kept_raise ?_ _ _ (by decide) | with_reducible refine kept_updPort ?_ _ _ (by decide) | simp only [kept_is_mk] | with_reducible refine kept_mk ?_ | dsimp only | split

theorem kept_execHealCleanMet {K : Nat} {s0 s : State} (hk : Kept K s0 s) (p : Port) (hm : 0x300000088 &&& K = 0x300000088 := by decide) : KeptOut K s0 (execHealCleanMet p s) := by
  refine hk.out hm ?_
  have hk := Kept.refl 0x300000088 s
  unfold execHealCleanMet
  repeat' first | with_reducible assumption | with_reducible refine kept_healDone ?_ _ (by decide) | with_reducible refine kept_send ?_ _ _ (by decide) | with_reducible refine kept_updPort ?_ _ _ (by decide) | simp only [kept_is_mk] | with_reducible refine kept_mk ?_ | with_reducible apply KeptOut.next | dsimp only | split

theorem kept_execHeal {K : Nat} {s0 s : State} (hk : Kept K s0 s) (p : Port) (hm : 0x300000088 &&& K = 0x300000088 := by decide) : KeptOut K s0 (execHeal p s) := by
  refine hk.out hm ?_
  have hk := Kept.refl 0x300000088 s
  unfold execHeal
  repeat' first | with_reducible assumption | with_reducible refine kept_healDone ?_ _ (by decide) | with_reducible refine kept_updPort ?_ _ _ (by decide) | simp only [kept_is_mk] | with_reducible refine kept_mk ?_ | with_reducible apply KeptOut.next | dsimp only | split

theorem kept_execHealAck {K : Nat} {s0 s : State} (hk : Kept K s0 s) (p : Port) (hm : 0x300000088 &&& K = 0x300000088 := by decide) : KeptOut K s0 (execHealAck p s) := by
  refine hk.out hm ?_
  have hk := Kept.refl 0x300000088 s
  unfold execHealAck
  repeat' first | with_reducible assumption | with_reducible refine kept_healDone ?_ _ (by decide) | with_reducible apply KeptOut.next | dsimp only | split

theorem kept_execLinkDown {K : Nat} {s0 s : State} (hk : Kept K s0 s) (p : Port) (hm : 0x302000088 &&& K = 0x302000088 := by decide) : KeptOut K s0 (execLinkDown p s) := by
  refine hk.out hm ?_
  have hk := Kept.refl 0x302000088 s
  unfold execLinkDown
  repeat' first | with_reducible assumption | with_reducible refine kept_portFall ?_ _ _ (by decide) | with_reducible apply KeptOut.next | dsimp only | split

theorem kept_execLeave {K : Nat} {s0 s : State} (hk : Kept K s0 s) (p : Port) (hm : 0x302000088 &&& K = 0x302000088 := by decide) : KeptOut K s0 (execLeave p s) := by
  refine hk.out hm ?_
  have hk := Kept.refl 0x302000088 s
  unfold execLeave
  repeat' first | with_reducible assumption | with_reducible refine kept_portFall ?_ _ _ (by decide) | with_reducible apply KeptOut.next | dsimp only | split

theorem kept_execBlockLockLoss {K : Nat} {s0 s : State} (hk : Kept K s0 s) (p : Port) (hm : 0x302000088 &&& K = 0x302000088 := by decide) : KeptOut K s0 (execBlockLockLoss p s) := by
  refine hk.out hm ?_
  have hk := Kept.refl 0x302000088 s
  unfold execBlockLockLoss
  repeat' first | with_reducible assumption | with_reducible refine kept_portFall ?_ _ _ (by decide) | with_reducible apply KeptOut.next | dsimp only | split

theorem kept_execAlign {K : Nat} {s0 s : State} (hk : Kept K s0 s) (p : Port) (lane : Fin 2) (crcOk : Bool) (hm : 0x3c2000088 &&& K = 0x3c2000088 := by decide) : KeptOut K s0 (execAlign p lane crcOk s) := by
  refine hk.out hm ?_
  have hk := Kept.refl 0x3c2000088 s
  unfold execAlign
  repeat' first | with_reducible assumption | with_reducible refine kept_portFall ?_ _ _ (by decide) | with_reducible refine kept_logFinding ?_ _ _ _ _ _ (by decide) | with_reducible refine kept_raise ?_ _ _ (by decide) | with_reducible refine kept_evaluate ?_ _ _ _ (by decide) | with_reducible refine kept_count ?_ _ _ _ (by decide) | with_reducible refine kept_updPort ?_ _ _ (by decide) | simp only [kept_is_mk] | with_reducible refine kept_mk ?_ | (with_reducible refine Kept.of_fst (by assumption) ?_) | (with_reducible refine Kept.of_snd (by assumption) ?_) | with_reducible apply KeptOut.next | dsimp only | split

theorem kept_execSkip {K : Nat} {s0 s : State} (hk : Kept K s0 s) (p : Port) (lane : Fin 2) : KeptOut K s0 (execSkip p lane s) := by
  refine hk.out0 ?_
  have hk := Kept.refl 0x0 s
  unfold execSkip
  repeat' first | with_reducible assumption | with_reducible apply KeptOut.next | dsimp only | split

end Sys2Proof.Machine
end

