-- ==== Sys2Proof/Laws/KeptRing.lean ====
section
/-! SUPPORT. What every operation of Ring.lean keeps. -/

namespace Sys2Proof.Machine

set_option Elab.async false

set_option linter.unusedSimpArgs false

theorem kept_frameFinding {K : Nat} {s0 s : State} (hk : Kept K s0 s) (p : Port) (src : Nat) (hm : 0x1c0000088 &&& K = 0x1c0000088 := by decide) : Kept K s0 (State.frameFinding s p src) := by
  refine hk.into hm ?_
  have hk := Kept.refl 0x1c0000088 s
  unfold State.frameFinding
  repeat' first | with_reducible assumption | with_reducible refine kept_logFinding ?_ _ _ _ _ _ (by decide) | with_reducible refine kept_raise ?_ _ _ (by decide) | with_reducible refine kept_updPort ?_ _ _ (by decide) | simp only [kept_is_mk] | with_reducible refine kept_mk ?_ | dsimp only | split

theorem kept_frameBad {K : Nat} {s0 s : State} (hk : Kept K s0 s) (p : Port) (src : Nat) (hm : 0x3c2000088 &&& K = 0x3c2000088 := by decide) : Kept K s0 (State.frameBad s p src) := by
  refine hk.into hm ?_
  have hk := Kept.refl 0x3c2000088 s
  unfold State.frameBad
  repeat' first | with_reducible assumption | with_reducible refine kept_frameFinding ?_ _ _ (by decide) | with_reducible refine kept_portFall ?_ _ _ (by decide) | with_reducible refine kept_count ?_ _ _ _ (by decide) | with_reducible refine kept_updPort ?_ _ _ (by decide) | simp only [kept_is_mk] | with_reducible refine kept_mk ?_ | dsimp only | split

theorem kept_frameHop {K : Nat} {s0 s : State} (hk : Kept K s0 s) (p : Port) (f : RFrame) (hm : 0x302000088 &&& K = 0x302000088 := by decide) : Kept K s0 (State.frameHop s p f) := by
  refine hk.into hm ?_
  have hk := Kept.refl 0x302000088 s
  unfold State.frameHop
  repeat' first | with_reducible assumption | with_reducible refine kept_drainWait ?_ _ _ (by decide) | with_reducible refine kept_updClkPort ?_ _ _ (by decide) | with_reducible refine kept_refreshElig ?_ _ (by decide) | with_reducible refine kept_clkEvaluate ?_ (by decide) | with_reducible refine kept_put ?_ _ _ _ (by decide) | with_reducible refine kept_updPort ?_ _ _ (by decide) | simp only [kept_is_mk] | with_reducible refine kept_mk ?_ | dsimp only | split

theorem kept_frameSeq {K : Nat} {s0 s : State} (hk : Kept K s0 s) (p : Port) (f : RFrame) (hm : 0x1c0000088 &&& K = 0x1c0000088 := by decide) : Kept K s0 (State.frameSeq s p f) := by
  refine hk.into hm ?_
  have hk := Kept.refl 0x1c0000088 s
  unfold State.frameSeq
  repeat' first | with_reducible assumption | with_reducible refine kept_frameFinding ?_ _ _ (by decide) | with_reducible refine kept_freeCredit ?_ _ _ _ (by decide) | with_reducible refine kept_count ?_ _ _ _ (by decide) | with_reducible refine kept_updPort ?_ _ _ (by decide) | simp only [kept_is_mk] | with_reducible refine kept_mk ?_ | dsimp only | split

theorem kept_frameRoute {K : Nat} {s0 s : State} (hk : Kept K s0 s) (p : Port) (f : RFrame) (hm : 0x100000008 &&& K = 0x100000008 := by decide) : Kept K s0 (State.frameRoute s p f) := by
  refine hk.into hm ?_
  have hk := Kept.refl 0x100000008 s
  unfold State.frameRoute
  repeat' first | with_reducible assumption | with_reducible refine kept_freeFrom ?_ _ _ (by decide) | with_reducible refine kept_sendFrame ?_ _ _ _ (by decide) | with_reducible refine kept_count ?_ _ _ _ (by decide) | simp only [kept_is_mk] | with_reducible refine kept_mk ?_ | dsimp only | split

theorem kept_execFrameReceive {K : Nat} {s0 s : State} (hk : Kept K s0 s) (p : Port) (f : RFrame) (hm : 0x3c2000088 &&& K = 0x3c2000088 := by decide) : KeptOut K s0 (execFrameReceive p f s) := by
  refine hk.out hm ?_
  have hk := Kept.refl 0x3c2000088 s
  unfold execFrameReceive
  repeat' first | with_reducible assumption | with_reducible refine kept_frameBad ?_ _ _ (by decide) | with_reducible refine kept_frameSeq ?_ _ _ (by decide) | with_reducible refine kept_frameHop ?_ _ _ (by decide) | with_reducible refine kept_evaluate ?_ _ _ _ (by decide) | with_reducible refine kept_frameRoute ?_ _ _ (by decide) | (with_reducible refine Kept.of_fst (by assumption) ?_) | (with_reducible refine Kept.of_snd (by assumption) ?_) | with_reducible apply KeptOut.next | dsimp only | split

theorem kept_freeQueue {K : Nat} {s0 s : State} (hk : Kept K s0 s) (q : SQueue) (hm : 0x800000 &&& K = 0x800000 := by decide) : Kept K s0 (State.freeQueue s q) := by
  refine hk.into hm ?_
  have hk := Kept.refl 0x800000 s
  unfold State.freeQueue
  repeat' first | with_reducible assumption | with_reducible refine kept_updQueue ?_ _ _ (by decide) | dsimp only | split

theorem kept_sendStream {K : Nat} {s0 s : State} (hk : Kept K s0 s) (q : SQueue) (hm : 0x100800008 &&& K = 0x100800008 := by decide) : Kept K s0 (State.sendStream s q) := by
  refine hk.into hm ?_
  have hk := Kept.refl 0x100800008 s
  unfold State.sendStream
  repeat' first | with_reducible assumption | with_reducible refine kept_sendFrame ?_ _ _ _ (by decide) | with_reducible refine kept_updQueue ?_ _ _ (by decide) | with_reducible refine kept_freeQueue ?_ _ (by decide) | simp only [kept_is_mk] | with_reducible refine kept_mk ?_ | dsimp only | split

theorem kept_sendOut {K : Nat} {s0 s : State} (hk : Kept K s0 s) (q : Fin 3) (hm : 0x100000088 &&& K = 0x100000088 := by decide) : Kept K s0 (State.sendOut s q) := by
  refine hk.into hm ?_
  have hk := Kept.refl 0x100000088 s
  unfold State.sendOut
  repeat' first | with_reducible assumption | with_reducible refine kept_sendFrame ?_ _ _ _ (by decide) | simp only [kept_is_mk] | with_reducible refine kept_mk ?_ | with_reducible refine Kept.foldl (fun _ _ h => ?_) _ ?_ | dsimp only | split

theorem kept_execFrameSendTimer {K : Nat} {s0 s : State} (hk : Kept K s0 s) (q : OutQueue) (hm : 0x100800088 &&& K = 0x100800088 := by decide) : KeptOut K s0 (execFrameSendTimer q s) := by
  refine hk.out hm ?_
  have hk := Kept.refl 0x100800088 s
  unfold execFrameSendTimer
  repeat' first | with_reducible assumption | with_reducible refine kept_sendOut ?_ _ (by decide) | with_reducible refine kept_sendStream ?_ _ (by decide) | with_reducible apply KeptOut.next | dsimp only | split

theorem kept_takePos {K : Nat} {s0 s : State} (hk : Kept K s0 s) (n : Nat) (hm : 0x200000188 &&& K = 0x200000188 := by decide) : Kept K s0 (State.takePos s n) := by
  refine hk.into hm ?_
  have hk := Kept.refl 0x200000188 s
  unfold State.takePos
  repeat' first | with_reducible assumption | with_reducible refine kept_raise ?_ _ _ (by decide) | with_reducible refine kept_updRing ?_ _ (by decide) | simp only [kept_is_mk] | with_reducible refine kept_mk ?_ | dsimp only | split

theorem kept_execDiscover {K : Nat} {s0 s : State} (hk : Kept K s0 s) (p : Port) (count : Nat) (renumber : Bool) (hm : 0x300000188 &&& K = 0x300000188 := by decide) : KeptOut K s0 (execDiscover p count renumber s) := by
  refine hk.out hm ?_
  have hk := Kept.refl 0x300000188 s
  unfold execDiscover
  repeat' first | with_reducible assumption | with_reducible refine kept_forwardNotice ?_ _ _ (by decide) | with_reducible refine kept_takePos ?_ _ (by decide) | with_reducible refine kept_hello ?_ _ (by decide) | with_reducible refine kept_updRing ?_ _ (by decide) | simp only [kept_is_mk] | with_reducible refine kept_mk ?_ | with_reducible apply KeptOut.next | dsimp only | split

theorem kept_execRingSize {K : Nat} {s0 s : State} (hk : Kept K s0 s) (p : Port) (n : Nat) (hm : 0x300000000 &&& K = 0x300000000 := by decide) : KeptOut K s0 (execRingSize p n s) := by
  refine hk.out hm ?_
  have hk := Kept.refl 0x300000000 s
  unfold execRingSize
  repeat' first | with_reducible assumption | with_reducible refine kept_forwardNotice ?_ _ _ (by decide) | with_reducible refine kept_updRing ?_ _ (by decide) | simp only [kept_is_mk] | with_reducible refine kept_mk ?_ | with_reducible apply KeptOut.next | dsimp only | split

theorem kept_execAssign {K : Nat} {s0 s : State} (hk : Kept K s0 s) (p : Port) (serial : BitVec 64) (pos : Nat) (hm : 0x300000188 &&& K = 0x300000188 := by decide) : KeptOut K s0 (execAssign p serial pos s) := by
  refine hk.out hm ?_
  have hk := Kept.refl 0x300000188 s
  unfold execAssign
  repeat' first | with_reducible assumption | with_reducible refine kept_forwardNotice ?_ _ _ (by decide) | with_reducible refine kept_takePos ?_ _ (by decide) | with_reducible apply KeptOut.next | dsimp only | split

theorem kept_eraseStreamKeys {K : Nat} {s0 s : State} (hk : Kept K s0 s) (hm : 0x21000088 &&& K = 0x21000088 := by decide) : Kept K s0 (State.eraseStreamKeys s) := by
  refine hk.into hm ?_
  have hk := Kept.refl 0x21000088 s
  unfold State.eraseStreamKeys
  repeat' first | with_reducible assumption | with_reducible refine kept_endSessions ?_ _ _ (by decide) | simp only [kept_is_mk] | with_reducible refine kept_mk ?_ | dsimp only | split

theorem kept_restartPeriods {K : Nat} {s0 s : State} (hk : Kept K s0 s) (hm : 0x600000 &&& K = 0x600000 := by decide) : Kept K s0 (State.restartPeriods s) := by
  refine hk.into hm ?_
  have hk := Kept.refl 0x600000 s
  unfold State.restartPeriods
  repeat' first | with_reducible assumption | simp only [kept_is_mk] | with_reducible refine kept_mk ?_ | dsimp only | split

theorem kept_markStep {K : Nat} {s0 s : State} (hk : Kept K s0 s) (hm : 0x200000 &&& K = 0x200000 := by decide) : Kept K s0 (State.markStep s) := by
  refine hk.into hm ?_
  have hk := Kept.refl 0x200000 s
  unfold State.markStep
  repeat' first | with_reducible assumption | simp only [kept_is_mk] | with_reducible refine kept_mk ?_ | dsimp only | split

theorem kept_setTime {K : Nat} {s0 s : State} (hk : Kept K s0 s) (v : Nat) (hm : 0x216001a8 &&& K = 0x216001a8 := by decide) : Kept K s0 (State.setTime s v) := by
  refine hk.into hm ?_
  have hk := Kept.refl 0x216001a8 s
  unfold State.setTime
  repeat' first | with_reducible assumption | with_reducible refine kept_eraseStreamKeys ?_ (by decide) | with_reducible refine kept_restartPeriods ?_ (by decide) | simp only [kept_is_mk] | with_reducible refine kept_mk ?_ | dsimp only | split

theorem kept_firstWord {K : Nat} {s0 s : State} (hk : Kept K s0 s) (e : Int) (h : Int) (arrival : Nat) (hm : 0x2216005a8 &&& K = 0x2216005a8 := by decide) : Kept K s0 (State.firstWord s e h arrival) := by
  refine hk.into hm ?_
  have hk := Kept.refl 0x2216005a8 s
  unfold State.firstWord
  repeat' first | with_reducible assumption | with_reducible refine kept_startConvs ?_ (by decide) | with_reducible refine kept_setTime ?_ _ (by decide) | with_reducible refine kept_updRing ?_ _ (by decide) | simp only [kept_is_mk] | with_reducible refine kept_mk ?_ | dsimp only | split

theorem kept_laterWord {K : Nat} {s0 s : State} (hk : Kept K s0 s) (e : Int) (hm : 0x200000100 &&& K = 0x200000100 := by decide) : Kept K s0 (State.laterWord s e) := by
  refine hk.into hm ?_
  have hk := Kept.refl 0x200000100 s
  unfold State.laterWord
  repeat' first | with_reducible assumption | with_reducible refine kept_updRing ?_ _ (by decide) | simp only [kept_is_mk] | with_reducible refine kept_mk ?_ | dsimp only | split

theorem kept_wordEpoch {K : Nat} {s0 s : State} (hk : Kept K s0 s) (traceable : Bool) (epoch : Nat) (hm : 0xa00000088 &&& K = 0xa00000088 := by decide) : Kept K s0 (State.wordEpoch s traceable epoch) := by
  refine hk.into hm ?_
  have hk := Kept.refl 0xa00000088 s
  unfold State.wordEpoch
  repeat' first | with_reducible assumption | with_reducible refine kept_smcTimeBreak ?_ (by decide) | with_reducible refine kept_raise ?_ _ _ (by decide) | with_reducible refine kept_updRing ?_ _ (by decide) | simp only [kept_is_mk] | with_reducible refine kept_mk ?_ | dsimp only | split

theorem kept_execTimeWord {K : Nat} {s0 s : State} (hk : Kept K s0 s) (p : Port) (hops : Nat) (corr : Nat) (tseq : Nat) (traceable : Bool) (devtimeTx : Nat) (epoch : Nat) (arrival : Nat) (residence : Nat) (hm : 0xb216005a8 &&& K = 0xb216005a8 := by decide) : KeptOut K s0 (execTimeWord p hops corr tseq traceable devtimeTx epoch arrival residence s) := by
  refine hk.out hm ?_
  have hk := Kept.refl 0xb216005a8 s
  unfold execTimeWord
  repeat' first | with_reducible assumption | with_reducible refine kept_firstWord ?_ _ _ _ (by decide) | with_reducible refine kept_smcTimeBreak ?_ (by decide) | with_reducible refine kept_laterWord ?_ _ (by decide) | with_reducible refine kept_put ?_ _ _ _ (by decide) | with_reducible refine kept_wordEpoch ?_ _ _ (by decide) | with_reducible refine kept_forwardNotice ?_ _ _ (by decide) | with_reducible refine kept_count ?_ _ _ _ (by decide) | with_reducible refine kept_updRing ?_ _ (by decide) | simp only [kept_is_mk] | with_reducible refine kept_mk ?_ | with_reducible apply KeptOut.next | dsimp only | split

theorem kept_execDevtimeStep {K : Nat} {s0 s : State} (hk : Kept K s0 s) (hm : 0x821200388 &&& K = 0x821200388 := by decide) : KeptOut K s0 (execDevtimeStep s) := by
  refine hk.out hm ?_
  have hk := Kept.refl 0x821200388 s
  unfold execDevtimeStep
  repeat' first | with_reducible assumption | with_reducible refine kept_smcTimeBreak ?_ (by decide) | with_reducible refine kept_eraseStreamKeys ?_ (by decide) | with_reducible refine kept_markStep ?_ (by decide) | with_reducible refine kept_raise ?_ _ _ (by decide) | with_reducible refine kept_put ?_ _ _ _ (by decide) | with_reducible refine kept_putPair ?_ _ _ _ _ (by decide) | with_reducible refine kept_count ?_ _ _ _ (by decide) | simp only [kept_is_mk] | with_reducible refine kept_mk ?_ | with_reducible apply KeptOut.next | dsimp only | split

end Sys2Proof.Machine
end

