-- ==== Sys2Proof/Laws/KeptTwoWire.lean ====
section
/-! SUPPORT. What every operation of TwoWire.lean keeps. -/

namespace Sys2Proof.Machine

set_option Elab.async false

set_option linter.unusedSimpArgs false

theorem kept_discardPart {K : Nat} {s0 s : State} (hk : Kept K s0 s) (hm : 0x400000008 &&& K = 0x400000008 := by decide) : Kept K s0 (State.discardPart s) := by
  refine hk.into hm ?_
  have hk := Kept.refl 0x400000008 s
  unfold State.discardPart
  repeat' first | with_reducible assumption | with_reducible refine kept_updTwb ?_ _ (by decide) | with_reducible refine kept_count ?_ _ _ _ (by decide) | simp only [kept_is_mk] | with_reducible refine kept_mk ?_ | dsimp only | split

theorem kept_busIdle {K : Nat} {s0 s : State} (hk : Kept K s0 s) (hm : 0x400000008 &&& K = 0x400000008 := by decide) : Kept K s0 (State.busIdle s) := by
  refine hk.into hm ?_
  have hk := Kept.refl 0x400000008 s
  unfold State.busIdle
  repeat' first | with_reducible assumption | with_reducible refine kept_updTwb ?_ _ (by decide) | with_reducible refine kept_discardPart ?_ (by decide) | simp only [kept_is_mk] | with_reducible refine kept_mk ?_ | dsimp only | split

theorem kept_abandon {K : Nat} {s0 s : State} (hk : Kept K s0 s) (hm : 0x400000008 &&& K = 0x400000008 := by decide) : Kept K s0 (State.abandon s) := by
  refine hk.into hm ?_
  have hk := Kept.refl 0x400000008 s
  unfold State.abandon
  repeat' first | with_reducible assumption | with_reducible refine kept_busIdle ?_ (by decide) | with_reducible refine kept_count ?_ _ _ _ (by decide) | dsimp only | split

theorem kept_execTwbAddressMatch {K : Nat} {s0 s : State} (hk : Kept K s0 s) (addr : Nat) (read : Bool) (hm : 0x3fff7fffffd &&& K = 0x3fff7fffffd := by decide) : KeptOut K s0 (execTwbAddressMatch addr read s) := by
  refine hk.out hm ?_
  have hk := Kept.refl 0x3fff7fffffd s
  unfold execTwbAddressMatch
  repeat' first | with_reducible assumption | with_reducible refine kept_updTwb ?_ _ (by decide) | with_reducible refine kept_wake ?_ (by decide) | with_reducible refine kept_abandon ?_ (by decide) | simp only [kept_is_mk] | with_reducible refine kept_mk ?_ | with_reducible apply KeptOut.next | dsimp only | split

theorem kept_busWrite {K : Nat} {s0 s : State} (hk : Kept K s0 s) (w : Word) (hm : 0x3ffffffffff &&& K = 0x3ffffffffff := by decide) : Kept K s0 (State.busWrite s w) := by
  refine hk.into hm ?_
  have hk := Kept.refl 0x3ffffffffff s
  unfold State.busWrite
  repeat' first | with_reducible assumption | with_reducible refine kept_updTwb ?_ _ (by decide) | with_reducible refine kept_reply _ _ _ ?_ (by decide) | with_reducible refine kept_writeCommand ?_ _ _ _ (by decide) | simp only [kept_is_mk] | with_reducible refine kept_mk ?_ | (with_reducible refine Kept.of_fst (by assumption) ?_) | (with_reducible refine Kept.of_snd (by assumption) ?_) | dsimp only | split

theorem kept_busRefuse {K : Nat} {s0 s : State} (hk : Kept K s0 s) (st : Status) (hm : 0x40000008a &&& K = 0x40000008a := by decide) : Kept K s0 (State.busRefuse s st) := by
  refine hk.into hm ?_
  have hk := Kept.refl 0x40000008a s
  unfold State.busRefuse
  repeat' first | with_reducible assumption | with_reducible refine kept_updTwb ?_ _ (by decide) | with_reducible refine kept_raiseAbsent ?_ _ _ (by decide) | with_reducible refine kept_windowDone ?_ _ _ (by decide) | simp only [kept_is_mk] | with_reducible refine kept_mk ?_ | dsimp only | split

theorem kept_busByte {K : Nat} {s0 s : State} (hk : Kept K s0 s) (b : Byte) (hm : 0x3ffffffffff &&& K = 0x3ffffffffff := by decide) : Kept K s0 (State.busByte s b) := by
  refine hk.into hm ?_
  have hk := Kept.refl 0x3ffffffffff s
  unfold State.busByte
  repeat' first | with_reducible assumption | with_reducible refine kept_updTwb ?_ _ (by decide) | with_reducible refine kept_busWrite ?_ _ (by decide) | with_reducible refine kept_busRefuse ?_ _ (by decide) | simp only [kept_is_mk] | with_reducible refine kept_mk ?_ | dsimp only | split

theorem kept_execTwbWriteTransfer {K : Nat} {s0 s : State} (hk : Kept K s0 s) (bytes : List Byte) (stop : Bool) (hm : 0x3ffffffffff &&& K = 0x3ffffffffff := by decide) : KeptOut K s0 (execTwbWriteTransfer bytes stop s) := by
  refine hk.out hm ?_
  have hk := Kept.refl 0x3ffffffffff s
  unfold execTwbWriteTransfer
  repeat' first | with_reducible assumption | with_reducible refine kept_busIdle ?_ (by decide) | with_reducible refine kept_busByte ?_ _ (by decide) | with_reducible refine Kept.foldl (fun _ _ h => ?_) _ ?_ | with_reducible apply KeptOut.next | dsimp only | split

theorem kept_busFetch {K : Nat} {s0 s : State} (hk : Kept K s0 s) (hm : 0x400000008 &&& K = 0x400000008 := by decide) : Kept K s0 (State.busFetch s) := by
  refine hk.into hm ?_
  have hk := Kept.refl 0x400000008 s
  unfold State.busFetch
  repeat' first | with_reducible assumption | with_reducible refine kept_updTwb ?_ _ (by decide) | with_reducible refine kept_readCommand ?_ _ _ _ (by decide) | with_reducible refine kept_put ?_ _ _ _ (by decide) | simp only [kept_is_mk] | with_reducible refine kept_mk ?_ | (with_reducible refine Kept.of_fst (by assumption) ?_) | (with_reducible refine Kept.of_snd (by assumption) ?_) | dsimp only | split

theorem kept_busDrive {K : Nat} {s0 s : State} (h : Kept K s0 s) (n : Nat) (hm : 0x400000008 &&& K = 0x400000008 := by decide) : Kept K s0 (State.busDrive s n) := by
  induction n generalizing s with
  | zero => exact h
  | succ n ih =>
    unfold State.busDrive
    refine ih (kept_updTwb ?_ _ (mask_trans (by decide) hm))
    split
    · exact kept_busFetch h (mask_trans (by decide) hm)
    · exact h

theorem kept_execTwbReadTransfer {K : Nat} {s0 s : State} (hk : Kept K s0 s) (count : Nat) (stop : Bool) (hm : 0x400000008 &&& K = 0x400000008 := by decide) : KeptOut K s0 (execTwbReadTransfer count stop s) := by
  refine hk.out hm ?_
  have hk := Kept.refl 0x400000008 s
  unfold execTwbReadTransfer
  repeat' first | with_reducible assumption | with_reducible refine kept_busIdle ?_ (by decide) | with_reducible refine kept_busDrive ?_ _ (by decide) | with_reducible apply KeptOut.next | dsimp only | split

theorem kept_execTwbStartAbandon {K : Nat} {s0 s : State} (hk : Kept K s0 s) (hm : 0x400000008 &&& K = 0x400000008 := by decide) : KeptOut K s0 (execTwbStartAbandon s) := by
  refine hk.out hm ?_
  have hk := Kept.refl 0x400000008 s
  unfold execTwbStartAbandon
  repeat' first | with_reducible assumption | with_reducible refine kept_abandon ?_ (by decide) | with_reducible apply KeptOut.next | dsimp only | split

theorem kept_execSclLowTimeout {K : Nat} {s0 s : State} (hk : Kept K s0 s) (seen : Bool) (hm : 0x4c0000088 &&& K = 0x4c0000088 := by decide) : KeptOut K s0 (execSclLowTimeout seen s) := by
  refine hk.out hm ?_
  have hk := Kept.refl 0x4c0000088 s
  unfold execSclLowTimeout
  repeat' first | with_reducible assumption | with_reducible refine kept_finding ?_ _ _ _ _ _ _ _ (by decide) | with_reducible refine kept_race ?_ _ (by decide) | with_reducible refine kept_put ?_ _ _ _ (by decide) | with_reducible refine kept_evaluate ?_ _ _ _ (by decide) | with_reducible refine kept_abandon ?_ (by decide) | (with_reducible refine Kept.of_fst (by assumption) ?_) | (with_reducible refine Kept.of_snd (by assumption) ?_) | with_reducible apply KeptOut.next | dsimp only | split

theorem kept_execSdaReleaseTimeout {K : Nat} {s0 s : State} (hk : Kept K s0 s) (seen : Bool) (hm : 0x4c0000088 &&& K = 0x4c0000088 := by decide) : KeptOut K s0 (execSdaReleaseTimeout seen s) := by
  refine hk.out hm ?_
  have hk := Kept.refl 0x4c0000088 s
  unfold execSdaReleaseTimeout
  repeat' first | with_reducible assumption | with_reducible refine kept_finding ?_ _ _ _ _ _ _ _ (by decide) | with_reducible refine kept_race ?_ _ (by decide) | with_reducible refine kept_busIdle ?_ (by decide) | with_reducible refine kept_put ?_ _ _ _ (by decide) | with_reducible refine kept_evaluate ?_ _ _ _ (by decide) | (with_reducible refine Kept.of_fst (by assumption) ?_) | (with_reducible refine Kept.of_snd (by assumption) ?_) | with_reducible apply KeptOut.next | dsimp only | split

theorem kept_execNineClockRecovery {K : Nat} {s0 s : State} (hk : Kept K s0 s) (hm : 0x400000008 &&& K = 0x400000008 := by decide) : KeptOut K s0 (execNineClockRecovery s) := by
  refine hk.out hm ?_
  have hk := Kept.refl 0x400000008 s
  unfold execNineClockRecovery
  repeat' first | with_reducible assumption | with_reducible refine kept_busIdle ?_ (by decide) | with_reducible refine kept_busDrive ?_ _ (by decide) | with_reducible apply KeptOut.next | dsimp only | split

end Sys2Proof.Machine
end

