-- ==== Sys2Proof/Laws/Packets.lean ====
section
/-! SUPPORT. Packets and side-data records change no register outside the STRM page and the windows of streams and bundles. -/

namespace Sys2Proof.Machine

set_option Elab.async false

open Sys2Proof.Safety

/-- A register of a page below the windows that is not on the STRM page. -/
def OffStreams (k : Nat) : Prop := k / 0x400 < 0x1000 ∧ k / 0x400 ≠ pgStrm

theorem OffStreams.ne_stream {k : Nat} (h : OffStreams k) (i : StrmId) (f : Fld) (hf : f.off < 0x400) : k ≠ keyOf (pgStream i) f := by
  rintro rfl
  have := h.1
  rw [keyOf_page _ _ hf] at this
  unfold pgStream at this
  omega

theorem OffStreams.ne_strm {k : Nat} (h : OffStreams k) (off : Nat) (hf : off < 0x400) : k ≠ pgStrm * 0x400 + off := by
  rintro rfl
  apply h.2
  omega

theorem reg_foldl {α : Type} {f : State → α → State} {k : Nat} (hf : ∀ s a, (f s a).reg k = s.reg k) : ∀ (l : List α) (s : State), (l.foldl f s).reg k = s.reg k
  | [], _ => rfl
  | a :: l, s => (reg_foldl hf l (f s a)).trans (hf s a)

theorem reg_dropPacket (s : State) (i : StrmId) {k : Nat} (h : OffStreams k) : (s.dropPacket i).reg k = s.reg k :=
  (reg_of_regs (regs_updStrm (s.count (pgStream i) strmDropCnt 1) i _) k).trans (reg_count_ne _ _ _ _ _ (h.ne_stream i strmDropCnt (by decide)))

theorem reg_deliver (s : State) (q : SQueue) (p : Packet) {k : Nat} (h : OffStreams k) : (s.deliver q p).reg k = s.reg k := by
  unfold State.deliver
  split
  · exact reg_count_ne _ _ _ _ _ (h.ne_stream _ strmPktCnt (by decide))
  · exact reg_dropPacket s _ h

theorem reg_enqueue (s : State) (q : SQueue) (p : Packet) {k : Nat} (h : OffStreams k) : (s.enqueue q p).reg k = s.reg k := by
  have hq : k ≠ keyOf pgStrm (strmQDrop.nth q.val) := h.ne_strm _ (by have := q.isLt; unfold Fld.nth strmQDrop; dsimp only; omega)
  have hd : ((s.dropPacket p.stream).count pgStrm (strmQDrop.nth q.val) 1).reg k = s.reg k :=
    (reg_count_ne _ _ _ _ _ hq).trans (reg_dropPacket s _ h)
  unfold State.enqueue
  dsimp only
  refine reg_ite (reg_deliver s q p h) (reg_ite hd ?_)
  exact (reg_raiseTo_ne _ _ _ _ _ (h.ne_strm _ (by decide)) (h.ne_strm _ (by decide))).trans hd

theorem reg_formPacket (s : State) (i : StrmId) (x : PacketSpec) {k : Nat} (h : OffStreams k) : (s.formPacket i x).reg k = s.reg k := by
  unfold State.formPacket
  dsimp only
  refine reg_ite rfl (reg_ite (reg_dropPacket _ _ h) (reg_ite rfl ?_))
  split
  · exact reg_enqueue _ _ _ h
  · rfl

theorem reg_closeSide (s : State) (i : StrmId) {k : Nat} (h : OffStreams k) : (s.closeSide i).reg k = s.reg k := by
  unfold State.closeSide
  dsimp only
  exact reg_ite rfl (reg_formPacket s i _ h)

/-- A record handed to the side-data streams changes no other register. -/
theorem reg_sideRecord (s : State) (a b : Nat) (ws : List Quad) (o : Bool) (t : Nat) {k : Nat} (h : OffStreams k) : (s.sideRecord a b ws o t).reg k = s.reg k := by
  unfold State.sideRecord
  refine reg_foldl (fun s i => ?_) _ s
  dsimp only
  exact reg_ite (reg_closeSide s i h) rfl

/-- A report that is a packet of its own changes no other register. -/
theorem reg_emitReport (s : State) (p : StrmDef → Bool) (at_ : Nat) (cond : Cond) (kf : Nat) (ws : List Quad) {k : Nat} (h : OffStreams k) : (s.emitReport p at_ cond kf ws).reg k = s.reg k := by
  unfold State.emitReport
  exact reg_foldl (fun s i => reg_formPacket s i _ h) _ s

end Sys2Proof.Machine
end

