-- ==== Sys2Proof/Tests/Slice0.lean ====
section
/-! SUPPORT. Tests of the model: that ill-formed commands are refused by the well-formedness check; that the hypotheses of each statement are met together by a concrete state, clause by clause; and that single commands on small states give what the manual says. -/

namespace Sys2Proof.Tests

set_option Elab.async false

open Sys2Proof Sys2Proof.Machine Sys2Proof.Safety

/-- A packet that came through the bus mailbox, without session words. -/
def plain (op len : Nat) : Waiting := ⟨⟨op, len, 7, 0, true, none⟩, true⟩

/-- A packet that came on the ring, without session words. -/
def onRing (op len : Nat) : Waiting := ⟨⟨op, len, 7, 0, true, none⟩, false⟩

/-- A packet under session 1, counter 1, with a tag that verifies. -/
def signed (op len tenant : Nat) : Waiting := ⟨⟨op, len, 7, tenant, true, some ⟨1, 1, true⟩⟩, false⟩

/-- A state with one packet waiting in a queue, its last. -/
def front (s : State) (q : CQueue) (w : Waiting) : State := { s with q := { s.q with cmd := upd s.q.cmd q (fun _ => [w]) } }

/-- Whether that packet passes every check that comes before its command's own rules. -/
def passes (s : State) (q : CQueue) (w : Waiting) (ops : List Nat) (n : Nat) : Bool :=
  queueOps q w.head.op && s.servesOp w.head.op && ops.contains w.head.op && formOk w.head q && decide (clearLen w.head = n) &&
    (decide (q.val ≠ 2) || s.fuse.variant.cloche) &&
    match (((front s q w).popCmd q).check q w).2 with
    | .accepted _ _ => true
    | .refused _ => false

/-- The state in which its command runs. -/
def taken (s : State) (q : CQueue) (w : Waiting) : State := (((front s q w).popCmd q).check q w).1

/-- Who its command runs for. -/
def by_ (s : State) (q : CQueue) (w : Waiting) : Caller :=
  match (((front s q w).popCmd q).check q w).2 with
  | .accepted r k => ⟨r, some q, w, k⟩
  | .refused _ => ⟨.anyone, some q, w, none⟩

theorem runs_of_passes {s : State} {q : CQueue} {w : Waiting} {ops : List Nat} {n : Nat} (h : passes s q w ops n = true) :
    FrontRuns (front s q w) q ops n (taken s q w) (by_ s q w) := by
  simp only [passes, Bool.and_eq_true, decide_eq_true_eq, List.contains_iff_mem, Bool.or_eq_true] at h
  obtain ⟨⟨⟨⟨⟨⟨_, h2⟩, h3⟩, h4⟩, h5⟩, h6⟩, h7⟩ := h
  cases hc : ((front s q w).popCmd q).check q w with
  | mk s1 v =>
    rw [hc] at h7
    cases v with
    | refused _ => cases h7
    | accepted r k =>
      refine ⟨w, [], r, k, ?_, (fun x hx => nomatch hx), h2, h3, h4, h5, fun h => ?_, ?_, ?_⟩
      · show (upd s.q.cmd q (fun _ => [w]))[q] = _
        simp [upd]
      · exact h6.resolve_left (fun g => g h)
      · simp only [taken, hc]
      · simp only [by_, hc]

/-- The caller of the direct window. -/
def winCaller (s : State) : Caller := ⟨s.windowRole, none, noWords, none⟩

/-- Whether a write through the direct window passes every check of R378. -/
def writable (s : State) (ws : List RegWrite) : Bool :=
  s.windowOpen && decide (s.writeRefusal s.windowRole ((ws.map (·.addr)).headD 0) ws.length = .ok) &&
    decide (s.valueStatus (roleCode s.windowRole) ((ws.map (·.addr)).headD 0 / 0x400) ws = .ok)

theorem write_of_writable {s : State} {ws : List RegWrite} (h : writable s ws = true) : WriteRuns s .window ws s (winCaller s) := by
  simp only [writable, Bool.and_eq_true, decide_eq_true_eq] at h
  exact ⟨⟨h.1.1, rfl, rfl⟩, h.1.2, h.2⟩

/-- Whether a commit through the direct window is accepted. -/
def commits (s : State) (page : Nat) : Bool :=
  s.windowOpen && decide (s.writeRefusal s.windowRole (page * 0x400 + 0x02C) 1 = .ok) && decide (s.commitStatus (roleCode s.windowRole) page = .ok)

theorem commit_of_commits {s : State} {page : Nat} (h : commits s page = true) : CommitRuns s .window page s (winCaller s) := by
  simp only [commits, Bool.and_eq_true, decide_eq_true_eq] at h
  exact ⟨⟨h.1.1, rfl, rfl⟩, h.1.2, h.2⟩

/-- The part after reset with a DEVTIME, locked to port A and aligned. -/
def clocked : State :=
  { State.reset with time := { Time.fresh with set := true, running := true, devtime := 1000, mono := 1000, grid := 1000, placed := true },
                     clk := { Clk.fresh with state := .locked, ref := some 0, settled := true, cold := false },
                     ring := { State.reset.ring with aligned := true, epoch := some 0 } }

/-- A part long after every time that runs in it began. -/
def aged (s : State) : State := { s with time := { s.time with mono := 1000000000000, devtime := 1000000000000 } }

/-- A staged value on the window's side. -/
def staging (s : State) (page : Nat) (f : Fld) (v : Nat) : State := s.stagePut (stageRole page 0x10) page f v

/-! Ill-formed commands are refused, one for each check. -/

theorem test_wf_head_op : (Instr.commandArrival 0 ⟨256, 0, 0, 0, true, none⟩).wf = false := by decide
theorem test_wf_head_len : (Instr.commandArrival 0 ⟨1, 1024, 0, 0, true, none⟩).wf = false := by decide
theorem test_wf_head_tag : (Instr.commandArrival 0 ⟨1, 0, 65536, 0, true, none⟩).wf = false := by decide
theorem test_wf_head_tenant : (Instr.commandArrival 0 ⟨1, 0, 0, 8, true, none⟩).wf = false := by decide
theorem test_wf_head_counter : (Instr.commandArrival 0 ⟨1, 3, 0, 0, true, some ⟨1, 2 ^ 64, true⟩⟩).wf = false := by decide
theorem test_wf_address : (Instr.regRead 0 0x100000 1).wf = false := by decide
theorem test_wf_count : (Instr.regRead 0 0 512).wf = false := by decide
theorem test_wf_words : (Instr.regWrite 0 0 2 [0] false).wf = false := by decide
theorem test_wf_modify : (Instr.regModify 0 0x100000 0 0 false).wf = false := by decide
theorem test_wf_plain : (Instr.plainRegisterWrite .window 0x100000 0).wf = false := by decide
theorem test_wf_pages : (Instr.commit .window 1024).wf = false ∧ (Instr.sreset .window 1024).wf = false ∧ (Instr.evtPendClear .window 1024 0).wf = false := by decide
theorem test_wf_inject : (Instr.injectArm .window 0 4 0 0).wf = false ∧ (Instr.injectArm .window 0 0 256 0).wf = false ∧ (Instr.injectArm .window 1024 0 0 0).wf = false := by decide
theorem test_wf_owner : (Instr.eventPacketSend 256 true).wf = false := by decide
theorem test_wf_group : (Instr.rdsGroup 0 0 0 0 0 false #v[false, false, false, false] #v[17, 0, 0, 0] #v[0, 0, 0, 0] 0).wf = false := by decide
theorem test_wf_amss : (Instr.amssBlock 0 3 true true 0 0 none []).wf = false := by decide
theorem test_wf_fib : (Instr.bedFib 0 ⟨12, 0, true, 0, 0, 0, []⟩).wf = false := by decide
theorem test_wf_masks : (Instr.refCheck 0 16).wf = false ∧ (Instr.reverify 16).wf = false := by decide
theorem test_wf_return : (Instr.txReturnWrite .window 4).wf = false := by decide
theorem test_wf_point : (Instr.ptSet 0 1 128 0 0 0).wf = false ∧ (Instr.ptSet 0 4 0 0 0 0).wf = false ∧ (Instr.ptSet 0 1 0 16 0 0).wf = false ∧
    (Instr.ptSet 0 1 0 0 8 0).wf = false ∧ (Instr.ptSet 0 1 0 0 0 262144).wf = false := by decide
theorem test_wf_frame : (Instr.frameReceive 0 ⟨true, 1, 1, 0, 0, false, 0, 2, 0, 0, 0, 0, 0, 1, [0]⟩).wf = false := by decide
theorem test_wf_positions : (Instr.discover 0 256 false).wf = false ∧ (Instr.assign 0 0 128).wf = false := by decide
theorem test_wf_sealed : (Instr.sxWrite (.verifierKey 0 (List.replicate 4097 0))).wf = false := by decide +kernel
theorem test_wf_bus : (Instr.twbAddressMatch 128 false).wf = false := by decide
theorem test_wf_ack : (Instr.fltLogAck .window 65536).wf = false := by decide
theorem test_wf_profile : (Instr.vendorProfile [0]).wf = false := by decide
theorem test_wf_role : (Instr.sessOpen 0 256 0 0).wf = false := by decide
theorem test_wf_stall : (Instr.stallWatchdog 0 128 true).wf = false ∧ (Instr.stallWatchdog 1024 0 true).wf = false := by decide
theorem test_wf_good : (Instr.regWrite 0 0x11440 3 [0, 0, 0] true).wf = true ∧ (Instr.frameReceive 0 ⟨true, 1, 1, 0, 0, false, 0, 1, 0, 0, 0, 0, 0, 1, [0]⟩).wf = true := by decide

theorem test_reset_idles : step State.reset = .next State.reset := rfl

theorem test_no_word_spells (n w : Nat) : decodeTableWord n w = none := rfl

/-! Witnesses: the hypotheses of each statement, met together. -/

/-- Input 3 of a clocked part with its converter in a given state. -/
def converter (c : Conv) : State := clocked.updInp 3 (fun x => { x with conv := c, pendingGain := 40, acqLeft := 4 })

theorem test_meets_GainDecisionReachesConverter :
    let s := (converter .run).updInp 3 (fun x => { x with flight := [⟨0, 41⟩] })
    let w := (converter .run).updInp 3 (fun x => { x with flight := [⟨1, 41⟩] })
    ((s.inputs[(3 : Inp)]).flight = ⟨0, 41⟩ :: [] ∧ (s.inputs[(3 : Inp)]).onRefin = false ∧ (s.inputs[(3 : Inp)]).conv = .run) ∧
    (w.inputs[(3 : Inp)]).flight = ⟨1, 41⟩ :: [] := by decide +kernel

theorem test_meets_InputTransitionsComplete :
    (((aged (converter .starting)).inputs[(3 : Inp)]).conv = .starting ∧ (((aged (converter .starting)).inputs[(3 : Inp)]).convAt + 8 * usTicks ≤ (aged (converter .starting)).time.mono)) ∧
    (((aged (converter .rateChange)).inputs[(3 : Inp)]).conv = .rateChange ∧ (((aged (converter .rateChange)).inputs[(3 : Inp)]).convAt + 2 * usTicks ≤ (aged (converter .rateChange)).time.mono)) ∧
    (let s := { (converter .run).updInp 3 (fun x => { x with rebuild := some 0 }) with time := { clocked.time with goneEpoch := some 1000, epochNo := 1 } }
     (s.inputs[(3 : Inp)]).rebuild = some 0 ∧ 0 < s.time.epochNo ∧ s.time.goneEpoch = some s.time.grid) := by decide +kernel

theorem test_meets_BoundariesTakeDueCommits :
    let s := { clocked with aud := { clocked.aud with clk := .running }, pwr := { clocked.pwr with rung := 1 } }
    let w := { s with aud := { s.aud with clk := .switching, ramping := true } }
    let e := { clocked with time := { clocked.time with goneFrame := some 524288 } }
    (s.audFrames = true ∧ s.aud.clk ≠ .switching) ∧ (w.audFrames = true ∧ w.aud.clk = .switching ∧ w.aud.ramping = true) ∧
    (e.time.goneFrame = some (e.time.next .epoch) ∧ e.captured = []) := by decide +kernel

theorem test_meets_AgcMovesGain_frame :
    let s := converter .run
    let m : Vector FrameMeas 4 := Vector.replicate 4 ⟨0, [], 0, 0, false⟩
    (s.inputs[(3 : Inp)]).conv = .run ∧ (s.inputs[(3 : Inp)]).onRefin = false ∧ s.get (pgInp 3) inpAgcMode = 0 ∧
      -25 * (s.get (pgInp 3) inpAttackTh : Int) ≤ (m[(3 : Inp)]).peak ∧ (s.inputs[(3 : Inp)]).pendingGain ≤ s.get (pgInp 3) inpGainMax ∧ s.captured = [] ∧
      0 < (s.inputs[(3 : Inp)]).acqLeft := by decide +kernel

/-- Channel 3 of a part whose input 3 runs, armed for 1000 frames with 10 before the trigger, in a state. -/
def captured3 (st : SnapState) (trig : Nat) : State :=
  { (converter .run).updSnap 3 (fun x => { x with state := st, owner := 0x10, armAt := 0, cfg := ⟨3, 1000, 10, trig, 500⟩ }) with time := { clocked.time with mono := 1024, grid := 1024 } }

/-- Stream 9 of Site for the readout of channel 3, on queue Q7. -/
def readStream (s : State) : State :=
  ((s.updStrm 9 (fun x => { x with owner := 0x10, en := true })).puts (pgStream 9) [(strmKind, 8), (strmSrcKind, 6), (strmSrc, 3), (strmQueue, 7)]).put pgAln (alnStreamId.nth 3) 9

theorem test_meets_SliceAndCaptureStepsComplete :
    let s := (converter .run).updSlc 95 (fun x => { x with use := .host, survey := true, settleLeft := 1 })
    let v : SurveyVisit := ⟨0x10, 0, 5, 0, some 95, 3⟩
    let h := { s with survey := [v] }
    let o := (captured3 .armed 2).updInp 3 (fun x => { x with ovrs := [(0, 1024)] })
    let fires := fun (k : State) => decide ((k.snaps[(3 : SnapCh)]).state = .armed) && decide ((k.inputs[(k.snaps[(3 : SnapCh)]).cfg.input]).conv = .run) && k.snapFires 3
    let r := readStream ((captured3 .reading 0).updSnap 3 (fun x => { x with frames := [List.replicate 128 0] }))
    (s.slices[(95 : Slc)]).settleLeft = 1 ∧
    fires (captured3 .armed 0) = true ∧ fires (captured3 .armed 1) = true ∧ fires o = true ∧
    (((captured3 .capturing 0).snaps[(3 : SnapCh)]).state = .capturing ∧ ((captured3 .capturing 0).snaps[(3 : SnapCh)]).toStore = 0) ∧
    (((captured3 .reading 0).snaps[(3 : SnapCh)]).state = .reading ∧ (captured3 .reading 0).snapStream 3 = none) ∧
    ((r.snaps[(3 : SnapCh)]).state = .reading ∧ r.snapStream 3 = some 9 ∧ queueOf (r.strmDef 9).queue = some 0 ∧ (r.snaps[(3 : SnapCh)]).sent < (r.snaps[(3 : SnapCh)]).words ∧
      (r.snaps[(3 : SnapCh)]).words ≤ (r.snaps[(3 : SnapCh)]).sent + 128 ∧ r.roomFor 0 ((r.snaps[(3 : SnapCh)]).words - (r.snaps[(3 : SnapCh)]).sent + 2) = true ∧
      r.keyless (r.strms[(9 : StrmId)]).owner = false) ∧
    (h.survey.find? (fun y => decide (y.slice = some 95)) = some v ∧ (h.slices[(95 : Slc)]).survey = true ∧ 1 < v.left) := by decide +kernel

/-- Slice 95 of a clocked part as a host's, with one of the demodulators. -/
def demodulating (d : Nat) : State := (clocked.updSlc 95 (fun x => { x with use := .host })).put (pgSlc 95) slcDemod d

theorem test_meets_AnalogueReceptionCompletes :
    let am := (demodulating 1).put (pgAm 95) amDet 1
    let fm := (demodulating 2).put (pgFm 95) fmRdsEn 1
    (am.demodRuns 95 = true ∧ am.demodOf 95 = 1 ∧ am.get (pgAm 95) amDet ≠ 0 ∧ am.flag (pgAm 95) amCarrierLock = false) ∧
    (am.put (pgAm 95) amCarrierLock 1).flag (pgAm 95) amCarrierLock = true ∧
    (fm.demodRuns 95 = true ∧ fm.demodOf 95 = 2 ∧ fm.flag (pgFm 95) fmPilotLock = false) ∧
    (fm.put (pgFm 95) fmPilotLock 1).flag (pgFm 95) fmPilotLock = true := by decide +kernel

theorem test_meets_AnalogueReceptionCompletes_restart :
    let s := ((converter .run).updSlc 95 (fun x => { x with use := .host, restartDue := true })).put (pgSlc 95) slcInput 3
    s.demodRuns 95 = true ∧ (s.slices[(95 : Slc)]).restartDue = true ∧ s.sliceLive 95 = true := by decide +kernel

theorem test_meets_AnalogueReceptionCompletes_rds :
    let fm := (demodulating 2).put (pgFm 95) fmRdsEn 1
    let heard := fm.updDemod 95 (fun x => { x with rds := { x.rds with last := some .d } })
    let synced := fm.updDemod 95 (fun x => { x with rds := { x.rds with sync := true, badRun := 29 } })
    let good : RdsBlk := ⟨some .a, some .a, 0, 0, true⟩
    let bad : RdsBlk := ⟨none, none, 0, 0, true⟩
    let a : GrpBlk := ⟨0xC201, 0xC201, 0, false⟩
    let b : GrpBlk := ⟨0, 0, 6, false⟩
    let max := synced.get (pgFm 95) fmCorrMax
    (heard.rdsRuns 95 = true ∧ (heard.demods[(95 : Slc)]).rds.sync = false ∧ good.valid = some .a ∧ (heard.demods[(95 : Slc)]).rds.last = some .d ∧ good.spaced = true ∧
      follows .d .a = true) ∧
    (synced.rdsRuns 95 = true ∧ (synced.demods[(95 : Slc)]).rds.sync = true ∧
      blockGood bad (synced.demods[(95 : Slc)]).rds.pos (synced.get (pgFm 95) fmCorrMax) (synced.flag (pgFm 95) fmRdsStd) = false ∧ 29 ≤ (synced.demods[(95 : Slc)]).rds.badRun) ∧
    (GrpBlk.read a max false).use = true ∧ (GrpBlk.read b max false).err = 7 ∧ synced.flag (pgFm 95) fmRdsStd = false ∧ synced.straddles 95 0 = false := by decide +kernel

theorem test_meets_AnalogueReceptionCompletes_amss :
    let am := ((demodulating 1).put (pgAm 95) amAmssEn 1).updDemod 95 (fun x => { x with amss := { x.amss with goodRun := 1 } })
    am.demodRuns 95 = true ∧ am.demodOf 95 = 1 ∧ am.flag (pgAm 95) amAmssEn = true ∧ am.straddles 95 0 = false ∧ (am.demods[(95 : Slc)]).amss.sync = false ∧ (am.demods[(95 : Slc)]).amss.goodRun = 1 := by
  decide +kernel

theorem test_meets_DrmReceptionCompletes :
    let s := (demodulating 4).updDemod 95 (fun x => { x with drm := { x.drm with synced := true, facBadRun := 6, pending := true } })
    s.drmRuns 95 = true ∧ s.straddles 95 0 = false ∧ s.drmModeOk 95 5 = true ∧ (s.demods[(95 : Slc)]).drm.facBadRun < 7 ∧ (s.demods[(95 : Slc)]).drm.synced = true ∧
      (s.demods[(95 : Slc)]).drm.pending = true ∧ (demodulating 3).drmModeOk 95 1 = true ∧ (demodulating 3).drmModeOk 95 5 = false ∧ 
    (let g := s.updSlc 95 (fun x => { x with gapTicks := 50 * msTicks })
     g.drmRuns 95 = true ∧ (g.demods[(95 : Slc)]).drm.synced = true ∧ 50 * msTicks ≤ (g.slices[(95 : Slc)]).gapTicks) := by decide +kernel

/-- Bed 11 in a state. -/
def bedIn (st : BedState) : State := clocked.updBed 11 (fun x => { x with state := st, held := .mci, goodFibs := 2, quietFrames := 25, reconf := some 7 })

theorem test_meets_BedStatesFollowTable :
    let f : Fib := ⟨10, 0, true, 0, 0, 0, []⟩
    ((bedIn .search).beds[(11 : BedId)]).state = .search ∧
    (((bedIn .sync).beds[(11 : BedId)]).state = .sync ∧ ((bedIn .sync).beds[(11 : BedId)]).goodFibs = 2 ∧ f.crcOk = true ∧ f.index ≠ 11 ∧ f.figs = []) ∧
    (((bedIn .fic).beds[(11 : BedId)]).state = .fic ∧ ((bedIn .fic).beds[(11 : BedId)]).mciDone = true ∧ ((bedIn .fic).beds[(11 : BedId)]).reconf = some 7) ∧
    ((bedIn .sync).beds[(11 : BedId)]).state.synced = true ∧ ((bedIn .mci).beds[(11 : BedId)]).state.synced = true ∧
    ((bedIn .hold).beds[(11 : BedId)]).state = .hold ∧ ((aged (bedIn .hold)).beds[(11 : BedId)]).state = .hold ∧
    ((aged (bedIn .hold)).beds[(11 : BedId)]).gapStart + 50 * msTicks ≤ (aged (bedIn .hold)).time.mono := by decide +kernel

/-- Decoder 23 in a state, its source subchannel 5 of bed 11, which carries DAB+. -/
def decoderIn (st : DecState) : State :=
  (((bedIn .mci).updBed 11 (fun x => { x with curSubch := [⟨5, true, 0, 48, 2⟩], curSvcs := [⟨0xC221, false, ⟨5, 0, 63, 0⟩, 1, []⟩] })).updDec 23
    (fun x => { x with state := st, owner := 0x10 })).puts pgDec [(decEn.nth 23, 1), (decSrcKind.nth 23, 1), (decSrc.nth 23, 11), (decSubch.nth 23, 5)]

theorem test_meets_DecoderStatesFollowTable :
    let s := decoderIn .wait
    let f : AudioFrame := ⟨false, 24, 2, 48, 2, true, 64, 0, 0, [(1, 2)], 0⟩
    ((s.decs[(23 : DecId)]).state = .wait ∧ s.decFound (s.decSource 23) = some (2, false) ∧ (s.decSource 23).codec = 0) ∧
    (((decoderIn .sync).decs[(23 : DecId)]).state = .sync ∧ f.bad = false ∧ (decoderIn .sync).decStarved 23 = false) ∧
    (((decoderIn .run).decs[(23 : DecId)]).state = .run ∧ { f with bad := true }.bad = true) ∧
    (let c := (decoderIn .conceal).updDec 23 (fun x => { x with concealMs := 10000 })
     (c.decs[(23 : DecId)]).state = .conceal ∧ c.concealMax 23 ≤ (c.decs[(23 : DecId)]).concealMs) := by decide +kernel

theorem test_meets_CommitCapturesOrApplies :
    let s := staging clocked (pgInp 3) inpGainCode 40
    let d := staging clocked pgDec (decConcealMax.nth 23) 9
    let p := staging clocked (pgSlc 95) slcBin 7
    let b := staging clocked (pgBed 11) bedBin 7
    (commits s (pgInp 3) = true ∧ s.stagedOf (pgInp 3) 0 ≠ [] ∧ kindCode (pgInp 3) = 1) ∧ (commits d pgDec = true ∧ d.stagedOf pgDec 0x10 ≠ []) ∧
    (commits clocked pgSieve = true ∧ kindCode pgSieve = 2) ∧ (commits p (pgSlc 95) = true ∧ kindCode (pgSlc 95) = 3) ∧
    (commits b (pgBed 11) = true ∧ kindCode (pgBed 11) = 4) := by decide +kernel

theorem test_meets_RefusedCommitKeepsStaged :
    let s := staging { clocked with captured := [⟨pgInp 3, 0, 1000, 1024, []⟩] } (pgInp 3) inpGainCode 40
    (s.windowOpen = true ∧ s.writeRefusal s.windowRole (pgInp 3 * 0x400 + 0x02C) 1 = .ok ∧ s.pendingCommit (pgInp 3) (stageRole (pgInp 3) (roleCode s.windowRole)) = true ∧
      s.commitStatus (roleCode s.windowRole) (pgInp 3) = .notReady) ∧
    State.reset.commitStatus 0x10 (pgInp 3) = .notReady ∧
    (staging clocked (pgInp 3) inpGainCode 127).commitStatus 0x10 (pgInp 3) = .badArg := by decide +kernel

/-- A commit of the ALN page that arms channel 3 for 1000 frames. -/
def arming : State :=
  (staging (staging (converter .run) pgAln (alnFrames.nth 3) 1000) pgAln (alnInput.nth 3) 3)

theorem test_meets_ChannelCommitsTakeEffect :
    let a := staging arming pgAln (alnArm.nth 3) 1
    let h := captured3 .held 0
    let d := staging h pgAln (alnDiscard.nth 3) 1
    let r := staging (readStream h) pgAln (alnRead.nth 3) 1
    (commits a pgAln = true ∧ a.snapStages 0x10 3 alnArm = true ∧ a.snapStages 0x10 0 alnArm = false) ∧
    (commits d pgAln = true ∧ d.snapStages 0x10 3 alnDiscard = true ∧ d.snapStages 0x10 3 alnArm = false) ∧
    (commits r pgAln = true ∧ r.snapStages 0x10 3 alnRead = true ∧ r.snapStages 0x10 3 alnArm = false ∧ r.snapStages 0x10 3 alnDiscard = false) := by decide +kernel

theorem test_meets_DecoderCommitsTakeEffect :
    let e := staging clocked pgDec (decEn.nth 23) 1
    let e := staging (staging (staging e pgDec (decSrcKind.nth 23) 1) pgDec (decSrc.nth 23) 11) pgDec (decSubch.nth 23) 5
    let d := staging (decoderIn .run) pgDec (decEn.nth 23) 0
    (commits e pgDec = true ∧ e.decStaged 0x10 23 = true ∧ (e.decWanted 0x10 23).1 = true ∧ (e.decs[(23 : DecId)]).state = .idle) ∧
    (commits d pgDec = true ∧ d.decStaged 0x10 23 = true ∧ (d.decWanted 0x10 23).1 = false) := by decide +kernel

/-- Slot 31 enabled, its identity PI C201. -/
def slotOn : State :=
  (clocked.updSlot 31 (fun x => { x with state := .acquiring, owner := 0x10 })).puts (pgSvc 31) [(pgEn, 1), (svcEn, 1), (svcPi, 0xC201)]

theorem test_meets_SlotCommitsTakeEffect :
    let e := staging (staging clocked (pgSvc 31) pgEn 1) (pgSvc 31) svcEn 1
    let d := staging slotOn (pgSvc 31) pgEn 0
    let w : Word := 0x80000000 ||| 100000
    let ws : List RegWrite := [⟨candKey 31 11, w, BitVec.allOnes 32⟩]
    (commits e (pgSvc 31) = true ∧ e.svcEnables 31 = true) ∧
    (commits d (pgSvc 31) = true ∧ d.stgGet 0 (pgSvc 31) pgEn = 0 ∧ (d.slots[(31 : SvcId)]).state ≠ .off) ∧
    (writable slotOn ws = true ∧ (slotOn.writeReg 0x10 ⟨candKey 31 11, w, BitVec.allOnes 32⟩).commitStatus 0x10 (pgSvc 31) = .ok ∧
      entryValid w = true ∧ stdOf (fieldOf w 28 26) = some .fm ∧ (slotOn.slots[(31 : SvcId)]).state ≠ .off ∧ slotOn.stgGet 0 (pgSvc 31) pgEn = 1) := by decide +kernel

theorem test_meets_StreamCommitsTakeEffect :
    let o := clocked.updStrm 0 (fun x => { x with owner := 0x10 })
    let a := staging (staging (staging o pgStrm strmEn_044 1) pgStrm strmKind 3) pgStrm strmQueue 7
    let f := staging (o.puts (pgStream 0) [(strmKind, 3), (strmQueue, 7)]) pgStrm strmKind 0
    let b := staging clocked pgStrm strmHold 5
    let q := staging clocked pgStrm (strmQreset.nth 8) 1
    (a.strmStaged 0x10 = true ∧ (a.strmWanted 0x10).kind = 3 ∧ a.commitStatus 0x10 pgStrm = .ok) ∧
    (f.strmStaged 0x10 = true ∧ (f.strmWanted 0x10).kind = 0 ∧ f.commitStatus 0x10 pgStrm = .ok) ∧
    (commits b pgStrm = true ∧ b.bundStaged 0x10 = true ∧ (b.bundWanted 0x10).1 = false) ∧
    (commits q pgStrm = true ∧ (q.staged? 0x10 (keyOf pgStrm (strmTc.nth 8))).map (fun w => fieldOf w 8 8) = some 1) := by decide +kernel

theorem test_meets_CalibrationCommandsTakeEffect :
    let r := staging (staging (staging (converter .run) pgCal calOp 1) pgCal calInputs 8) pgCal calFreq 50000
    let a := staging clocked pgCal calOp 3
    (commits r pgCal = true ∧ r.stgGet 0 pgCal calOp = 1) ∧ (commits a pgCal = true ∧ a.stgGet 0 pgCal calOp = 3) ∧
    (clocked.applyWords [(keyOf pgCal calOp, 1)]).get pgCal calOp = 1 ∧ (clocked.applyWords [(keyOf pgCal calOp, 3)]).get pgCal calOp = 3 := by decide +kernel

theorem test_meets_SoundingCommitsTakeEffect :
    let d := staging (staging clocked pgSnd sndDesig 1) pgSnd sndSlice 95
    let p := staging clocked pgSnd (sndLo.nth 0) 2000
    (commits d pgSnd = true ∧ d.goStaged = false ∧ (d.staged? 0 (keyOf pgSnd sndDesig)).isSome = true) ∧ p.profileStaged = true ∧ commits p pgSnd = true ∧ p.goStaged = false := by decide +kernel

/-- A load bank whose header is right, all else zero. -/
def loading : State := (staging clocked pgCal calOp 2).setReg (calKey 1 0) 0xCA1B0100

theorem crc32_lt (l : List Byte) : crc32 l < 2 ^ 32 := by
  have bitLt : ∀ (c : Nat) (b : Bool), c < 2 ^ 32 → crc32Bit c b < 2 ^ 32 := fun c b h => by
    unfold crc32Bit
    split
    · exact Nat.xor_lt_two_pow (by omega) (by decide)
    · omega
  have byteLt : ∀ (b : Byte) (n : List Nat) (c : Nat), c < 2 ^ 32 → n.foldl (fun c i => crc32Bit c (b.getLsbD i)) c < 2 ^ 32 := fun b n => by
    induction n with
    | nil => exact fun c h => h
    | cons x n ih => exact fun c h => ih _ (bitLt _ _ h)
  have allLt : ∀ (l : List Byte) (c : Nat), c < 2 ^ 32 → l.foldl (fun c b => (List.range 8).foldl (fun c i => crc32Bit c (b.getLsbD i)) c) c < 2 ^ 32 := fun l => by
    induction l with
    | nil => exact fun c h => h
    | cons x l ih => exact fun c h => ih _ (byteLt _ _ _ h)
  exact Nat.xor_lt_two_pow (allLt l _ (by decide)) (by decide)

theorem loading_op (w : Word) : (loading.setReg (calKey 1 511) w).stgGet 0 pgCal calOp = 2 := by
  have hr : (loading.setReg (calKey 1 511) w).reg (keyOf pgCal calOp) = loading.reg (keyOf pgCal calOp) := reg_setReg_ne _ _ _ _ (by decide)
  have hs : (loading.setReg (calKey 1 511) w).staged? 0 (keyOf pgCal calOp) = loading.staged? 0 (keyOf pgCal calOp) := rfl
  have hw : loading.staged? 0 (keyOf pgCal calOp) = some 2 := by decide +kernel
  simp only [State.stgGet, State.stg, hs, hr, hw]
  decide +kernel

theorem loading_status (w : Word) (h : w.toNat = crc32 ((loading.calBankWords 1 511).flatMap wordBytes)) : (loading.setReg (calKey 1 511) w).calStatus = .ok := by
  have h1 : (loading.setReg (calKey 1 511) w).calBankWords 1 511 = loading.calBankWords 1 511 :=
    List.map_congr_left fun k hk => reg_setReg_ne _ _ _ _ (by simp only [List.mem_range] at hk; simp only [calKey]; omega)
  have h3 : (loading.setReg (calKey 1 511) w).reg (calKey 1 0) = loading.reg (calKey 1 0) := reg_setReg_ne _ _ _ _ (by decide)
  have h4 : (loading.setReg (calKey 1 511) w).reg (calKey 1 3) = loading.reg (calKey 1 3) := reg_setReg_ne _ _ _ _ (by decide)
  have h6 : (loading.setReg (calKey 1 511) w).stagedInRange pgCal 0 = loading.stagedInRange pgCal 0 := rfl
  have h7 : (loading.setReg (calKey 1 511) w).fuse = loading.fuse := rfl
  simp only [State.calStatus, h1, reg_setReg_self, h, h3, h4, loading_op, h6, h7, ne_eq, not_true_eq_false, if_false, if_true, show (2 = 1) = False from by decide]
  decide +kernel

theorem test_meets_CalibrationCommandsTakeEffect_load (w : Word) (h : w.toNat = crc32 ((loading.calBankWords 1 511).flatMap wordBytes)) :
    commits (loading.setReg (calKey 1 511) w) pgCal = true ∧ (loading.setReg (calKey 1 511) w).stgGet 0 pgCal calOp = 2 := by
  have e : (loading.setReg (calKey 1 511) w).pageStatus (roleCode (loading.setReg (calKey 1 511) w).windowRole) pgCal = .ok := loading_status w h
  have g : (loading.setReg (calKey 1 511) w).goStatus pgCal = .ok ∧ (loading.setReg (calKey 1 511) w).profileSpace pgCal = .ok := ⟨rfl, rfl⟩
  refine ⟨?_, loading_op w⟩
  simp only [commits, State.commitStatus, e, g.1, g.2]
  rfl

theorem toNat_ofNat_of_lt (n : Nat) (h : n < 2 ^ 32) : (BitVec.ofNat 32 n).toNat = n := by
  rw [BitVec.toNat_ofNat, Nat.mod_eq_of_lt h]

/-- The checksum that the bank calls for is such a word. -/
theorem test_meets_CalibrationCommandsTakeEffect_word :
    (BitVec.ofNat 32 (crc32 ((loading.calBankWords 1 511).flatMap wordBytes))).toNat = crc32 ((loading.calBankWords 1 511).flatMap wordBytes) :=
  toNat_ofNat_of_lt _ (crc32_lt _)

/-- A part with a profile of one window, a position, and a packet of 10 bytes staged with GO. -/
def going : State :=
  let s := { clocked with ring := { clocked.ring with pos := some 5 } }.puts pgSnd [(sndWindows, 1), (sndLo.nth 0, 2000), (sndHi.nth 0, 100000), (sndMaxLevel, 500), (sndMaxDuty, 1000), (sndTxFreq, 50000), (sndHalfbw, 100),
    (sndLevel, 100), (sndType, 2), (sndLen, 10)]
  staging s pgSnd sndGo 1

theorem test_meets_SoundingCommitsTakeEffect_request :
    commits going pgSnd = true ∧ going.goStaged = true ∧ going.sndApply.txRefused going.sndApply.txFields = none ∧ going.sndApply.txDeferred = false := by
  decide +kernel

theorem queue_free {s : State} (h : s.strms = Vector.replicate 512 Strm.fresh) (q : SQueue) : s.queueUsed q = false := by
  simp [State.queueUsed, h, Strm.fresh]

/-- A row of the SEC page staged. -/
def rowed : State := staging clocked pgSec (secSlots.nth 0) 1

theorem rowed_status : rowed.secStatus = .ok := by
  have h1 : rowed.rowsBusy = false := by
    simp only [State.rowsBusy, queue_free (s := rowed) (by rfl), Bool.false_and]
    decide +kernel
  have h2 : rowed.sharesBusy = false := by decide +kernel
  simp only [State.secStatus, h1, h2]
  decide +kernel

theorem test_meets_RowCommitTakesEffect : commits rowed pgSec = true ∧ rowed.stagedOf pgSec 0 ≠ [] := by
  have e : rowed.pageStatus (roleCode rowed.windowRole) pgSec = .ok := rowed_status
  simp only [commits, State.commitStatus, e]
  decide +kernel

theorem test_meets_PlainWriteFollowsClasses :
    let key := pgInp 3 * 0x400 + 0x054
    writable clocked [⟨key, 9, BitVec.allOnes 32⟩] = true ∧ clocked.writeKey 0x10 key = some key ∧ (rowOf key).isSome = true ∧
      kindOfPage (key / 0x400) = some .inp ∧ key % 0x400 ≠ 0x008 ∧ key % 0x400 ≠ 0x02C ∧ roleCode clocked.windowRole = 0x10 := by decide +kernel

/-- The state and the caller of a register command of Site that came through the mailbox. -/
def mailed (s : State) (op len : Nat) : State := taken s 0 (plain op len)

theorem test_meets_WriteCommandsTakeEffect :
    let addr := pgInp 3 * 0x400 + 0x050
    let ws : List RegWrite := (List.range 2).map (fun i => ⟨addr + 4 * i, [0x0A080204, 9].getD i 0, BitVec.allOnes 32⟩)
    let s1 := mailed clocked 0x02 (dataWords 2)
    let s2 := ws.foldl (fun s w => s.writeReg 0x10 w) s1
    passes clocked 0 (plain 0x02 (dataWords 2)) [0x02] (dataWords 2) = true ∧ (by_ clocked 0 (plain 0x02 (dataWords 2))).role = .site ∧
      s1.writeRefusal .site addr 2 = .ok ∧ s1.valueStatus 0x10 (addr / 0x400) ws = .ok ∧ kindOfPage (addr / 0x400) = some .inp ∧ 0x040 ≤ addr % 0x400 ∧
      kindCode (addr / 0x400) = 1 ∧ s2.commitStatus 0x10 (addr / 0x400) = .ok := by decide +kernel

theorem test_meets_WriteCommandsTakeEffect_modify :
    let addr := pgLnk * 0x400 + 0x01C
    let s1 := mailed clocked 0x03 1
    passes clocked 0 (plain 0x03 1) [0x03] 1 = true ∧ (by_ clocked 0 (plain 0x03 1)).role = .site ∧ s1.writeRefusal .site addr 1 = .ok ∧
      s1.valueStatus 0x10 (addr / 0x400) [⟨addr, 1, 1⟩] = .ok ∧ (rowOf addr).isSome = true ∧ stageMask addr = 0 ∧ isCandKey addr = false ∧
      kindOfPage (addr / 0x400) = some .lnk := by decide +kernel

theorem test_meets_ReadsAnswerAndClear :
    let w := onRing 0x01 0
    let s1 := taken clocked 1 w
    passes clocked 1 w [0x01] 0 = true ∧ (by_ clocked 1 w).ses = none ∧ (by_ clocked 1 w).w.bus = false ∧ (by_ clocked 1 w).role = .anyone ∧
      s1.readRefusal .anyone 0 1 = .ok ∧ s1.readRefusal .anyone (pgSec * 0x400 + 0x040) 1 = .accessDenied ∧
      (let m := mailed clocked 0x01 0
       let key := pgDec * 0x400 + 0x054
       passes clocked 0 (plain 0x01 0) [0x01] 0 = true ∧ m.readRefusal .site key 1 = .ok ∧ m.present (key / 0x400) = true ∧ m.resolve 0x10 false key = some key ∧
         (rowOf key).isSome = true ∧ kindOfPage (key / 0x400) = some .dec) := by decide +kernel

theorem test_meets_HeaderWritesTakeEffect :
    let p := pgInp 3 * 0x400
    let a : RegWrite := ⟨p + 0x020, place 31 30 1 ||| place 7 0 1, BitVec.allOnes 32⟩
    let b : RegWrite := ⟨p + 0x024, place 31 0 5, BitVec.allOnes 32⟩
    let s2 := clocked.writeOne .window (p + 0x024) (place 31 0 5)
    (writable clocked [⟨p + 0x008, 2, 2⟩] = true ∧ (rowOf (p + 0x008)).isSome = true) ∧
    (writable clocked [⟨p + 0x018, 1, BitVec.allOnes 32⟩] = true ∧ (rowOf (p + 0x018)).isSome = true) ∧ (rowOf (p + 0x020)).isSome = true ∧
    (passes clocked 0 (plain 0x02 1) writeOps 1 = true ∧ (mailed clocked 0x02 1).writeRefusal .site (p + 0x020) 2 = .ok ∧
      (mailed clocked 0x02 1).valueStatus 0x10 (pgInp 3) [a, b] = .ok) ∧
    writable clocked [b] = true ∧ writable s2 [a] = true := by decide +kernel

theorem test_meets_SystemRegisterWrites :
    let all := BitVec.allOnes 32
    let busy := { clocked with pwr := { clocked.pwr with busy := true } }
    let low := { clocked with pwr := { clocked.pwr with rung := 2 } }
    let up := (clocked.put (pgPort 1) prtEn 1)
    (writable clocked [⟨keyOf pgPwr pwrTarget, 5, all⟩] = true ∧ clocked.temps.shutdown = false ∧ clocked.pwr.busy = false ∧ fieldOf (5 : Word) 2 0 ≠ clocked.pwr.rung ∧
      clocked.pwr.rung ≤ 2) ∧
    (writable busy [⟨keyOf pgPwr pwrTarget, 1, all⟩] = true ∧ busy.pwr.busy = true) ∧
    (writable low [⟨keyOf pgPwr pwrTarget, 0, all⟩] = true ∧ low.pwr.rung ≤ 2 ∧ fieldOf (0 : Word) 2 0 < low.pwr.rung) ∧
    (let d := { clocked with pwr := { clocked.pwr with rung := 4 } }
     let u := mailed d 0x02 1
     passes d 0 (plain 0x02 1) writeOps 1 = true ∧ u.writeRefusal .site (keyOf pgPwr pwrTarget) 1 = .ok ∧ u.valueStatus 0x10 pgPwr [⟨keyOf pgPwr pwrTarget, 0, all⟩] = .ok ∧
       u.valueStatus 0x10 pgPwr [⟨keyOf pgPwr pwrTarget, 5, all⟩] = .ok ∧ u.pwr.busy = false ∧ u.pwr.rung = 4 ∧ u.temps.shutdown = false) ∧
    writable clocked [⟨pgPwr * 0x400 + 0x048, 0x28401032, all⟩] = true ∧ writable clocked [⟨keyOf pgSnd sndMaskClear, place 31 31 1, maskOf 31 31⟩] = true ∧
    (writable clocked [⟨keyOf pgSnd sndReturn, place 1 0 2, maskOf 1 0⟩] = true ∧ writable clocked [⟨keyOf pgSnd sndReturn, place 1 0 1, maskOf 1 0⟩] = true) ∧
    (writable up [⟨keyOf (pgPort 1) prtEn, place 31 31 0, maskOf 31 31⟩] = true ∧ up.get (pgPort 1) prtEn = 1) ∧
    writable clocked [⟨keyOf pgFlt fltLogAck, place 15 0 65535, all⟩] = true ∧
    (writable clocked [⟨keyOf pgPmb (pmbAddr.nth 3), 0x00400000, all⟩] = true ∧ fieldOf (0x00400000 : Word) 22 16 ≠ clocked.get pgPmb (pmbAddr.nth 3)) := by decide +kernel

theorem test_meets_WindowAccessesMoveOn :
    let all := BitVec.allOnes 32
    let s := clocked.puts pgCal [(calBank, 1), (calIdx, 511)]
    let m := mailed s 0x01 0
    (writable s [⟨keyOf pgCal calWinData, 7, all⟩] = true ∧ s.get pgCal calBank = 1 ∧ s.get pgCal calIdx = 511) ∧
    (s.windowOpen = true ∧ s.readRefusal s.windowRole (keyOf pgCal calWinData) 1 = .ok) ∧
    (passes s 0 (plain 0x01 0) [0x01] 0 = true ∧ m.readRefusal .site (keyOf pgCal calWinData) 1 = .ok ∧ m.readRefusal .site (keyOf pgSnd sndFirData) 1 = .ok ∧
      m.fuse.variant.sounding = true) ∧
    (writable clocked [⟨keyOf pgSnd sndFirData, 7, all⟩] = true ∧ clocked.readRefusal clocked.windowRole (keyOf pgSnd sndFirData) 1 = .ok ∧
      clocked.fuse.variant.sounding = true) ∧
    (writable clocked [⟨keyOf pgTwb twbMboxIn, 7, all⟩] = true ∧ clocked.twb.inWords.length + 1 < 4) ∧
    clocked.readRefusal clocked.windowRole (keyOf pgTwb twbMboxOut) 1 = .ok ∧
    (passes clocked 0 (onRing 0x01 0) [0x01] 0 = true ∧ (taken clocked 0 (onRing 0x01 0)).readRefusal (by_ clocked 0 (onRing 0x01 0)).role (keyOf pgTwb twbMboxOut) 1 = .ok) := by
  decide +kernel

theorem test_meets_WindowAccessesMoveOn_packet :
    let s := { clocked with twb := { clocked.twb with inWords := [0xF2000007, 0, 0] } }
    let h := headOf (quadsOf (s.twb.inWords ++ [0])) true
    writable s [⟨keyOf pgTwb twbMboxIn, 0, BitVec.allOnes 32⟩] = true ∧ s.twb.inWords.length + 1 = 4 * (h.len + 1) ∧ s.servesOp h.op = true ∧ s.mboxQueue = 0 ∧
      (s.recentTags 0).any (fun t => t.tag = h.tag) = false ∧ (s.q.cmd[(0 : CQueue)]).length < 32 ∧ queueOps 0 h.op = true := by decide +kernel

theorem test_meets_ResetAndBoot :
    ({ State.reset with boot := .held } : State).boot = .held ∧ ({ State.reset with boot := .booting } : State).boot = .booting := by decide

/-- A part that has accepted TAG 7 on Q1, with 32 packets waiting there. -/
def crowded : State := { clocked with q := { clocked.q with cmd := upd clocked.q.cmd 1 (fun _ => List.replicate 32 (onRing 0x01 0)), seen := upd clocked.q.seen 1 (fun _ => [⟨7, 900⟩]) } }

theorem test_meets_PacketsArriveAndLeave :
    let g : EvtWord := ⟨0x10, 0x13, 1, 1000⟩
    let s := { clocked with q := { clocked.q with gather := [g] } }
    (crowded.boot = .complete ∧ crowded.pwr.rung ≤ 1 ∧ (crowded.recentTags 1).any (fun t => t.tag = 7) = true ∧
      (crowded.recentTags 1).any (fun t => t.tag = 8) = false ∧ 32 ≤ (crowded.q.cmd[(1 : CQueue)]).length) ∧
    ((crowded.recentTags 2).any (fun t => t.tag = 7) = false ∧ (crowded.q.cmd[(2 : CQueue)]).length < 32 ∧ queueOps 2 0x01 = true) ∧
    s.q.gather.filter (fun e => e.to_ = 0x10) = g :: [] := by decide +kernel

/-- A slot with candidates 0 to 2 in states, the first active. -/
def slotWith (a b c : CandState) : State :=
  ((slotOn.updCand 31 0 (fun x => { x with state := a })).updCand 31 1 (fun x => { x with state := b })).updCand 31 11 (fun x => { x with state := c })

theorem test_meets_CandidateTimersMove :
    let s := aged ((slotWith .active .watched .failed).updCand 31 1 (fun x => { x with since := some 0 }))
    let y := (s.put (pgSvc 31) svcIdByAudio 1).updCand 31 1 (fun x => { x with audioAt := some 0 })
    let a := (aged (slotWith .active .aligned .standby)).put (pgSvc 31) svcLoudEn 1
    let f := a.updSlot 31 (fun x => { x with filling := some 1 })
    let m := a.updSlot 31 (fun x => { x with standby := some 11 })
    ((s.slots[(31 : SvcId)]).state ≠ .off ∧ ((s.slots[(31 : SvcId)]).cands[(1 : CandId)]).state = .watched ∧ s.come (s.giveUpAt 31 1) = true ∧ y.come (y.giveUpAt 31 1) = true ∧ y.byAudio 31 1 = true) ∧
    (((s.slots[(31 : SvcId)]).cands[(11 : CandId)]).state = .failed ∧ ((s.slots[(31 : SvcId)]).cands[(11 : CandId)]).block = false ∧
      ((s.slots[(31 : SvcId)]).cands[(11 : CandId)]).failedAt + s.get (pgSvc 31) svcFailRetry * secTicks ≤ s.time.mono) ∧
    (a.flag (pgSvc 31) svcLoudEn = true ∧ ((a.slots[(31 : SvcId)]).cands[(1 : CandId)]).state = .aligned ∧ ((a.slots[(31 : SvcId)]).cands[(11 : CandId)]).state = .standby ∧
      ((a.slots[(31 : SvcId)]).cands[(1 : CandId)]).alignedAt + 3 * secTicks ≤ a.time.mono) ∧
    (f.slots[(31 : SvcId)]).filling = some 1 ∧ f.lineFull 31 1 = true ∧ ((m.slots[(31 : SvcId)]).filling = none ∧ (m.slots[(31 : SvcId)]).standby = some 11 ∧ m.lineFull 31 11 = true) := by decide +kernel

theorem test_meets_SwitchesComplete :
    let z : Splice := ⟨11, 2000, 0, false⟩
    let s := (slotWith .active .aligned .standby).updSlot 31 (fun x => { x with splice := some z, active := some 0, concealFrom := some 900 })
    let c := aged s
    let e := s.updSlot 31 (fun x => { x with splice := some { z with started := true } })
    ((s.slots[(31 : SvcId)]).splice = some z ∧ z.started = false ∧ z.at_ ≤ s.time.mono + 1280000) ∧ ((e.slots[(31 : SvcId)]).splice = some { z with started := true } ∧ (e.slots[(31 : SvcId)]).active = some 0 ∧ z.at_ + z.blend ≤ e.time.mono + 1280000) ∧
    ((c.slots[(31 : SvcId)]).concealFrom = some 900 ∧ (c.slots[(31 : SvcId)]).playing = some 0 ∧ 900 + 48 * msTicks ≤ c.time.mono) := by
  decide +kernel

/-- Slot 31 with two candidates verified on bed 11, the first of which has the trial decoder. -/
def trying : State :=
  let c := fun (x : Cand) => { x with std := .dab, state := .verified, rx := .bed 11, subch := 5, since := some 0 }
  (((aged slotOn).updCand 31 1 c).updCand 31 2 c).updCand 31 1 (fun x => { x with dec := some 23, ownDec := true }) |>.updSlot 31 (fun x => { x with trial := some 1, ticks := 300, linkLost := some 5 })

theorem trying_list : trying.trialList 31 = [1, 2] := by
  have h : allCands.filter (fun n => let c := (trying.slots[(31 : SvcId)]).cands[n]
      decide (c.state = .verified) && stdDigital c.std && (c.dec.isNone || c.ownDec)) = [1, 2] := by decide +kernel
  have g : trying.rank 31 1 = trying.rank 31 2 := by decide +kernel
  simp only [State.trialList, h, List.mergeSort, List.MergeSort.Internal.splitInTwo]
  simp [g]

theorem test_meets_LearnedAndTrialMove :
    ((trying.slots[(31 : SvcId)]).trial = some 1 ∧ (((trying.trialList 31).dropWhile (fun x => x ≠ 1)).drop 1 ++ trying.trialList 31).head? = some 2 ∧ (2 : CandId) ≠ 1 ∧
      ((trying.slots[(31 : SvcId)]).cands[(1 : CandId)]).dec = some 23 ∧ ((trying.slots[(31 : SvcId)]).cands[(1 : CandId)]).state = .verified ∧
      (((trying.slots[(31 : SvcId)]).cands[(2 : CandId)]).decSrc).isSome = true ∧ (trying.slots[(31 : SvcId)]).trialSince + 300 ≤ (trying.slots[(31 : SvcId)]).ticks) ∧
    ((trying.slots[(31 : SvcId)]).linkLost = some 5 ∧ 5 + 5 * secTicks ≤ trying.time.mono) := by
  rw [trying_list]
  decide +kernel

/-- Stream 511 of Site, enabled, of a kind, on queue 15 (Q15). -/
def streaming (kind srcKind : Nat) : State :=
  (clocked.updStrm 511 (fun x => { x with owner := 0x10, en := true, nextPeriod := 2560000 })).puts (pgStream 511)
    [(strmEn_044, 1), (strmKind, kind), (strmQueue, 15), (strmSrcKind, srcKind)]

/-- A part at the end of the period that stream 511 forms next. -/
def atPeriodEnd (s : State) : State := { s with time := { s.time with mono := 4000000, grid := 4000000, devtime := 4000000 } }

theorem test_meets_PacketPeriodsForm :
    let s := (atPeriodEnd (streaming 1 1)).updSlc 0 (fun x => { x with use := .host, valid := [2560000] })
    let x := s.strms[(511 : StrmId)]
    let d := s.strmDef 511
    (x.owner = 0x10 ∧ s.time.set = true ∧ sampledKind d.kind = true ∧ x.late = 0 ∧ x.formsAt x.nextPeriod = true ∧ s.periodDue d x.nextPeriod ≤ s.time.mono) ∧
    (d.bundled = false ∧ queueOf d.queue = some 8 ∧ s.roomFor 8 (kindLen d.kind + bit (tenantOwned x.owner) + 1) = true ∧ tenantOwned x.owner = false) ∧
    (s.sourceThere d = true ∧ s.iqThere d x.nextPeriod = true ∧ x.mulchNext = false ∧ d.kind ≠ 4) ∧ (atPeriodEnd (streaming 1 1)).sourceThere d = false ∧
    (s.updStrm 511 (fun y => { y with mulchNext := true })).strms[(511 : StrmId)].mulchNext = true ∧
    (let l := s.updStrm 511 (fun y => { y with late := 1 }); 0 < (l.strms[(511 : StrmId)]).late) ∧
    (let o := streaming 1 1; (o.strms[(511 : StrmId)]).late = 0 ∧ o.time.mono < o.periodDue (o.strmDef 511) (o.strms[(511 : StrmId)]).nextPeriod) ∧
    (let e := s.updStrm 511 (fun y => { y with en := false, ending := some 5 }); (e.strms[(511 : StrmId)]).formsAt (e.strms[(511 : StrmId)]).nextPeriod = false) := by decide +kernel

theorem test_meets_PacketPeriodsForm_others :
    let m := atPeriodEnd (streaming 7 1)
    let d := ((streaming 5 2).updSlc 0 (fun x => { x with use := .host })).put (pgDrm 0) (drmValid_0e0.nth 0) 1
    let r := (readStream ((captured3 .reading 0).updSnap 3 (fun x => { x with frames := List.replicate 8 (List.replicate 128 0) })))
    ((m.strms[(511 : StrmId)]).formsAt (m.strms[(511 : StrmId)]).nextPeriod = true ∧ (m.strmDef 511).kind = 7 ∧
      (m.strms[(511 : StrmId)]).nextPeriod + (m.strmDef 511).sub * 1280000 ≤ m.time.mono) ∧
    ((d.strms[(511 : StrmId)]).en = true ∧ (d.strmDef 511).kind = 5 ∧ (d.strmDef 511).srcKind = 2 ∧ slcOf (d.strmDef 511).src = some 0 ∧
      d.get (pgDrm 0) (drmValid_0e0.nth (d.strmDef 511).sub) = 1 ∧ d.keyless (d.strms[(511 : StrmId)]).owner = false) ∧
    (r.time.set = true ∧ (r.strms[(9 : StrmId)]).owner = 0x10 ∧ (r.strmDef 9).kind = 8 ∧ (r.strmDef 9).src = 3 ∧ (r.snaps[(3 : SnapCh)]).state = .reading ∧ r.snapStream 3 = some 9 ∧
      queueOf (r.strmDef 9).queue = some 0 ∧ (r.snaps[(3 : SnapCh)]).sent < (r.snaps[(3 : SnapCh)]).words ∧
      r.roomFor 0 (min 128 ((r.snaps[(3 : SnapCh)]).words - (r.snaps[(3 : SnapCh)]).sent) + 2) = true) := by decide +kernel

theorem members_of {s : State} (h : ∀ i : StrmId, (s.strms[i]).en = false) (b : BundId) : s.sampledMembers b = [] := by
  simp only [State.sampledMembers, List.filter_eq_nil_iff]
  intro a _
  rw [h a]
  simp

/-- Bundle 63 of Site, open, its one member one sampled stream that is enabled. -/
def bundling : State :=
  let s := (aged (streaming 1 1)).put (pgStream 511) strmBundled 1
  (s.put (pgStream 511) strmBundle 63).updBund 63 (fun x => { x with owner := 0x10, period := 2560000 })

theorem test_meets_BundlesRelease :
    let s := clocked.updBund 63 (fun x => { x with owner := 0x10 })
    let e := { s with time := { s.time with mono := 1280000 } }
    (s.bunds[(63 : BundId)]).owner ≠ 0 ∧ (s.sampledMembers 63).all (s.memberReady 63) = true ∧ (e.bunds[(63 : BundId)]).period + 1280000 ≤ e.time.mono ∧
      (let a := aged s; (a.bunds[(63 : BundId)]).owner ≠ 0 ∧ a.bundleDeadline 63 ≤ a.time.mono) ∧ e.time.mono < (e.put (pgBundle 63) strmHold 5).bundleDeadline 63 := by
  have h : (clocked.updBund 63 (fun x => { x with owner := 0x10 })).sampledMembers 63 = [] := members_of (fun i => by simp [State.updBund, clocked, State.reset, State.fresh, Strm.fresh]) 63
  simp only [h]
  decide +kernel

theorem test_meets_BundlesRelease_late :
    (bundling.bunds[(63 : BundId)]).owner ≠ 0 ∧ bundling.bundleDeadline 63 ≤ bundling.time.mono ∧ (bundling.sampledMembers 63).all (bundling.memberReady 63) = false ∧ (bundling.bunds[(63 : BundId)]).lateRaised = false := by
  refine ⟨by decide +kernel, by decide +kernel, ?_, by decide +kernel⟩
  have h : (511 : StrmId) ∈ bundling.sampledMembers 63 := by
    simp only [State.sampledMembers, State.members, List.mem_filter, List.mem_finRange, true_and]
    decide +kernel
  have g : bundling.memberReady 63 511 = false := by decide +kernel
  exact List.all_eq_false.mpr ⟨511, h, by simp [g]⟩

theorem test_meets_StreamKeysSwitch :
    let s := { aged clocked with skeys := upd clocked.skeys 3 (fun x => { x with next := some 5 }) }
    (s.skeys[(3 : TenId)]).next = some 5 ∧ (s.skeys[(3 : TenId)]).switchAt ≤ s.time.devtime ∧ (s.skeys[(3 : TenId)]).switchedMono + 90 * secTicks ≤ s.time.mono := by decide +kernel

/-- The audio port in a clock state, in a mode. -/
def audioIn (c : AudClk) (mode : Nat) : State := { (aged clocked).put pgAud audMode mode with aud := { clocked.aud with clk := c } }

theorem test_meets_AudioPortFollowsTable :
    let w := audioIn .switching 2
    let r := { w with aud := { w.aud with ramping := true } }
    let z := { audioIn .switching 0 with aud := { clocked.aud with clk := .switching, ramping := true } }
    let f := { audioIn .stopped 2 with aud := { clocked.aud with fault := true } }
    let u := audioIn .running 3
    let o := u.put pgAud (audEn.nth 3) 1
    (r.aud.clk = .switching ∧ r.aud.ramping = true ∧ r.aud.rampAt + 10 * msTicks ≤ r.time.mono ∧ r.get pgAud audMode ≠ 0) ∧ (z.aud.clk = .switching ∧ z.aud.ramping = true ∧ z.aud.rampAt + 10 * msTicks ≤ z.time.mono ∧ z.get pgAud audMode = 0 ∧ z.captured = []) ∧
    (w.aud.clk = .switching ∧ w.aud.ramping = false ∧ w.captured = []) ∧ (f.aud.clk = .stopped ∧ f.aud.fault = true) ∧
    (audioIn .qualifying 2).aud.clk = .qualifying ∧ (u.audWatches = true ∧ u.aud.glitches < 2 ∧ (audioIn .qualifying 2).audWatches = true) ∧
    (let g := { u with aud := { u.aud with glitches := 2 } }; g.audWatches = true ∧ 2 ≤ g.aud.glitches) ∧
    (o.outEn 3 = true ∧ o.aud.clk = .running ∧ o.flag pgAud (audLock.nth 3) = false) ∧
    (let l := o.put pgAud (audLock.nth 3) 1; l.outEn 3 = true ∧ l.flag pgAud (audLock.nth 3) = true) := by decide +kernel

/-- A calibration run on inputs 0 and 3 in a step. -/
def calibrating (step : CalStep) : CalRun :=
  { e0 := 1000, probeAt := 1000, inputs := 9, live := 9, probe := true, probeWait := false, probeDone := false, probeLive := true, step := step, freq := 50000, gains := Vector.replicate 4 40, returned := false }

theorem test_meets_CalibrationRunsInSteps :
    let s := { aged clocked with cal := { clocked.cal with run := some (calibrating .gain) } }
    let d := { calibrating .back with probeDone := true }
    (s.cal.run = some (calibrating .gain) ∧ (calibrating .gain).inputs ≠ 0 ∧ (calibrating .gain).step ≠ .align ∧ (calibrating .gain).step ≠ .back ∧
      (calibrating .gain).e0 + (calibrating .gain).step.ends * epochTicks ≤ s.time.mono) ∧
    ((calibrating .align).step = .align ∧ (calibrating .align).e0 + (calibrating .align).step.ends * epochTicks ≤ s.time.mono ∧ (calibrating .back).step = .back ∧
      (calibrating .back).e0 + (calibrating .back).step.ends * epochTicks ≤ s.time.mono) ∧
    ((calibrating .gain).probeLive = true ∧ (calibrating .gain).probeDone = false ∧ (calibrating .gain).probeWait = false ∧ (calibrating .gain).probeEnd ≤ s.time.mono) ∧
    (d.step = .back ∧ d.probeDone = true ∧ d.doneAt ≤ s.time.mono) := by decide +kernel

/-- A part with a session of tenant 4 with the part, who owns a point on input 3. -/
def checking : State :=
  let p := ((converter .run).put (pgSlc 95) slcInput 3).updSmc (fun x => { x with points := upd x.points 15 (fun y => { y with state := .waiting, owner := 0x24, srcKind := 1, src := 95 }) })
  { p with sec := { p.sec with sess := upd p.sec.sess 4 (fun _ => some ⟨1, 0, 0, 0, 0⟩) } }

theorem test_meets_CalibrationRunsInSteps_check :
    let w := plain 0x05 0
    let s := converter .run
    let s1 := taken s 0 w
    let b := { s with fuse := { s.fuse with variant := .n } }
    let k := signed 0x05 3 4
    passes s 0 w unassignedOps 0 = true ∧ (by_ s 0 w).role = .site ∧ s1.fuse.variant.cloche = true ∧ s1.cal.run = none ∧ s1.cal.load = false ∧ s1.cal.check = none ∧
      (∀ i : Inp, bitAt 8 i.val = true → (s1.inputs[i]).conv = .run ∧ s1.cal.checkedAt[i] = none) ∧
      (passes b 0 w unassignedOps 0 = true ∧ (taken b 0 w).fuse.variant.cloche = false) ∧
      (passes checking 1 k unassignedOps 0 = true ∧ (by_ checking 1 k).role = .tenant 3 ∧ (inputsOf 8).all (fun i => (taken checking 1 k).ownsPointOn 0x24 i) = true) ∧
      (let x : RefCheck := ⟨8, 1000, by_ s 0 w, Vector.replicate 4 40⟩
       ({ s with cal := { s.cal with check := some x } } : State).cal.check = some x ∧ x.caller.q.isSome = true ∧ x.at_ + 20 * epochTicks ≤ (aged s).time.mono) := by decide +kernel

/-- A part with a persistent injection at a detector of a page. -/
def injecting (s : State) (page det : Nat) : State := (s.put page pgMode 2).put page pgDet det

/-- A packet of the sounding link: 10 bytes at SF code 0. -/
def packet : TxReq :=
  { freq := 50000, halfbw := 100, level := 100, sf := 0, type := 2, len := 10, bcast := false, dst := 3, prio := false, data := List.replicate 10 0, g := 65536,
    upAt := 0, downAt := 0, outcome := none }

/-- The transmitter in a state with that packet. -/
def transmitting (st : TxState) : State := { (aged clocked).put pgSnd sndCxEn 1 with snd := { clocked.snd with state := st, req := some packet } }

theorem test_meets_TransmitterFollowsTable :
    let c := winCaller clocked
    let s := { aged clocked with snd := { clocked.snd with deferred := some (packet, c) } }
    let l := { s with clk := { s.clk with state := .holdover } }
    let h := transmitting .waitGrant
    let k := { h with time := { h.time with devtime := 65536 * 9 - 16 * usTicks } }
    (s.snd.deferred = some (packet, c) ∧ s.txDeferred = false ∧ s.pwr.rung = 0) ∧ (l.snd.deferred = some (packet, c) ∧ l.txDeferred = true ∧ l.snd.waitAt + l.get pgSnd sndTxDeferMax * msTicks ≤ l.time.mono ∧ s.snd.waitAt + s.get pgSnd sndTxDeferMax * msTicks ≤ s.time.mono) ∧
    ((transmitting .warm).snd.req = some packet ∧ (transmitting .warm).snd.state = .warm ∧ packet.g ≤ (transmitting .warm).time.devtime + 16 * usTicks ∧ (transmitting .warm).grant false = false ∧ (transmitting .warm).grant true = true) ∧
    (h.snd.state = .waitGrant ∧ h.snd.req = some packet ∧ h.snd.waitAt + h.get pgSnd sndGrantWait * msTicks ≤ h.time.mono) ∧
    (k.snd.state = .waitGrant ∧ k.snd.req = some packet ∧ k.rampChip ≤ k.time.devtime + 16 * usTicks) ∧
    ((transmitting .rampUp).snd.state = .rampUp ∧ packet.upAt + 16 * usTicks ≤ (transmitting .rampUp).time.mono ∧ (transmitting .rampUp).flag pgSnd sndCxEn = true) ∧
    ((transmitting .tx).snd.req = some packet ∧ packet.upAt + (airtime packet.sf packet.len - 16) * usTicks ≤ (transmitting .tx).time.mono ∧ (transmitting .tx).snd.state = .tx ∧ (transmitting .tx).flag pgSnd sndCxEn = true) ∧
    ((transmitting .rampDown).snd.state = .rampDown ∧ packet.downAt + 16 * usTicks ≤ (transmitting .rampDown).time.mono ∧ (transmitting .rampDown).snd.req = some packet ∧ packet.outcome.getD .sent = .sent) := by decide +kernel

theorem test_meets_TransmitterFollowsTable_mask :
    let m := (((transmitting .tx).put pgSnd (sndUsed.nth 0) 1).put pgSnd (sndOfs.nth 0) 100).put pgSnd (sndLimit.nth 0) 40
    let lost : TxReq := { packet with outcome := some .grantLost }
    ([(⟨100000, -1999, -1999⟩ : MaskBin)].any (fun x => m.maskOver x) = true ∧ m.snd.req = some packet) ∧
    ([(⟨100000, -2000, -1999⟩ : MaskBin)].any (fun x => m.maskOver x) = false ∧ m.injected pgSnd 1 = false) ∧
    ((injecting m pgSnd 1).injected pgSnd 1 = true ∧ (injecting m pgSnd 1).snd.state = .tx) ∧ lost.outcome.getD .sent ≠ .sent := by decide +kernel

/-- The sounding receiver on slice 95, holding a packet or none. -/
def receiving (h : Option RxHeld) : State :=
  { ((converter .run).updSlc 95 (fun x => { x with use := .sounding })).puts pgSnd [(sndRxEn, 1), (sndCaptMargin, 12)] with snd := { clocked.snd with desig := some 95, rx := .header, held := h } }.put (pgSlc 95) slcInput 3

theorem test_meets_ReceiverFollowsPackets :
    let h : RxHeld := ⟨0, 0, -9000, false, none⟩
    let p : RxHeld := { h with hdr := some (2 ^ 26) }
    let e : RxHeld := { h with hdr := some 0 }
    let m : RxMeas := ⟨[0], 0xD202EF8D, 200, 10, -9000, 5000, 0⟩
    ((receiving none).rxHears = true ∧ (receiving none).snd.held = none ∧ (2000 : Int).natAbs ≤ 2000) ∧
    ((receiving (some h)).rxHears = true ∧ (receiving (some h)).rxRuns = true ∧ (receiving (some h)).snd.held = some h ∧ h.hdr = none) ∧
    ((receiving (some p)).rxHears = true ∧ p.hdr ≠ none ∧ p.power + ((receiving (some p)).get pgSnd sndCaptMargin : Int) * 50 ≤ -8400) ∧
    ((receiving (some h)).snd.rx ≠ .search ∧ crcBytes 16 0x1021 0xFFFF (bytesBE 6 0) = 0x0E10 ∧ crcBytes 16 0x1021 0xFFFF (bytesBE 6 0) ≠ 0) ∧
    (p.hdr = some (2 ^ 26) ∧ crc32 (m.payload.take (2 ^ 26 / 2 ^ 26 % 128)) = m.crc ∧ e.hdr = some 0 ∧ 0 / 2 ^ 26 % 128 = 0) ∧
    (2 ^ 26 / 2 ^ 26 % 128 ≠ 0 ∧ crc32 (m.payload.take (2 ^ 26 / 2 ^ 26 % 128)) ≠ 0) := by decide +kernel

/-- A part on whose cloche Verifier 3 has a session, detector 15 set for FM, record 9 of the Verifier sent. -/
def verifying : State :=
  { clocked.setReg (detKey 15 0) 0x01F80001 with
    sec := { clocked.sec with csess := upd clocked.sec.csess 7 (fun _ => some ⟨1, 0, 0, 0, 0⟩) },
    smc := { clocked.smc with log := [⟨5, 9, [0], true⟩], given := sealedSet } }

/-- What a command of Verifier 3 with n words of its own runs in, and for whom. -/
def mailbox (s : State) (op n : Nat) : State × Caller := (taken s 2 (signed op (n + 3) 0), by_ s 2 (signed op (n + 3) 0))

/-- That such a command passes every check before its own rules, as the Verifier's in slot 3. -/
def heard (s : State) (op n : Nat) : Bool :=
  passes s 2 (signed op (n + 3) 0) [op] n && decide ((mailbox s op n).2.role = .verifier 2) && decide ((mailbox s op n).2.ses = some 7)

theorem test_meets_PointAndRecordCommands :
    let s1 := (mailbox verifying 0x01 0).1
    let i := verifying.smc.points[(15 : PtId)]
    let d := { verifying with smc := { verifying.smc with points := upd verifying.smc.points 15 (fun x => { x with state := .integrating, owner := 0x30 }) } }
    let r : Rec := ⟨5, 9, [0], true⟩
    let s4 := (mailbox verifying 0x04 0).1
    (heard verifying 0x01 0 = true ∧ holderOf (.verifier 2) = some 0x30 ∧ (slcOf 95).isSome = true ∧ (s1.smc.points[(15 : PtId)]).state = .free ∧
      s1.sourcePartition 1 95 = 0x10 ∧ s1.detSuits 1 15 0 = true ∧
      s1.afCovers { Point.fresh with srcKind := 1, src := 95, det := 15, khz := 100000 } = true ∧ i = Point.fresh ∧
      ((mailbox d 0x01 0).1.smc.points[(15 : PtId)]).owner = 0x30 ∧ (mailbox d 0x01 0).1.detSuits 1 15 0 = true) ∧
    (heard d 0x02 0 = true ∧ ((mailbox d 0x02 0).1.smc.points[(15 : PtId)]).state = .integrating ∧ ((mailbox d 0x02 0).1.smc.points[(15 : PtId)]).owner = 0x30 ∧
      (mailbox d 0x02 0).1.smc.log.length < 1382 ∧ (mailbox d 0x02 0).1.smc.failed = false) ∧
    (heard verifying 0x03 0 = true ∧ r ∈ (mailbox verifying 0x03 0).1.smc.log ∧ ((mailbox verifying 0x03 0).1.recSession r.owner).isSome = true) ∧
    (heard verifying 0x04 0 = true ∧ s4.smc.log = [r] ∧ r.owner = recOwner 0x30 + 1 ∧ r.seq = 9 ∧ r.sent = true ∧ s4.smc.suspended = false) ∧
    (let v := { verifying with smc := { verifying.smc with suspended := true } }
     heard v 0x04 0 = true ∧ (mailbox v 0x04 0).1.smc.suspended = true ∧
      ((mailbox v 0x04 0).1.smc.log.filter (fun x => !(decide (x.owner = r.owner) && decide (x.seq ≤ 9) && x.sent))).length ≤ 1382) ∧
    (heard verifying 0x05 0 = true ∧ (mailbox verifying 0x05 0).2.ses.isSome = true ∧ (mailbox verifying 0x05 0).2.w.bus = false) := by decide +kernel

theorem test_meets_VerifierCommands :
    let s := { verifying with smc := { verifying.smc with sealSt := .sealed } }
    (heard s 0x10 0 = true ∧ (mailbox s 0x10 0).1.smc.sealSt = .sealed) ∧
    (heard verifying 0x11 0 = true ∧ (mailbox verifying 0x11 0).1.smc.sealSt = .factory ∧ sealedSet.all (fun k => (mailbox verifying 0x11 0).1.smc.given.contains k) = true) ∧
    (heard verifying 0x12 0 = true ∧ mayWriteSx (.verifier 2) (.detector 15 0x01F80001 0 1 0) = true ∧ sxInRange (.detector 15 0x01F80001 0 1 0) = true ∧
      mayWriteSx (.verifier 2) (.verifierKey 2 []) = false ∧ mayWriteSx (.verifier 2) (.verifierKey 0 []) = true ∧ sxInRange (.verifierKey 0 []) = true ∧
      (mailbox verifying 0x12 0).1.fuse.variant.sounding = true) ∧
    heard verifying 0x13 0 = true ∧ heard verifying 0x14 0 = true ∧ (heard verifying 0x15 0 = true ∧ (mailbox verifying 0x15 0).1.smc.sealSt ≠ .sealed) := by
  decide +kernel

/-- Point 15 in a state. -/
def pointIn (st : PtState) : State :=
  { verifying with smc := { verifying.smc with points := upd verifying.smc.points 15 (fun x => { x with state := st, owner := 0x30, srcKind := 1, src := 95, det := 15, khz := 100000 }) } }

theorem test_meets_ClocheEventsTakeEffect :
    let s := pointIn .integrating
    let w := pointIn .waiting
    let u := { s with smc := { s.smc with sealSt := .sealed } }
    let v := { s with smc := { s.smc with sealSt := .brokenVerifier } }
    let d := { u with smc := { u.smc with powered := false } }
    ((s.smc.points[(15 : PtId)]).state = .integrating ∧ s.smc.failed = false ∧ s.smc.log.length < 1382 ∧ s.smcWorks = true ∧ s.clk.convClosedAt = none ∧
      s.smc.pauseReason ≠ 2) ∧
    ((w.smc.points[(15 : PtId)]).state = .waiting ∧ w.mayOpen = true ∧ w.smc.log.length < 1383) ∧
    (s.injected (pgSmc 0) 2 = false ∧ s.injected (pgSmc 0) 4 = false ∧ (injecting s (pgSmc 0) 4).injected (pgSmc 0) 4 = true ∧ (injecting s (pgSmc 0) 4).smcWorks = true) ∧
    (u.fuse.variant.cloche = true ∧ u.smcUp = true ∧ u.smc.sealSt = .sealed) ∧ (v.smcUp = true ∧ v.smc.sealSt = .brokenVerifier) ∧
    (s.smcUp = true ∧ s.smc.sealSt ≠ .sealed ∧ s.smc.sealSt ≠ .brokenVerifier) ∧ (d.smcUp = false ∧ d.smc.sealSt = .sealed ∧ d.smc.failed = false) := by decide +kernel

/-- Port B in a state, its clock qualified or not. -/
def portIn (st : PortState) (q : Bool) : State :=
  { aged clocked with ports := upd clocked.ports 1 (fun x => { x with state := st, ts2 := true, agree := 6, agreeDelay := 100 }),
                      clk := { clocked.clk with ports := upd clocked.clk.ports 1 (fun x => { x with qual := q }) } }.put (pgPort 1) prtEn 1

theorem test_meets_TrainingFollowsTable :
    let d := portIn .delay true
    let e := { d with ports := upd d.ports 1 (fun x => { x with agree := 7 }) }
    let z := { d with ports := upd d.ports 1 (fun x => { x with agree := 0 }) }
    let k := portIn .deskew true
    (((portIn .down false).ports[(1 : Port)]).state = .down ∧ (portIn .down false).mayTrain 1 = true ∧ ((portIn .down false).clk.ports[(1 : Port)]).qual = false ∧
      ((portIn .down false).ports[(1 : Port)]).downAt + (portIn .down false).get pgLnk lnkRetrain * msTicks ≤ (portIn .down false).time.mono ∧
      (portIn .down true).mayTrain 1 = true ∧ ((portIn .down true).clk.ports[(1 : Port)]).qual = true) ∧
    ((portIn .bitlock true).ports[(1 : Port)]).state = .bitlock ∧ (((portIn .bitlock true).ports[(1 : Port)]).trainAt + 100 * usTicks ≤ (portIn .bitlock true).time.mono) ∧ ((portIn .blocklock true).ports[(1 : Port)]).state = .blocklock ∧
    ((k.ports[(1 : Port)]).state = .deskew ∧ ((k.ports[(1 : Port)]).ts1)[(1 - (0 : Fin 2) : Fin 2)] = false ∧
      ((k.updPort 1 (fun x => { x with ts1 := x.ts1.set 1 true })).ports[(1 : Port)]).ts1[(1 - (0 : Fin 2) : Fin 2)] = true) ∧
    ((d.ports[(1 : Port)]).state = .delay ∧ (d.ports[(1 : Port)]).ts2 = true ∧ d.time.retained = none ∧ 0 < (d.ports[(1 : Port)]).agree ∧ (d.ports[(1 : Port)]).agree < 7 ∧
      (hopDelay 0 200 200 208 - (d.ports[(1 : Port)]).agreeDelay).natAbs ≤ 4) ∧
    (7 ≤ (e.ports[(1 : Port)]).agree ∧ (hopDelay 0 100 100 200 - (e.ports[(1 : Port)]).agreeDelay).natAbs ≤ 4) ∧
    ((z.ports[(1 : Port)]).agree = 0 ∧ 4 < (hopDelay 0 0 0 0 - (d.ports[(1 : Port)]).agreeDelay).natAbs) ∧
    ((portIn .up true).ports[(1 : Port)]).state = .up := by decide +kernel

theorem test_meets_PortsFallAndHeal :
    let u := portIn .up true
    let s := u.updPort 1 (fun x => { x with healSent := true })
    let v := u.updPort 1 (fun x => { x with healSeen := true })
    let b := u.updPort 1 (fun x => { x with laneBad := x.laneBad.set 0 true })
    ((u.ports[(1 : Port)]).state = .up ∧ (u.ports[(1 : Port)]).healed = false ∧ (u.ports[(1 : Port)]).healSeen = false ∧ (u.ports[(1 : Port)]).healSent = false ∧
      (u.ports[(1 : Port)]).cleanFrom + u.get pgLnk lnkHealClean * msTicks ≤ u.time.mono) ∧
    ((s.ports[(1 : Port)]).state = .up ∧ (s.ports[(1 : Port)]).healed = false ∧ (s.ports[(1 : Port)]).healSent = true) ∧
    ((v.ports[(1 : Port)]).state = .up ∧ (v.ports[(1 : Port)]).healed = false ∧ (v.ports[(1 : Port)]).healSeen = true ∧ (v.ports[(1 : Port)]).cleanFrom + v.get pgLnk lnkHealClean * msTicks ≤ v.time.mono) ∧
    (4 ≤ (u.ports[(1 : Port)]).state.code ∧ u.injected (pgPort 1) 1 = false ∧ (injecting u (pgPort 1) 1).injected (pgPort 1) 1 = true) ∧
    (((u.ports[(1 : Port)]).laneBad)[(0 : Fin 2)] = false ∧ 4 ≤ (b.ports[(1 : Port)]).state.code ∧ ((b.ports[(1 : Port)]).laneBad)[(0 : Fin 2)] = true ∧
      (b.ports[(1 : Port)]).state = .up) := by decide +kernel

/-- A data frame for position d that has n hops left. -/
def ringFrame (d n : Nat) : RFrame :=
  { crcOk := true, dst := d, src := 0, queue := 0, tc := 1, dual := false, hseq := 65535, len := 1, firstHdr := 0, crTc := 0, crCnt := 0, cq := 0, chops := 0, ttl := n,
    payload := [0] }

/-- Both ports UP, position 5, and a packet waiting on Q7 for port B. -/
def ringed : State :=
  let s := { portIn .up true with ring := { clocked.ring with pos := some 5, newPos := false, aligned := true } }
  let up := fun (x : Prt) => { x with state := .up, healed := true, hseqIn := upd x.hseqIn 1 (fun _ => some 65535), credit := Vector.replicate 4 100 }
  let k : Packet := ⟨0, none, 5, 3, 0, false, false, false, false, false, false, false, 0, 1000, 1000, [1, 2, 3]⟩
  { s.put pgStrm (strmPorts.nth 0) 2 with ports := upd (upd s.ports 0 up) 1 up, squeues := upd s.squeues 0 (fun x => { x with packets := [k] }) }

theorem test_meets_FramesAreRouted :
    let f := ringFrame 5 64
    let g := ringFrame 64 2
    let bad := ringed.updPort 1 (fun x => { x with crcHist := [true, true, true] })
    let a : Answer := ⟨1, 7, .ok, 0, 0, 0, [], none⟩
    let o := { ringed with q := { ringed.q with q4 := [a] } }
    let none_ := clocked
    (((ringed.ports[(1 : Port)]).state = .up) ∧ ((true :: (ringed.ports[(1 : Port)]).crcHist).take 16).filter id = [true] ∧ (bad.ports[(1 : Port)]).state = .up ∧
      4 ≤ (((true :: (bad.ports[(1 : Port)]).crcHist).take 16).filter id).length ∧ (injecting ringed (pgPort 1) 2).injected (pgPort 1) 2 = true) ∧
    (f.crcOk = true ∧ ringed.injected (pgPort 1) 2 = false ∧ 0 < f.len ∧ (ringed.ports[(1 : Port)]).hseqIn[tcOf f.tc] = some f.hseq ∧ f.hseq % 65536 = f.hseq ∧
      some f.dst = ringed.ring.pos ∧ f.dst ≤ 64 ∧ f.queue < 4 ∧ f.src = 0 ∧ (ringed.ports[(1 : Port)]).wait = []) ∧
    (({ f with len := 0 } : RFrame).len = 0 ∧ ({ f with dst := 0x7F, queue := 3 } : RFrame).queue = 3) ∧
    (some g.dst ≠ ringed.ring.pos ∧ g.dst ≤ 64 ∧ 1 < g.ttl ∧ ringed.carries (otherPort 1) = true ∧ (ringFrame 64 1).ttl ≤ 1) ∧
    ((ringed.squeues[(0 : SQueue)]).frameWords 1 ≠ [] ∧ ringed.get pgStrm (strmPorts.nth (0 : SQueue).val) = (1 : Port).val + 1 ∧
      ringed.carries 1 = true ∧ (ringed.ports[(1 : Port)]).localWait < 2) ∧
    (o.carries 0 = true ∧ (o.nextOut 0).isSome = true) ∧ (none_.carries 0 = false ∧ none_.carries 1 = false) := by decide +kernel

theorem test_meets_PositionsAndTimeFollowRing :
    let s := { ringed with time := clocked.time, clk := { ringed.clk with ref := some 1 }, ring := { ringed.ring with lastTw := some 1000 } }
    let e := (s.time.devtime * 256 + 5 : Nat) - ((900 * 256 + 0 : Nat) + signedOf 32 (s.get (pgPort 1) prtDelay))
    let z := (s.time.devtime * 256 + 5 : Nat) - ((1000 * 256 + 0 : Nat) + signedOf 32 (s.get (pgPort 1) prtDelay))
    let n := { s with time := { s.time with set := false } }
    let m := { n with ring := { n.ring with newPos := true } }
    let t := { s with time := { s.time with step := some 640000000 } }
    let b := { s with time := { s.time with step := some (-100) } }
    let l := { s with ring := { s.ring with late := [1, 1] } }
    let h := { s with clk := { s.clk with state := .acquiring } }
    ((ringed.ports[(1 : Port)]).state = .up ∧ 63 + 1 = (if (1 : Port) = 1 then 63 + 1 else 64 - 63) ∧ 64 - 63 = (if (0 : Port) = 1 then 63 + 1 else 64 - 63) ∧
      ringed.ring.pos = some 5 ∧ (portIn .up true).ring.pos = none) ∧
    ((s.ports[(1 : Port)]).state = .up ∧ s.clk.ref = some 1 ∧ s.clk.state = .locked ∧ s.time.set = true ∧ s.timeStale = false ∧ s.ring.epoch = some 0 ∧
      z.natAbs ≤ s.get pgLnk lnkTstepTh * 256 ∧ s.get pgLnk lnkTstepTh * 256 < e.natAbs ∧ s.ring.late.length < 2 ∧ l.ring.late.length = 2 ∧ l.timeStale = false) ∧
    (n.time.set = false ∧ n.ring.newPos = false) ∧ (m.time.set = false ∧ m.ring.newPos = true) ∧ ringed.clk.ref ≠ some 1 ∧
    (h.clk.state ≠ .locked ∧ h.clk.state ≠ .holdover) ∧ (t.time.step = some (secTicks : Int) ∧ b.time.step = some (-100) ∧ (-100 : Int) < (secTicks : Int)) := by decide +kernel

/-- The synthesiser in a state, port B qualified, port A not. -/
def clockIn (st : ClkState) (ref : Option Port) : State :=
  { clocked.put (pgPort 1) prtEn 1 with
    time := { clocked.time with mono := 1000000000000 },
    clk := { clocked.clk with state := st, ref := ref, ports := upd clocked.clk.ports 1 (fun x => { x with qual := true, passSince := some 0, cq0Since := some 0 }) },
    ports := upd clocked.ports 1 (fun x => { x with state := .clock }) }

theorem test_meets_ClockIsAcquired :
    let a := clockIn .acquiring (some 1)
    let m := { a with clk := { a.clk with acqAt := a.time.mono, ref := some 0 } }
    let u := { (clockIn .locked (some 1)) with ports := upd a.ports 1 (fun x => { x with state := .up }) }
    ((clockIn .qualifying none).clk.settled = true ∧ (clockIn .qualifying none).clk.state ≠ .off ∧ (clockIn .qualifying none).clk.vcoAt + 10 * usTicks ≤ (clockIn .qualifying none).time.mono ∧ (clockIn .qualifying none).clk.state = .qualifying ∧
      (clockIn .qualifying none).flag (pgPort 1) prtEn = true ∧ (clockIn .qualifying none).freqOk 20000 = true ∧ (clockIn .locked (some 0)).freqOk (-2000) = true) ∧
    (a.clk.state = .acquiring ∧ a.clk.ref = some 1 ∧ a.clk.acqAt + 15 * usTicks ≤ a.time.mono ∧ a.refLost 1 = false ∧ (a.ports[(1 : Port)]).state ≠ .up ∧ a.freqOk 20000 = true ∧ a.clk.settled = true ∧
      (m.clk.acqAt = m.time.mono ∧ m.clk.ref ≠ some 1 ∧ m.prefers 1 = true)) ∧
    ((a.ports[(1 : Port)]).state = .clock ∧ (u.ports[(1 : Port)]).state = .up ∧ u.clk.state ≠ .off) ∧ (clockIn .locked (some 0)).clk.state = .locked := by decide +kernel

theorem test_meets_ReferenceIsChosen :
    let o := clockIn .locked (some 0)
    let s := { o with ring := { o.ring with cqOut := 1 }, clk := { o.clk with cqNonZeroAt := some 0 } }
    let b := clockIn .locked (some 1)
    let two := { b with clk := { b.clk with ports := upd b.clk.ports 0 (fun x => { x with qual := true, passSince := some 0, cq0Since := some 0 }) } }
    let w := two.puts pgClk [(clkPref, 1), (clkRevert, 1)]
    let h := clockIn .holdover (some 0)
    let n := { h with clk := { h.clk with ports := clocked.clk.ports } }
    (s.clk.state = .locked ∧ s.clk.ref = some 0 ∧ s.refLost 0 = true ∧ (s.setCq 2).eligible (otherPort 0) = true) ∧
    (o.clk.state = .locked ∧ o.refLost 0 = true ∧ (o.setCq 2).eligible (otherPort 0) = false) ∧
    (b.clk.ref = some 1 ∧ b.refLost 1 = false ∧ (b.ports[(1 : Port)]).state ≠ .up ∧ b.ring.cqOut = 0 ∧ b.wantsOther 1 = false) ∧
    (w.clk.ref = some 1 ∧ w.refLost 1 = false ∧ (w.ports[(1 : Port)]).state ≠ .up ∧ w.ring.cqOut = 0 ∧ w.wantsOther 1 = true) ∧
    (h.clk.state = .holdover ∧ h.eligiblePort = some 1 ∧ h.clk.ref ≠ some 1 ∧ (500 : Int).natAbs ≤ 500 ∧ 500 < (501 : Int).natAbs) ∧
    (n.clk.state = .holdover ∧ n.eligiblePort = none ∧ n.clk.holdFrom + n.get pgClk clkHoldMax * msTicks ≤ n.time.mono ∧ h.clk.holdFrom + h.get pgClk clkHoldMax * msTicks ≤ h.time.mono) := by
  decide +kernel

theorem test_meets_SupplyAndLadderMove :
    let p := fun (f : Pwr → Pwr) => { clocked with pwr := f clocked.pwr }
    let down := (p (fun x => { x with busy := true, rung := 0 })).put pgPwr pwrTarget 1
    let deep := (p (fun x => { x with busy := true, rung := 0 })).put pgPwr pwrTarget 5
    let high := (p (fun x => { x with busy := true, rising := true, rung := 3 })).put pgPwr pwrTarget 0
    let wake := (p (fun x => { x with busy := true, rising := true, rung := 5 })).put pgPwr pwrTarget 3
    let r := ((p (fun x => { x with clearRun := 65535, sinceChange := 65535 })).updInp 3 (fun x => { x with conv := .run, half := true })).put pgPwr pwrVmax 240
    let u := aged (p (fun x => { x with confirmed := false, restore := .raising }))
    (down.pwr.busy = true ∧ down.rungGoal = nextRung down.pwr.rung down.pwr.rising) ∧
    (deep.pwr.busy = true ∧ deep.pwr.rising = false ∧ deep.pwr.rung + 1 < deep.rungGoal ∧ deep.rungGoal ≤ 5) ∧
    (high.pwr.busy = true ∧ high.pwr.rising = true ∧ high.rungGoal < nextRung high.pwr.rung true) ∧
    (wake.pwr.busy = true ∧ wake.rungGoal = nextRung wake.pwr.rung wake.pwr.rising ∧ 4 ≤ wake.pwr.rung) ∧
    (r.inRun = true ∧ r.pwr.restore = .none ∧ r.nextRestore.isSome = true ∧ r.get pgPwr pwrRestoreEpochs ≤ r.pwr.clearRun ∧ r.get pgPwr pwrRestoreEpochs ≤ r.pwr.sinceChange ∧
      r.pwr.setpoint + r.get pgPwr pwrRestoreMargin ≤ r.get pgPwr pwrVmax ∧ r.pwr.suspended = false ∧ r.temps.crit = false ∧ 64 ≤ r.temps.clearEpochs) ∧
    (u.boot = .complete ∧ u.pwr.confirmed = false ∧ u.pwr.unconfWarn = false ∧ (u.pmb[(0 : Fin 4)]).warned = false ∧ 5 * u.pwr.setpoint + 10 < 65535 ∧ u.pwr.setAt + u.slewTicks ≤ u.time.mono ∧
      u.pwr.setAt + u.get pgPmb pmbVsettle * 10 * usTicks ≤ u.time.mono) := by decide +kernel

theorem test_meets_SupplyAndLadderMove_slots :
    let k := (aged clocked).put pgPmb (pmbEn.nth 3) 1
    let l := { k with pmb := upd k.pmb 3 (fun x => { x with present := true, failRun := 2 }) }
    let b := { k with pmb := upd k.pmb 3 (fun x => { x with lost := true, warned := true }) }
    let z := { aged clocked with pwr := { clocked.pwr with confirmed := true } }
    let m : PmbRead := ⟨.ok 65535, false, false, .nack, .nack⟩
    let n : PmbRead := ⟨.ok 65535, false, false, .ok 900, .ok 1200⟩
    (k.boot = .complete ∧ k.pwr.polledAt + k.get pgPmb pmbPoll * msTicks ≤ k.time.mono ∧ k.pwr.rung ≤ 3 ∧ (3 : Fin 4) ≠ 0 ∧ k.flag pgPmb (pmbEn.nth (3 : Fin 4).val) = true ∧ m.status = .ok 65535 ∧ m.warn = false ∧ m.fault = false ∧
      (l.pmb[(3 : Fin 4)]).failRun = 2 ∧ (k.pmb[(3 : Fin 4)]).failRun < 2 ∧ (b.pmb[(3 : Fin 4)]).lost = true ∧ (b.pmb[(3 : Fin 4)]).warned = true ∧
      ({ m with status := .nack } : PmbRead).status = .nack ∧ ({ m with status := .pec } : PmbRead).status = .pec) ∧
    (z.boot = .complete ∧ z.pwr.polledAt + z.get pgPmb pmbPoll * msTicks ≤ z.time.mono ∧ z.pwr.rung ≤ 3 ∧ z.pwr.confirmed = true ∧ z.injected pgPmb 1 = false ∧ z.injected pgPmb 2 = false ∧ z.injected pgPmb 3 = false ∧ n.vout = .ok 900 ∧ n.iout = .ok 1200) := by
  decide +kernel

/-- The bus in a state, its pointer at OVR_PERSIST of input 3, on a part with strap 7. -/
def busIn (st : BusState) : State := { clocked with twb := { clocked.twb with strap := 7, state := st, pointer := pgInp 3 * 0x400 + 0x054, site := true } }

theorem test_meets_TwoWireTransfersMove :
    let i := busIn .idle
    let d := { i with pwr := { i.pwr with rung := 5 } }
    let r := busIn .reading
    let l := { r with twb := { r.twb with left := [9] } }
    (i.busOpen = true ∧ i.twb.state = .idle ∧ i.pwr.rung ≤ 3 ∧ i.twb.part = [] ∧ 0 ≠ 0x38 + i.twb.strap.toNat) ∧ (d.pwr.busy = false ∧ d.pwr.rung = 5 ∧ d.busOpen = true) ∧
    ((busIn .addressed).windowOpen = true ∧ (busIn .addressed).twb.state = .addressed ∧ (busIn .addressed).twb.part = [] ∧ (busIn .addressed).busTimed = true) ∧
    ((busIn .writing).busOpen = true ∧ (busIn .writing).twb.state ≠ .idle) ∧
    ((busIn .writing).windowOpen = true ∧ (busIn .writing).twb.state = .writing ∧ (busIn .writing).twb.part = [] ∧ (busIn .writing).twb.site = decide ((busIn .writing).windowRole = .site) ∧
      writable (busIn .writing) [⟨(busIn .writing).twb.pointer, BitVec.ofNat 32 (natOfBE [0, 0, 0, 9]), BitVec.allOnes 32⟩] = true) ∧
    (r.windowOpen = true ∧ r.twb.state = .reading ∧ r.twb.left = [] ∧ r.readRefusal r.busCaller.role r.twb.pointer 1 = .ok) ∧
    (r.busTimed = true ∧ r.injected pgTwb 1 = false ∧ r.injected pgTwb 2 = false) ∧
    ((injecting r pgTwb 1).busTimed = true ∧ (injecting r pgTwb 1).injected pgTwb 1 = true ∧ (injecting r pgTwb 2).injected pgTwb 2 = true ∧ (injecting r pgTwb 2).twb.state = .reading) ∧
    (l.windowOpen = true ∧ l.twb.state = .reading ∧ l.twb.left = 9 :: []) := by decide +kernel

/-- A part claimed by Site, tenant 4's key at its cloche. -/
def claimed : State :=
  { clocked with sec := { clocked.sec with siteKey := some 1, claimOpen := false, sess := upd clocked.sec.sess 0 (fun _ => some ⟨1, 0, 0, 0, 0⟩) } }

/-- What a command of Site under its session with n words of its own runs in. -/
def sited (s : State) (op n : Nat) : State := taken s 0 (signed op (n + 3) 0)

/-- That such a command passes every check before its own rules, as Site's. -/
def asSite (s : State) (ops : List Nat) (op n : Nat) : Bool := passes s 0 (signed op (n + 3) 0) ops n && decide ((by_ s 0 (signed op (n + 3) 0)).role = .site)

/-- The part with a pending open of a key slot at both endpoints, 10 s old. -/
def opening (k : KeySlot) : State :=
  let p : PendingOpen := ⟨9, 0, 0, [], 1000⟩
  let t := upd claimed.sec.tenants 3 (fun x => { x with state := .enrolled })
  let c := { claimed.sec with pend := upd claimed.sec.pend k (fun _ => some p), cpend := upd claimed.sec.cpend k (fun _ => some p), tenants := t }
  { claimed with time := { claimed.time with mono := 1000 + 10 * secTicks }, sec := c }

theorem test_meets_SessionsOpenAndClose :
    let o := claimed
    let c := opening 4
    let v := opening 5
    (passes o 0 (onRing 0xF0 5) [0xF0] 5 = true ∧ (by_ o 0 (onRing 0xF0 5)).ses = none ∧ roleOfCode 0x10 = some .site ∧ opensOn .site 0 0 = true ∧
      ((taken o 0 (onRing 0xF0 5)).keyOfRole false .site).isSome = true ∧ slotOfRole .site = some 0) ∧
    (passes c 1 (onRing 0xF1 4) [0xF1] 4 = true ∧ (taken c 1 (onRing 0xF1 4)).findPending false 9 = some (4, ⟨9, 0, 0, [], 1000⟩) ∧
      (taken c 1 (onRing 0xF1 4)).time.mono ≤ 1000 + 10 * secTicks ∧ roleOfSlot false 4 = .tenant 3 ∧ (taken c 1 (onRing 0xF1 4)).time.set = true ∧
      ((taken c 1 (onRing 0xF1 4)).keyOfRole false (roleOfSlot false 4)) = some 0) ∧
    ((taken v 0 (onRing 0xF1 4)).findPending false 9 = some (5, ⟨9, 0, 0, [], 1000⟩) ∧ isVendor (roleOfSlot false 5) = true ∧ (taken v 0 (onRing 0xF1 4)).sec.serviceOpen = true) ∧
    ((c.pendings true)[(4 : KeySlot)] = some ⟨9, 0, 0, [], 1000⟩ ∧ c.rootRanOut 1000 (10 * secTicks) = true) ∧
    (passes o 0 (signed 0xF2 3 0) [0xF2] 0 = true ∧ (by_ o 0 (signed 0xF2 3 0)).ses = some 0) ∧ passes o 1 (onRing 0xF4 0) [0xF4] 0 = true := by decide +kernel

theorem test_meets_SiteAndTenantsEnrol :
    let e := { claimed with sec := { claimed.sec with tenants := upd claimed.sec.tenants 3 (fun x => { x with state := .enrolling }) } }
    let d := { claimed with sec := { claimed.sec with tenants := upd claimed.sec.tenants 3 (fun x => { x with state := .enrolled }) } }
    (passes clocked 0 (plain 0xF3 4) [0xF3] 4 = true ∧ (by_ clocked 0 (plain 0xF3 4)).w.bus = true ∧ (taken clocked 0 (plain 0xF3 4)).sec.claimOpen = true ∧
      (taken clocked 0 (plain 0xF3 4)).sec.claimBlocked = false ∧ 0 < (taken clocked 0 (plain 0xF3 4)).loam.freeSegs) ∧
    ((aged clocked).sec.claimOpen = true ∧ (aged clocked).sec.serviceOpen = true ∧ (aged clocked).windowRanOut = true) ∧
    (asSite claimed [0x20] 0x20 4 = true ∧ ((sited claimed 0x20 4).sec.tenants[(3 : TenId)]).state = .empty) ∧
    (asSite e [0x21] 0x21 4 = true ∧ ((sited e 0x21 4).sec.tenants[(3 : TenId)]).state = .enrolling ∧ (aged e).rootRanOut ((aged e).sec.tenants[(3 : TenId)]).at_ (60 * secTicks) = true ∧ 0 < (sited e 0x21 4).loam.freeSegs) ∧
    (asSite d [0x22] 0x22 0 = true ∧ ((sited d 0x22 0).sec.tenants[(3 : TenId)]).state = .enrolled ∧ (sited d 0x22 0).clocheHolds 3 = false) ∧
    (asSite claimed [0x23] 0x23 0 = true ∧ (sited claimed 0x23 0).sec.siteKey.isSome = true ∧ ∀ m : TenId, ((sited claimed 0x23 0).sec.tenants[m]).state = .empty) := by
  decide +kernel

/-- A part with a Vendor session, unclaimed. -/
def vending : State := { clocked with sec := { clocked.sec with sess := upd clocked.sec.sess 5 (fun _ => some ⟨1, 0, 0, 0, 0⟩) } }

/-- The Vendor's packet through the mailbox. -/
def vendor (op n : Nat) : Waiting := { signed op (n + 3) 0 with bus := true }

theorem test_meets_VendorAndProfileCommands :
    let one := taken vending 0 (vendor 0x30 9)
    let two := taken vending 0 (vendor 0x31 0)
    let prof := (sited claimed 0x05 0)
    (passes vending 0 (vendor 0x30 9) [0x30] 9 = true ∧ (by_ vending 0 (vendor 0x30 9)).role = .vendor ∧ one.fuse.variant.sounding = true ∧
      (∀ i : Fin 34, wordInRange (profileLo + 4 * i.val) (((0x01000000 : Word) :: List.replicate 33 0).getD i.val 0) = true) ∧ one.loam.reserve = false ∧ 0 < one.loam.freeSegs) ∧
    (passes vending 0 (vendor 0x31 0) [0x31] 0 = true ∧ ∀ m : TenId, two.clocheHolds m = false) ∧
    (passes vending 0 (vendor 0x32 0) [0x32] 0 = true ∧ two.sec.siteKey = none ∧ ∀ m : TenId, (two.sec.tenants[m]).state = .empty) ∧
    (asSite claimed unassignedOps 0x05 0 = true ∧ prof.loam.reserve = false ∧ 0 < prof.loam.freeSegs ∧ prof.stored 0x10 15 = none) := by decide +kernel

theorem test_meets_VendorAndProfileCommands_absent :
    let n := { vending with fuse := { vending.fuse with variant := .n } }
    passes n 0 (vendor 0x30 9) [0x30] 9 = true ∧ (taken n 0 (vendor 0x30 9)).fuse.variant.sounding = false := by decide +kernel

/-- A part with a stored profile 15 of one word: GAIN_CODE of input 3. -/
def profiled : State :=
  { claimed with loam := { claimed.loam with recs := [⟨0x10, 15, false, 0x10, 1, 0, 1, 0, 1, false, bytesBE 4 (pgInp 3 * 0x400 + 0x044) ++ wordBytes 40⟩] } }

theorem test_meets_VendorAndProfileCommands_load :
    let key := pgInp 3 * 0x400 + 0x044
    let s1 := sited profiled 0x05 0
    let s2 := s1.writeReg 0x10 ⟨key, 40, BitVec.allOnes 32⟩
    asSite profiled unassignedOps 0x05 0 = true ∧ s1.stored 0x10 15 = some (bytesBE 4 key ++ wordBytes 40) ∧ s1.writeRefusal .site key 1 = .ok ∧
      s1.valueStatus 0x10 (key / 0x400) [⟨key, 40, BitVec.allOnes 32⟩] = .ok ∧ kindCode (key / 0x400) = 1 ∧ s2.commitStatus 0x10 (key / 0x400) = .ok := by decide +kernel

/-- The claimed part with every slice and slot let to tenant 1. -/
def leased : State := claimed.puts pgSec [(secSlicesLo.nth 0, 0xFFFFFFFF), (secSlicesMid.nth 0, 0xFFFFFFFF), (secSlicesHi.nth 0, 0xFFFFFFFF), (secSlots.nth 0, 0xFFFFFFFF)]

theorem test_meets_VendorAndProfileCommands_save :
    asSite leased unassignedOps 0x05 0 = true ∧ (sited leased 0x05 0).loam.reserve = false ∧ 0 < (sited leased 0x05 0).loam.freeSegs ∧
      (sited leased 0x05 0).profileData.length ≤ 6144 := by decide +kernel

theorem test_meets_StoreAndFirmwareCommands :
    let r := { clocked with loam := { clocked.loam with raking := true } }
    let t := { clocked with loam := { clocked.loam with raking := true, seg := 40, gen := 41,
                                                        recs := [⟨0x10, 1, false, 0x10, 1, 0, 1, 0, 1, false, [1]⟩, ⟨0x10, 1, false, 0x10, 2, 40, 41, 0, 1, false, [2]⟩] } }
    let k := { claimed with loam := { claimed.loam with slots := upd claimed.loam.slots 1 (fun x => { x with state := .writing }) } }
    let e := { aged claimed with loam := { claimed.loam with restart := true } }
    (r.loam.raking = true ∧ r.loam.raked = true) ∧ (t.loam.raking = true ∧ t.loam.raked = false) ∧ (clocked.boot = .complete ∧ clocked.injected pgLoam 1 = false) ∧
    (asSite claimed [0x40] 0x40 0 = true ∧ (sited claimed 0x40 0).fwActive 1 = false ∧ ∀ j : Fin 2, ((sited claimed 0x40 0).loam.slots[j]).state ≠ .writing) ∧
    (asSite k [0x41] 0x41 1 = true ∧ (∀ j : Fin 2, ((sited k 0x41 1).loam.slots[j]).state = .writing ↔ j = 1) ∧ 1048560 % 16 = 0 ∧ 1048560 + 16 * [(5 : Quad)].length ≤ 1048576) ∧
    asSite claimed [0x42] 0x42 0 = true ∧
    (asSite claimed [0x43] 0x43 0 = true ∧ ((sited claimed 0x43 0).loam.slots[(0 : Fin 2)]).state = .valid ∧ 0 < (sited claimed 0x43 0).loam.freeSegs) ∧ (e.loam.restart = true ∧ e.loam.restartAt + 10 * msTicks ≤ e.time.mono) := by
  decide +kernel

theorem test_meets_FaultsAreFound :
    let g : LogEntry := ⟨1, 0x0A, 0, 1, 0, 0, 65535, 1, 0, 0, 0, 0⟩
    let s := { clocked with log := { clocked.log with waiting := [g] } }
    let u := decoderIn .run
    (clocked.boot = .complete ∧ ∀ d : Fin 6, 1 ≤ d.val → clocked.injected pgFlt d.val = false) ∧
    ((⟨2, 0, 2⟩ : ScrubWord).mem < 3 ∧ 3 ≤ (⟨3, 0, 2⟩ : ScrubWord).mem ∧ (⟨3, 0, 2⟩ : ScrubWord).bad = 2 ∧ 3 ≤ (⟨3, 0, 3⟩ : ScrubWord).bad ∧ (⟨0, 0, 1⟩ : ScrubWord).bad = 1) ∧
    u.unitRuns pgDec 23 = true ∧ (converter .run).unitRuns pgSieve 3 = true ∧ (streaming 1 1).unitRuns pgStrm 0 = true ∧ ((streaming 1 1).strms[(511 : StrmId)]).en = true ∧
    (s.log.waiting = g :: [] ∧ s.log.resetDue = false ∧ 0 < s.loam.freeSegs) := by decide +kernel

theorem test_meets_TelemetryAndBallsFollow :
    let c := { clocked with pwr := { clocked.pwr with rung := 3 } }
    let m := { claimed with mfp := upd claimed.mfp 3 (fun x => { x with locked := true }) }
    let n := { claimed with fuse := { claimed.fuse with variant := .n } }
    ((aged c).boot = .complete ∧ (aged c).temps.telAt + (aged c).get pgTel telPeriod * msTicks ≤ (aged c).time.mono ∧ c.boot = .complete ∧ c.pwr.rung ≤ 3 ∧ c.injected pgTel 1 = false ∧ c.injected pgTel 2 = false ∧ c.get pgTel telTempWarn * 100 < 12499 ∧ c.get pgTel telTempCrit * 100 < 12499) ∧
    (clocked.pwr.rung = 0 ∧ clocked.pwr.busy = false ∧ clocked.temps.shutdown = false) ∧
    (asSite claimed [0x50] 0x50 0 = true ∧ ((sited claimed 0x50 0).mfp[(3 : Fin 4)]).locked = false ∧ (sited claimed 0x50 0).fuse.variant.sounding = true) ∧
    (asSite m [0x50] 0x50 0 = true ∧ ((sited m 0x50 0).mfp[(3 : Fin 4)]).locked = true ∧ (sited m 0x50 0).fuse.variant.sounding = true) ∧
    (asSite n [0x50] 0x50 0 = true ∧ (sited n 0x50 0).fuse.variant.sounding = false) := by decide +kernel

theorem test_meets_RangeRuleRefusesCommit :
    let s := staging clocked (pgInp 3) inpGainCode 127
    let b := staging clocked (pgBed 11) bedBin 127
    let d := staging State.reset pgDec (decCodec.nth 23) 7
    (s.windowOpen = true ∧ s.writeRefusal s.windowRole (pgInp 3 * 0x400 + 0x02C) 1 = .ok ∧ kindOfPage (pgInp 3) = some .inp ∧ s.time.set = true ∧
      s.pendingCommit (pgInp 3) 0 = false ∧ (s.stagedOf (pgInp 3) 0).all (fun x => wordInRange x.1 x.2) = false) ∧
    (b.writeRefusal b.windowRole (pgBed 11 * 0x400 + 0x02C) 1 = .ok ∧ kindOfPage (pgBed 11) = some .bed ∧ (b.stagedOf (pgBed 11) 0).all (fun x => wordInRange x.1 x.2) = false) ∧
    (d.writeRefusal d.windowRole (pgDec * 0x400 + 0x02C) 1 = .ok ∧ kindOfPage pgDec = some .dec ∧ kindCode pgDec = 0 ∧
      (d.stagedOf pgDec 0x10).all (fun x => wordInRange x.1 x.2) = false) := by decide +kernel

/-- A part of variant N: no cloche, no sounding link. -/
def bare : State := { clocked with fuse := { clocked.fuse with variant := .n } }

theorem test_meets_AbsentPagesReadZeroAndIgnoreWrites :
    let r := taken bare 1 (onRing 0x01 0)
    let w := mailed bare 0x02 1
    let m := mailed bare 0x03 1
    (bare.present pgSnd = false ∧ bare.present (pgSmc 3) = false ∧ bare.present pgAud = true) ∧
    (passes bare 1 (onRing 0x01 0) [0x01] 0 = true ∧ (by_ bare 1 (onRing 0x01 0)).ses = none ∧ r.present pgSnd = false ∧ badAccess (pgSnd * 0x400 + 0x3FC) 1 = false ∧
      r.pageAnswers pgSnd = true) ∧
    (bare.windowOpen = true ∧ bare.hearsEvents (roleCode bare.windowRole) = true) ∧
    (passes bare 0 (plain 0x02 1) [0x02] (dataWords 1) = true ∧ w.present (pgSmc 0) = false ∧ w.pageAnswers (pgSmc 0) = true ∧ w.hearsEvents 0x10 = true) ∧
    (passes bare 0 (plain 0x03 1) [0x03] 1 = true ∧ m.present (pgSmc 0) = false) := by decide +kernel

theorem test_meets_RefusalsChangeNothing :
    let t := { clocked with sec := { clocked.sec with csess := upd clocked.sec.csess 4 (fun _ => some ⟨1, 0, 0, 0, 0⟩) } }
    let q := front bare 2 (onRing 0x01 0)
    clocked.writeRefusal clocked.windowRole 2 1 = .badArg ∧ claimed.writeRefusal claimed.windowRole (pgInp 3 * 0x400 + 0x054) 1 = .accessDenied ∧
    (claimed.windowOpen = true ∧ ({ clocked with boot := .bankOnly } : State).writeRefusal .site (pgInp 3 * 0x400 + 0x054) 1 = .notReady) ∧
    (passes t 2 (signed 0x10 3 0) [0x10] 0 = true ∧ (by_ t 2 (signed 0x10 3 0)).role = .tenant 3 ∧ verifierSlot (by_ t 2 (signed 0x10 3 0)).role = none) ∧
    (q.q.cmd[(2 : CQueue)] = [onRing 0x01 0] ∧ q.servesOp 0x01 = true ∧ q.fuse.variant.cloche = false) := by decide +kernel

theorem test_meets_StepRunsFront : ({ clocked with pending := [.portFrame] } : State).pending = .portFrame :: [] := rfl

theorem test_meets_StepKeepsCanonical : RegsCanonical clocked ∧ step clocked = .next clocked := ⟨(by decide +kernel : regsWf clocked.regs = true), rfl⟩

/-! Commands and operations on values that the manual works out. -/

/-- What a command leaves. -/
def after (i : Instr) (s : State) : State :=
  match exec i s with
  | .next t => t
  | _ => s

/-- The worked input setting of chapter 02: composite −38 dBm at code 12 is −34 dBFS; acquisition reaches code 48. -/
theorem test_agc_acquires :
    let s := (clocked.updInp 0 (fun x => { x with conv := .run, pendingGain := 12, acqLeft := 4 }))
    ((s.inputEpoch 0 ⟨-3400, -300, 0, 0, 0⟩).inputs[(0 : Inp)]).pendingGain = 48 := by decide +kernel

/-- A frame peak of −2 dBFS lowers code 48 to 36 and holds it for 64 epochs (chapter 02). -/
theorem test_agc_attacks :
    let s := (clocked.updInp 0 (fun x => { x with conv := .run, gain := 48, pendingGain := 48 }))
    let t := after (.sieveFrameBoundary ⟨#[⟨-200, [], 0, 0, false⟩, ⟨-9000, [], 0, 0, false⟩, ⟨-9000, [], 0, 0, false⟩, ⟨-9000, [], 0, 0, false⟩], rfl⟩) s
    (t.inputs[(0 : Inp)]).pendingGain = 36 ∧ (t.inputs[(0 : Inp)]).hold = 64 ∧ (t.inputs[(0 : Inp)]).gain = 48 := by decide +kernel

/-- TUNE 0x3D70_A3D7 with FM_200K has EDGE 0 (chapter 03). -/
theorem test_slice_edge : sliceEdge 0x3D70A3D7 2 = 0 := by decide +kernel

/-- The worked tuning of slice 5 in two commands (chapter 13). -/
theorem test_tuning_two_commands :
    let s := after (.regModify 0 0x11408 1 1 false) (front clocked 0 (plain 0x03 1))
    let t := after (.regWrite 0 0x11440 3 [0x00000127, 0x3D70A3D7, 0x0C020002] true) (front s 0 (plain 0x02 1))
    s.stgGet 0 0x045 pgEn = 1 ∧ s.get 0x045 pgEn = 0 ∧ t.captured.map (fun c => (c.page, c.due)) = [(0x045, 1280000)] ∧ t.stagedOf 0x045 0 = [] ∧
      (t.slices[(5 : Slc)]).use = .idle ∧ t.commitStatus 0x10 0x045 = .notReady := by decide +kernel

/-- A PROBE packet at SF 1024 takes 917,536 µs (chapter 10). -/
theorem test_airtime : airtime 5 0 = 917536 := by decide

/-- Accepted 30 µs after a chip instant with CX_LEAD 50 µs: the first chip is 72.4 µs on (Table 10.5). -/
theorem test_first_chip : chipInstant (65536 * 9 + 30 * usTicks + 66 * usTicks) - (65536 * 9 + 30 * usTicks) = 46336 := by decide

/-- The fourth packet of the worked measurement is over MAX_DUTY (chapter 10). -/
theorem test_duty :
    let p := [(sndWindows, 1), (sndLo.nth 0, 78000), (sndHi.nth 0, 79000), (sndMaxLevel, 400), (sndMaxDuty, 50)]
    let s := { clocked.puts pgSnd p with time := { clocked.time with mono := 30 * secTicks }, snd := { clocked.snd with spent := [(1000, 917536), (1000, 917536)] } }
    let r := { packet with freq := 78500, halfbw := 79, sf := 5, level := 350, type := 0, len := 0, data := [] }
    s.inProfile r = true ∧ ({ s with snd := { s.snd with spent := (1000, 917536) :: s.snd.spent } } : State).inProfile r = false := by decide +kernel

/-- HOLD 2,050 ms of slice I/Q, PCM and side data reserve 3,362,000 bytes; a slot with MAX_DELAY 220 takes 422,400 (chapters 06, 07). -/
theorem test_reservations : 2050 * (holdRate 1 + holdRate 4 + holdRate 6) / 1000 = 3362000 ∧ slotBytes 220 = 422400 := by decide

/-- The log entry of the injected stall on bed 3 (Table 19.5). -/
theorem test_stall_entry :
    let s := clocked.updBed 3 (fun x => { x with state := .mci })
    let t := s.stall 0x023 0 2
    (t.beds[(3 : BedId)]).state = .search ∧ t.log.entries.map (fun e => (e.event, e.ptype, e.inst, e.det, e.src)) = [(0x09000680, 0x14, 3, 0x80, 2)] := by decide +kernel

/-- PART is 9,096 and SUFFIX 0 on a -CS (Table 13.7). -/
theorem test_id_part : fieldOf (clocked.readWord 0 0x040) 23 0 = 0x2388 := by decide +kernel

/-- A part without a cloche has SUFFIX 2 or 3 and reads 0 on its SMC pages (R4, Table 13.7). -/
theorem test_absent_reads_zero : bare.readWord 0x10 (pgSmc 0 * 0x400) = 0 ∧ fieldOf (bare.readWord 0 0x040) 23 16 = 3 := by decide +kernel

/-- A field strength of 30.87 dBµV/m from a level of 18.47 dBµV (chapter 11). -/
theorem test_field_strength :
    let w := fun (i : Int) => BitVec.ofNat 32 (twos 32 i)
    let half := fun (h l : Int) => BitVec.ofNat 32 (twos 16 h * 65536 + twos 16 l)
    let s := [(distKey 1 0, BitVec.ofNat 32 (2 ^ 31 + 12 * 2 ^ 19 + 600)), (distKey 1 1, half (-80) 2000), (distKey 1 2, half (-250) (-450)),
              (gnomKey 1 0 0, 78500), (gnomKey 1 0 1, w (-350)), (gnomKey 1 1 0, 98700), (gnomKey 1 1 1, w (-380)),
              (afKey 1 0 0, 95000), (afKey 1 0 1, w 1210), (afKey 1 1 0, 100000), (afKey 1 1 1, w 1250)].foldl (fun s x => s.setReg x.1 x.2) clocked
    let t := { s with smc := { s.smc with corr := [⟨1, 12, -2362, 78500, 1000⟩] } }
    t.levelValue 1 1 98700 (-9700) = some 1847 ∧ t.levelValue 1 2 98700 (-9700) = some 3087 := by decide +kernel

/-- Reset leaves a part that runs no converter, in RUN, DEVTIME unset, its claim window open (R397, R518). -/
theorem test_reset : State.reset.pwr.rung = 0 ∧ State.reset.time.set = false ∧ (State.reset.inputs[(0 : Inp)]).conv = .off ∧ State.reset.sec.claimOpen = true ∧
    State.reset.pending = [] := by decide

/-- A second commit while one waits completes NOT_READY; the first takes effect at its frame (R371, R372). -/
theorem test_commit_waits :
    let s := after (.commit .window (pgInp 3)) (staging clocked (pgInp 3) inpGainCode 40)
    s.captured.map (fun c => (c.page, c.due)) = [(pgInp 3, 1024)] ∧ s.get (pgInp 3) inpGainCode = State.reset.get (pgInp 3) inpGainCode ∧
      (after (.commit .window (pgInp 3)) s).lastStatusOf (pgInp 3) 0 = .notReady ∧
      (let t := after (.sieveFrameBoundary (Vector.replicate 4 ⟨-9000, [], 0, 0, false⟩)) s
       t.get (pgInp 3) inpGainCode = 40 ∧ t.captured = [] ∧ t.time.grid = 1024) := by decide +kernel

/-- The reference of the third late time word steps DEVTIME by the mean of the three (R417). -/
theorem test_step_back :
    let s := after .devtimeStep { clocked with time := { clocked.time with step := some 100 } }
    s.time.devtime = 924 ∧ s.time.grid = 1024 ∧ s.get pgClk clkStepCnt = 1 := by decide +kernel

/-- DISCOVER with count 63 on port B numbers the device 64 and goes on at the other port with 64 (R343). -/
theorem test_discover : (after (.discover 1 63 true) ringed).ring.pos = some 64 := by decide +kernel

/-- A frame for another position goes on with one hop less; with its last hop it is discarded (R346). -/
theorem test_last_hop :
    (after (.frameReceive 1 (ringFrame 64 1)) ringed).get (pgPort 1) prtDiscard = 1 ∧ (after (.frameReceive 1 (ringFrame 64 2)) ringed).get (pgPort 1) prtDiscard = 0 := by
  decide +kernel

/-- The eighth response that agrees takes the port UP (R342). -/
theorem test_eighth_response :
    let d := portIn .delay true
    let s := { d with ports := upd d.ports 1 (fun x => { x with agree := 7 }) }
    ((after (.delayResp 1 0 100 100 200) s).ports[(1 : Port)]).state = .up ∧ ((after (.delayResp 1 0 100 100 200) d).ports[(1 : Port)]).state = .delay := by decide +kernel

/-- A ball is claimed once (R530). -/
theorem test_ball_once :
    let s := after (.ballFunc (3 + 256 * 1)) (front clocked 0 (plain 0x50 0))
    let t := after (.ballFunc (3 + 256 * 2)) (front s 0 (plain 0x50 0))
    (s.mfp[(3 : Fin 4)]).func = 1 ∧ (s.mfp[(3 : Fin 4)]).locked = true ∧ t.mfp = s.mfp := by decide +kernel

/-- The third failed transaction in a row loses the slot (R436). -/
theorem test_third_nack :
    let k := clocked.put pgPmb (pmbEn.nth 3) 1
    let s := { k with pmb := upd k.pmb 3 (fun x => { x with present := true }) }
    let poll := fun (n : Nat) (x : State) => after (.pmbPoll [(3, ⟨.nack, false, false, .nack, .nack⟩)]) { x with time := { x.time with mono := n * 10000000000 } }
    let t := poll 2 (poll 1 s)
    (t.pmb[(3 : Fin 4)]).lost = false ∧ ((poll 3 t).pmb[(3 : Fin 4)]).lost = true := by decide +kernel

/-- A write to the page of an absent unit is ignored and raises ABSENT_WRITE with the page type of SND (R5). -/
theorem test_absent_write :
    let t := after (.plainRegisterWrite .window (pgSnd * 0x400 + 0x044) 5) bare
    t.get pgSnd sndTxFreq = bare.get pgSnd sndTxFreq ∧ t.q.gather.map (fun e => (e.to_, e.page, fieldOf e.word 31 24, fieldOf e.word 15 8)) = [(0x10, pgSnd, 0x19, 0x3F)] := by decide +kernel

/-- Four bytes written on the bus stage the register at the pointer, which moves on by 4 (R388). -/
theorem test_bus_write :
    let t := after (.twbWriteTransfer [0, 0, 0, 9] false) (busIn .writing)
    t.stgGet 0 (pgInp 3) inpOvrPersist = 9 ∧ t.twb.pointer = pgInp 3 * 0x400 + 0x058 := by decide +kernel

/-- CLAIM over the bus enrols the key and closes the window; over the ring it does not (R397, R398). -/
theorem test_claim :
    let t := after (.claim 0 5) (front clocked 0 (plain 0xF3 4))
    let r := after (.claim 0 5) (front clocked 0 (onRing 0xF3 4))
    t.sec.siteKey = some 5 ∧ t.sec.claimOpen = false ∧ r.sec.siteKey = none := by decide +kernel

/-- TAMPER_N low breaks the seal and counts in the audit trail (R318, R322). -/
theorem test_tamper :
    let s := { clocked with smc := { clocked.smc with sealSt := .sealed } }
    (after .tamper s).smc.sealSt = .brokenTamper ∧ (after .tamper s).smc.auditCnt = 1 := by decide +kernel

/-- The converter of a decoder whose concealment runs out is muted and counted (R156). -/
theorem test_mute :
    let t := after (.decConcealTimeout 23 false) ((decoderIn .conceal).updDec 23 (fun x => { x with concealMs := 10000 }))
    (t.decs[(23 : DecId)]).state = .sync ∧ t.get pgDec (decMute.nth 23) = 1 := by decide +kernel

/-- Sealed registers answer SEALED to a write, whoever writes (R327). -/
theorem test_sealed : clocked.writeRefusal .site (keyOf (pgSmc 2) smc2RefinCert) 1 = .sealed := by decide +kernel
end Sys2Proof.Tests
end

section
/-! SUPPORT. What a read of an absent unit's page returns, and what a write to it leaves (R4, R5). -/

namespace Sys2Proof.Machine

open Sys2Proof.Safety

/-! ### Where an access lands -/

/-- An access that is not malformed reaches 1 to 256 registers, none beyond its page. -/
theorem badAccess_bounds {addr count : Nat} (h : badAccess addr count = false) : 1 ≤ count ∧ count ≤ 256 ∧ addr % 0x400 + 4 * count ≤ 0x400 := by
  simp only [badAccess, Bool.or_eq_false_iff, decide_eq_false_iff_not] at h
  obtain ⟨⟨⟨⟨-, h0⟩, h256⟩, hend⟩, -⟩ := h
  omega

theorem page_of_mem_addrsOf {addr count a : Nat} (h : badAccess addr count = false) (ha : a ∈ addrsOf addr count) : a / 0x400 = addr / 0x400 := by
  obtain ⟨-, -, hend⟩ := badAccess_bounds h
  obtain ⟨i, hi, rfl⟩ := List.mem_map.mp ha
  rw [List.mem_range] at hi
  omega

/-- A register access that runs and comes to an outcome which takes nothing off the queues answers with that outcome. -/
theorem viaOps_outcome {s s1 : State} {src : Src} {ops : List Nat} {n addr : Nat} {c : Caller} {act : Caller → State → State × Option Reply}
    {x : State × Option Reply} (hrun : Runs s src ops n s1 c) (hact : act c s1 = x) (hcmd : x.1.q.cmd = s1.q.cmd) :
    s.viaOps ops src addr act = State.reply c (if c.q = none then addr else 0) x := by
  subst hact
  exact viaOps_runs hrun hcmd

/-! ### Reads of the page of an absent unit -/

theorem readWord_absent {s : State} {addr : Nat} (role : Nat) (h : s.present (addr / 0x400) = false) : s.readWord role addr = 0 := by
  unfold State.readWord
  rw [h]
  rfl

theorem mayRead_absent {s : State} {addr : Nat} (r : Role) (h : s.present (addr / 0x400) = false) : s.mayRead r addr = true := by
  unfold State.mayRead
  dsimp only
  rw [h]
  rfl

theorem onRead_absent {s : State} {addr : Nat} (role : Nat) (h : s.present (addr / 0x400) = false) : s.onRead role addr = s := by
  unfold State.onRead
  rw [h]
  rfl

/-- No role is refused a well-formed read of an absent unit. -/
theorem readRefusal_absent {s : State} {addr count : Nat} (r : Role) (hb : badAccess addr count = false) (ha : s.pageAnswers (addr / 0x400) = true)
    (h : s.present (addr / 0x400) = false) : s.readRefusal r addr count = .ok := by
  have hm : (addrsOf addr count).any (fun a => !s.mayRead r a) = false := by
    rw [List.any_eq_false]
    intro a hmem
    rw [mayRead_absent r (by rw [page_of_mem_addrsOf hb hmem]; exact h)]
    decide
  unfold State.readRefusal
  rw [hb, ha, hm]
  rfl

theorem readWords_absent {s : State} {addr count : Nat} (role : Nat) (hb : badAccess addr count = false) (h : s.present (addr / 0x400) = false) :
    s.readWords role addr count = List.replicate count 0 := by
  rw [List.eq_replicate_iff]
  refine ⟨by simp [State.readWords, addrsOf], fun w hw => ?_⟩
  obtain ⟨a, hmem, rfl⟩ := List.mem_map.mp hw
  exact readWord_absent role (by rw [page_of_mem_addrsOf hb hmem]; exact h)

theorem foldl_onRead_absent {s : State} {role : Nat} : ∀ {as : List Nat}, (∀ a ∈ as, s.present (a / 0x400) = false) → as.foldl (fun s a => s.onRead role a) s = s
  | [], _ => rfl
  | a :: as, h => by
    rw [List.foldl_cons, onRead_absent role (h a List.mem_cons_self)]
    exact foldl_onRead_absent (fun b hb => h b (List.mem_cons_of_mem a hb))

/-- A well-formed read of an absent unit changes nothing and answers OK with zeros (R4). -/
theorem readCommand_absent {s : State} {addr count : Nat} (c : Caller) (hb : badAccess addr count = false) (ha : s.pageAnswers (addr / 0x400) = true)
    (h : s.present (addr / 0x400) = false) : s.readCommand c addr count = (s, ⟨.ok, BitVec.ofNat 32 count, quadsOf (List.replicate count 0)⟩) := by
  unfold State.readCommand
  rw [readRefusal_absent c.role hb ha h]
  dsimp only
  rw [readWords_absent _ hb h, foldl_onRead_absent (fun a hmem => by rw [page_of_mem_addrsOf hb hmem]; exact h)]

/-- The answer in clear to a command that came on the ring on Q0 or Q1 is the last on Q4, under the next RSEQ (R17, Table 12.5). -/
theorem q4_post_clear {s : State} {q : CQueue} {w : Waiting} (r : Reply) (hq : q.val ≠ 2) (hw : w.bus = false) :
    (s.post q w none r).q.q4 = s.q.q4 ++ [⟨w.head.op, w.head.tag, r.status, w.head.tenant, s.rseq, r.result, r.data, none⟩] := by
  unfold State.post State.takeRseq
  simp [hq, hw]

/-! ### Events that wait to be sent stay until they are sent -/

theorem mem_gather_gather {s : State} {e : EvtWord} (page : Nat) (ev : Ev) (owner : Nat) (h : e ∈ s.q.gather) : e ∈ (s.gather page ev owner).q.gather := by
  unfold State.gather
  split
  · exact List.mem_append_left _ h
  · exact h

theorem mem_gather_raiseTo {s : State} {e : EvtWord} (page : Nat) (ev : Ev) (owner : Nat) (h : e ∈ s.q.gather) : e ∈ (s.raiseTo page ev owner).q.gather := by
  unfold State.raiseTo
  dsimp only
  split
  · split
    · exact mem_gather_gather _ _ _ h
    · exact h
  · exact h

theorem mem_gather_mboxPut {s : State} {e : EvtWord} (ws : List Word) (h : e ∈ s.q.gather) : e ∈ (s.mboxPut ws).q.gather := by
  unfold State.mboxPut
  split
  · exact h
  · exact mem_gather_raiseTo _ _ _ h

theorem q_setSession (s : State) (cl : Bool) (k : KeySlot) (x : Option Session) : (s.setSession cl k x).q = s.q := by
  unfold State.setSession State.setSessions
  split <;> rfl

theorem mem_gather_ite {a b : State} {e : EvtWord} {c : Prop} [Decidable c] (ha : e ∈ a.q.gather) (hb : e ∈ b.q.gather) : e ∈ (if c then a else b).q.gather := by
  split
  · exact ha
  · exact hb

theorem mem_gather_post {s : State} {e : EvtWord} (q : CQueue) (w : Waiting) (ses : Option KeySlot) (r : Reply) (h : e ∈ s.q.gather) :
    e ∈ (s.post q w ses r).q.gather := by
  have hses : ∀ cl k x, e ∈ (s.takeRseq.2.setSession cl k x).q.gather := by
    intro cl k x
    rw [q_setSession]
    exact h
  unfold State.post
  dsimp only
  refine mem_gather_ite (mem_gather_mboxPut _ ?_) (mem_gather_ite ?_ ?_)
  all_goals
    split
    · exact hses _ _ _
    · exact h

theorem mem_gather_answer {s : State} {e : EvtWord} (c : Caller) (addr : Nat) (r : Reply) (h : e ∈ s.q.gather) : e ∈ (s.answer c addr r).q.gather := by
  unfold State.answer
  split
  · exact mem_gather_post _ _ _ _ h
  · unfold State.windowDone
    dsimp only
    split
    · exact h
    · exact h

/-! ### ABSENT_WRITE -/

/-- The pages of the units that a variant may lack: SND and the four of the SMC (Table 0.1). -/
theorem page_of_absent {s : State} {page : Nat} (h : s.present page = false) : page = pgSnd ∨ page ∈ [0x100, 0x101, 0x102, 0x103] := by
  unfold State.present at h
  by_cases hs : page = pgSnd
  · exact .inl hs
  · rw [if_neg hs] at h
    by_cases hc : 0x100 ≤ page ∧ page ≤ 0x103
    · simp only [List.mem_cons, List.not_mem_nil, or_false]
      omega
    · rw [if_neg hc] at h
      cases h

theorem pageType_of_absent {s : State} {page : Nat} (h : s.present page = false) : (pageTypeInst page).1 = if page = pgSnd then 0x19 else 0x20 := by
  have ht : ∀ p ∈ [pgSnd, 0x100, 0x101, 0x102, 0x103], (pageTypeInst p).1 = if p = pgSnd then 0x19 else 0x20 := by decide
  exact ht page (List.mem_cons.mpr (page_of_absent h))

/-- The page type of an event word stands in bits 31:24, the event number in bits 15:8 (R375). -/
theorem fields_eventWord (page : Nat) (ev : Ev) (lost : Bool) (hn : ev.num < 256) :
    fieldOf (eventWord page ev lost) 31 24 = (pageTypeInst page).1 % 256 ∧ fieldOf (eventWord page ev lost) 15 8 = ev.num := by
  have hs : ev.sev.code < 4 := by cases ev.sev <;> decide
  have hl : bit lost < 2 := by cases lost <;> decide
  unfold fieldOf eventWord
  dsimp only
  rw [BitVec.toNat_ofNat]
  omega

/-- The ABSENT_WRITE that a write to an absent unit raises for its writer (R5, R376). -/
def State.absentWriteWord (s : State) (page writer : Nat) : EvtWord :=
  ⟨writer, page, eventWord page evAbsentWrite (s.q.lostPages.contains page), s.time.devtime⟩

theorem mem_gather_raiseAbsent {s : State} {page writer : Nat} (h : s.hearsEvents writer = true) :
    s.absentWriteWord page writer ∈ (s.raiseAbsent page writer).q.gather := by
  unfold State.raiseAbsent State.gather
  rw [if_pos h]
  exact List.mem_append_right _ List.mem_cons_self

/-! ### Writes to the page of an absent unit -/

theorem writeRefusal_absent {s : State} {addr count : Nat} (r : Role) (hb : badAccess addr count = false) (ha : s.pageAnswers (addr / 0x400) = true)
    (h : s.present (addr / 0x400) = false) : s.writeRefusal r addr count = .absentUnit := by
  unfold State.writeRefusal
  rw [hb, ha, h]
  rfl

/-- A well-formed write to an absent unit raises ABSENT_WRITE, and does nothing else but answer ABSENT_UNIT (R5). -/
theorem writeWith_absent {s : State} {w : RegWrite} {ws : List RegWrite} (each : State → RegWrite → State) (c : Caller) (asked : Bool)
    (hb : badAccess w.addr (ws.length + 1) = false) (ha : s.pageAnswers (w.addr / 0x400) = true) (h : s.present (w.addr / 0x400) = false) :
    s.writeWith each c (w :: ws) asked = (s.raiseAbsent (w.addr / 0x400) (roleCode c.role), some (.st .absentUnit)) := by
  unfold State.writeWith
  dsimp only
  rw [List.length_cons, writeRefusal_absent c.role hb ha h]

/-- What a refused write to an absent unit leaves once it is answered. -/
def State.absentAnswered (s : State) (c : Caller) (addr page : Nat) : State := (s.raiseAbsent page (roleCode c.role)).answer c addr (.st .absentUnit)

theorem kept_absentAnswered (s : State) (c : Caller) (addr page : Nat) : Kept 0x42000008a s (s.absentAnswered c addr page) :=
  kept_answer (kept_raiseAbsent (Kept.refl _ s) page _) c addr _

theorem cmd_raiseAbsent (s : State) (page writer : Nat) : (s.raiseAbsent page writer).q.cmd = s.q.cmd :=
  (kept_raiseAbsent (Kept.refl 0x80 s) page writer).cmd (by decide)

theorem samePages_absentAnswered (s : State) (c : Caller) (addr page : Nat) : SamePages s (s.absentAnswered c addr page) [pgTwb] := by
  intro k hk
  rw [State.absentAnswered, samePages_answer _ _ _ _ k hk, reg_of_regs (regs_raiseAbsent s page _) k]

theorem mem_gather_absentAnswered {s : State} {c : Caller} (addr page : Nat) (h : s.hearsEvents (roleCode c.role) = true) :
    s.absentWriteWord page (roleCode c.role) ∈ (s.absentAnswered c addr page).q.gather :=
  mem_gather_answer c addr _ (mem_gather_raiseAbsent h)

/-- Only registers, RSEQ, the queues, the sessions and the two-wire block may differ once a command is answered. -/
theorem Kept.eq_of_answer {s t : State} (h : Kept 0x42000008a s t) : t = { s with regs := t.regs, rseq := t.rseq, q := t.q, sec := t.sec, twb := t.twb } := by
  cases s
  cases t
  rw [State.mk.injEq]
  exact ⟨h.fuse, h.boot rfl, rfl, h.freeCtr rfl, h.pending, rfl, h.staged rfl, h.captured rfl, h.lastStatus rfl, rfl, h.time rfl, h.conds rfl, h.inputs rfl,
    h.slices rfl, h.demods rfl, h.planGen rfl, h.snaps rfl, h.beds rfl, h.decs rfl, h.slots rfl, h.afdb rfl, h.afNext rfl, h.survey rfl, h.strms rfl, h.bunds rfl,
    h.squeues rfl, h.skeys rfl, h.clk rfl, h.pwr rfl, h.pmb rfl, h.pmbSent rfl, rfl, h.log rfl, h.temps rfl, h.ports rfl, h.ring rfl, rfl, h.smc rfl, h.aud rfl,
    h.cal rfl, h.snd rfl, h.loam rfl, h.mfp rfl⟩

/-- A register access that comes to a write to an absent unit leaves that write answered. -/
theorem viaOps_absent {s s1 : State} {src : Src} {ops : List Nat} {n addr page : Nat} {c : Caller} {act : Caller → State → State × Option Reply}
    (hrun : Runs s src ops n s1 c) (hact : act c s1 = (s1.raiseAbsent page (roleCode c.role), some (.st .absentUnit))) :
    s.viaOps ops src addr act = s1.absentAnswered c (if c.q = none then addr else 0) page :=
  viaOps_outcome hrun hact (cmd_raiseAbsent s1 page _)

end Sys2Proof.Machine
end

section
/-! Register commands that come to an absent unit, and the statement about them (R4, R5). -/

namespace Sys2Proof.Proofs

open Sys2Proof Sys2Proof.Machine Sys2Proof.Safety

theorem page_of_addr {page off : Nat} (h : off < 0x400) : (page * 0x400 + off) / 0x400 = page := by omega

/-- REG_READ of an absent unit changes nothing and answers OK with zeros. -/
theorem regRead_absent {s s1 : State} {q : CQueue} {addr count page : Nat} {c : Caller} (hrun : Runs s (.cmd q) [0x01] 0 s1 c) (hp : addr / 0x400 = page)
    (hb : badAccess addr count = false) (ha : s1.pageAnswers page = true) (h : s1.present page = false) :
    exec (.regRead q addr count) s = .next (s1.answer c (if c.q = none then addr else 0) ⟨.ok, BitVec.ofNat 32 count, quadsOf (List.replicate count 0)⟩) := by
  subst hp
  refine congrArg Host.Outcome.next (viaOps_outcome hrun (x := (s1, some _)) ?_ rfl)
  rw [if_pos (runs_form hrun), readCommand_absent c hb ha h]

theorem plainRegisterWrite_absent {s s1 : State} {src : Src} {addr page : Nat} {c : Caller} (w : Word) (hrun : Runs s src writeOps 1 s1 c)
    (hp : addr / 0x400 = page) (hb : badAccess addr 1 = false) (ha : s1.pageAnswers page = true) (h : s1.present page = false) :
    exec (.plainRegisterWrite src addr w) s = .next (s1.absentAnswered c (if c.q = none then addr else 0) page) := by
  subst hp
  refine congrArg Host.Outcome.next (viaOps_absent hrun ?_)
  rw [if_pos (runs_form hrun)]
  exact writeWith_absent _ c false hb ha h

theorem regWrite_absent {s s1 : State} {q : CQueue} {addr count page : Nat} {c : Caller} (words : List Word) (commit : Bool)
    (hrun : Runs s (.cmd q) [0x02] (dataWords count) s1 c) (hp : addr / 0x400 = page) (hb : badAccess addr count = false) (ha : s1.pageAnswers page = true)
    (h : s1.present page = false) : exec (.regWrite q addr count words commit) s = .next (s1.absentAnswered c (if c.q = none then addr else 0) page) := by
  subst hp
  obtain ⟨h1, h256, -⟩ := badAccess_bounds hb
  refine congrArg Host.Outcome.next (viaOps_absent hrun ?_)
  rw [if_pos ⟨runs_form hrun, h1, h256⟩]
  obtain ⟨n, rfl⟩ : ∃ n, count = n + 1 := ⟨count - 1, by omega⟩
  unfold State.writeCommand
  rw [List.range_succ_eq_map, List.map_cons]
  exact writeWith_absent _ c commit (by simpa using hb) ha h

theorem regModify_absent {s s1 : State} {q : CQueue} {addr page : Nat} {c : Caller} (mask value : Word) (commit : Bool)
    (hrun : Runs s (.cmd q) [0x03] 1 s1 c) (hp : addr / 0x400 = page) (hb : badAccess addr 1 = false) (ha : s1.pageAnswers page = true)
    (h : s1.present page = false) : exec (.regModify q addr mask value commit) s = .next (s1.absentAnswered c (if c.q = none then addr else 0) page) := by
  subst hp
  refine congrArg Host.Outcome.next (viaOps_absent hrun ?_)
  rw [if_pos (runs_form hrun)]
  exact writeWith_absent _ c commit hb ha h

/-- Settles O55: a read of an absent unit returns zeros before any right or register is looked at (R4); a write of any form comes to the one refusal that raises ABSENT_WRITE, and the answer that follows keeps the event (R5). -/
theorem absentPagesReadZeroAndIgnoreWrites : Obligations.AbsentPagesReadZeroAndIgnoreWrites := by
  unfold Obligations.AbsentPagesReadZeroAndIgnoreWrites
  refine ⟨?_, ?_, ?_, ?_, ?_⟩
  · intro s role page off habs hoff
    exact readWord_absent role (by rw [page_of_addr hoff]; exact habs)
  · intro s q page off count s1 c hrun hses hbus habs hoff hb ha
    refine ⟨_, regRead_absent hrun (page_of_addr hoff) hb ha habs, ?_⟩
    obtain ⟨hq, w, rest, r, ses, -, -, -, -, -, -, -, -, rfl⟩ := hrun
    cases hses
    exact q4_post_clear _ hq hbus
  · intro s src page off w s1 c hrun habs hoff hb ha hears
    have hk := kept_absentAnswered s1 c (if c.q = none then page * 0x400 + off else 0) page
    obtain ⟨htype, hnum⟩ := fields_eventWord page evAbsentWrite (s1.q.lostPages.contains page) (by decide)
    refine ⟨_, s1.absentWriteWord page (roleCode c.role), plainRegisterWrite_absent w hrun (page_of_addr hoff) hb ha habs, mem_gather_absentAnswered _ _ hears,
      rfl, rfl, htype.trans ?_, hnum, hk.staged rfl, samePages_absentAnswered _ _ _ _, hk.eq_of_answer⟩
    rw [pageType_of_absent habs]
    split <;> rfl
  · intro s q page off count words commit s1 c hrun habs hoff _ hb ha hears
    have hk := kept_absentAnswered s1 c (if c.q = none then page * 0x400 + off else 0) page
    exact ⟨_, s1.absentWriteWord page (roleCode c.role), regWrite_absent words commit hrun (page_of_addr hoff) hb ha habs, mem_gather_absentAnswered _ _ hears,
      rfl, rfl, hk.staged rfl, hk.captured rfl, samePages_absentAnswered _ _ _ _⟩
  · intro s q page off mask value commit s1 c hrun habs hoff hb ha hears
    have hk := kept_absentAnswered s1 c (if c.q = none then page * 0x400 + off else 0) page
    exact ⟨_, s1.absentWriteWord page (roleCode c.role), regModify_absent mask value commit hrun (page_of_addr hoff) hb ha habs, mem_gather_absentAnswered _ _ hears,
      rfl, rfl, hk.staged rfl, hk.captured rfl, samePages_absentAnswered _ _ _ _⟩

end Sys2Proof.Proofs
end

section
/-! SUPPORT. What the answer to a command and a refused commit leave (R17, R340, R372). -/

namespace Sys2Proof.Machine

open Sys2Proof.Safety

/-! ### Where an answer goes -/

/-- An answer put where its reader looks for it: the mailbox for a bus command, Q6 for Q2 of a part with a cloche, Q4 otherwise. -/
def State.placeAnswer (s : State) (q : CQueue) (bus : Bool) (a : Answer) : State :=
  if bus then s.mboxPut ((answerQuads a).flatMap wordsOf)
  else if decide (q.val = 2) && s.fuse.variant.cloche then { s with q := { s.q with q6 := s.q.q6 ++ [.answer a] } }
  else { s with q := { s.q with q4 := s.q.q4 ++ [a] } }

theorem rseq_setSession (s : State) (cl : Bool) (k : KeySlot) (x : Option Session) : (s.setSession cl k x).rseq = s.rseq :=
  (kept_setSession (Kept.refl 0x820000000 s) cl k x).rseq rfl

theorem fuse_setSession (s : State) (cl : Bool) (k : KeySlot) (x : Option Session) : (s.setSession cl k x).fuse = s.fuse :=
  (kept_setSession (Kept.refl 0x820000000 s) cl k x).fuse

/-- The answer to a command takes the next RSEQ, counts in the session if one is open, and is placed. -/
theorem post_eq_placeAnswer (s : State) (q : CQueue) (w : Waiting) (ses : Option KeySlot) (r : Reply) :
    ∃ (s2 : State) (a : Answer), s.post q w ses r = s2.placeAnswer q w.bus a ∧ s2.rseq = s.rseq + 1 ∧ s2.fuse = s.fuse ∧
      a.op = w.head.op ∧ a.tag = w.head.tag ∧ a.status = r.status ∧ a.rseq = s.rseq := by
  refine ⟨_, _, rfl, ?_, ?_, rfl, rfl, rfl, rfl⟩
  · split
    · exact rseq_setSession _ _ _ _
    · rfl
  · split
    · exact fuse_setSession _ _ _ _
    · rfl

theorem rseq_placeAnswer (s : State) (q : CQueue) (bus : Bool) (a : Answer) : (s.placeAnswer q bus a).rseq = s.rseq := by
  unfold State.placeAnswer
  split
  · exact (kept_mboxPut (Kept.refl 0x400000088 s) _).rseq rfl
  · split <;> rfl

/-- An answer that does not go to the mailbox is the last on Q6 for Q2, on Q4 otherwise. -/
theorem getLast_placeAnswer {s : State} {q : CQueue} (a : Answer) (h : q.val = 2 → s.fuse.variant.cloche = true) :
    (q = 2 ∧ (s.placeAnswer q false a).q.q6.getLast? = some (.answer a)) ∨ (q ≠ 2 ∧ (s.placeAnswer q false a).q.q4.getLast? = some a) := by
  unfold State.placeAnswer
  rw [if_neg Bool.false_ne_true]
  by_cases hq : q = 2
  · subst hq
    rw [h rfl]
    exact .inl ⟨rfl, List.getLast?_concat⟩
  · have hv : q.val ≠ 2 := fun e => hq (Fin.ext e)
    rw [decide_eq_false hv]
    exact .inr ⟨hq, List.getLast?_concat⟩

/-- A caller whose command came on a queue is answered (R17, R340). -/
theorem answered_answer {s : State} {c : Caller} {q : CQueue} (addr : Nat) (r : Reply) (hq : c.q = some q) (h2 : q.val = 2 → s.fuse.variant.cloche = true) :
    Answered s (s.answer c addr r) c r.status := by
  obtain ⟨s2, a, hpost, hrseq, hfuse, hop, htag, hst, hnum⟩ := post_eq_placeAnswer s q c.w c.ses r
  unfold State.answer
  rw [hq]
  dsimp only
  rw [hpost]
  refine ⟨(rseq_placeAnswer _ _ _ _).trans hrseq, fun hbus => ⟨a, hop, htag, hst, hnum, ?_⟩⟩
  rw [hbus, hq]
  simpa using getLast_placeAnswer a (hfuse ▸ h2)

/-- A register access that runs from a queue runs from Q0 or Q1. -/
theorem runs_queue {s s1 : State} {src : Src} {ops : List Nat} {n : Nat} {c : Caller} (h : Runs s src ops n s1 c) (hc : c.q.isSome = true) :
    ∃ q : CQueue, c.q = some q ∧ q.val ≠ 2 := by
  cases src with
  | window =>
    obtain ⟨-, -, rfl⟩ := h
    cases hc
  | cmd q =>
    obtain ⟨hq, w, rest, r, ses, -, -, -, -, -, -, -, -, rfl⟩ := h
    exact ⟨q, rfl, hq⟩

/-! ### A commit refused -/

/-- A write of the commit register that no right refuses commits the page as it stands. -/
theorem writeCommand_commit {s : State} {c : Caller} {page : Nat} (asked : Bool) (hr : s.writeRefusal c.role (page * 0x400 + 0x02C) 1 = .ok) :
    s.writeCommand c [commitWord page] asked = s.commitPage s c page asked := by
  have hp : (commitWord page).addr / 0x400 = page := by
    unfold commitWord
    dsimp only
    omega
  unfold State.writeCommand
  rw [writeWith_commit (w := commitWord page) (ws := []) hr (by rw [hp]; exact valueStatus_commit _ _ _) (.inr (by rw [List.any_cons, commits_commitWord]; rfl)), hp]
  simp only [List.foldl_cons, List.foldl_nil, writeReg_commit, stageReg_commit]

/-- What a commit refused for a reason other than a conflict leaves before its answer: LAST_STATUS, and through the direct window the next RSEQ (R372, R386). -/
def State.commitTurnedDown (s : State) (c : Caller) (page : Nat) (st : Status) : State :=
  let s1 := s.setLast page (stageRole page (roleCode c.role)) st
  if c.q.isNone then s1.windowSeq else s1

theorem commitPage_refused {s : State} {c : Caller} {page : Nat} {st : Status} (asked : Bool) (h : s.commitStatus (roleCode c.role) page = st)
    (hok : st ≠ .ok) (hbusy : st ≠ .resourceBusy) : s.commitPage s c page asked = (s.commitTurnedDown c page st, some (.st st)) := by
  unfold State.commitPage State.commitRefused State.commitTurnedDown
  dsimp only
  rw [h]
  split
  · exact absurd rfl hok
  · rw [if_neg hbusy]

/-- A refused commit records its status, then answers with it. -/
theorem commitVia_refused {s s1 : State} {src : Src} {page : Nat} {c : Caller} {st : Status} (hrun : Runs s src writeOps 1 s1 c)
    (hr : s1.writeRefusal c.role (page * 0x400 + 0x02C) 1 = .ok) (h : s1.commitStatus (roleCode c.role) page = st) (hok : st ≠ .ok) (hbusy : st ≠ .resourceBusy) :
    s.commitVia src page = (s1.commitTurnedDown c page st).answer c (if c.q = none then page * 0x400 + 0x02C else 0) (.st st) := by
  refine viaOps_outcome hrun (x := (s1.commitTurnedDown c page st, some (.st st))) ?_ ?_
  · rw [if_pos (runs_form hrun)]
    exact (writeCommand_commit _ hr).trans (commitPage_refused _ h hok hbusy)
  · rw [← commitPage_refused false h hok hbusy]
    exact commitPage_cmd s1 c page false

theorem kept_commitTurnedDown (s : State) (c : Caller) (page : Nat) (st : Status) :
    Kept 0xa (s.setLast page (stageRole page (roleCode c.role)) st) (s.commitTurnedDown c page st) := by
  unfold State.commitTurnedDown
  dsimp only
  split
  · exact kept_windowSeq (Kept.refl _ _)
  · exact Kept.refl _ _

theorem commitTurnedDown_queue {s : State} {c : Caller} {q : CQueue} (page : Nat) (st : Status) (h : c.q = some q) :
    s.commitTurnedDown c page st = s.setLast page (stageRole page (roleCode c.role)) st := by
  unfold State.commitTurnedDown
  rw [h]
  rfl

theorem samePages_commitTurnedDown (s : State) (c : Caller) (page : Nat) (st : Status) : SamePages s (s.commitTurnedDown c page st) [pgTwb] := by
  unfold State.commitTurnedDown
  exact SamePages.ite (SamePages.put (SamePages.of_eq rfl) _ _ _ List.mem_cons_self) (SamePages.of_eq rfl)

end Sys2Proof.Machine
end

section
/-! A staged value out of its range refuses the commit of an INP, BED or DEC page, and the statement about it (R58, R164). -/

namespace Sys2Proof.Proofs

open Sys2Proof Sys2Proof.Machine Sys2Proof.Safety

theorem kind_dec (page : Nat) (h : kindOfPage page = some .dec) : page = pgDec := by
  unfold kindOfPage at h
  simp only [ite_some, Option.some.injEq, reduceCtorEq, and_false, and_true, false_or, or_false] at h
  unfold pgDec
  omega

theorem stagedInRange_eq_false {s : State} {page role : Nat} {x : Nat × Word} (hx : x ∈ s.stagedOf page role) (hw : wordInRange x.1 x.2 = false) :
    s.stagedInRange page role = false :=
  List.all_eq_false.mpr ⟨x, hx, by rw [hw]; exact Bool.false_ne_true⟩

/-- The staging copy of an INP or BED page is one for all roles (R370, R545). -/
theorem stageRole_inp_bed {page : Nat} (role : Nat) (h : 0x010 ≤ page ∧ page ≤ 0x013 ∨ 0x020 ≤ page ∧ page ≤ 0x02B) : stageRole page role = 0 := by
  have hs : sharedPage page = false := by
    simp only [sharedPage, Bool.or_eq_false_iff, decide_eq_false_iff_not]
    unfold pgAln pgDec pgAud pgStrm
    omega
  rw [stageRole, hs]
  rfl

theorem pageStatus_inp_badArg {s : State} {role page : Nat} (hk : kindOfPage page = some .inp) (h : s.stagedInRange page (stageRole page role) = false) :
    s.pageStatus role page = .badArg := by
  have hb := kind_inp page hk
  have hp : pgInp (inpOf (page - 0x010)) = page := by
    simp only [pgInp, inpOf]
    omega
  rw [stageRole_inp_bed role (.inl hb)] at h
  unfold State.pageStatus State.inpStatus
  rw [hk, hp, h]
  exact if_pos (.inl rfl)

theorem pageStatus_bed_badArg {s : State} {role page : Nat} (hk : kindOfPage page = some .bed) (h : s.stagedInRange page (stageRole page role) = false) :
    s.pageStatus role page = .badArg := by
  have hb := kind_bed page hk
  have hlt : page - 0x020 < 12 := by omega
  have hp : pgBed ⟨page - 0x020, hlt⟩ = page := by
    simp only [pgBed]
    omega
  rw [stageRole_inp_bed role (.inr hb)] at h
  unfold State.pageStatus State.bedStatus
  rw [hk]
  dsimp only
  rw [dif_pos hlt, hp, h]
  rfl

theorem pageStatus_dec_badArg {s : State} {role page : Nat} (hk : kindOfPage page = some .dec) (h : s.stagedInRange page (stageRole page role) = false) :
    s.pageStatus role page = .badArg := by
  obtain rfl := kind_dec page hk
  have h' : s.stagedInRange pgDec role = false := h
  unfold State.pageStatus State.decStatus
  rw [hk, h']
  rfl

/-- The page's own status decides where no commit waits and the part has the time that the page's boundary needs (R61, R372). -/
theorem commitStatus_badArg {s : State} {role page : Nat} (hfree : s.pendingCommit page (stageRole page role) = false)
    (htime : kindCode page = 0 ∨ s.time.set = true) (h : s.pageStatus role page = .badArg) : s.commitStatus role page = .badArg := by
  have hset : ¬ (kindCode page ≠ 0 ∧ (!s.time.set) = true) := by
    rintro ⟨hk, ht⟩
    rcases htime with h0 | h1
    · exact hk h0
    · rw [h1] at ht
      cases ht
  unfold State.commitStatus
  rw [hfree, if_neg Bool.false_ne_true, if_neg hset, h]
  rfl

/-- Settles O54: the page's own status is BAD_ARG on each of the three kinds of page (R58, R164), nothing refuses the commit before it, and a refused commit records its status and answers. -/
theorem rangeRuleRefusesCommit : Obligations.RangeRuleRefusesCommit := by
  unfold Obligations.RangeRuleRefusesCommit
  intro s src page s1 c x hrun hright hkind hx hw hfree htime
  have hrange := stagedInRange_eq_false hx hw
  have hpage : s1.pageStatus (roleCode c.role) page = .badArg := by
    rcases hkind with hk | hk | hk
    · exact pageStatus_inp_badArg hk hrange
    · exact pageStatus_bed_badArg hk hrange
    · exact pageStatus_dec_badArg hk hrange
  have hstatus := commitStatus_badArg hfree htime hpage
  have hdone := commitVia_refused hrun hright hstatus (by decide) (by decide)
  generalize (if c.q = none then page * 0x400 + 0x02C else 0) = addr at hdone
  have hk : Kept 0x42000008a (s1.setLast page (stageRole page (roleCode c.role)) .badArg) ((s1.commitTurnedDown c page .badArg).answer c addr (.st .badArg)) :=
    kept_answer ((kept_commitTurnedDown s1 c page .badArg).mono (by decide)) c addr _
  refine ⟨_, congrArg Host.Outcome.next hdone, ?_, hk.staged rfl, hk.captured rfl, ?_, ?_, ?_⟩
  · rw [lastStatus_eq (hk.lastStatus rfl), lastStatus_setLast]
  · intro hq
    obtain ⟨q, hcq, hq2⟩ := runs_queue hrun hq
    rw [commitTurnedDown_queue page _ hcq]
    exact answered_answer addr (.st .badArg) hcq (fun e => absurd e hq2)
  · intro k hk'
    rw [samePages_answer _ _ _ _ k hk', samePages_commitTurnedDown _ _ _ _ k hk']
  · rw [hk.lastStatus rfl]
    exact hk.eq_of_answer

end Sys2Proof.Proofs
end

section
/-! SUPPORT. What a refused commit leaves whatever refused it, a resource conflict with its event among the reasons (R16, R372). -/

namespace Sys2Proof.Machine

set_option Elab.async false

open Sys2Proof.Safety

/-- A refused commit records LAST_STATUS, and besides that at most raises one event on its page. -/
theorem commitRefused_eq (s now : State) (role page : Nat) (st : Status) :
    s.commitRefused now role page st = s.setLast page (stageRole page role) st ∨
      ∃ ev owner, s.commitRefused now role page st = (s.setLast page (stageRole page role) st).raiseTo page ev owner := by
  unfold State.commitRefused
  dsimp only
  split
  · split
    · exact .inr ⟨_, _, rfl⟩
    · exact .inl rfl
  · exact .inl rfl

theorem kept_setLast_commitRefused (s now : State) (role page : Nat) (st : Status) :
    Kept 0x88 (s.setLast page (stageRole page role) st) (s.commitRefused now role page st) := by
  rcases commitRefused_eq s now role page st with h | ⟨ev, owner, h⟩
  · rw [h]
    exact Kept.refl _ _
  · rw [h]
    exact kept_raiseTo (Kept.refl _ _) page ev owner

/-- A refused commit leaves every register but RAW and PEND of its page. -/
theorem reg_commitRefused_ne (s now : State) (role page : Nat) (st : Status) {k : Nat} (hraw : k ≠ page * 0x400 + 0x010) (hpend : k ≠ page * 0x400 + 0x018) :
    (s.commitRefused now role page st).reg k = s.reg k := by
  rcases commitRefused_eq s now role page st with h | ⟨ev, owner, h⟩
  · rw [h]
    rfl
  · rw [h, reg_raiseTo_ne _ _ _ _ _ hraw hpend]
    rfl

/-- What a commit refused for any status leaves before its answer: the refusal, and through the direct window the next RSEQ (R372, R386). -/
def State.commitDenied (s : State) (c : Caller) (page : Nat) (st : Status) : State :=
  let u := s.commitRefused s (roleCode c.role) page st
  if c.q.isNone then u.windowSeq else u

theorem commitPage_denied {s : State} {c : Caller} {page : Nat} {st : Status} (asked : Bool) (h : s.commitStatus (roleCode c.role) page = st)
    (hok : st ≠ .ok) : s.commitPage s c page asked = (s.commitDenied c page st, some (.st st)) := by
  unfold State.commitPage
  dsimp only
  rw [h]
  split
  · exact absurd rfl hok
  · rfl

/-- A commit refused for any status leaves its refusal, answered. -/
theorem commitVia_denied {s s1 : State} {src : Src} {page : Nat} {c : Caller} {st : Status} (hrun : Runs s src writeOps 1 s1 c)
    (hr : s1.writeRefusal c.role (page * 0x400 + 0x02C) 1 = .ok) (h : s1.commitStatus (roleCode c.role) page = st) (hok : st ≠ .ok) :
    s.commitVia src page = (s1.commitDenied c page st).answer c (if c.q = none then page * 0x400 + 0x02C else 0) (.st st) := by
  refine viaOps_outcome hrun (x := (s1.commitDenied c page st, some (.st st))) ?_ ?_
  · rw [if_pos (runs_form hrun)]
    exact (writeCommand_commit _ hr).trans (commitPage_denied _ h hok)
  · rw [← commitPage_denied false h hok]
    exact commitPage_cmd s1 c page false

theorem commitDenied_queue {s : State} {c : Caller} {q : CQueue} (page : Nat) (st : Status) (h : c.q = some q) :
    s.commitDenied c page st = s.commitRefused s (roleCode c.role) page st := by
  unfold State.commitDenied
  rw [h]
  rfl

/-- Beside LAST_STATUS, a refused commit touches only registers, RSEQ and the queues. -/
theorem kept_commitDenied (s : State) (c : Caller) (page : Nat) (st : Status) :
    Kept 0x8a (s.setLast page (stageRole page (roleCode c.role)) st) (s.commitDenied c page st) := by
  have hk := (kept_setLast_commitRefused s s (roleCode c.role) page st).mono (m := 0x8a) (by decide)
  unfold State.commitDenied
  dsimp only
  split
  · exact kept_windowSeq hk
  · exact hk

theorem samePages_windowSeq (s : State) : SamePages s s.windowSeq [pgTwb] := SamePages.put (SamePages.of_eq rfl) _ _ _ List.mem_cons_self

/-- Of the registers outside the two-wire page, a refused commit changes none but RAW and PEND of its page. -/
theorem reg_commitDenied_ne (s : State) (c : Caller) (page : Nat) (st : Status) {k : Nat} (htwb : k / 0x400 ≠ pgTwb) (hraw : k ≠ page * 0x400 + 0x010)
    (hpend : k ≠ page * 0x400 + 0x018) : (s.commitDenied c page st).reg k = s.reg k := by
  have hu := reg_commitRefused_ne s s (roleCode c.role) page st hraw hpend
  unfold State.commitDenied
  exact reg_ite ((samePages_windowSeq _ k (by simpa using htwb)).trans hu) hu

/-- A refused commit that came on Q0 or Q1 is answered with its status, last of all. -/
theorem answered_commitDenied {s : State} {c : Caller} {q : CQueue} (page addr : Nat) (st : Status) (hq : c.q = some q) (h2 : q.val ≠ 2) :
    Answered s ((s.commitDenied c page st).answer c addr (.st st)) c st := by
  have hseq : (s.commitDenied c page st).rseq = s.rseq := by
    rw [commitDenied_queue page st hq]
    exact (kept_setLast_commitRefused s s (roleCode c.role) page st).rseq rfl
  have ha := answered_answer (s := s.commitDenied c page st) addr (.st st) hq (fun e => absurd e h2)
  unfold Answered at ha ⊢
  rw [hseq] at ha
  exact ha

/-- A commit of a page whose last commit still waits is NOT_READY (R372). -/
theorem commitStatus_pending {s : State} {role page : Nat} (h : s.pendingCommit page (stageRole page role) = true) : s.commitStatus role page = .notReady :=
  if_pos h

end Sys2Proof.Machine
end

section
/-! A refused commit, and the statement about it (R16, R372). -/

namespace Sys2Proof.Proofs

set_option Elab.async false

open Sys2Proof Sys2Proof.Machine Sys2Proof.Safety

/-- A commit refused for any status keeps the staged and the captured values, records its status and answers with it; nothing in force changes (R372). -/
theorem commit_denied {s s1 : State} {src : Src} {page : Nat} {c : Caller} {st : Status} (hrun : Runs s src writeOps 1 s1 c)
    (hright : s1.writeRefusal c.role (page * 0x400 + 0x02C) 1 = .ok) (hstatus : s1.commitStatus (roleCode c.role) page = st) (hok : st ≠ .ok) :
    ∃ t, exec (.commit src page) s = .next t ∧ t.lastStatusOf page (stageRole page (roleCode c.role)) = st ∧ t.staged = s1.staged ∧ t.captured = s1.captured ∧
      (c.q.isSome = true → Answered s1 t c st) ∧
      (∀ k, k / 0x400 ≠ pgTwb → k ≠ page * 0x400 + 0x010 → k ≠ page * 0x400 + 0x018 → t.reg k = s1.reg k) ∧
      t = { s1 with regs := t.regs, lastStatus := t.lastStatus, rseq := t.rseq, q := t.q, sec := t.sec, twb := t.twb } := by
  have hdone := commitVia_denied hrun hright hstatus hok
  generalize (if c.q = none then page * 0x400 + 0x02C else 0) = addr at hdone
  have hk : Kept 0x42000008a (s1.setLast page (stageRole page (roleCode c.role)) st) ((s1.commitDenied c page st).answer c addr (.st st)) :=
    kept_answer ((kept_commitDenied s1 c page st).mono (by decide)) c addr _
  refine ⟨_, congrArg Host.Outcome.next hdone, ?_, hk.staged rfl, hk.captured rfl, ?_, ?_, ?_⟩
  · rw [lastStatus_eq (hk.lastStatus rfl), lastStatus_setLast]
  · intro hq
    obtain ⟨q, hcq, hq2⟩ := runs_queue hrun hq
    exact answered_commitDenied page addr st hcq hq2
  · intro k htwb hraw hpend
    rw [samePages_answer _ _ _ _ k (by simpa using htwb), reg_commitDenied_ne s1 c page st htwb hraw hpend]
  · rw [hk.lastStatus rfl]
    exact hk.eq_of_answer

/-- Settles O11: a commit while one waits is refused with NOT_READY, so that the first clause is a case of the second; a refused commit only records its status, raises the event of a conflict, and answers. -/
theorem refusedCommitKeepsStaged : Obligations.RefusedCommitKeepsStaged := by
  unfold Obligations.RefusedCommitKeepsStaged
  refine ⟨?_, fun _ _ _ _ _ _ => commit_denied⟩
  intro s src page s1 c hrun hright hpending
  obtain ⟨t, hexec, hlast, hstaged, hcaptured, hanswered, -, -⟩ := commit_denied hrun hright (commitStatus_pending hpending) (by decide)
  exact ⟨t, hexec, hstaged, hcaptured, hlast, hanswered⟩

end Sys2Proof.Proofs
end
